-- ==== Sys2Proof/Word.lean ====
section
/-! DEFINITION. The word types of the KG940 and their plainest arithmetic. -/

namespace Sys2Proof

/-- One byte of memory (R6). -/
abbrev Byte := BitVec 8

/-- One slice of a thread's register file, four bits (R185). -/
abbrev Nib := BitVec 4

/-- A 64-bit scalar, view or system register (R189). -/
abbrev W64 := BitVec 64

/-- x<hi:lo> of R5, of an unsigned number. -/
def bits (x hi lo : Nat) : Nat := x / 2 ^ lo % 2 ^ (hi + 1 - lo)

/-- One bit of an unsigned number. -/
def bit (x i : Nat) : Bool := x / 2 ^ i % 2 == 1

/-- Bits(v, n) of R250: the low n bits of an integer, in two's complement. -/
def lowBits (v : Int) (n : Nat) : Nat := (v % (2 ^ n : Nat)).toNat

/-- SInt of R250: an n-bit string read as a two's-complement integer. -/
def sInt (n x : Nat) : Int := if x / 2 ^ (n - 1) % 2 = 1 then (x : Int) - (2 ^ n : Nat) else x

/-- Clamp(v, lo, hi) of R250. -/
def clampInt (v lo hi : Int) : Int := if v < lo then lo else if hi < v then hi else v

end Sys2Proof
end

