-- ==== Sys2Proof/Machine/Float.lean ====
section
/-! DEFINITION. Number formats and rounding (spec/09): values of the float formats, one exact rounding,
the conversions, the error-feedback narrowing, the seeds and the transcendental functions. All exact
arithmetic is on integers and fractions of integers. -/

namespace Sys2Proof

/-- The float formats of R204, in the code order of R264. -/
inductive Fmt where
  | f32
  | f16
  | bf16
  | e4m3
  | e5m2
  | e8m0
deriving DecidableEq, Repr

/-- The rounding modes of R209, in code order. -/
inductive RMode where
  | rne
  | rz
  | ru
  | rd
deriving DecidableEq, Repr

/-- The mode of a 2-bit code (R209). -/
def rmodeOf (c : Nat) : RMode :=
  match c % 4 with
  | 0 => .rne
  | 1 => .rz
  | 2 => .ru
  | _ => .rd

/-- The format of a conversion code (R264); codes 6 and 7 are refused before. -/
def fmtOf (c : Nat) : Fmt :=
  match c with
  | 0 => .f32
  | 1 => .f16
  | 2 => .bf16
  | 3 => .e4m3
  | 4 => .e5m2
  | _ => .e8m0

/-- The width of a format in slices (R204). -/
def fmtSlices (F : Fmt) : Nat :=
  match F with
  | .f32 => 8
  | .f16 => 4
  | .bf16 => 4
  | .e4m3 => 2
  | .e5m2 => 2
  | .e8m0 => 2

/-- Bits of the fraction field (R204). -/
def fracBits (F : Fmt) : Nat :=
  match F with
  | .f32 => 23
  | .f16 => 10
  | .bf16 => 7
  | .e4m3 => 3
  | .e5m2 => 2
  | .e8m0 => 0

/-- Bits of the exponent field (R204). -/
def expBits (F : Fmt) : Nat :=
  match F with
  | .f32 => 8
  | .f16 => 5
  | .bf16 => 8
  | .e4m3 => 4
  | .e5m2 => 5
  | .e8m0 => 8

/-- Exponent bias (R204). -/
def fmtBias (F : Fmt) : Nat :=
  match F with
  | .f32 => 127
  | .f16 => 15
  | .bf16 => 127
  | .e4m3 => 7
  | .e5m2 => 15
  | .e8m0 => 127

/-- The canonical NaN (R206, R207, R208). -/
def canonNan (F : Fmt) : Nat :=
  match F with
  | .f32 => 0x7FC00000
  | .f16 => 0x7E00
  | .bf16 => 0x7FC0
  | .e4m3 => 0x7F
  | .e5m2 => 0x7E
  | .e8m0 => 0xFF

/-- The bits of +max: the largest finite value (R206, R207). -/
def maxBits (F : Fmt) : Nat :=
  match F with
  | .f32 => 0x7F7FFFFF
  | .f16 => 0x7BFF
  | .bf16 => 0x7F7F
  | .e4m3 => 0x7E
  | .e5m2 => 0x7B
  | .e8m0 => 0xFE

/-- The bits of +infinity; .e4m3 has none (R207). -/
def infBits (F : Fmt) : Nat :=
  match F with
  | .f32 => 0x7F800000
  | .f16 => 0x7C00
  | .bf16 => 0x7F80
  | .e4m3 => 0x7E
  | .e5m2 => 0x7C
  | .e8m0 => 0xFE

/-- The sign bit set on a pattern of a format, when neg holds. -/
def withSign (F : Fmt) (neg : Bool) (x : Nat) : Nat :=
  if neg then x + 2 ^ (expBits F + fracBits F) else x

/-- A float value: (-1)^neg * m * 2^e, an infinity, or NaN. A zero keeps its sign. -/
inductive FVal where
  | nan
  | inf (neg : Bool)
  | fin (neg : Bool) (m : Nat) (e : Int)
deriving DecidableEq, Repr

/-- Val(x, F) of R250, by R204 to R208. -/
def valOf (F : Fmt) (x : Nat) : FVal :=
  if F = .e8m0 then
    if x % 256 = 255 then .nan else .fin false 1 ((x % 256 : Nat) - 127)
  else
    let fb := fracBits F
    let f := x % 2 ^ fb
    let ex := x / 2 ^ fb % 2 ^ expBits F
    let s := x / 2 ^ (fb + expBits F) % 2 == 1
    let low : Int := 1 - (fmtBias F : Int) - fb
    if ex = 2 ^ expBits F - 1 ∧ F ≠ .e4m3 then if f = 0 then .inf s else .nan
    else if F = .e4m3 ∧ ex = 15 ∧ f = 7 then .nan
    else if ex = 0 then .fin s f low
    else .fin s (2 ^ fb + f) (low + ex - 1)

/-- floor(log2(n / d)) of a positive fraction. -/
def log2Q (n d : Nat) : Int :=
  let k : Int := (Nat.log2 n : Int) - Nat.log2 d
  if k < 0 then (if n * 2 ^ k.natAbs < d then k - 1 else k)
  else (if n < d * 2 ^ k.natAbs then k - 1 else k)

/-- The integer that the mode selects for the fraction n / d with a sign (R209). -/
def roundNat (mode : RMode) (neg : Bool) (n d : Nat) : Nat :=
  let q := n / d
  let r := n % d
  match mode with
  | .rne => if 2 * r < d then q else if d < 2 * r then q + 1 else q + q % 2
  | .rz => q
  | .ru => if r = 0 ∨ neg then q else q + 1
  | .rd => if r = 0 ∨ ¬ neg then q else q + 1

/-- What an overflow gives under R209 step 1. -/
def overflowBits (F : Fmt) (mode : RMode) (sat neg : Bool) : Nat :=
  let toMax := sat || F == .e4m3 || match mode with
    | .rne => false
    | .rz => true
    | .ru => neg
    | .rd => !neg
  withSign F neg (if toMax then maxBits F else infBits F)

/-- The bits of the finite value r * 2^q of format F, where q is F's quantum for it; overflow by R209. -/
def packFinite (F : Fmt) (mode : RMode) (sat neg : Bool) (r : Nat) (q : Int) : Nat :=
  let fb := fracBits F
  let r' := if 2 ^ (fb + 1) ≤ r then r / 2 else r
  let q' := if 2 ^ (fb + 1) ≤ r then q + 1 else q
  if r' < 2 ^ fb then withSign F neg r'
  else
    let field := (q' + fb + fmtBias F).toNat
    let x := field * 2 ^ fb + (r' - 2 ^ fb)
    if maxBits F < x then overflowBits F mode sat neg else withSign F neg x

/-- RoundToFormat of R209, of the exact real (-1)^neg * n / d with d positive. -/
def roundFrac (F : Fmt) (mode : RMode) (sat neg : Bool) (n d : Nat) : Nat :=
  if n = 0 then withSign F neg 0
  else
    let low : Int := 1 - (fmtBias F : Int) - fracBits F
    let q := max (log2Q n d - fracBits F) low
    let r := if q < 0 then roundNat mode neg (n * 2 ^ q.natAbs) d
      else roundNat mode neg n (d * 2 ^ q.natAbs)
    packFinite F mode sat neg r q

/-- A conversion to .e8m0 (R211). -/
def roundE8m0 (mode : RMode) (v : FVal) : Nat :=
  match v with
  | .nan => 255
  | .inf neg => if neg then 255 else 254
  | .fin neg m e =>
    if neg ∨ m = 0 then 255
    else
      let k : Int := (Nat.log2 m : Int) + e
      let up := match mode with
        | .ru => m != 2 ^ Nat.log2 m
        | .rd => false
        | .rz => false
        | .rne => decide (3 * 2 ^ Nat.log2 m ≤ 2 * m)
      (clampInt (if up then k + 1 else k) (-127) 127 + 127).toNat

/-- Every value of a format is one of another's: a conversion that widens is exact (R211). -/
def widens (F T : Fmt) : Bool := F != T && decide (fracBits F ≤ fracBits T) && decide (expBits F ≤ expBits T)

/-- RoundToFormat of a value, with the specials of R210 and R211. -/
def roundVal (F : Fmt) (mode : RMode) (sat : Bool) (v : FVal) : Nat :=
  if F = .e8m0 then roundE8m0 mode v
  else
    match v with
    | .nan => canonNan F
    | .inf neg => withSign F neg (if sat || F == .e4m3 then maxBits F else infBits F)
    | .fin neg m e =>
      if e < 0 then roundFrac F mode sat neg m (2 ^ e.natAbs) else roundFrac F mode sat neg (m * 2 ^ e.natAbs) 1

/-- Negation of a value. -/
def negVal (v : FVal) : FVal :=
  match v with
  | .nan => .nan
  | .inf s => .inf (!s)
  | .fin s m e => .fin (!s) m e

/-- The signed integer m * 2^(e - b) for b at most e. -/
def scaleInt (neg : Bool) (m : Nat) (e b : Int) : Int :=
  let x : Int := m * 2 ^ (e - b).toNat
  if neg then -x else x

/-- Exact addition (R210), with the zero signs of R209 step 2 under the mode. -/
def addVal (mode : RMode) (x y : FVal) : FVal :=
  match x, y with
  | .nan, _ => .nan
  | _, .nan => .nan
  | .inf s, .inf t => if s = t then .inf s else .nan
  | .inf s, _ => .inf s
  | _, .inf t => .inf t
  | .fin s m e, .fin t n f =>
    let b := min e f
    let z := scaleInt s m e b + scaleInt t n f b
    if z = 0 then (if m = 0 ∧ n = 0 ∧ s = t then .fin s 0 b else .fin (mode = .rd) 0 b)
    else .fin (z < 0) z.natAbs b

/-- Exact multiplication (R210). -/
def mulVal (x y : FVal) : FVal :=
  match x, y with
  | .nan, _ => .nan
  | _, .nan => .nan
  | .inf s, .inf t => .inf (s != t)
  | .inf s, .fin t n _ => if n = 0 then .nan else .inf (s != t)
  | .fin s m _, .inf t => if m = 0 then .nan else .inf (s != t)
  | .fin s m e, .fin t n f => .fin (s != t) (m * n) (e + f)

/-- Division rounded once (R258). -/
def divBits (F : Fmt) (mode : RMode) (x y : FVal) : Nat :=
  match x, y with
  | .nan, _ => canonNan F
  | _, .nan => canonNan F
  | .inf _, .inf _ => canonNan F
  | .inf s, .fin t _ _ => withSign F (s != t) (infBits F)
  | .fin s _ _, .inf t => withSign F (s != t) 0
  | .fin s m e, .fin t n f =>
    if n = 0 then (if m = 0 then canonNan F else withSign F (s != t) (infBits F))
    else
      let k := e - f
      if k < 0 then roundFrac F mode false (s != t) m (n * 2 ^ k.natAbs)
      else roundFrac F mode false (s != t) (m * 2 ^ k.natAbs) n

/-- x < y of two values that are not NaN; -0 and +0 are equal. -/
def ltVal (x y : FVal) : Bool :=
  match x, y with
  | .nan, _ => false
  | _, .nan => false
  | .inf s, .inf t => s && !t
  | .inf s, _ => s
  | _, .inf t => !t
  | .fin s m e, .fin t n f =>
    let b := min e f
    decide (scaleInt s m e b < scaleInt t n f b)

/-- The value is NaN. -/
def isNan (v : FVal) : Bool :=
  match v with
  | .nan => true
  | .inf _ => false
  | .fin _ _ _ => false

/-- The value is neither NaN nor infinite. -/
def isFinite (v : FVal) : Bool :=
  match v with
  | .nan => false
  | .inf _ => false
  | .fin _ _ _ => true

/-- x = y as values: -0 = +0, NaN equals nothing. -/
def eqVal (x y : FVal) : Bool := !isNan x && !isNan y && !ltVal x y && !ltVal y x

/-- x is below y in the order of FMIN and FMAX, with -0 below +0 (R210). -/
def belowVal (x y : FVal) : Bool :=
  ltVal x y || match x, y with
    | .fin s 0 _, .fin t 0 _ => s && !t
    | _, _ => false

/-- FMIN and FMAX on bit patterns (R210, R258). -/
def minMaxBits (F : Fmt) (isMax : Bool) (x y : Nat) : Nat :=
  let vx := valOf F x
  let vy := valOf F y
  if isNan vx && isNan vy then canonNan F
  else if isNan vx then y
  else if isNan vy then x
  else if isMax then (if belowVal vx vy then y else x)
  else (if belowVal vy vx then y else x)

/-- RN32 of R209. -/
def rn32 (v : FVal) : Nat := roundVal .f32 .rne false v

/-- The .f32 value of a pattern. -/
def v32 (x : Nat) : FVal := valOf .f32 x

/-- RN32(x + y) on patterns. -/
def add32 (x y : Nat) : Nat := rn32 (addVal .rne (v32 x) (v32 y))

/-- RN32(x - y) on patterns. -/
def sub32 (x y : Nat) : Nat := rn32 (addVal .rne (v32 x) (negVal (v32 y)))

/-- RN32(x * y) on patterns. -/
def mul32 (x y : Nat) : Nat := rn32 (mulVal (v32 x) (v32 y))

/-- FMA on patterns: one rounding of x * y + z (R210). -/
def fma32 (x y z : Nat) : Nat := rn32 (addVal .rne (mulVal (v32 x) (v32 y)) (v32 z))

/-- RN32(x / y) on patterns. -/
def div32 (x y : Nat) : Nat := divBits .f32 .rne (v32 x) (v32 y)

/-- The sign bit inverted. -/
def neg32 (x : Nat) : Nat := if x / 2147483648 % 2 = 1 then x - 2147483648 else x + 2147483648

/-- A signed integer as .f32, rounded by RNE. -/
def intTo32 (k : Int) : Nat := rn32 (.fin (k < 0) k.natAbs 0)

/-- A decimal constant n / 10^k as .f32 (the coefficients of R218 to R222). -/
def dec32 (neg : Bool) (n k : Nat) : Nat := roundFrac .f32 .rne false neg n (10 ^ k)

/-- The .f32 pattern of 1.0. -/
def one32 : Nat := 0x3F800000

/-- ErrorFeedbackNarrow of R212: the narrowed pattern and the new residue. -/
def errorFeedback (F : Fmt) (x e : Nat) : Nat × Nat :=
  let t := add32 x e
  let y := roundVal F .rne true (v32 t)
  if isFinite (v32 t) then (y, rn32 (addVal .rne (v32 t) (negVal (valOf F y)))) else (y, 0)

/-- The integer that the mode selects for a finite value (R259 FRINT, R264 CVTFI). -/
def roundInt (mode : RMode) (neg : Bool) (m : Nat) (e : Int) : Int :=
  let k : Nat := if e < 0 then roundNat mode neg m (2 ^ e.natAbs) else m * 2 ^ e.natAbs
  if neg then -(k : Int) else k

/-- FRINT (R259). -/
def frintBits (F : Fmt) (mode : RMode) (x : Nat) : Nat :=
  match valOf F x with
  | .nan => canonNan F
  | .inf _ => x
  | .fin neg m e => if m = 0 then x else roundVal F mode false (.fin neg (roundInt mode neg m e).natAbs 0)

/-- FCLASS (R259): exactly one bit of the mask. -/
def fclassMask (F : Fmt) (x : Nat) : Nat :=
  match valOf F x with
  | .nan => 256
  | .inf neg => if neg then 1 else 128
  | .fin neg m _ =>
    if m = 0 then (if neg then 8 else 16)
    else if m < 2 ^ fracBits F then (if neg then 4 else 32)
    else (if neg then 2 else 64)

/-- Float to integer of n bits (R211, R264): NaN gives 0. -/
def toIntClamped (mode : RMode) (uns : Bool) (n : Nat) (v : FVal) : Nat :=
  let lo : Int := if uns then 0 else -(2 ^ (n - 1) : Nat)
  let hi : Int := if uns then (2 ^ n : Nat) - 1 else (2 ^ (n - 1) : Nat) - 1
  match v with
  | .nan => 0
  | .inf neg => lowBits (if neg then lo else hi) n
  | .fin neg m e => lowBits (clampInt (roundInt mode neg m e) lo hi) n

/-- RecipTable of R218. -/
def recipTable (i : Nat) : Nat := (2 ^ 18 + (257 + 2 * i)) / (2 * (257 + 2 * i))

/-- floor(log2 m) and the fraction f of R218's preamble, as m = 2^l * (1 + f): the pair (l, m - 2^l). -/
def splitMant (m : Nat) : Nat × Nat := (Nat.log2 m, m - 2 ^ Nat.log2 m)

/-- RecipSeed (R218). -/
def recipSeed (x : Nat) : Nat :=
  match v32 x with
  | .nan => canonNan .f32
  | .inf neg => withSign .f32 neg 0
  | .fin neg m e =>
    if m = 0 then withSign .f32 neg (infBits .f32)
    else
      let l := (splitMant m).1
      let i := (splitMant m).2 * 128 / 2 ^ l
      rn32 (.fin neg (recipTable i) (-((l : Int) + e) - 9))

/-- Integer square root by bits, from bit k downward. -/
def sqrtBits : Nat → Nat → Nat → Nat
  | 0, acc, _ => acc
  | k + 1, acc, x =>
    if (acc + 2 ^ k) * (acc + 2 ^ k) ≤ x then sqrtBits k (acc + 2 ^ k) x else sqrtBits k acc x

/-- RsqrtTable of R219, by the exact comparison (2k - 1)^2 * y <= 2^20. -/
def rsqrtTable (i : Nat) : Nat := (sqrtBits 14 0 (2 ^ 27 / ((129 + 2 * (i % 64)) * 2 ^ (i / 64))) + 1) / 2

/-- RsqrtSeed (R219). -/
def rsqrtSeed (x : Nat) : Nat :=
  match v32 x with
  | .nan => canonNan .f32
  | .inf neg => if neg then canonNan .f32 else 0
  | .fin neg m e =>
    if m = 0 then withSign .f32 neg (infBits .f32)
    else if neg then canonNan .f32
    else
      let l := (splitMant m).1
      let u : Int := (l : Int) + e
      let b := (u % 2).toNat
      let i := b * 64 + (splitMant m).2 * 64 / 2 ^ l
      rn32 (.fin false (rsqrtTable i) (-(u - b) / 2 - 9))

/-- Horner's evaluation with FMA, from the highest coefficient (R220 to R222). -/
def horner32 (z : Nat) (acc : Nat) (cs : List Nat) : Nat :=
  match cs with
  | [] => acc
  | c :: rest => horner32 z (fma32 acc z c) rest

/-- Fex2Value (R220). -/
def fex2Value (x : Nat) : Nat :=
  match v32 x with
  | .nan => canonNan .f32
  | .inf neg => if neg then 0 else infBits .f32
  | .fin neg m e =>
    let lim : FVal := .fin false 192 0
    if ltVal lim (.fin neg m e) then infBits .f32
    else if ltVal (.fin neg m e) (negVal lim) then 0
    else
      let n := roundInt .rne neg m e
      let g := rn32 (addVal .rne (.fin neg m e) (.fin (0 < n) n.natAbs 0))
      let p := horner32 g (dec32 false 15403530393381608 20)
        [dec32 false 13333558146428443 19, dec32 false 9618129107628477 18, dec32 false 5550410866482158 17,
         dec32 false 2402265069591007 16, dec32 false 6931471805599453 16, one32]
      rn32 (mulVal (v32 p) (.fin false 1 n))

/-- Flg2Value (R221). -/
def flg2Value (x : Nat) : Nat :=
  match v32 x with
  | .nan => canonNan .f32
  | .inf neg => if neg then canonNan .f32 else infBits .f32
  | .fin neg m e =>
    if m = 0 then withSign .f32 true (infBits .f32)
    else if neg then canonNan .f32
    else
      let l := (splitMant m).1
      let root := v32 (dec32 false 14142135623730951 16)
      let m1 : FVal := .fin false m (-(l : Int))
      let big := !ltVal m1 root
      let mm : FVal := if big then .fin false m (-(l : Int) - 1) else m1
      let v : Int := (l : Int) + e + (if big then 1 else 0)
      let one : FVal := .fin false 1 0
      let s := divBits .f32 .rne (addVal .rne mm (negVal one)) (addVal .rne mm one)
      let z := mul32 s s
      let q := horner32 z (dec32 false 320598897975325 15)
        [dec32 false 412198583111132 15, dec32 false 577078016355585 15, dec32 false 961796693925976 15,
         dec32 false 2885390081777927 15]
      fma32 s q (intTo32 v)

/-- floor(pi * 2^512). DEDUCED: every reduction of R222 is decided by these bits (assumption log). -/
def piBits : Nat := 0x3243f6a8885a308d313198a2e03707344a4093822299f31d0082efa98ec4e6c89452821e638d01377be5466cf34e90c6cc0ac29b7c97c50dd3f84d5b5b5470917

/-- Reduce of R222: k mod 4 and the rounded exact difference. -/
def reduceAngle (neg : Bool) (m : Nat) (e : Int) : Nat × Nat :=
  let n := if e < 0 then m else m * 2 ^ e.natAbs
  let d := if e < 0 then 2 ^ e.natAbs else 1
  let k := (n * 2 ^ 514 + d * piBits) / (2 * (d * piBits))
  let diff : Int := ((n * 2 ^ 513 : Nat) : Int) - ((k * piBits * d : Nat) : Int)
  let a := roundFrac .f32 .rne false ((diff < 0) != neg) diff.natAbs (d * 2 ^ 513)
  (if neg then (4 - k % 4) % 4 else k % 4, a)

/-- SinPoly of R222. -/
def sinPoly (a : Nat) : Nat :=
  let z := mul32 a a
  let p := horner32 z (dec32 false 2755731922398589 21)
    [dec32 true 1984126984126984 19, dec32 false 8333333333333333 18, dec32 true 16666666666666666 17]
  fma32 (mul32 z a) p a

/-- CosPoly of R222. -/
def cosPoly (a : Nat) : Nat :=
  let z := mul32 a a
  horner32 z (dec32 true 2755731922398589 22)
    [dec32 false 248015873015873 19, dec32 true 1388888888888889 18, dec32 false 41666666666666664 18,
     dec32 true 5 1, one32]

/-- SinValue (R222). -/
def sinValue (x : Nat) : Nat :=
  match v32 x with
  | .nan => canonNan .f32
  | .inf _ => canonNan .f32
  | .fin neg m e =>
    if m = 0 then x
    else
      let a := (reduceAngle neg m e).2
      match (reduceAngle neg m e).1 with
      | 0 => sinPoly a
      | 1 => cosPoly a
      | 2 => neg32 (sinPoly a)
      | _ => neg32 (cosPoly a)

/-- CosValue (R222). -/
def cosValue (x : Nat) : Nat :=
  match v32 x with
  | .nan => canonNan .f32
  | .inf _ => canonNan .f32
  | .fin neg m e =>
    if m = 0 then one32
    else
      let a := (reduceAngle neg m e).2
      match (reduceAngle neg m e).1 with
      | 0 => cosPoly a
      | 1 => neg32 (sinPoly a)
      | 2 => neg32 (cosPoly a)
      | _ => sinPoly a

end Sys2Proof
end

