-- ==== Sys2Proof/Machine/Arith.lean ====
section
/-! DEFINITION. Integer arithmetic on elements (R204, R205, R250), the forming of elements and the widening of
sources (R187, R188, R227), and the element operations of the integer and bit instructions (R256 to R263). -/

namespace Sys2Proof.Machine

open Sys2Proof

/-! ### Elements and widening -/

/-- Elem of R250: element j of e slices. -/
def elem (e v j : Nat) : Nat := v / 16 ^ (e * j) % 16 ^ e

/-- The n elements of a value, element 0 first (R187). -/
def elems (e n v : Nat) : List Nat := (List.range n).map (elem e v)

/-- The value that elements of e slices make, element 0 lowest (R187). -/
def joinElems (e : Nat) (xs : List Nat) : Nat :=
  match xs with
  | [] => 0
  | x :: rest => x % 16 ^ e + 16 ^ e * joinElems e rest

/-- Copies of a source of w slices, the first lowest, as many as the last argument (R188, REP). -/
def repeatSource (v w : Nat) : Nat → Nat
  | 0 => 0
  | n + 1 => v + 16 ^ w * repeatSource v w n

/-- Widen of R250: a source of ws slices made wd slices wide under the modifier (R188). -/
def widen (ext v ws wd : Nat) : Nat :=
  match ext with
  | 2 => lowBits (sInt (4 * ws) v) (4 * wd)
  | 3 => repeatSource v ws 16 % 16 ^ wd
  | _ => v % 16 ^ wd

/-- Widths that the modifier allows (R188). -/
def widenOk (ext ws wd : Nat) : Bool := decide (ws = wd) || (decide (ws < wd) && ext != 0)

/-- The 4-slice source that an immediate makes (R227). -/
def immSource (ext imm : Nat) : Nat := if (ext = 2 ∨ ext = 3) ∧ bit imm 13 = true then imm + 49152 else imm

/-- An immediate made a source of wd slices (R227). -/
def widenImm (ext imm wd : Nat) : Nat :=
  if wd ≤ 4 then immSource ext imm % 16 ^ wd else widen ext (immSource ext imm) 4 wd

/-- A destination width that an immediate reaches (R227). -/
def immOk (ext wd : Nat) : Bool := decide (wd ≤ 4) || ext != 0

/-! ### Integer operations on n-bit elements -/

/-- Saturation to the range of R204. -/
def clampTo (n : Nat) (uns : Bool) (v : Int) : Nat :=
  if uns then lowBits (clampInt v 0 ((2 ^ n : Nat) - 1)) n
  else lowBits (clampInt v (-(2 ^ (n - 1) : Nat)) ((2 ^ (n - 1) : Nat) - 1)) n

/-- An element as the integer that its signedness gives. -/
def intOf (n : Nat) (uns : Bool) (x : Nat) : Int := if uns then (x : Int) else sInt n x

/-- The quotient of R205. -/
def divElem (n : Nat) (uns : Bool) (x y : Nat) : Nat :=
  if uns then (if y = 0 then 2 ^ n - 1 else x / y)
  else if y = 0 then (if sInt n x < 0 then 2 ^ (n - 1) else 2 ^ (n - 1) - 1)
  else lowBits ((sInt n x).tdiv (sInt n y)) n

/-- The remainder of R205. -/
def remElem (n : Nat) (uns : Bool) (x y : Nat) : Nat :=
  if uns then (if y = 0 then x else x % y)
  else if y = 0 then x
  else lowBits ((sInt n x).tmod (sInt n y)) n

/-- The high half of a product (R254, R256). -/
def mulhElem (n : Nat) (uns : Bool) (x y : Nat) : Nat :=
  lowBits ((intOf n uns x * intOf n uns y) / (2 ^ n : Nat)) n

/-- The smaller or the larger element. -/
def minMaxElem (n : Nat) (uns isMax : Bool) (x y : Nat) : Nat :=
  if (intOf n uns x < intOf n uns y) = !isMax then x else y

/-- A shift left; 0 for an amount of n or more (R254, R260). -/
def shlElem (n x k : Nat) : Nat := if n ≤ k then 0 else x * 2 ^ k % 2 ^ n

/-- A logical shift right (R254, R260). -/
def shrElem (n x k : Nat) : Nat := if n ≤ k then 0 else x / 2 ^ k

/-- An arithmetic shift right (R254, R260). -/
def shaElem (n x k : Nat) : Nat := lowBits (sInt n x / (2 ^ min k n : Nat)) n

/-- A rotation left by k mod n (R260). -/
def rotElem (n x k : Nat) : Nat := (x * 2 ^ (k % n) + x / 2 ^ (n - k % n)) % 2 ^ n

/-- The complement of an n-bit element. -/
def notElem (n x : Nat) : Nat := 2 ^ n - 1 - x % 2 ^ n

/-- How many of the low n bits are 1. -/
def popCount (x : Nat) : Nat → Nat
  | 0 => 0
  | n + 1 => x % 2 + popCount (x / 2) n

/-- Leading zeros of an n-bit element (R255, R261). -/
def clzElem (n x : Nat) : Nat := if x = 0 then n else n - 1 - Nat.log2 x

/-- An element with its n bits reversed (R261). -/
def revElem (x acc : Nat) : Nat → Nat
  | 0 => acc
  | n + 1 => revElem (x / 2) (2 * acc + x % 2) n

/-- ABS of R257. -/
def absElem (n x : Nat) : Nat := lowBits (sInt n x).natAbs n

/-- NEG of R257. -/
def negElem (n x : Nat) : Nat := lowBits (-(sInt n x)) n

/-- ABSD of R257. -/
def absdElem (n : Nat) (uns : Bool) (x y : Nat) : Nat := lowBits (intOf n uns x - intOf n uns y).natAbs n

/-- ZIP of R263 on granules of g slices. -/
def zipVal (g n a b : Nat) : Nat :=
  joinElems g ((List.range n).flatMap (fun j => [elem g a j, elem g b j]))

/-- UNZIP of R263 on granules of g slices; h is half their number. -/
def unzipVal (g h a : Nat) : Nat :=
  joinElems g ((List.range h).map (fun j => elem g a (2 * j)) ++ (List.range h).map (fun j => elem g a (2 * j + 1)))

/-- AtomOp of R287 for the integer and bitwise operations and the float ones, on n bits. -/
def atomOp (op n m x : Nat) : Nat :=
  match op with
  | 0 => x
  | 1 => (m + x) % 2 ^ n
  | 2 => m &&& x
  | 3 => m ||| x
  | 4 => m ^^^ x
  | 5 => minMaxElem n false false m x
  | 6 => minMaxElem n true false m x
  | 7 => minMaxElem n false true m x
  | 8 => minMaxElem n true true m x
  | 9 => add32 m x
  | 10 => minMaxBits .f32 false m x
  | _ => minMaxBits .f32 true m x

/-! ### Comparison of elements (R268) -/

/-- CMP on integers: COND 0 to 5. -/
def cmpInt (cond n : Nat) (uns : Bool) (x y : Nat) : Bool :=
  match cond with
  | 0 => x == y
  | 1 => x != y
  | 2 => decide (intOf n uns x < intOf n uns y)
  | 3 => decide (intOf n uns x ≤ intOf n uns y)
  | 4 => decide (intOf n uns y < intOf n uns x)
  | _ => decide (intOf n uns y ≤ intOf n uns x)

/-- FCMP: COND 0 to 7. -/
def cmpFloat (cond : Nat) (F : Fmt) (x y : Nat) : Bool :=
  let a := valOf F x
  let b := valOf F y
  match cond with
  | 0 => eqVal a b
  | 1 => !eqVal a b
  | 2 => ltVal a b
  | 3 => ltVal a b || eqVal a b
  | 4 => ltVal b a
  | 5 => ltVal b a || eqVal a b
  | 6 => isNan a || isNan b
  | _ => !isNan a && !isNan b

/-! ### Reductions (R271) -/

/-- Combine of R271 for one pair of elements. -/
def combine (flt uns : Bool) (op nib n x y : Nat) : Nat :=
  if flt then
    let F := fmtOf (nib / 4)
    match op with
    | 0 => roundVal F (rmodeOf nib) false (addVal (rmodeOf nib) (valOf F x) (valOf F y))
    | 1 => minMaxBits F false x y
    | _ => minMaxBits F true x y
  else
    match op with
    | 0 => (x + y) % 2 ^ n
    | 1 => minMaxElem n uns false x y
    | 2 => minMaxElem n uns true x y
    | 3 => x &&& y
    | 4 => x ||| y
    | _ => x ^^^ y

/-- The identity of an exclusive SCAN (R271). -/
def scanIdentity (flt uns : Bool) (op nib n : Nat) : Nat :=
  if flt then
    let F := fmtOf (nib / 4)
    match op with
    | 0 => 0
    | 1 => infBits F
    | _ => withSign F true (infBits F)
  else
    match op with
    | 1 => if uns then 2 ^ n - 1 else 2 ^ (n - 1) - 1
    | 2 => if uns then 0 else 2 ^ (n - 1)
    | 3 => 2 ^ n - 1
    | _ => 0

/-- The running combinations of a list of operands, element by element: what each lane of an inclusive SCAN gets.
The first one passes as it is, a NaN with its payload (R271, log entry 83). -/
def runCombine (f : Nat → Nat → Nat) (e n : Nat) (acc : Option Nat) (xs : List Nat) : List Nat :=
  match xs with
  | [] => []
  | x :: rest =>
    let here := match acc with
      | none => x
      | some a => joinElems e (List.zipWith f (elems e n a) (elems e n x))
    here :: runCombine f e n (some here) rest

end Sys2Proof.Machine
end

