-- ==== Sys2Proof/Config.lean ====
section
/-! DEFINITION. What an implementation fixes and the spec leaves open: free values (opaque constants with no
body, applied to the free-value counter of the state or to the operands they depend on), and the values that a
board or a factory fixes. Each is named in notes/assumptions. -/

namespace Sys2Proof.Config

/-- R197: whether a read inside the window of a long-class result shows that result. The arguments are the free-value
counter, the thread (its group key times 512 plus its number), and the slice, or 1,024 plus the predicate, with 2,048 times the
operand of the word: the choice is made separately for each slice of an operand. -/
opaque window : Nat → Nat → Nat → Bool

/-- R127: whether the word at a place is executed as it stands in memory, where a copy held by a cache has the word as it was
before a change. -/
opaque newCode : Nat → Nat → Bool

/-- R238: whether a translator, named by its digest, sets bit 63 on a code word that needs no marker. -/
opaque translatorMark : Nat → Nat → Bool

/-- R192: which of the values that a group register had since a wave's last ordering the wave reads where nothing orders a later
write before its read. The arguments are DT, the wave and the register. -/
opaque earlier : Nat → Nat → Nat → Nat

/-- R340: bytes 0 to 7 of a node that was freed, byte by byte. -/
opaque freedByte : Nat → Nat → Byte

/-- R302, R315: whether an element that an unordered read or an abandoned operation touches shows the new value. -/
opaque newElement : Nat → Nat → Bool

/-- R403: microjoules counted in one update by cluster k. -/
opaque energyStep : Nat → Nat → Nat

/-- R440: the signature of a scan test of a core with a pattern. -/
opaque scanSignature : Nat → Nat → Nat

/-- R400: by how many fortieths of a cycle per ns a droop slows a cluster clock, which it stretches by up to twice its period. The
arguments are DT and the cluster. -/
opaque stretch : Nat → Nat → Nat

/-- R442: the signature that a sound core gives to a scan pattern. -/
opaque goldenSignature : Nat → Nat → Nat

/-- R85: the failing rows that the built-in test of a vault finds at a cold start. -/
opaque failingRows : Nat → Nat → List Nat

/-- R87: whether a subchannel passes its training at a cold start. -/
opaque trains : Nat → Nat → Bool

/-- R78: the bytes that memory holds for a dirty line that the L2 has lost. -/
opaque staleByte : Nat → Nat → Byte

/-- What memory holds of the capability tag of a granule whose dirty line the L2 has lost, and of the poison of a word there (R78): by
the free-value counter and the granule or word. -/
opaque staleMark : Nat → Nat → Bool

/-- R248: the bytes of the ML-DSA-65 public key that the device holds for a KEYID. -/
opaque publicKey : Nat → List Nat

/-- R411: the signature bytes that the device identity key makes over a report. -/
opaque deviceSignature : List Nat → List Nat

/-- R14: the cores that passed factory test. DESIGN CHOICE: all 128. -/
def fusedCoresLo : Nat := 2 ^ 64 - 1

/-- R14: the cores that passed factory test. DESIGN CHOICE: all 128. -/
def fusedCoresHi : Nat := 2 ^ 64 - 1

/-- R86: the installed capacity of external DRAM in bytes. DESIGN CHOICE: 8 GiB. -/
def dramBytes : Nat := 2 ^ 33

/-- R406: the identity strap pins. DESIGN CHOICE: device 0. -/
def deviceId : Nat := 0

/-- R413: whether the stored firmware, named by its digest, passes the signature check at a start. -/
opaque firmwareStands : Nat → Nat → Bool

/-- R410: whether a KEYID (R248) is that of an Onwegar root key, whose digests are fused. -/
opaque isRootKey : Nat → Bool

/-- R354: the 8 bytes of a best-plan cell that cannot be read through its capability. -/
opaque bestWord : Nat → Nat

end Sys2Proof.Config
end

