-- ==== Sys2Proof/Machine/Tab.lean ====
section
/-! DEFINITION. Finite tables: lists of (key, value) pairs with rising keys. A key that a table does not
list has the default that the reader names. -/

namespace Sys2Proof

/-- A table from numbers to values, its keys strictly rising. -/
abbrev Tab (α : Type) := List (Nat × α)

/-- The entry of a key, if the table lists it. -/
def tabFind {α : Type} (t : Tab α) (k : Nat) : Option α :=
  match t with
  | [] => none
  | (j, v) :: rest => if j = k then some v else tabFind rest k

/-- The value of a key, or the default. -/
def tabGet {α : Type} (t : Tab α) (d : α) (k : Nat) : α :=
  match tabFind t k with
  | none => d
  | some v => v

/-- The table with one entry written, in key order. -/
def tabPut {α : Type} (t : Tab α) (k : Nat) (v : α) : Tab α :=
  match t with
  | [] => [(k, v)]
  | (j, w) :: rest =>
    if k < j then (k, v) :: (j, w) :: rest
    else if k = j then (k, v) :: rest
    else (j, w) :: tabPut rest k v

/-- The table without the entry of a key. -/
def tabDel {α : Type} (t : Tab α) (k : Nat) : Tab α :=
  match t with
  | [] => []
  | (j, w) :: rest => if j = k then tabDel rest k else (j, w) :: tabDel rest k

/-- The table with one entry written in canonical form: a value equal to the default is not listed. -/
def tabSet {α : Type} [DecidableEq α] (t : Tab α) (d : α) (k : Nat) (v : α) : Tab α :=
  if v = d then tabDel t k else tabPut t k v

/-- The keys rise strictly and start above a bound. -/
def tabRising {α : Type} (lo : Nat) (t : Tab α) : Bool :=
  match t with
  | [] => true
  | (j, _) :: rest => decide (lo ≤ j) && tabRising (j + 1) rest

/-- The canonical form: rising keys, and no entry equal to the default. -/
def tabCanon {α : Type} [DecidableEq α] (d : α) (t : Tab α) : Bool :=
  tabRising 0 t && t.all (fun e => decide (e.2 ≠ d))

/-- The rising list of numbers with one more member. -/
def memberAdd (l : List Nat) (k : Nat) : List Nat :=
  match l with
  | [] => [k]
  | j :: rest => if k < j then k :: j :: rest else if k = j then j :: rest else j :: memberAdd rest k

/-- The rising list of numbers without a member. -/
def memberDel (l : List Nat) (k : Nat) : List Nat :=
  match l with
  | [] => []
  | j :: rest => if j = k then memberDel rest k else j :: memberDel rest k

/-- The list with entry i replaced through f. -/
def listSet {α : Type} (l : List α) (i : Nat) (f : α → α) : List α :=
  match l, i with
  | [], _ => []
  | x :: rest, 0 => f x :: rest
  | x :: rest, k + 1 => x :: listSet rest k f

/-- The list without entry i. -/
def listDel {α : Type} (l : List α) (i : Nat) : List α :=
  match l, i with
  | [], _ => []
  | _ :: rest, 0 => rest
  | x :: rest, k + 1 => x :: listDel rest k

end Sys2Proof
end

