-- ==== Sys2Proof/Syntax.lean ====
section
/-! DEFINITION. The syntax of the KG940: operand kinds (R225), the shape of each instruction form
(fields in the order of R224 and of the form's own entry), and ONE inductive with a constructor for
every row of spec/opcode_table.json. The first 281 rows are program words; the others are steps of the
device that have no encoding, and carry the unit they happen in. -/

namespace Sys2Proof

/-- The causes of R347, in the order of their codes. -/
inductive Cause where
  | illegalOpcode
  | illegalOperand
  | capTag
  | capPerm
  | capBounds
  | misalign
  | pageFault
  | accessFault
  | poison
  | poolEmpty
  | deadline
  | watchdog
  | brk
  | ecall
deriving DecidableEq, Repr

/-- A slice operand n<start>.<width> (R185, R225). -/
structure Slc where
  start : Nat
  width : Nat
deriving DecidableEq, Repr

/-- The guard fields PRED and NEG of R224. -/
structure Guard where
  pred : Nat
  neg : Bool
deriving DecidableEq, Repr

/-- Scalar forms with a register source B (R254). -/
structure SReg where
  mark : Bool
  d : Nat
  a : Nat
  b : Nat
deriving DecidableEq, Repr

/-- Scalar forms with a 14-bit immediate source B (R254, R227). -/
structure SImm where
  mark : Bool
  d : Nat
  a : Nat
  imm : Nat
deriving DecidableEq, Repr

/-- SCMP with a register: no destination (R254). -/
structure ScmpR where
  mark : Bool
  a : Nat
  b : Nat
deriving DecidableEq, Repr

/-- SCMP with an immediate (R254). -/
structure ScmpI where
  mark : Bool
  a : Nat
  imm : Nat
deriving DecidableEq, Repr

/-- SMOV from a register: no source A (R254). -/
structure SmovR where
  mark : Bool
  d : Nat
  b : Nat
deriving DecidableEq, Repr

/-- SMOV of an immediate (R254). -/
structure SmovI where
  mark : Bool
  d : Nat
  imm : Nat
deriving DecidableEq, Repr

/-- A scalar destination and one scalar source (SPOPC, SCLZ, R255; CANCEL, R338). -/
structure S2 where
  mark : Bool
  d : Nat
  a : Nat
deriving DecidableEq, Repr

/-- SGET (R255). -/
structure Sget where
  mark : Bool
  d : Nat
  a : Slc
  lane : Nat
deriving DecidableEq, Repr

/-- Typed form, variant VV: source B is an anchor that carries the type nibble (R226). -/
structure VV where
  mark : Bool
  g : Guard
  d : Slc
  a : Slc
  b : Nat
  nib : Nat
  ext : Nat
deriving DecidableEq, Repr

/-- Typed form, variant VS: source B is a scalar anchor (R226). -/
structure VS where
  mark : Bool
  g : Guard
  d : Slc
  a : Slc
  s : Nat
  nib : Nat
  ext : Nat
deriving DecidableEq, Repr

/-- Typed form, variant VI: source A is an anchor, source B a 14-bit immediate (R226, R227). -/
structure VI where
  mark : Bool
  g : Guard
  d : Slc
  a : Nat
  nib : Nat
  imm : Nat
  ext : Nat
deriving DecidableEq, Repr

/-- Unary typed form from slices: the anchor gives only the type (R257, R259, R260, R261). -/
structure U1 where
  mark : Bool
  g : Guard
  d : Slc
  a : Slc
  nib : Nat
  ext : Nat
deriving DecidableEq, Repr

/-- Unary typed form from an s register (R259, R260). -/
structure US where
  mark : Bool
  g : Guard
  d : Slc
  s : Nat
  nib : Nat
  ext : Nat
deriving DecidableEq, Repr

/-- MOV of an immediate: its anchor starts at the destination's slice (R260). -/
structure MI where
  mark : Bool
  g : Guard
  d : Slc
  nib : Nat
  imm : Nat
  ext : Nat
deriving DecidableEq, Repr

/-- BFE and BFI (R262); len is the number of bits, 1 to 64. -/
structure Bfld where
  mark : Bool
  g : Guard
  d : Slc
  a : Slc
  pos : Nat
  len : Nat
deriving DecidableEq, Repr

/-- ZIP (R263); gc is the code of the granule size. -/
structure Zip where
  mark : Bool
  g : Guard
  d : Slc
  a : Slc
  b : Slc
  gc : Nat
deriving DecidableEq, Repr

/-- UNZIP (R263). -/
structure Unzip where
  mark : Bool
  g : Guard
  d : Slc
  a : Slc
  gc : Nat
deriving DecidableEq, Repr

/-- CVT (R264). -/
structure Cvt where
  mark : Bool
  g : Guard
  d : Slc
  a : Slc
  src : Nat
  dst : Nat
  mode : Nat
  sat : Bool
deriving DecidableEq, Repr

/-- CVTFI (R264); e is the width of the integer element in slices. -/
structure CvtFI where
  mark : Bool
  g : Guard
  d : Slc
  a : Slc
  src : Nat
  e : Nat
  uns : Bool
  mode : Nat
deriving DecidableEq, Repr

/-- CVTIF (R264); e is the width of the integer element in slices. -/
structure CvtIF where
  mark : Bool
  g : Guard
  d : Slc
  a : Slc
  e : Nat
  uns : Bool
  dst : Nat
  mode : Nat
  sat : Bool
deriving DecidableEq, Repr

/-- CVTEF (R265); f is the code of the target format. -/
structure CvtEF where
  mark : Bool
  g : Guard
  d : Slc
  a : Slc
  r : Slc
  f : Nat
deriving DecidableEq, Repr

/-- CVTE8 (R266); f is 0 for .e4m3 and 1 for .e5m2. -/
structure CvtE8 where
  mark : Bool
  g : Guard
  d : Slc
  a : Slc
  s : Slc
  f : Nat
  sat : Bool
deriving DecidableEq, Repr

/-- Predicate form with two sources, each with its complement bit (R267). -/
structure P3 where
  mark : Bool
  g : Guard
  d : Nat
  a : Nat
  an : Bool
  b : Nat
  bn : Bool
deriving DecidableEq, Repr

/-- PNOT (R267). -/
structure P2 where
  mark : Bool
  g : Guard
  d : Nat
  a : Nat
  an : Bool
deriving DecidableEq, Repr

/-- PSET (R267). -/
structure Pset where
  mark : Bool
  g : Guard
  d : Nat
  v : Bool
deriving DecidableEq, Repr

/-- PBIT (R267). -/
structure Pbit where
  mark : Bool
  g : Guard
  d : Nat
  a : Slc
  b : Nat
deriving DecidableEq, Repr

/-- PTON (R267). -/
structure Pton where
  mark : Bool
  g : Guard
  d : Slc
  a : Nat
  an : Bool
deriving DecidableEq, Repr

/-- CMP and FCMP, variant VV (R268). -/
structure CmpVV where
  mark : Bool
  g : Guard
  cond : Nat
  uns : Bool
  red : Nat
  d : Nat
  a : Slc
  b : Nat
  nib : Nat
deriving DecidableEq, Repr

/-- CMP and FCMP, variant VS (R268). -/
structure CmpVS where
  mark : Bool
  g : Guard
  cond : Nat
  uns : Bool
  red : Nat
  d : Nat
  a : Slc
  s : Nat
  nib : Nat
  ext : Nat
deriving DecidableEq, Repr

/-- CMP, variant VI (R268). -/
structure CmpVI where
  mark : Bool
  g : Guard
  cond : Nat
  uns : Bool
  red : Nat
  d : Nat
  a : Nat
  nib : Nat
  imm : Nat
  ext : Nat
deriving DecidableEq, Repr

/-- SHFL (R270). -/
structure Shfl where
  mark : Bool
  g : Guard
  d : Slc
  a : Slc
  b : Slc
deriving DecidableEq, Repr

/-- SHFLX and BCAST (R270). -/
structure ShflI where
  mark : Bool
  g : Guard
  d : Slc
  a : Slc
  imm : Nat
deriving DecidableEq, Repr

/-- REDUCE and SCAN (R271). -/
structure Red where
  mark : Bool
  g : Guard
  d : Slc
  a : Slc
  nib : Nat
  flt : Bool
  op : Nat
  uns : Bool
  excl : Bool
deriving DecidableEq, Repr

/-- VOTE (R272). -/
structure Vote where
  mark : Bool
  g : Guard
  d : Nat
  a : Nat
  an : Bool
  mode : Nat
deriving DecidableEq, Repr

/-- BALLOT, PFIRST and PCOUNT (R273). -/
structure Pgat where
  mark : Bool
  g : Guard
  d : Nat
  a : Nat
  an : Bool
deriving DecidableEq, Repr

/-- NEXT (R274). -/
structure Next where
  mark : Bool
  a : Slc
deriving DecidableEq, Repr

/-- One scalar source (NEXTU, R274). -/
structure S1 where
  mark : Bool
  a : Nat
deriving DecidableEq, Repr

/-- A form with no operand field (EXIT, NOP, LNSTEP, IDEMB, IDEME, TRET). -/
structure Nul where
  mark : Bool
deriving DecidableEq, Repr

/-- MEET (R275). -/
structure Meet where
  mark : Bool
  m : Nat
deriving DecidableEq, Repr

/-- JMP (R276); disp is the raw signed 14-bit displacement. -/
structure Jmp where
  mark : Bool
  disp : Nat
deriving DecidableEq, Repr

/-- JMZ and JMNZ (R276). -/
structure JmpS where
  mark : Bool
  sel : Nat
  disp : Nat
deriving DecidableEq, Repr

/-- LCSET (R277); v is the immediate or the index of sA. -/
structure Lcset where
  mark : Bool
  n : Nat
  imm : Bool
  v : Nat
deriving DecidableEq, Repr

/-- LOOP (R277). -/
structure Loop where
  mark : Bool
  n : Nat
  disp : Nat
deriving DecidableEq, Repr

/-- LD and ST (R282); d is the destination or the data source. -/
structure Mem where
  mark : Bool
  g : Guard
  d : Slc
  a : Slc
  cap : Nat
  attr : Nat
  scope : Nat
  sh : Nat
deriving DecidableEq, Repr

/-- LDT and CAS: an access descriptor with AUX zero (R283, R288). -/
structure Cas where
  mark : Bool
  g : Guard
  d : Slc
  a : Slc
  cap : Nat
  attr : Nat
  scope : Nat
deriving DecidableEq, Repr

/-- PREF (R284). -/
structure Pref where
  mark : Bool
  g : Guard
  lvl : Nat
  a : Slc
  cap : Nat
  sh : Nat
deriving DecidableEq, Repr

/-- SPILL and FILL (R285); c is the count of slices, 1 to 1,024. -/
structure Spill where
  mark : Bool
  g : Guard
  a : Nat
  c : Nat
  cap : Nat
  s : Nat
deriving DecidableEq, Repr

/-- LDC and STC (R286). -/
structure Ldc where
  mark : Bool
  d : Nat
  a : Nat
  cap : Nat
  attr : Nat
  scope : Nat
deriving DecidableEq, Repr

/-- ADRN (R318). -/
structure Adrn where
  mark : Bool
  g : Guard
  vw : Nat
  a : Slc
  f : Nat
  sat : Bool
  s : Nat
deriving DecidableEq, Repr

/-- ATOM and RED (R287). -/
structure Atm where
  mark : Bool
  g : Guard
  d : Slc
  a : Slc
  cap : Nat
  attr : Nat
  scope : Nat
  op : Nat
deriving DecidableEq, Repr

/-- FENCE (R289). -/
structure Fence where
  mark : Bool
  attr : Nat
  scope : Nat
deriving DecidableEq, Repr

/-- FENCE.S (R289): its ATTR is AR. -/
structure FenceS where
  mark : Bool
  scope : Nat
deriving DecidableEq, Repr

/-- IINV (R290). -/
structure Iinv where
  mark : Bool
  reach : Nat
deriving DecidableEq, Repr

/-- CDER (R291). -/
structure Cder where
  mark : Bool
  d : Nat
  a : Nat
  b : Nat
deriving DecidableEq, Repr

/-- CRES (R291). -/
structure Cres where
  mark : Bool
  d : Nat
  a : Nat
  perms : Nat
deriving DecidableEq, Repr

/-- CSEAL and CUNSEAL (R291). -/
structure Cseal where
  mark : Bool
  d : Nat
  a : Nat
  k : Nat
deriving DecidableEq, Repr

/-- CMOV (R291). -/
structure Cmov where
  mark : Bool
  d : Nat
  a : Nat
deriving DecidableEq, Repr

/-- CGET (R291). -/
structure Cget where
  mark : Bool
  d : Nat
  a : Nat
  f : Nat
deriving DecidableEq, Repr

/-- CGETN (R291). -/
structure CgetN where
  mark : Bool
  d : Slc
  a : Nat
  f : Nat
deriving DecidableEq, Repr

/-- CTEST (R291). -/
structure Ctest where
  mark : Bool
  perms : Nat
  a : Nat
  b : Nat
deriving DecidableEq, Repr

/-- BINIT, BEXP, BWAIT and BTST (R292). -/
structure Bar where
  mark : Bool
  cap : Nat
  a : Nat
  d : Nat
deriving DecidableEq, Repr

/-- BARR (R292). -/
structure Barr where
  mark : Bool
  g : Guard
  cap : Nat
  a : Nat
deriving DecidableEq, Repr

/-- FLK (R296). -/
structure Flk where
  mark : Bool
  ch : Nat
  cap : Nat
  a : Nat
deriving DecidableEq, Repr

/-- FLQ (R296). -/
structure Flq where
  mark : Bool
  d : Nat
  ch : Nat
deriving DecidableEq, Repr

/-- FLC (R296). -/
structure Flc where
  mark : Bool
  ch : Nat
deriving DecidableEq, Repr

/-- SPAWN (R335); a is the first slice of the record. -/
structure Spawn where
  mark : Bool
  g : Guard
  d : Slc
  a : Nat
deriving DecidableEq, Repr

/-- SUCC (R337). -/
structure Succ where
  mark : Bool
  g : Guard
  cap : Nat
  a : Slc
  v : Slc
deriving DecidableEq, Repr

/-- LAUNCH (R339). -/
structure Launch where
  mark : Bool
  cap : Nat
  a : Nat
deriving DecidableEq, Repr

/-- PALLOC and PALLOC.T (R341). -/
structure Palloc where
  mark : Bool
  g : Guard
  d : Slc
  n : Nat
deriving DecidableEq, Repr

/-- PFREE (R341). -/
structure Pfree where
  mark : Bool
  g : Guard
  a : Slc
  n : Nat
deriving DecidableEq, Repr

/-- CPUT (R342); a is the first slice of the row, f the future's slice operand. -/
structure Cput where
  mark : Bool
  g : Guard
  c : Nat
  a : Nat
  cap : Nat
  f : Slc
deriving DecidableEq, Repr

/-- CFLUSH (R343). -/
structure Cflush where
  mark : Bool
  c : Nat
deriving DecidableEq, Repr

/-- Engine requests (R324). -/
structure Eng where
  mark : Bool
  g : Guard
  d : Nat
  q : Nat
  o : Nat
  f : Nat
deriving DecidableEq, Repr

/-- MRESV (R304). -/
structure Mresv where
  mark : Bool
  slot : Nat
  cap : Nat
  b : Nat
deriving DecidableEq, Repr

/-- MRELS (R305). -/
structure Mrels where
  mark : Bool
  slot : Nat
deriving DecidableEq, Repr

/-- MLDB (R307). -/
structure Mldb where
  mark : Bool
  d : Nat
  a : Nat
  cap : Nat
  fmt : Nat
deriving DecidableEq, Repr

/-- MMA and its forms (R310). -/
structure Mma where
  mark : Bool
  a : Nat
  ln : Bool
deriving DecidableEq, Repr

/-- LNSET (R313). -/
structure Lnset where
  mark : Bool
  lvl : Nat
  a : Nat
deriving DecidableEq, Repr

/-- LNCOEF (R313). -/
structure Lncoef where
  mark : Bool
  c : Nat
  lvl : Nat
  a : Nat
deriving DecidableEq, Repr

/-- CTAKE, the take form (R316). -/
structure Ctake where
  mark : Bool
  d : Nat
  c : Nat
  slot : Nat
  a : Nat
deriving DecidableEq, Repr

/-- CTAKE.arm (R316). -/
structure CtakeArm where
  mark : Bool
  c : Nat
  cap : Nat
  a : Nat
deriving DecidableEq, Repr

/-- CGIVE (R317). -/
structure Cgive where
  mark : Bool
  c : Nat
  a : Nat
deriving DecidableEq, Repr

/-- SRD to an s register (R345). -/
structure SrdS where
  mark : Bool
  d : Nat
  reg : Nat
deriving DecidableEq, Repr

/-- SRD to slices (R345). -/
structure SrdN where
  mark : Bool
  d : Slc
  reg : Nat
deriving DecidableEq, Repr

/-- SWR (R345). -/
structure Swr where
  mark : Bool
  reg : Nat
  a : Nat
deriving DecidableEq, Repr

/-- TRAP (R346). -/
structure Trap where
  mark : Bool
  sel : Nat
  code : Nat
deriving DecidableEq, Repr

/-- BREAK and ECALL (R346). -/
structure Code where
  mark : Bool
  code : Nat
deriving DecidableEq, Repr

/-- RQUOTA (R201). -/
structure Rquota where
  mark : Bool
  d : Nat
  a : Nat
  q : Nat
deriving DecidableEq, Repr

/-- LIT with its literal word (R228). -/
structure Lit where
  mark : Bool
  d : Nat
  v : Nat
deriving DecidableEq, Repr

/-- One half of a paired word (R230): operation and type of OPC, start fields, width codes, PG. -/
structure Half where
  op : Nat
  ty : Nat
  s1 : Nat
  w1 : Nat
  s2 : Nat
  w2 : Nat
  pg : Nat
deriving DecidableEq, Repr

/-- A paired word (R230). -/
structure Pair where
  mark : Bool
  h1 : Half
  h2 : Half
deriving DecidableEq, Repr

/-- One step of the KG940: a constructor for every row of spec/opcode_table.json, in the table's order. -/
inductive Instr where
  /-- SADD_REG (R254). -/
  | saddReg (o : SReg)
  /-- SADD_IMM (R254). -/
  | saddImm (o : SImm)
  /-- SSUB_REG (R254). -/
  | ssubReg (o : SReg)
  /-- SSUB_IMM (R254). -/
  | ssubImm (o : SImm)
  /-- SMUL_REG (R254). -/
  | smulReg (o : SReg)
  /-- SMUL_IMM (R254). -/
  | smulImm (o : SImm)
  /-- SMULH_REG (R254). -/
  | smulhReg (o : SReg)
  /-- SMULH_IMM (R254). -/
  | smulhImm (o : SImm)
  /-- SMULHU_REG (R254). -/
  | smulhuReg (o : SReg)
  /-- SMULHU_IMM (R254). -/
  | smulhuImm (o : SImm)
  /-- SDIV_REG (R254). -/
  | sdivReg (o : SReg)
  /-- SDIV_IMM (R254). -/
  | sdivImm (o : SImm)
  /-- SDIVU_REG (R254). -/
  | sdivuReg (o : SReg)
  /-- SDIVU_IMM (R254). -/
  | sdivuImm (o : SImm)
  /-- SREM_REG (R254). -/
  | sremReg (o : SReg)
  /-- SREM_IMM (R254). -/
  | sremImm (o : SImm)
  /-- SREMU_REG (R254). -/
  | sremuReg (o : SReg)
  /-- SREMU_IMM (R254). -/
  | sremuImm (o : SImm)
  /-- SAND_REG (R254). -/
  | sandReg (o : SReg)
  /-- SAND_IMM (R254). -/
  | sandImm (o : SImm)
  /-- SOR_REG (R254). -/
  | sorReg (o : SReg)
  /-- SOR_IMM (R254). -/
  | sorImm (o : SImm)
  /-- SXOR_REG (R254). -/
  | sxorReg (o : SReg)
  /-- SXOR_IMM (R254). -/
  | sxorImm (o : SImm)
  /-- SSHL_REG (R254). -/
  | sshlReg (o : SReg)
  /-- SSHL_IMM (R254). -/
  | sshlImm (o : SImm)
  /-- SSHR_REG (R254). -/
  | sshrReg (o : SReg)
  /-- SSHR_IMM (R254). -/
  | sshrImm (o : SImm)
  /-- SSHA_REG (R254). -/
  | sshaReg (o : SReg)
  /-- SSHA_IMM (R254). -/
  | sshaImm (o : SImm)
  /-- SMIN_REG (R254). -/
  | sminReg (o : SReg)
  /-- SMIN_IMM (R254). -/
  | sminImm (o : SImm)
  /-- SMINU_REG (R254). -/
  | sminuReg (o : SReg)
  /-- SMINU_IMM (R254). -/
  | sminuImm (o : SImm)
  /-- SMAX_REG (R254). -/
  | smaxReg (o : SReg)
  /-- SMAX_IMM (R254). -/
  | smaxImm (o : SImm)
  /-- SMAXU_REG (R254). -/
  | smaxuReg (o : SReg)
  /-- SMAXU_IMM (R254). -/
  | smaxuImm (o : SImm)
  /-- SCMP_REG (R254). -/
  | scmpReg (o : ScmpR)
  /-- SCMP_IMM (R254). -/
  | scmpImm (o : ScmpI)
  /-- SMOV_REG (R254). -/
  | smovReg (o : SmovR)
  /-- SMOV_IMM (R254). -/
  | smovImm (o : SmovI)
  /-- SPOPC (R255). -/
  | spopc (o : S2)
  /-- SCLZ (R255). -/
  | sclz (o : S2)
  /-- SGET (R255). -/
  | sget (o : Sget)
  /-- ADD_VV (R256). -/
  | addVV (o : VV)
  /-- ADD_VS (R256). -/
  | addVS (o : VS)
  /-- ADD_VI (R256). -/
  | addVI (o : VI)
  /-- SUB_VV (R256). -/
  | subVV (o : VV)
  /-- SUB_VS (R256). -/
  | subVS (o : VS)
  /-- SUB_VI (R256). -/
  | subVI (o : VI)
  /-- MUL_VV (R256). -/
  | mulVV (o : VV)
  /-- MUL_VS (R256). -/
  | mulVS (o : VS)
  /-- MUL_VI (R256). -/
  | mulVI (o : VI)
  /-- MAD_VV (R256). -/
  | madVV (o : VV)
  /-- MAD_VS (R256). -/
  | madVS (o : VS)
  /-- MAD_VI (R256). -/
  | madVI (o : VI)
  /-- ADD_SAT_I_VV (R256). -/
  | addSatIVV (o : VV)
  /-- ADD_SAT_I_VS (R256). -/
  | addSatIVS (o : VS)
  /-- ADD_SAT_I_VI (R256). -/
  | addSatIVI (o : VI)
  /-- ADD_SAT_B_VV (R256). -/
  | addSatBVV (o : VV)
  /-- ADD_SAT_B_VS (R256). -/
  | addSatBVS (o : VS)
  /-- ADD_SAT_B_VI (R256). -/
  | addSatBVI (o : VI)
  /-- SUB_SAT_I_VV (R256). -/
  | subSatIVV (o : VV)
  /-- SUB_SAT_I_VS (R256). -/
  | subSatIVS (o : VS)
  /-- SUB_SAT_I_VI (R256). -/
  | subSatIVI (o : VI)
  /-- SUB_SAT_B_VV (R256). -/
  | subSatBVV (o : VV)
  /-- SUB_SAT_B_VS (R256). -/
  | subSatBVS (o : VS)
  /-- SUB_SAT_B_VI (R256). -/
  | subSatBVI (o : VI)
  /-- MULH_I_VV (R256). -/
  | mulhIVV (o : VV)
  /-- MULH_I_VS (R256). -/
  | mulhIVS (o : VS)
  /-- MULH_I_VI (R256). -/
  | mulhIVI (o : VI)
  /-- MULH_B_VV (R256). -/
  | mulhBVV (o : VV)
  /-- MULH_B_VS (R256). -/
  | mulhBVS (o : VS)
  /-- MULH_B_VI (R256). -/
  | mulhBVI (o : VI)
  /-- DIV_I_VV (R256). -/
  | divIVV (o : VV)
  /-- DIV_I_VS (R256). -/
  | divIVS (o : VS)
  /-- DIV_I_VI (R256). -/
  | divIVI (o : VI)
  /-- DIV_B_VV (R256). -/
  | divBVV (o : VV)
  /-- DIV_B_VS (R256). -/
  | divBVS (o : VS)
  /-- DIV_B_VI (R256). -/
  | divBVI (o : VI)
  /-- REM_I_VV (R256). -/
  | remIVV (o : VV)
  /-- REM_I_VS (R256). -/
  | remIVS (o : VS)
  /-- REM_I_VI (R256). -/
  | remIVI (o : VI)
  /-- REM_B_VV (R256). -/
  | remBVV (o : VV)
  /-- REM_B_VS (R256). -/
  | remBVS (o : VS)
  /-- REM_B_VI (R256). -/
  | remBVI (o : VI)
  /-- MIN_I_VV (R256). -/
  | minIVV (o : VV)
  /-- MIN_I_VS (R256). -/
  | minIVS (o : VS)
  /-- MIN_I_VI (R256). -/
  | minIVI (o : VI)
  /-- MIN_B_VV (R256). -/
  | minBVV (o : VV)
  /-- MIN_B_VS (R256). -/
  | minBVS (o : VS)
  /-- MIN_B_VI (R256). -/
  | minBVI (o : VI)
  /-- MAX_I_VV (R256). -/
  | maxIVV (o : VV)
  /-- MAX_I_VS (R256). -/
  | maxIVS (o : VS)
  /-- MAX_I_VI (R256). -/
  | maxIVI (o : VI)
  /-- MAX_B_VV (R256). -/
  | maxBVV (o : VV)
  /-- MAX_B_VS (R256). -/
  | maxBVS (o : VS)
  /-- MAX_B_VI (R256). -/
  | maxBVI (o : VI)
  /-- ABS (R257). -/
  | abs (o : U1)
  /-- NEG (R257). -/
  | neg (o : U1)
  /-- ABSD_I (R257). -/
  | absdI (o : VV)
  /-- ABSD_B (R257). -/
  | absdB (o : VV)
  /-- FADD_VV (R258). -/
  | faddVV (o : VV)
  /-- FADD_VS (R258). -/
  | faddVS (o : VS)
  /-- FSUB_VV (R258). -/
  | fsubVV (o : VV)
  /-- FSUB_VS (R258). -/
  | fsubVS (o : VS)
  /-- FMUL_VV (R258). -/
  | fmulVV (o : VV)
  /-- FMUL_VS (R258). -/
  | fmulVS (o : VS)
  /-- FMA_VV (R258). -/
  | fmaVV (o : VV)
  /-- FMA_VS (R258). -/
  | fmaVS (o : VS)
  /-- FMIN_VV (R258). -/
  | fminVV (o : VV)
  /-- FMIN_VS (R258). -/
  | fminVS (o : VS)
  /-- FMAX_VV (R258). -/
  | fmaxVV (o : VV)
  /-- FMAX_VS (R258). -/
  | fmaxVS (o : VS)
  /-- FDIV_VV (R258). -/
  | fdivVV (o : VV)
  /-- FDIV_VS (R258). -/
  | fdivVS (o : VS)
  /-- FRCP_VV (R259). -/
  | frcpVV (o : U1)
  /-- FRCP_VS (R259). -/
  | frcpVS (o : US)
  /-- FRSQ_VV (R259). -/
  | frsqVV (o : U1)
  /-- FRSQ_VS (R259). -/
  | frsqVS (o : US)
  /-- FEX2_VV (R259). -/
  | fex2VV (o : U1)
  /-- FEX2_VS (R259). -/
  | fex2VS (o : US)
  /-- FLG2_VV (R259). -/
  | flg2VV (o : U1)
  /-- FLG2_VS (R259). -/
  | flg2VS (o : US)
  /-- FSIN_VV (R259). -/
  | fsinVV (o : U1)
  /-- FSIN_VS (R259). -/
  | fsinVS (o : US)
  /-- FCOS_VV (R259). -/
  | fcosVV (o : U1)
  /-- FCOS_VS (R259). -/
  | fcosVS (o : US)
  /-- FABS_VV (R259). -/
  | fabsVV (o : U1)
  /-- FABS_VS (R259). -/
  | fabsVS (o : US)
  /-- FNEG_VV (R259). -/
  | fnegVV (o : U1)
  /-- FNEG_VS (R259). -/
  | fnegVS (o : US)
  /-- FRINT_VV (R259). -/
  | frintVV (o : U1)
  /-- FRINT_VS (R259). -/
  | frintVS (o : US)
  /-- FCLASS_VV (R259). -/
  | fclassVV (o : U1)
  /-- FCLASS_VS (R259). -/
  | fclassVS (o : US)
  /-- AND_VV (R260). -/
  | andVV (o : VV)
  /-- AND_VS (R260). -/
  | andVS (o : VS)
  /-- AND_VI (R260). -/
  | andVI (o : VI)
  /-- OR_VV (R260). -/
  | orVV (o : VV)
  /-- OR_VS (R260). -/
  | orVS (o : VS)
  /-- OR_VI (R260). -/
  | orVI (o : VI)
  /-- XOR_VV (R260). -/
  | xorVV (o : VV)
  /-- XOR_VS (R260). -/
  | xorVS (o : VS)
  /-- XOR_VI (R260). -/
  | xorVI (o : VI)
  /-- ANDN_VV (R260). -/
  | andnVV (o : VV)
  /-- ANDN_VS (R260). -/
  | andnVS (o : VS)
  /-- ANDN_VI (R260). -/
  | andnVI (o : VI)
  /-- SHL_VV (R260). -/
  | shlVV (o : VV)
  /-- SHL_VS (R260). -/
  | shlVS (o : VS)
  /-- SHL_VI (R260). -/
  | shlVI (o : VI)
  /-- SHR_VV (R260). -/
  | shrVV (o : VV)
  /-- SHR_VS (R260). -/
  | shrVS (o : VS)
  /-- SHR_VI (R260). -/
  | shrVI (o : VI)
  /-- SHA_VV (R260). -/
  | shaVV (o : VV)
  /-- SHA_VS (R260). -/
  | shaVS (o : VS)
  /-- SHA_VI (R260). -/
  | shaVI (o : VI)
  /-- ROT_VV (R260). -/
  | rotVV (o : VV)
  /-- ROT_VS (R260). -/
  | rotVS (o : VS)
  /-- ROT_VI (R260). -/
  | rotVI (o : VI)
  /-- MOV_VV (R260). -/
  | movVV (o : U1)
  /-- MOV_VS (R260). -/
  | movVS (o : US)
  /-- MOV_VI (R260). -/
  | movVI (o : MI)
  /-- NOT (R261). -/
  | notB (o : U1)
  /-- POPC (R261). -/
  | popc (o : U1)
  /-- CLZ (R261). -/
  | clz (o : U1)
  /-- BREV (R261). -/
  | brev (o : U1)
  /-- BFE (R262). -/
  | bfe (o : Bfld)
  /-- BFI (R262). -/
  | bfi (o : Bfld)
  /-- ZIP (R263). -/
  | zip (o : Zip)
  /-- UNZIP (R263). -/
  | unzip (o : Unzip)
  /-- CVT (R264). -/
  | cvt (o : Cvt)
  /-- CVTFI (R264). -/
  | cvtfi (o : CvtFI)
  /-- CVTIF (R264). -/
  | cvtif (o : CvtIF)
  /-- CVTEF (R265). -/
  | cvtef (o : CvtEF)
  /-- CVTE8 (R266). -/
  | cvte8 (o : CvtE8)
  /-- PAND (R267). -/
  | pand (o : P3)
  /-- POR (R267). -/
  | por (o : P3)
  /-- PXOR (R267). -/
  | pxor (o : P3)
  /-- PANDN (R267). -/
  | pandn (o : P3)
  /-- PNOT (R267). -/
  | pnot (o : P2)
  /-- PSET (R267). -/
  | pset (o : Pset)
  /-- PBIT (R267). -/
  | pbit (o : Pbit)
  /-- PTON (R267). -/
  | pton (o : Pton)
  /-- CMP_VV (R268). -/
  | cmpVV (o : CmpVV)
  /-- CMP_VS (R268). -/
  | cmpVS (o : CmpVS)
  /-- CMP_VI (R268). -/
  | cmpVI (o : CmpVI)
  /-- FCMP_VV (R268). -/
  | fcmpVV (o : CmpVV)
  /-- FCMP_VS (R268). -/
  | fcmpVS (o : CmpVS)
  /-- SHFL (R270). -/
  | shfl (o : Shfl)
  /-- SHFLX (R270). -/
  | shflx (o : ShflI)
  /-- BCAST (R270). -/
  | bcast (o : ShflI)
  /-- REDUCE (R271). -/
  | reduce (o : Red)
  /-- SCAN (R271). -/
  | scan (o : Red)
  /-- VOTE (R272). -/
  | vote (o : Vote)
  /-- BALLOT (R273). -/
  | ballot (o : Pgat)
  /-- PFIRST (R273). -/
  | pfirst (o : Pgat)
  /-- PCOUNT (R273). -/
  | pcount (o : Pgat)
  /-- NEXT (R274). -/
  | next (o : Next)
  /-- NEXTU (R274). -/
  | nextu (o : S1)
  /-- EXIT (R274). -/
  | exit (o : Nul)
  /-- MEET (R275). -/
  | meet (o : Meet)
  /-- JMP (R276). -/
  | jmp (o : Jmp)
  /-- JMZ (R276). -/
  | jmz (o : JmpS)
  /-- JMNZ (R276). -/
  | jmnz (o : JmpS)
  /-- LCSET (R277). -/
  | lcset (o : Lcset)
  /-- LOOP (R277). -/
  | loop (o : Loop)
  /-- NOP (R278). -/
  | nop (o : Nul)
  /-- LD (R282). -/
  | ld (o : Mem)
  /-- ST (R282). -/
  | st (o : Mem)
  /-- LDT (R283). -/
  | ldt (o : Cas)
  /-- PREF (R284). -/
  | pref (o : Pref)
  /-- SPILL (R285). -/
  | spill (o : Spill)
  /-- FILL (R285). -/
  | fill (o : Spill)
  /-- LDC (R286). -/
  | ldc (o : Ldc)
  /-- STC (R286). -/
  | stc (o : Ldc)
  /-- ADRN (R318). -/
  | adrn (o : Adrn)
  /-- ATOM (R287). -/
  | atom (o : Atm)
  /-- RED (R287). -/
  | red (o : Atm)
  /-- CAS (R288). -/
  | cas (o : Cas)
  /-- FENCE (R289). -/
  | fence (o : Fence)
  /-- FENCE_S (R289). -/
  | fenceS (o : FenceS)
  /-- IINV (R290). -/
  | iinv (o : Iinv)
  /-- CDER (R291). -/
  | cder (o : Cder)
  /-- CRES (R291). -/
  | cres (o : Cres)
  /-- CSEAL (R291). -/
  | cseal (o : Cseal)
  /-- CUNSEAL (R291). -/
  | cunseal (o : Cseal)
  /-- CMOV (R291). -/
  | cmov (o : Cmov)
  /-- CGET (R291). -/
  | cget (o : Cget)
  /-- CGETN (R291). -/
  | cgetn (o : CgetN)
  /-- CTEST (R291). -/
  | ctest (o : Ctest)
  /-- BINIT (R293). -/
  | binit (o : Bar)
  /-- BARR (R294). -/
  | barr (o : Barr)
  /-- BEXP (R294). -/
  | bexp (o : Bar)
  /-- BWAIT (R295). -/
  | bwait (o : Bar)
  /-- BTST (R295). -/
  | btst (o : Bar)
  /-- FLK (R296). -/
  | flk (o : Flk)
  /-- FLQ (R296). -/
  | flq (o : Flq)
  /-- FLC (R296). -/
  | flc (o : Flc)
  /-- SPAWN (R335). -/
  | spawn (o : Spawn)
  /-- SUCC (R337). -/
  | succ (o : Succ)
  /-- CANCEL (R338). -/
  | cancel (o : S2)
  /-- LAUNCH (R339). -/
  | launch (o : Launch)
  /-- PALLOC (R341). -/
  | palloc (o : Palloc)
  /-- PALLOC_T (R341). -/
  | pallocT (o : Palloc)
  /-- PFREE (R341). -/
  | pfree (o : Pfree)
  /-- CPUT (R342). -/
  | cput (o : Cput)
  /-- CFLUSH (R343). -/
  | cflush (o : Cflush)
  /-- RCAST (R324). -/
  | rcast (o : Eng)
  /-- OCAP (R324). -/
  | ocap (o : Eng)
  /-- CBFK (R324). -/
  | cbfk (o : Eng)
  /-- CBSTEP (R324). -/
  | cbstep (o : Eng)
  /-- MRESV (R304). -/
  | mresv (o : Mresv)
  /-- MRELS (R305). -/
  | mrels (o : Mrels)
  /-- MLDB (R307). -/
  | mldb (o : Mldb)
  /-- MMA (R310). -/
  | mma (o : Mma)
  /-- MMAZ (R310). -/
  | mmaz (o : Mma)
  /-- MMAP (R310). -/
  | mmap (o : Mma)
  /-- MMAZP (R310). -/
  | mmazp (o : Mma)
  /-- LNSET (R313). -/
  | lnset (o : Lnset)
  /-- LNCOEF (R313). -/
  | lncoef (o : Lncoef)
  /-- LNSTEP (R313). -/
  | lnstep (o : Nul)
  /-- CTAKE (R316). -/
  | ctake (o : Ctake)
  /-- CTAKE_ARM (R316). -/
  | ctakeArm (o : CtakeArm)
  /-- CGIVE (R317). -/
  | cgive (o : Cgive)
  /-- IDEMB (R314). -/
  | idemb (o : Nul)
  /-- IDEME (R314). -/
  | ideme (o : Nul)
  /-- SRD_SCALAR (R345). -/
  | srdScalar (o : SrdS)
  /-- SRD_SLICE (R345). -/
  | srdSlice (o : SrdN)
  /-- SWR (R345). -/
  | swr (o : Swr)
  /-- TRAP (R346). -/
  | trap (o : Trap)
  /-- BREAK (R346). -/
  | brk (o : Code)
  /-- ECALL (R346). -/
  | ecall (o : Code)
  /-- TRET_RETRY (R348). -/
  | tretRetry (o : Nul)
  /-- TRET_SKIP (R348). -/
  | tretSkip (o : Nul)
  /-- TRET_KILLTASK (R348). -/
  | tretKilltask (o : Nul)
  /-- TRET_KILLCREW (R348). -/
  | tretKillcrew (o : Nul)
  /-- RQUOTA (R201). -/
  | rquota (o : Rquota)
  /-- LIT (R228). -/
  | lit (o : Lit)
  /-- PAIRED_WORD (R232). -/
  | pairedWord (o : Pair)
  /-- LONG_RESULT_WRITE (R198), a step of the device. -/
  | longResultWrite (w : Nat) (i : Nat)
  /-- WRITE_PERFORM_AT_HOME (R108), a step of the device. -/
  | writePerformAtHome (w : Nat) (i : Nat)
  /-- L1_LINE_FILL (R107), a step of the device. -/
  | l1LineFill (c : Nat)
  /-- LEASE_EXPIRY (R107), a step of the device. -/
  | leaseExpiry (c : Nat)
  /-- TILE_FILL_COMPLETE (R60), a step of the device. -/
  | tileFillComplete (k : Nat) (i : Nat)
  /-- PAGE_WALK_COMPLETE (R40), a step of the device. -/
  | pageWalkComplete (i : Nat)
  /-- SPEC_FENCE_COMPLETE (R117), a step of the device. -/
  | specFenceComplete (w : Nat)
  /-- SPEC_CONFLICT_ROLLBACK (R118), a step of the device. -/
  | specConflictRollback (w : Nat)
  /-- IINV_COMPLETE (R290), a step of the device. -/
  | iinvComplete (w : Nat)
  /-- WAVE_FORMATION (R168), a step of the device. -/
  | waveFormation (g : Nat)
  /-- BUCKET_AGE_MAX (R168), a step of the device. -/
  | bucketAgeMax (g : Nat) (seg : Nat)
  /-- SEGMENT_WATCHDOG_EXPIRY (R177), a step of the device. -/
  | segmentWatchdogExpiry (w : Nat)
  /-- SLUICE_RELEASE_STEP (R145), a step of the device. -/
  | sluiceReleaseStep (k : Nat)
  /-- PENDING_WAVE_EXCHANGE (R367), a step of the device. -/
  | pendingWaveExchange (c : Nat) (q : Nat)
  /-- WAVE_PARK_EXCHANGE (R367), a step of the device. -/
  | waveParkExchange (c : Nat) (q : Nat)
  /-- FLUME_HEAD_FORWARD (R103), a step of the device. -/
  | flumeHeadForward (c : Nat) (ch : Nat)
  /-- FLUME_CHAIN_START (R147), a step of the device. -/
  | flumeChainStart (c : Nat) (ch : Nat)
  /-- FLUME_RECORD_PROCESS (R150), a step of the device. -/
  | flumeRecordProcess (c : Nat) (ch : Nat)
  /-- FLUME_CANCEL_WALK (R156), a step of the device. -/
  | flumeCancelWalk (c : Nat) (ch : Nat)
  /-- GRID_CREW_ARRIVAL_SEND (R142), a step of the device. -/
  | gridCrewArrivalSend (crew : Nat) (gid : Nat)
  /-- GRID_PORT_ARRIVAL (R140), a step of the device. -/
  | gridPortArrival
  /-- GRID_RELEASE_DELIVERY (R140), a step of the device. -/
  | gridReleaseDelivery
  /-- ROE_RCAST_SERVICE (R328), a step of the device. -/
  | roeRcastService (k : Nat)
  /-- ROE_OCAP_SERVICE (R330), a step of the device. -/
  | roeOcapService (k : Nat)
  /-- CBE_CBFK_SERVICE (R332), a step of the device. -/
  | cbeCbfkService (k : Nat)
  /-- CBE_CBSTEP_SERVICE (R333), a step of the device. -/
  | cbeCbstepService (k : Nat)
  /-- SUCCESSOR_RELEASE_PLACE (R336), a step of the device. -/
  | successorReleasePlace (c : Nat)
  /-- TASK_START (R181), a step of the device. -/
  | taskStart (g : Nat)
  /-- CISTERN_FLUSH_TIMEOUT (R342), a step of the device. -/
  | cisternFlushTimeout (k : Nat) (i : Nat)
  /-- MLDB_COMPLETE (R307), a step of the device. -/
  | mldbComplete (k : Nat)
  /-- MMA_COMPLETE (R311), a step of the device. -/
  | mmaComplete (k : Nat)
  /-- CTAKE_COPY_COMPLETE (R316), a step of the device. -/
  | ctakeCopyComplete (k : Nat)
  /-- DOORBELL (R350), a step of the device. -/
  | doorbell (q : Nat) (v : Nat)
  /-- CQ_BASE_WRITE (R349), a step of the device. -/
  | cqBaseWrite (q : Nat) (v : Nat)
  /-- CR_HEAD_WRITE (R354), a step of the device. -/
  | crHeadWrite (q : Nat) (v : Nat)
  /-- LAUNCH_RECORD_TAKE (R353), a step of the device. -/
  | launchRecordTake (q : Nat)
  /-- WAIT_EVENT_POLL (R355), a step of the device. -/
  | waitEventPoll (l : Nat)
  /-- PLACEMENT_RETRY (R356), a step of the device. -/
  | placementRetry (l : Nat)
  /-- LAUNCH_PLACEMENT (R359), a step of the device. -/
  | launchPlacement (l : Nat)
  /-- CREW_START (R162), a step of the device. -/
  | crewStart (crew : Nat)
  /-- CREW_END (R180), a step of the device. -/
  | crewEnd (crew : Nat)
  /-- LAUNCH_COMPLETION (R365), a step of the device. -/
  | launchCompletion (l : Nat)
  /-- COMPLETION_RECORD_WRITE (R354), a step of the device. -/
  | completionRecordWrite (q : Nat)
  /-- SPILL_STAGING_DRAIN (R363), a step of the device. -/
  | spillStagingDrain (k : Nat) (l : Nat)
  /-- SPILL_REFILL (R361), a step of the device. -/
  | spillRefill (l : Nat)
  /-- LAUNCH_DEADLINE (R364), a step of the device. -/
  | launchDeadline (l : Nat)
  /-- PRIMARY_FAILURE (R371), a step of the device. -/
  | primaryFailure
  /-- SCHED_CTL_TAKE (R435), a step of the device. -/
  | schedCtlTake (who : Nat)
  /-- SCHED_CTL_DONE (R435), a step of the device. -/
  | schedCtlDone (who : Nat)
  /-- SCHED_ASSIST_WRITE (R437), a step of the device. -/
  | schedAssistWrite (slot : Nat)
  /-- SCHED_ASSIST_FINISH (R437), a step of the device. -/
  | schedAssistFinish (slot : Nat)
  /-- JRN_PTR_WRITE (R436), a step of the device. -/
  | jrnPtrWrite (who : Nat) (v : Nat)
  /-- SWAP_SAVE (R385), a step of the device. -/
  | swapSave (c : Nat)
  /-- SWAP_SAVE_HALT_END (R385), a step of the device. -/
  | swapSaveHaltEnd (c : Nat)
  /-- SWAP_SAVE_COMPLETE (R385), a step of the device. -/
  | swapSaveComplete (c : Nat)
  /-- SWAP_RESTORE (R385), a step of the device. -/
  | swapRestore (c : Nat)
  /-- SWAP_RESTORE_COMPLETE (R385), a step of the device. -/
  | swapRestoreComplete (c : Nat)
  /-- PARTITION_STATE_ERROR (R389), a step of the device. -/
  | partitionStateError (c : Nat) (q : Nat) (kind : Nat) (i : Nat)
  /-- SLICE_ROW_POISON (R388), a step of the device. -/
  | sliceRowPoison (g : Nat) (t : Nat) (row : Nat)
  /-- QUEUE_ENTRY_ERROR (R390), a step of the device. -/
  | queueEntryError (kind : Nat) (c : Nat) (i : Nat)
  /-- NEAR_SCRUB_STEP (R69), a step of the device. -/
  | nearScrubStep (k : Nat) (unit : Nat) (place : Nat) (off : Nat) (err : Nat)
  /-- VAULT_SCRUB_STEP (R85), a step of the device. -/
  | vaultScrubStep (v : Nat) (off : Nat) (err : Nat)
  /-- VAULT_TEMP_SAMPLE (R81), a step of the device. -/
  | vaultTempSample (v : Nat) (z : Int)
  /-- VAULT_REFRESH (R81), a step of the device. -/
  | vaultRefresh (v : Nat)
  /-- DRAM_TEMP_POLL (R86), a step of the device. -/
  | dramTempPoll (z : Int)
  /-- CAP_MINT_SET (R31), a step of the device. -/
  | capMintSet (a : Nat)
  /-- CAP_MINT_CLEAR (R31), a step of the device. -/
  | capMintClear (a : Nat)
  /-- TLB_INV_ALL (R41), a step of the device. -/
  | tlbInvAll
  /-- TLB_INV_CONTEXT (R41), a step of the device. -/
  | tlbInvContext (ctx : Nat)
  /-- TLB_INV_PAGE (R41), a step of the device. -/
  | tlbInvPage (ctx : Nat) (vpn : Nat)
  /-- TLB_INV_COMPLETE (R41), a step of the device. -/
  | tlbInvComplete
  /-- VAULT_SPLIT_WRITE (R42), a step of the device. -/
  | vaultSplitWrite (v : Nat)
  /-- CORE_SRAM_WRITE (R45), a step of the device. -/
  | coreSramWrite (c : Nat) (v : Nat)
  /-- POOL_MODE_CHANGE (R54), a step of the device. -/
  | poolModeChange (k : Nat) (b : Nat) (m : Nat)
  /-- POOL_DRAIN_COMPLETE (R55), a step of the device. -/
  | poolDrainComplete (k : Nat)
  /-- CSLR_WRITE (R144), a step of the device. -/
  | cslrWrite (k : Nat) (v : Nat)
  /-- POOL_LIMIT_WRITE (R340), a step of the device. -/
  | poolLimitWrite (l : Nat) (n : Nat) (v : Nat)
  /-- RAIL_SWITCH (R395), a step of the device. -/
  | railSwitch (k : Nat) (v : Nat)
  /-- RAIL_SWITCH_DONE (R396), a step of the device. -/
  | railSwitchDone (k : Nat)
  /-- ALARM_SOURCE_ASSERT (R398), a step of the device. -/
  | alarmSourceAssert (i : Nat)
  /-- THROTTLE_RELEASE (R398), a step of the device. -/
  | throttleRelease
  /-- KILL_SEQUENCE (R399), a step of the device. -/
  | killSequence
  /-- KILL_LEVEL_STEP (R399), a step of the device. -/
  | killLevelStep
  /-- DROOP_STRETCH (R400), a step of the device. -/
  | droopStretch (k : Nat)
  /-- BROWNOUT_STOP (R401), a step of the device. -/
  | brownoutStop (k : Nat)
  /-- BROWNOUT_RESUME (R401), a step of the device. -/
  | brownoutResume (k : Nat)
  /-- RETENTION_LOSS (R402), a step of the device. -/
  | retentionLoss (k : Nat)
  /-- CLUSTER_RECOVERY (R402), a step of the device. -/
  | clusterRecovery (k : Nat)
  /-- ENERGY_UPDATE (R403), a step of the device. -/
  | energyUpdate
  /-- ENERGY_LO_READ (R403), a step of the device. -/
  | energyLoRead (who : Nat) (i : Nat)
  /-- WINDOW_LOW_HALF_WRITE (R434), a step of the device. -/
  | windowLowHalfWrite (who : Nat) (off : Nat) (v : Nat)
  /-- WINDOW_HIGH_HALF_WRITE (R434), a step of the device. -/
  | windowHighHalfWrite (who : Nat) (off : Nat) (v : Nat)
  /-- WINDOW_LOW_HALF_READ (R434), a step of the device. -/
  | windowLowHalfRead (who : Nat) (off : Nat)
  /-- HOST_WRITE (R122), a step of the device. -/
  | hostWrite (a : Nat) (bs : List Nat)
  /-- HOST_READ (R405), a step of the device. -/
  | hostRead (a : Nat) (n : Nat)
  /-- PEER_ACCESS (R124), a step of the device. -/
  | peerAccess (op : Nat) (a : Nat) (n : Nat) (v : Nat)
  /-- PEER_WRITE_ACK (R124), a step of the device. -/
  | peerWriteAck (w : Nat)
  /-- REDUCTION_MERGED_WRITE (R125), a step of the device. -/
  | reductionMergedWrite (r : Nat) (off : Nat) (vs : List Nat)
  /-- PEER_UNREACHABLE (R407), a step of the device. -/
  | peerUnreachable (d : Nat)
  /-- RWIN_BASE_WRITE (R408), a step of the device. -/
  | rwinBaseWrite (r : Nat) (v : Nat)
  /-- CP_FENCE (R121), a step of the device. -/
  | cpFence (who : Nat)
  /-- ATTEST (R411), a step of the device. -/
  | attest
  /-- LOAD_TRANSLATOR (R409), a step of the device. -/
  | loadTranslator
  /-- ENROLL (R410), a step of the device. -/
  | enroll
  /-- WARM_START (R413), a step of the device. -/
  | warmStart
  /-- LOAD_FIRMWARE (R412), a step of the device. -/
  | loadFirmware
  /-- MBOX_COMMAND_COMPLETE (R412), a step of the device. -/
  | mboxCommandComplete
  /-- COLD_START (R413), a step of the device. -/
  | coldStart
  /-- MGMT_WATCHDOG_WARM_START (R413), a step of the device. -/
  | mgmtWatchdogWarmStart
  /-- HOLD_SET (R439), a step of the device. -/
  | holdSet (c : Nat)
  /-- CORE_HOLD_CLEAR (R440), a step of the device. -/
  | coreHoldClear (c : Nat)
  /-- SCAN_TEST_START (R440), a step of the device. -/
  | scanTestStart (c : Nat) (pat : Nat) (prio : Nat)
  /-- SCAN_TEST_COMPLETE (R440), a step of the device. -/
  | scanTestComplete
  /-- TICK_INTERRUPT (R443), a step of the device. -/
  | tickInterrupt
  /-- TICK_CMP_WRITE (R443), a step of the device. -/
  | tickCmpWrite (v : Nat)
  /-- REGISTER_WRITE (R7), a step of the device. -/
  | registerWrite (who : Nat) (off : Nat) (v : Nat)
  /-- ALARM_SOURCE_CLEAR (R398), a step of the device. -/
  | alarmSourceClear (i : Nat)
  /-- RELEASE_WAIT_END (R111), a step of the device. -/
  | releaseWaitEnd (w : Nat)
  /-- MMA_ACCEPT (R311), a step of the device. -/
  | mmaAccept (k : Nat)
  /-- PEER_REACHABLE (R406), a step of the device. -/
  | peerReachable (d : Nat) (port : Nat)
  /-- PER_BANK_REFRESH (R86), a step of the device. -/
  | perBankRefresh (sc : Nat)
  /-- DROOP_END (R400), a step of the device. -/
  | droopEnd (k : Nat)
  /-- CL_TEMP_REFRESH (R443), a step of the device. -/
  | clTempRefresh (k : Nat) (z : Int)
  /-- SCHED_ASSIST_COMPLETE (R437), a step of the device. -/
  | schedAssistComplete
  /-- CANCEL_DROP_COMPLETE (R338), a step of the device. -/
  | cancelDropComplete (w : Nat)
  /-- FAULT_N_PULSE_END (R402), a step of the device. -/
  | faultNPulseEnd
deriving DecidableEq, Repr

end Sys2Proof
end

