-- ==== Sys2Proof/Machine/State.lean ====
section
/-! DEFINITION. The state of the KG940 as plain data, the reasons for which a step can stop, and the state
right after a cold start. INVENTORY.md lists every field with its rule and its reset value.

Numbers that index units: core 0 to 127, cluster 0 to 31 (R12). A crew has a number of its own; group g of
crew w has the key 8w + g; formation slot x of a group has the wave key 8 * group + x; thread number
32 * home wave + lane (R163). -/

namespace Sys2Proof.Machine

open Sys2Proof

/-! ### Registers of a wave, a group and a thread -/

/-- The condition code CC (R190); bits 10:8 are reserved and read zero. -/
structure Cc where
  z : Bool
  n : Bool
  c : Bool
  v : Bool
  mz : Bool
  status : Nat
deriving DecidableEq, Repr

/-- CC at every segment entry (R189, R190). -/
def Cc.zero : Cc := { z := false, n := false, c := false, v := false, mz := false, status := 0 }

/-- A capability: 128 bits and a tag (R21). -/
structure Capv where
  bits : BitVec 128
  tag : Bool
deriving DecidableEq, Repr

/-- A k register with all bits zero and tag 0 (R34). -/
def Capv.null : Capv := { bits := 0, tag := false }

/-- Where a live thread is (R162, R167, R172, R174). -/
inductive Place where
  /-- The thread is not live. -/
  | dead
  /-- In the formed wave that holds this slot of the group. -/
  | formed (slot : Nat)
  /-- In the bucket of a segment: its arrival in cycles, and the number of its release batch (0: of none). -/
  | bucket (seg : Nat) (arrival : Nat) (batch : Nat)
  /-- Held at a meeting segment. -/
  | held (seg : Nat)
deriving DecidableEq, Repr

/-- A thread: slices n0 to n1023, predicates, MEET, place, whether it was sent to salvage (R182), the poisoned rows of
its slices (R388), and the MAXW, the accounts and the fence gate of the wave it left (R110, R113). -/
structure Thread where
  slices : Tab Nib
  preds : Tab Bool
  meetSeg : Nat
  meetOuter : Nat
  meetCur : Nat
  place : Place
  sent : Bool
  poisonRows : List Nat
  maxw : Nat
  accts : List Nat
  gate : Option Nat
deriving DecidableEq, Repr

/-- A thread that is not live (before crew start, and after its end). -/
def Thread.idle : Thread :=
  { slices := [], preds := [], meetSeg := 4095, meetOuter := 4095, meetCur := 4095, place := .dead
    sent := false, poisonRows := [], maxw := 0, accts := [], gate := none }

/-- What a fork waits for (R103, R106): the writes that a wave had issued before the word with this serial number, the
accounts its lanes brought, and the largest GWCT known; with no wave only the GWCT. -/
structure Fork where
  wave : Option Nat
  ser : Nat
  accts : List Nat
  maxw : Nat
deriving DecidableEq, Repr

/-- A task record (R334): its eight 8-byte words, the launch it belongs to, and what its dispatch waits for (R106).
Queues hold records in the order of their arrival. -/
structure TaskRec where
  words : List Nat
  launch : Nat
  fork : Fork
deriving DecidableEq, Repr

/-- What a group register held before a write (R192): the register, its old value, the wave that wrote, and the serial number of
the write in its group. -/
structure Past (α : Type) where
  reg : Nat
  old : α
  writer : Nat
  serial : Nat
deriving DecidableEq, Repr

/-- The writes of a group's waves to its shared registers, newest first, and their number; released holds, by wave, the latest of its
writes that a release follows (R192). -/
structure History where
  s : List (Past W64)
  k : List (Past Capv)
  vw : List (Past W64)
  writes : Nat
  released : Tab Nat
deriving DecidableEq, Repr

/-- No write. -/
def History.none : History := { s := [], k := [], vw := [], writes := 0, released := [] }

/-- A group: its threads, the shared registers, the quotas, the size of its slice pool with the units of the partition's file
that make it up and the units of each home wave, first to last (R163, R200), the task it runs, and the release batches so far
(R174). -/
structure Group where
  threads : Tab Thread
  s : Tab W64
  k : Tab Capv
  vw : Tab W64
  hist : History
  quota : Tab Nat
  pool : Nat
  poolUnits : List Nat
  units : Tab (List Nat)
  task : Option TaskRec
  batches : Nat
  waitingRel : List TaskRec
  retired : Bool
deriving DecidableEq, Repr

/-- A group before its crew starts. -/
def Group.idle : Group :=
  { threads := [], s := [], k := [], vw := [], hist := History.none, quota := [], pool := 0, poolUnits := [], units := [], task := none, batches := 0
    waitingRel := [], retired := true }

/-- A long-class result not yet written (R195): slice cells and predicate cells, as (thread, cell, value). -/
structure LongRes where
  cells : List (Nat × Nat × Nib)
  prds : List (Nat × Nat × Bool)
deriving DecidableEq, Repr

/-- A write on its way to its home (R91, R108): the bytes (address in the unified memory, mask, value) of one
single-copy-atomic piece, the tag that a capability store sets, the serial number of the word that sent it and the lane. -/
structure PWrite where
  lane : Nat
  ser : Nat
  cells : List (Nat × Byte × Byte)
  tag : Option Bool
deriving DecidableEq, Repr

/-- Writes that a wave left in flight when it ended at NEXT, NEXTU or EXIT (R110, R165): its launch, its key and the
serial number of its forming, the writes, the largest GWCT that they returned, and the addresses of the peer writes not yet acknowledged. -/
structure Account where
  launch : Nat
  wave : Nat
  born : Nat
  out : List PWrite
  maxw : Nat
  peerOut : List Nat
deriving DecidableEq, Repr

/-- What a lane's trap frame holds (R347, TF_LANE). -/
structure TrapLane where
  cause : Cause
  space : Nat
  cap : Nat
  addr : Nat
deriving DecidableEq, Repr

/-- The trap frame with what R372 saves; skip is how many words TRET.skip passes (R348), rerun the lanes in which a
retry runs the word again (none: every lane that is active then, R377). -/
structure TrapFrame where
  cause : Cause
  seg : Nat
  word : Nat
  info : Nat
  active : Nat
  fault : Nat
  lanes : Tab TrapLane
  isPartial : Bool
  rerun : Option Nat
  skip : Nat
  cc : Cc
  lc : Tab Nat
  wd : Nat
deriving DecidableEq, Repr

/-- A speculative fence in progress (R114 to R120). -/
structure Spec where
  scope : Nat
  ckPreds : Tab (Tab Bool)
  ckCc : Cc
  ckLc : Tab Nat
  undo : List (Nat × Nat × Nib)
  watches : List Nat
  stores : List (List PWrite)
  rollbacks : Nat
  conflict : Bool
  seg : Nat
  word : Nat
deriving DecidableEq, Repr

/-- Why a wave or a sequencer is parked (R366). A word that goes on by itself when its wait has ended keeps its switch
marker here. -/
inductive Park where
  /-- Not parked. -/
  | run
  /-- At a marker, or at NEXT, NEXTU or EXIT, until its long-class results are written. -/
  | marker
  /-- In BWAIT on the object at an address of the unified memory, for a phase, since a time: cycles of its cluster for a wave,
  DT for a sequencer. -/
  | bwait (addr : Nat) (phase : Nat) (since : Nat) (mark : Bool)
  /-- In the release queue of its cluster with the STATUS that its wait observed (R134, R145), waiting since a time. -/
  | queued (addr : Nat) (phase : Nat) (status : Nat) (since : Nat) (mark : Bool)
  /-- During the release or fence wait of a scope (R111). -/
  | release (scope : Nat)
  /-- Speculative, at an instruction that waits for the fence (R116). -/
  | spec
  /-- During IINV, with its reach (R290). -/
  | iinv (reach : Nat) (mark : Bool)
  /-- After SUCC, until the releases of its lanes are placed (R337). -/
  | succ (mark : Bool)
  /-- At CANCEL, until its drop is complete (R338): destination and count. -/
  | cancel (d : Nat) (n : Nat) (mark : Bool)
  /-- During the wait of a shrinking RQUOTA (R201). -/
  | quota
deriving DecidableEq, Repr

/-- The level of a wave (R372). -/
inductive Level where
  | thread
  | trap
deriving DecidableEq, Repr

/-- A lane's access: lane, thread, offset, and the places of its bytes. -/
structure LaneAcc where
  lane : Nat
  thread : Nat
  off : Nat
  keys : List (Nat × Nat)
deriving DecidableEq, Repr

/-- A load whose accesses have been sent and of which a part has performed (R91, R377, R407): its instruction, active mask and
accesses, and the bytes returned so far, each by lane and place, with its poison. -/
structure Sent where
  instr : Instr
  mask : Nat
  accs : List LaneAcc
  got : Tab (Nat × Byte × Bool)
deriving DecidableEq, Repr

/-- What a wave keeps of a word that it has issued and not passed: the k registers as the word read them (R27), and a load that has
performed in part. -/
structure Held where
  k : Tab Capv
  load : Option Sent
deriving DecidableEq, Repr

/-- A formed wave: its lanes (lane to home wave), segment and word, CC, LC, MAXW, watchdog count and waits; accts names
the accounts of the waves its lanes come from; know holds, by wave, the latest of its group's writes that
comes before its reads (R192); readyAt is the cycle in which it last became ready or left the active set (R367); held keeps what a word read
that waits for a release or has performed in part (R27, R91). -/
structure Wave where
  lanes : Tab Nat
  seg : Nat
  word : Nat
  level : Level
  born : Nat
  cc : Cc
  lc : Tab Nat
  maxw : Nat
  wdBase : Nat
  wdSince : Nat
  park : Park
  active : Bool
  order : Nat
  lastPark : Nat
  readyAt : Nat
  pend : List LongRes
  out : List PWrite
  peerOut : List Nat
  accts : List Nat
  know : Tab Nat
  relGate : Option Nat
  spec : Option Spec
  frame : Option TrapFrame
  retry : Option Nat
  succRel : List TaskRec
  held : Option Held
deriving DecidableEq, Repr

/-- An empty formation slot. -/
def Wave.empty : Wave :=
  { lanes := [], seg := 0, word := 0, level := .thread, born := 0, cc := Cc.zero, lc := [], maxw := 0, wdBase := 0
    wdSince := 0, park := .run, active := false, order := 0, lastPark := 0, readyAt := 0, pend := [], out := [], peerOut := []
    accts := [], know := [], relGate := none, spec := none, frame := none, retry := none, succRel := [], held := none }

/-! ### Crews, cores and clusters -/

/-- FLS_c of R155 without its computed fields. -/
structure Fls where
  idxErr : Bool
  stopped : Bool
  firstRow : Nat
  firstRec : Nat
deriving DecidableEq, Repr

/-- FLS at reset (R155). -/
def Fls.zero : Fls := { idxErr := false, stopped := false, firstRow := 0, firstRec := 0 }

/-- A crew on its core (R158, R161): its launch, place, scratchpad run, life and status registers; the number of heads it
has kicked, the GRID objects whose local condition holds with that number then (R142), those whose arrival was sent, and
whether the deadline has acted on it (R364, R365). -/
structure Crew where
  launch : Nat
  core : Nat
  index : Nat
  lx : Nat
  ly : Nat
  spStart : Nat
  spSize : Nat
  commanded : Bool
  started : Bool
  ended : Bool
  killed : Bool
  fls : Tab Fls
  kicks : Nat
  gridHeld : Tab Nat
  gridSent : List Nat
  gridLeft : Bool
  deadlined : Bool
deriving DecidableEq, Repr

/-- A line of the L1 data cache with its lease (R46, R107): bytes, tag and poison bits of the copy. -/
structure L1Line where
  line : Nat
  expiry : Nat
  bytes : List Byte
  tags : Nat
  poison : Nat
deriving DecidableEq, Repr

/-- A line of the L1 instruction cache or a fetch buffer (R47): 64 bytes and a poison bit for each word. -/
structure ILine where
  line : Nat
  bytes : List Byte
  poison : Nat
deriving DecidableEq, Repr

/-- A translation held by a TLB (R39): context, page number in units of 64 KiB or 2 MiB, the leaf entry. -/
structure TlbEntry where
  ctx : Nat
  big : Bool
  vpn : Nat
  leaf : Nat
deriving DecidableEq, Repr

/-- A line asked for by PREF (R284): physical line, lease class, level 0 for the L1 and 1 for the L2. -/
structure PrefReq where
  line : Nat
  cls : Nat
  level : Nat
deriving DecidableEq, Repr

/-- A prefetch that waits for a translation (R284): core, level of the prefetch, and address. -/
structure Waiter where
  core : Nat
  level : Nat
  va : Nat
deriving DecidableEq, Repr

/-- An entry of a cluster's miss table, or a miss that waits for one (R39): context, 64 KiB page, the chain of its waiters,
and whether the walker has taken its walk (R40). -/
structure Miss where
  ctx : Nat
  page : Nat
  waiters : List Waiter
  walking : Bool
deriving DecidableEq, Repr

/-- A pointer entry that the walker caches (R40): context, level 0 to 2, the address bits that index down to it, the entry. -/
structure PtrEntry where
  ctx : Nat
  level : Nat
  index : Nat
  entry : Nat
deriving DecidableEq, Repr

/-- A kicked chain head (R147): crew, chain capability, offset of its first record, its number among the crew's heads,
what its forwarding waits for (R103), and whether it has been forwarded. -/
structure Head where
  crew : Nat
  cap : Capv
  off : Nat
  kick : Nat
  fork : Fork
  forwarded : Bool
deriving DecidableEq, Repr

/-- The credit that a record owes its barrier once DT is later than the completion of its writes (R104, R150, R153): the
object's place, the bytes (none for a SHAPE record, which credits PENDBYTES), ERR, whether the chain ends then, and the record's
chain offset. -/
structure Credit where
  place : Nat
  bytes : Option Nat
  err : Bool
  maxw : Nat
  last : Bool
  off : Nat
deriving DecidableEq, Repr

/-- The chain that a channel runs or a cancelled one (R150, R156): the offset of its next record, its number among the
crew's heads, what its accesses wait for (R103), and the credit that its last record owes. -/
structure Chain where
  crew : Nat
  cap : Capv
  off : Nat
  kick : Nat
  fork : Fork
  credit : Option Credit
deriving DecidableEq, Repr

/-- A flume channel (R146, R147): queued heads, the running chain, and the chains that FLC left to be walked. -/
structure Channel where
  heads : List Head
  chain : Option Chain
  cancelled : List Chain
deriving DecidableEq, Repr

/-- A channel with nothing kicked. -/
def Channel.idle : Channel := { heads := [], chain := none, cancelled := [] }

/-- SWAP_CTL and the saved context of a core (R384 to R386): the crews whose waves the shadow holds, and the partitions
whose slot has lost data (R66); copyAt is the cycle in which the copy began, going the crews that a save takes,
and dir the way of the operation under way, where ask is DIR as it was last written. -/
structure Swap where
  busy : Bool
  dir : Bool
  held : Bool
  status : Nat
  haltNs : Nat
  goAt : Nat
  halted : Bool
  saved : List Nat
  lost : List Nat
  copying : Bool
  copyAt : Nat
  ask : Bool
  going : List Nat
deriving DecidableEq, Repr

/-- SWAP_CTL at reset (R384). -/
def Swap.zero : Swap :=
  { busy := false, dir := false, held := false, status := 0, haltNs := 0, goAt := 0, halted := false, saved := [], lost := []
    copying := false, copyAt := 0, ask := false, going := [] }

/-- A core (R15). -/
structure CoreSt where
  split : Nat
  l1d : List L1Line
  l1i : List ILine
  fbufs : Tab (List ILine)
  tlb : List TlbEntry
  prefs : List PrefReq
  channels : Tab Channel
  headrace : List TaskRec
  swap : Swap
  lostCycles : Nat
  savedAt : Nat
deriving DecidableEq, Repr

/-- A core at reset. -/
def CoreSt.reset : CoreSt :=
  { split := 0, l1d := [], l1i := [], fbufs := [], tlb := [], prefs := [], channels := [], headrace := [], swap := Swap.zero
    lostCycles := 0, savedAt := 0 }

/-- A tensor descriptor in a slot of a cluster's table (R57, R58). -/
structure Tensor where
  launch : Nat
  base : Nat
  tid : Nat
  rowPitch : Nat
  width : Nat
  height : Nat
  depth : Nat
  lease : Nat
  planePitch : Nat
deriving DecidableEq, Repr

/-- A tile line (R56, R59, R61): slot, coordinates, way, lease, its 1,024 bytes, poison words, recency. -/
structure TileLine where
  slot : Nat
  tx : Nat
  ty : Nat
  tz : Nat
  bank : Nat
  expiry : Nat
  bytes : List Byte
  poison : List Nat
  used : Nat
deriving DecidableEq, Repr

/-- A tile fill in flight (R60), with the bank it goes to and whether that bank drains (R55). -/
structure TileFill where
  slot : Nat
  tx : Nat
  ty : Nat
  tz : Nat
  bank : Nat
  drop : Bool
  expiry : Nat
  bytes : List Byte
  poison : List Nat
deriving DecidableEq, Repr

/-- Format tags of a weight unit (R306). -/
inductive WTag where
  | none
  | w4g
  | w3g
  | e4m3
  | e4m3b
deriving DecidableEq, Repr

/-- A reservation (R303, R304) with its absolute start. -/
structure Resv where
  fmt : Nat
  length : Nat
  start : Nat
  scaleOff : Nat
  rows : Nat
deriving DecidableEq, Repr

/-- An accepted or stalled MMA (R309 to R311), its fields taken at issue: post is the place of its post-scales in the
operand buffer, region marks one of an idempotent region, notBefore is NOTBEFORE (R103), snap holds the bytes of the
operand buffer that it reads, each with its damage, as they stood when it could first read them (R302, R319; nothing before),
fixed says that these are the bytes which it has read, entered is the cycle of the cluster's clock at which its last row has
entered the array (R311; none before the first can), and done lists the accumulator elements, row × 256 + column, that a thread
has read with its result (R100, R302). -/
structure MmaOp where
  zero : Bool
  post : Option Nat
  resv : Resv
  slot : Nat
  arow : Nat
  unit : Nat
  acc : Nat
  m : Nat
  pslot : Nat
  bfmt : WTag
  region : Bool
  notBefore : Nat
  snap : List (Byte × Bool)
  fixed : Bool
  entered : Option Nat
  done : List Nat
deriving DecidableEq, Repr

/-- An outstanding MLDB (R307): unit, format, the places of its source in the unified memory as (start, length), NOTBEFORE
(R103), and the bytes of its source, each with its poison, as they stood when it could first read them (nothing before). -/
structure MldbOp where
  unit : Nat
  fmt : Nat
  runs : List (Nat × Nat)
  notBefore : Nat
  snap : List (Byte × Bool)
  region : Bool
deriving DecidableEq, Repr

/-- A row deposited in a cistern (R342): bytes, poison words, the place of its future, its crew, and its fork (R103). -/
structure CisRow where
  bytes : List Byte
  future : Nat
  crew : Nat
  poison : List Nat
  fork : Fork
deriving DecidableEq, Repr

/-- A cistern of a cluster (R316, R342): the open rows, the ready tiles, the taken tile, the armed barrier, and the arrivals due
on an object for tiles with deposits that R103 still holds. -/
structure Cistern where
  openRows : List CisRow
  firstAt : Nat
  ready : List (List CisRow)
  taken : Option (List CisRow)
  armed : Option Nat
  due : List (Nat × List Fork)
deriving DecidableEq, Repr

/-- A cistern that holds nothing. -/
def Cistern.empty : Cistern := { openRows := [], firstAt := 0, ready := [], taken := none, armed := none, due := [] }

/-- The state of a matrix sequencer (R298 to R301, R312 to R322). -/
structure Seq where
  launch : Option Nat
  run : Bool
  stop : Bool
  idem : Bool
  derr : Bool
  fault : Bool
  dcount : Nat
  seqDerr : Nat
  seqFault : Nat
  preamble : Bool
  deadline : Bool
  s : Tab W64
  k : Tab Capv
  cc : Cc
  lc : Tab Nat
  maxw : Nat
  seg : Nat
  word : Nat
  park : Park
  resv : Tab Resv
  lb : Tab Nat
  iv : Tab Nat
  cf : Tab Int
  idemRec : Option (Nat × Nat × Tab Nat × Tab Nat)
  mmas : List MmaOp
  stalled : Option MmaOp
  mldbs : List MldbOp
  copying : Bool
  relGate : Option Nat
deriving DecidableEq, Repr

/-- A sequencer with no program: reset, and what R298 prepares. -/
def Seq.idle : Seq :=
  { launch := none, run := false, stop := false, idem := false, derr := false, fault := false, dcount := 0
    seqDerr := 0, seqFault := 0, preamble := false, deadline := false, s := [], k := [], cc := Cc.zero, lc := []
    maxw := 0, seg := 0, word := 0, park := .run, resv := [], lb := [], iv := [], cf := [], idemRec := none
    mmas := [], stalled := none, mldbs := [], copying := false, relGate := none }

/-- A request forwarded to the ROE or the CBE (R324, R325); done holds RESULT, STATUS and the latest write completion time
of one whose lanes have been served (R104). -/
structure EngReq where
  kind : Nat
  core : Nat
  crew : Nat
  launch : Nat
  kq : Capv
  ko : Capv
  kf : Capv
  kqIndex : Nat
  req : Nat
  res : Nat
  fut : Nat
  obj : Nat
  mask : Nat
  fork : Fork
  done : Option (Nat × Nat × Nat)
deriving DecidableEq, Repr

/-- A cluster clock (R3): cycles counted in fortieths up to a DT, and the rate in fortieths per ns from then. -/
structure Clock where
  base : Nat
  since : Nat
  rate : Nat
deriving DecidableEq, Repr

/-- POOL_CMD of R54 without GO; run is the bank and the mode of the change in progress. -/
structure PoolCmd where
  busy : Bool
  status : Nat
  newMode : Nat
  bank : Nat
  run : Nat × Nat
deriving DecidableEq, Repr

/-- RAIL_CTL of R395 without GO; going is the rail of the switch under way, next the one that a scheduler core switches to once a switch under way has ended (R359). -/
structure RailCtl where
  busy : Bool
  status : Nat
  target : Nat
  rail : Nat
  going : Nat
  next : Option Nat
deriving DecidableEq, Repr

/-- What waits in the staging buffer of a launch in a cluster, or in its spillway (R360, R363). -/
inductive Spilled where
  /-- A task record or a successor release, and its core. -/
  | task (core : Nat) (r : TaskRec)
  /-- A flume head, its core and its channel. -/
  | head (core : Nat) (ch : Nat) (h : Head)
deriving DecidableEq, Repr

/-- A cluster (R16). -/
structure ClusterSt where
  modes : Tab Nat
  bankOwner : Tab Nat
  cmd : PoolCmd
  tiles : List TileLine
  fills : List TileFill
  tensors : Tab Tensor
  tlb : List TlbEntry
  misses : List Miss
  wtags : Tab WTag
  seq : Seq
  roe : List EngReq
  cbe : List EngReq
  cisterns : Tab Cistern
  cslrEstimate : Nat
  cslrStep : Nat
  cslrLimit : Nat
  allow : Nat
  rail : RailCtl
  temp : Nat
  relQ : List Nat
  sluiceAt : Option Nat
  nearErr : Nat
  nearCe : Nat
  clock : Clock
  brownout : Bool
  lost : Bool
  droop : Bool
  staging : Tab (List Spilled)
  energy : Nat
  caches : Tab (List Nat)
deriving DecidableEq, Repr

/-- A cluster at reset: the bank modes of R51 are those of an empty table (Machine/Near.lean reads them). -/
def ClusterSt.reset : ClusterSt :=
  { modes := [], bankOwner := [], cmd := { busy := false, status := 0, newMode := 0, bank := 0, run := (0, 0) }
    tiles := [], fills := [], tensors := [], tlb := [], misses := [], wtags := [], seq := Seq.idle, roe := [], cbe := []
    cisterns := [], cslrEstimate := 30, cslrStep := 7, cslrLimit := 60, allow := 8
    rail := { busy := false, status := 0, target := 0, rail := 0, going := 0, next := none }, temp := 0, relQ := [], sluiceAt := none
    nearErr := 0, nearCe := 0, clock := { base := 0, since := 0, rate := 56 }, brownout := false, lost := false
    droop := false, staging := [], energy := 0, caches := [] }

/-! ### Memory -/

/-- The unified memory: bytes, capability tags by 16-byte granule, poisoned 8-byte words, and armed granules.
Physical addresses lie below 2^48; the near memories lie above (Machine/Ops.lean gives their places). -/
structure Store where
  bytes : Tab Byte
  tags : List Nat
  poison : List Nat
  armed : List Nat
deriving DecidableEq, Repr

/-- An L2 tag (R70 to R77): 128-byte line, way of its set, whether it stands second in its frame, the latest
lease expiry, dirty, recency. -/
structure L2Tag where
  line : Nat
  frame : Nat
  second : Bool
  expiry : Nat
  dirty : Bool
  used : Nat
deriving DecidableEq, Repr

/-- A vault (R81 to R85): reading, refresh class, RESV, whether it is out of service, the rows of the repair map, and the
corrected errors of each row since the last cold start. -/
structure Vault where
  temp : Int
  cls : Nat
  resv : Nat
  out : Bool
  repair : List Nat
  rowErrs : Tab Nat
  refreshes : Nat
deriving DecidableEq, Repr

/-- A vault at reset (R82). -/
def Vault.reset : Vault := { temp := 0, cls := 0, resv := 0, out := false, repair := [], rowErrs := [], refreshes := 0 }

/-- An arrival that a completed future owes its object once DT is later than the completion of the future's writes (R104, R137):
the object's place and crew, and that time. -/
structure DueArrival where
  place : Nat
  crew : Nat
  after : Nat
deriving DecidableEq, Repr

/-- The memory system beyond the clusters. -/
structure MemSys where
  store : Store
  l2 : List L2Tag
  floors : Tab Nat
  farErr : Tab Nat
  vaults : Tab Vault
  dramOut : Bool
  dramTemp : Int
  dramRefreshes : Tab Nat
  dramCe : Tab Nat
  l2Ce : Tab Nat
  ptrs : List PtrEntry
  walkTurn : Nat
  arrivals : List DueArrival
  accounts : Tab Account
  nextAcct : Nat
deriving DecidableEq, Repr

/-! ### Launches -/

/-- A segment table entry (R246). -/
structure Segment where
  first : Nat
  len : Nat
  meetSeg : Bool
  seq : Bool
deriving DecidableEq, Repr

/-- A binding table entry (R32) with its initial data; none is zero-filled. -/
structure Binding where
  space : Nat
  target : Option Nat
  perm : Nat
  size : Nat
  tid : Nat
  align : Nat
  place : Nat
  slot : Nat
  init : List Byte
deriving DecidableEq, Repr

/-- A BARRIERS entry (R245). -/
structure BarrierDecl where
  offset : Nat
  gridid : Nat
  settle : Nat
  lx : Nat
  ly : Nat
deriving DecidableEq, Repr

/-- A POOLS entry (R245). -/
structure PoolDecl where
  index : Nat
  log2 : Nat
  slot : Nat
deriving DecidableEq, Repr

/-- A CISTERNS entry (R245). -/
structure CisternDecl where
  index : Nat
  thresh : Nat
  flushNs : Nat
  rowBytes : Nat
deriving DecidableEq, Repr

/-- A verified module (R245 to R249): what the scheduler and the partitions read of it; words are its code words as they were signed, and
code is the native image that the translator of a digest made of them (R238, R409). -/
structure Module where
  digest : Nat
  translator : Nat
  level : Nat
  words : List Nat
  code : List Nat
  segs : List Segment
  binds : List Binding
  views : List Nat
  barriers : List BarrierDecl
  pools : List PoolDecl
  cisterns : List CisternDecl
  entry : Nat
  salvage : Nat
  seqEntry : Nat
  poolP : Nat
  quota : List Nat
  scratch : Nat
  banks : Nat
  traps : List Nat
deriving DecidableEq, Repr

/-- The module of a launch before one is verified. -/
def Module.none : Module :=
  { digest := 0, translator := 0, level := 24, words := [], code := [], segs := [], binds := [], views := [], barriers := [], pools := []
    cisterns := [], entry := 0, salvage := 4095, seqEntry := 4095, poolP := 0, quota := [], scratch := 0
    banks := 0, traps := [] }

/-- The fields of a launch record (R352). -/
structure LaunchRec where
  mod_ : Nat
  digest8 : Nat
  ctx : Nat
  prio : Nat
  task : Bool
  reloc : Bool
  rail : Nat
  intlv : Bool
  ownv : Bool
  ex : Nat
  ey : Nat
  cpc : Nat
  gpc : Nat
  wpg : Nat
  ox : Nat
  oy : Nat
  xstep : Nat
  ystep : Nat
  split : Nat
  banks : Nat
  dgrace : Nat
  scratch : Nat
  vbw : Nat
  vmask : Nat
  ageMax : Nat
  segLim : Nat
  ntensor : Nat
  deadline : Nat
  tensors : Nat
  args : Nat
  spillBase : Nat
  spillPages : Nat
  bestOff : Nat
  waitEv : Nat
  waitVal : Nat
  sigEv : Nat
  bestSlot : Nat
  tag : Nat
deriving DecidableEq, Repr

/-- A launch record with every field zero. -/
def LaunchRec.zero : LaunchRec :=
  { mod_ := 0, digest8 := 0, ctx := 0, prio := 0, task := false, reloc := false, rail := 0, intlv := false
    ownv := false, ex := 1, ey := 1, cpc := 1, gpc := 1, wpg := 1, ox := 0, oy := 0, xstep := 1, ystep := 1
    split := 0, banks := 0, dgrace := 0, scratch := 0, vbw := 0, vmask := 0, ageMax := 0, segLim := 0, ntensor := 0
    deadline := 0, tensors := 0, args := 0, spillBase := 0, spillPages := 1, bestOff := 0, waitEv := 0
    waitVal := 0, sigEv := 0, bestSlot := 0xFFFFFFFF, tag := 0 }

/-- Where a launch stands between its record and its completion (R349 to R365). -/
inductive Phase where
  /-- Waiting for its event word (R355). -/
  | waiting
  /-- Waiting for placement, set aside or not (R356). -/
  | ready
  /-- Placed (R359). -/
  | placed
  /-- Ended: its completion record is due, not yet written (R354). -/
  | due
  /-- Its completion record has been written. -/
  | done
deriving DecidableEq, Repr

/-- A node pool of a launch (R340): bump index, limit, and the list of freed nodes linked in memory. -/
structure NodePool where
  next : Nat
  limit : Nat
  freed : List Nat
deriving DecidableEq, Repr

/-- A grid-barrier instance (R139, R140): crews still missing, its phase, its crews, and those whose arrival for the phase
has been counted. -/
structure GridInst where
  pending : Nat
  phase : Nat
  crews : List Nat
  arrived : List Nat
deriving DecidableEq, Repr

/-- A launch (R352 to R365): at_ is the DT at which its record was made visible (R356), saving the cores that it has asked to
save (R382), placeSlot and stageSlot its open placement and stage slots (R436), dueSeq its place in the order in which
completions fell due (R371). -/
structure Launch where
  rec_ : LaunchRec
  queue : Nat
  mod_ : Module
  phase : Phase
  asideAt : Option Nat
  at_ : Nat
  ox : Nat
  oy : Nat
  codeBase : Nat
  capTable : Nat
  bindBase : Tab Nat
  poolBase : Tab Nat
  tensors : List Tensor
  pools : Tab NodePool
  grids : Tab GridInst
  ring : List Spilled
  ringHead : Nat
  ringMapped : Nat
  deadlineFell : Bool
  endStatus : Option (Nat × Nat)
  ending : Bool
  saving : List Nat
  placeSlot : Option Nat
  stageSlot : Option Nat
  dueSeq : Nat
  maxw : Nat
deriving DecidableEq, Repr

/-! ### Device registers -/

/-- A host command queue (R349); bells holds the doorbells whose records are not all taken, as TAIL and DT (R356). -/
structure HostQ where
  base : Nat
  log2n : Nat
  tail : Nat
  head : Nat
  crBase : Nat
  crTail : Nat
  crHead : Nat
  bells : List (Nat × Nat)
deriving DecidableEq, Repr

/-- A host queue at reset (R349). -/
def HostQ.reset : HostQ :=
  { base := 0, log2n := 0, tail := 0, head := 0, crBase := 0, crTail := 0, crHead := 0, bells := [] }

/-- A record in the device-side launch queue (R339): its 128 bytes, what its dispatch waits for (R106), and the DT
of its LAUNCH (R356). -/
structure DevRec where
  bytes : List Byte
  launch : Nat
  fork : Fork
  at_ : Nat
deriving DecidableEq, Repr

/-- Registers of scheduling and take-over (R350, R351, R370, R435 to R437); completions that fell due before the number
replayDue are written in that order (R371); tookAt is the DT of the last TAKE, and gridJrn says that a change of a grid descriptor
has not been journaled yet (R370). -/
structure SchedRegs where
  queues : Tab HostQ
  kick : Nat
  devQ : List DevRec
  primary : Nat
  replay : Bool
  standbyOk : Bool
  takeovers : Nat
  failed : Bool
  gridPort : List (Nat × Nat)
  gridRel : List (Nat × Nat)
  ckpt : Nat
  jtail : Nat
  assistBusy : Bool
  assistStatus : Nat
  assistOp : Nat
  assistSlot : Nat
  replayDue : Nat
  tookAt : Nat
  assistGo : Nat × Nat
  gridJrn : Bool
deriving DecidableEq, Repr

/-- Registers of power, alarms and scan tests (R397 to R399, R439 to R443). -/
structure PowerRegs where
  throttled : Bool
  klevel : Nat
  sticky : Nat
  sources : Nat
  killWindow : Nat
  hold : Nat
  droopLimit : Nat
  alarmAt : Nat
  holdUntil : Nat
  killing : Bool
  killAt : Nat
  holds : List Nat
  scanBusy : Bool
  scanStatus : Nat
  scanPrio : Nat
  scanPattern : Nat
  scanCore : Nat
  scanStart : Nat
  scanAbort : Bool
  scanSig : Nat
  tickCmp : Nat
  tickPend : Bool
  energyDev : Nat
  energyHigh : Nat
  energyLow : Nat
  droops : List Nat
  scanOn : Nat × Nat
  scanDue : Bool
  scanResult : Nat
deriving DecidableEq, Repr

/-- What the endpoint has reported to the host under AER (R405). -/
inductive AerReport where
  /-- A read of a poisoned word was completed with EP set. -/
  | poisonedTlp
  /-- An access through BAR2 reached no address that it may reach, and was not performed. -/
  | unsupportedRequest
deriving DecidableEq, Repr

/-- What the management core has reported to the host (R87, R371). -/
inductive Report where
  /-- The command processor has stopped: the primary failed, and no standby is left. -/
  | commandStopped
  /-- A subchannel failed training, and the external window is out of service. -/
  | externalOut
deriving DecidableEq, Repr

/-- A native image cached under the digests of its module and of the translator that made it, with the place and TOTAL of its module
(R249, R409). -/
structure NativeImage where
  digest : Nat
  translator : Nat
  at_ : Nat
  total : Nat
  code : List Nat
deriving DecidableEq, Repr

/-- Registers of address translation, the host, the fabric and the code contract. -/
structure DevRegs where
  coreLo : Nat
  coreHi : Nat
  ctxBase : Nat
  tlbBusy : Bool
  tlbMode : Nat
  tlbCtx : Nat
  tlbVpn : Nat
  intlv : Nat
  placedOnce : Bool
  aper : Nat
  mboxBusy : Bool
  mboxDone : Bool
  mboxStatus : Nat
  mboxCmd : Nat
  mboxAddr : Nat
  galSelf : Nat
  galLinkup : Nat
  galPresent : Nat
  rwinBase : Tab Nat
  rwinSize : Tab Nat
  writeLatch : Tab Nat
  readLatch : Tab Nat
  ownerKeys : List Nat
  translator : Nat
  firmware : Nat
  fwOk : Bool
  warm : Bool
  msix : List Nat
  faultN : Bool
  memIrq : Bool
  fences : Tab Nat
  loader : Tab Nat
  reserve : Nat
  images : List NativeImage
  reports : List Report
  mboxGo : Nat × Nat
  cpPeer : List (Nat × Nat)
  peerOwed : List Nat
  aer : List AerReport
  hostReply : List Nat × Bool
  lastRead : Tab Nat
  fencing : List Nat
  cpFaults : List Nat
deriving DecidableEq, Repr

/-! ### The whole machine -/

/-- Which agent the next instruction of the table acts for (the model's own). -/
inductive Agent where
  | idle
  | wave (key : Nat)
  | seq (cluster : Nat)
deriving DecidableEq, Repr

/-- One entry of the schedule still to come (the model's own): time passes, a wave or a sequencer issues its
next word, a step of the device happens, or a part of a load performs. -/
inductive Choice where
  | tick (ns : Nat)
  | wave (key : Nat)
  | seq (cluster : Nat)
  | event (i : Instr)
  /-- A part of the load at which a wave stands performs (R91). -/
  | part (key n : Nat)
deriving DecidableEq, Repr

/-- The state of the KG940. -/
structure State where
  dt : Nat
  cur : Agent
  agenda : List Choice
  free : Nat
  waves : Tab Wave
  groups : Tab Group
  crews : Tab Crew
  cores : Tab CoreSt
  clusters : Tab ClusterSt
  launches : Tab Launch
  mem : MemSys
  sched : SchedRegs
  power : PowerRegs
  dev : DevRegs
deriving DecidableEq, Repr

/-- The reasons for which the machine stops. -/
inductive Fault where
  /-- Raised by the meaning of a program word when neither a formed wave nor a running sequencer is selected to
  execute it: the spec gives a word no effect then. Safe: the machine stops where the hardware has nothing to do. -/
  | noAgent
deriving DecidableEq, Repr

/-- The reasons for which an instruction has no meaning here. -/
inductive Refusal where
  /-- Raised by the dispatcher alone, for an instruction whose meaning has not been written. Safe. -/
  | notModelled (mnemonic : String)
deriving DecidableEq, Repr

/-- The scheduling registers at reset (R350, R370, R435, R436, R437). -/
def SchedRegs.reset : SchedRegs :=
  { queues := [], kick := 0, devQ := [], primary := 0, replay := false, standbyOk := true, takeovers := 0
    failed := false, gridPort := [], gridRel := [], ckpt := 0, jtail := 0, assistBusy := false, assistStatus := 0
    assistOp := 0, assistSlot := 0, replayDue := 0, tookAt := 0, assistGo := (0, 0), gridJrn := false }

/-- The power registers at reset (R397, R403, R439, R443). -/
def PowerRegs.reset : PowerRegs :=
  { throttled := false, klevel := 0, sticky := 0, sources := 0, killWindow := 100, hold := 50, droopLimit := 64
    alarmAt := 0, holdUntil := 0, killing := false, killAt := 0, holds := [], scanBusy := false, scanStatus := 0
    scanPrio := 0, scanPattern := 0, scanCore := 0, scanStart := 0, scanAbort := false, scanSig := 0, tickCmp := 0
    tickPend := false, energyDev := 0, energyHigh := 0, energyLow := 0, droops := [], scanOn := (0, 0), scanDue := false, scanResult := 0 }

/-- The other device registers at reset (R14, R35, R41, R42, R405, R406, R408, R412, R434). -/
def DevRegs.reset : DevRegs :=
  { coreLo := Config.fusedCoresLo, coreHi := Config.fusedCoresHi, ctxBase := 0, tlbBusy := false, tlbMode := 0
    tlbCtx := 0, tlbVpn := 0, intlv := 128, placedOnce := false, aper := 0, mboxBusy := false, mboxDone := false, mboxStatus := 0
    mboxCmd := 0, mboxAddr := 0, galSelf := Config.deviceId, galLinkup := 0, galPresent := 0, rwinBase := []
    rwinSize := [], writeLatch := [], readLatch := [], ownerKeys := [], translator := 0, firmware := 0, fwOk := true
    warm := false, msix := [], faultN := true, memIrq := false, fences := [], loader := [], reserve := 1024, images := [], reports := []
    mboxGo := (0, 0), cpPeer := [], peerOwed := [], aer := [], hostReply := ([], false), lastRead := [], fencing := [], cpFaults := [] }

/-- The memory system at reset: nothing listed. -/
def MemSys.reset : MemSys :=
  { store := { bytes := [], tags := [], poison := [], armed := [] }, l2 := [], floors := [], farErr := []
    vaults := [], dramOut := false, dramTemp := 0, dramRefreshes := [], dramCe := [], l2Ce := [], ptrs := [], walkTurn := 0, arrivals := [], accounts := [], nextAcct := 0 }

/-- The machine right after a cold start (R413): DT 0, every register at its reset value, every queue empty. -/
def State.reset : State :=
  { dt := 0, cur := .idle, agenda := [], free := 0, waves := [], groups := [], crews := [], cores := []
    clusters := [], launches := [], mem := MemSys.reset, sched := SchedRegs.reset, power := PowerRegs.reset
    dev := DevRegs.reset }

end Sys2Proof.Machine
end

