-- ==== Sys2Proof/Machine/Regs.lean ====
section
/-! DEFINITION. Access to the parts of the state: units by number, the cluster clock, the registers of a wave,
a group and a thread, with the special behaviour of each in one place. -/

namespace Sys2Proof.Machine

open Sys2Proof

/-! ### Numbering (R12, R160, R163) -/

/-- The cluster of a core (R12). -/
def clusterOf (core : Nat) : Nat := core / 32 * 8 + core % 16 / 2

/-- The place of a core in its cluster (R12). -/
def placeOf (core : Nat) : Nat := core / 16 % 2 * 2 + core % 2

/-- The core at a place of a cluster (R12). -/
def coreAt (k p : Nat) : Nat := (k / 8 * 2 + p / 2) * 16 + k % 8 * 2 + p % 2

/-- The group of a wave key. -/
def groupOf (w : Nat) : Nat := w / 8

/-- The crew of a wave key. -/
def crewOf (w : Nat) : Nat := w / 64

/-! ### Units -/

/-- The formed wave of a key. -/
def State.wave (s : State) (w : Nat) : Wave := tabGet s.waves Wave.empty w

/-- The state with a formed wave changed. -/
def State.setWave (s : State) (w : Nat) (v : Wave) : State := { s with waves := tabPut s.waves w v }

/-- The group of a key. -/
def State.group (s : State) (g : Nat) : Group := tabGet s.groups Group.idle g

/-- The state with a group changed. -/
def State.setGroup (s : State) (g : Nat) (v : Group) : State := { s with groups := tabPut s.groups g v }

/-- The crew that a number no crew has yet reads as. -/
def Crew.none : Crew :=
  { launch := 0, core := 0, index := 0, lx := 0, ly := 0, spStart := 0, spSize := 0, commanded := false
    started := false, ended := false, killed := false, fls := [], kicks := 0, gridHeld := [], gridSent := []
    gridLeft := false, deadlined := false }

/-- The crew of a number. -/
def State.crew (s : State) (c : Nat) : Crew := tabGet s.crews Crew.none c

/-- The state with a crew changed. -/
def State.setCrew (s : State) (c : Nat) (v : Crew) : State := { s with crews := tabPut s.crews c v }

/-- A core. -/
def State.core (s : State) (c : Nat) : CoreSt := tabGet s.cores CoreSt.reset c

/-- The state with a core changed. -/
def State.setCore (s : State) (c : Nat) (v : CoreSt) : State := { s with cores := tabPut s.cores c v }

/-- A cluster. -/
def State.cluster (s : State) (k : Nat) : ClusterSt := tabGet s.clusters ClusterSt.reset k

/-- The state with a cluster changed. -/
def State.setCluster (s : State) (k : Nat) (v : ClusterSt) : State := { s with clusters := tabPut s.clusters k v }

/-- A launch that no record has made. -/
def Launch.none : Launch :=
  { rec_ := LaunchRec.zero, queue := 0, mod_ := Module.none, phase := .done, asideAt := .none, at_ := 0, ox := 0
    oy := 0, codeBase := 0, capTable := 0, bindBase := [], poolBase := [], tensors := [], pools := [], grids := [], ring := []
    ringHead := 0, ringMapped := 0, deadlineFell := false, endStatus := .none, ending := false, saving := []
    placeSlot := .none, stageSlot := .none, dueSeq := 0, maxw := 0 }

/-- A launch by its identifier. -/
def State.launch (s : State) (l : Nat) : Launch := tabGet s.launches Launch.none l

/-- The state with a launch changed. -/
def State.setLaunch (s : State) (l : Nat) (v : Launch) : State := { s with launches := tabPut s.launches l v }

/-- An account with nothing outstanding. -/
def Account.none : Account := { launch := 0, wave := 0, born := 0, out := [], maxw := 0, peerOut := [] }

/-- An account of writes left in flight. -/
def State.account (s : State) (a : Nat) : Account := tabGet s.mem.accounts Account.none a

/-- The state with an account changed. -/
def State.setAccount (s : State) (a : Nat) (v : Account) : State :=
  { s with mem := { s.mem with accounts := tabPut s.mem.accounts a v } }

/-- MAXW of a wave (R110): the latest GWCT returned to it or to the waves that its lanes come from. -/
def State.maxwOf (s : State) (w : Nat) : Nat :=
  (s.wave w).accts.foldl (fun x a => max x (s.account a).maxw) (s.wave w).maxw

/-- A fork that waits for nothing. -/
def Fork.none : Fork := { wave := .none, ser := 0, accts := [], maxw := 0 }

/-- The writes that a fork names have returned their write completion times (R103). -/
def State.forkReturned (s : State) (f : Fork) : Bool :=
  match f.wave with
  | .none => true
  | some w =>
    (s.wave w).out.all (fun p => decide (f.ser ≤ p.ser)) && f.accts.all (fun a => (s.account a).out.isEmpty)
      && s.mem.accounts.all (fun e => e.2.wave != w || e.2.out.all (fun p => decide (f.ser ≤ p.ser)))

/-- MAXW as a fork carries it (R103). -/
def State.forkMaxw (s : State) (f : Fork) : Nat :=
  match f.wave with
  | .none => f.maxw
  | some w =>
    let a := f.accts.foldl (fun x a => max x (s.account a).maxw) f.maxw
    let b := s.mem.accounts.foldl (fun x e => if e.2.wave = w ∧ e.2.born ≤ f.ser then max x e.2.maxw else x) a
    if (s.wave w).born ≤ f.ser then max b (s.wave w).maxw else b

/-- An operation of a fork may make its accesses: the writes have returned and DT is later than MAXW (R103, R106). -/
def State.forkReady (s : State) (f : Fork) : Bool := s.forkReturned f && decide (s.forkMaxw f < s.dt)

/-- The fork of the word that a wave issues now. -/
def State.forkOf (s : State) (w : Nat) : Fork :=
  { wave := some w, ser := s.free, accts := (s.wave w).accts, maxw := (s.wave w).maxw }

/-- The core on which a wave runs. -/
def State.waveCore (s : State) (w : Nat) : Nat := (s.crew (crewOf w)).core

/-- The partition that holds a group (R160). -/
def State.partitionOf (s : State) (g : Nat) : Nat :=
  let c := s.crew (g / 8)
  (c.index * (s.launch c.launch).rec_.gpc + g % 8) % 8

/-- The cluster in which a wave runs. -/
def State.waveCluster (s : State) (w : Nat) : Nat := clusterOf (s.waveCore w)

/-- The launch identifier of a wave. -/
def State.waveLaunch (s : State) (w : Nat) : Nat := (s.crew (crewOf w)).launch

/-- The sequencer of a cluster. -/
def State.seqOf (s : State) (k : Nat) : Seq := (s.cluster k).seq

/-- The state with a sequencer changed. -/
def State.setSeq (s : State) (k : Nat) (q : Seq) : State := s.setCluster k { s.cluster k with seq := q }

/-! ### Clocks (R3, R176, R177) -/

/-- Cycles counted by a clock at a DT. -/
def clockCycles (c : Clock) (dt : Nat) : Nat := (c.base + c.rate * (dt - c.since)) / 40

/-- Cycles of a cluster's clock so far. -/
def State.cycles (s : State) (k : Nat) : Nat := clockCycles (s.cluster k).clock s.dt

/-- Cycles that count on a core: those of its cluster, less the ones it was swapped out for (R176, R177). -/
def State.coreCycles (s : State) (c : Nat) : Nat := s.cycles (clusterOf c) - (s.core c).lostCycles

/-- The context of a crew lies in the shadow (R386). -/
def State.isSaved (s : State) (crew : Nat) : Bool := (s.core (s.crew crew).core).swap.saved.contains crew

/-- The crews that a core holds: their scratchpad allocations have not been returned (R48). -/
def State.coreCrews (s : State) (c : Nat) : List Nat :=
  (s.crews.filter (fun e => e.2.core == c && !e.2.ended)).map (fun e => e.1)

/-- The crews that run on a core, those in the shadow left out. -/
def State.liveCrews (s : State) (c : Nat) : List Nat := (s.coreCrews c).filter (fun x => !s.isSaved x)

/-- Cycles that count for a crew: they stand still while its context is in the shadow (R176, R177, R386). -/
def State.crewCycles (s : State) (crew : Nat) : Nat :=
  let c := (s.crew crew).core
  if s.isSaved crew then (s.core c).savedAt - (s.core c).lostCycles else s.coreCycles c

/-- The clock going on from a DT at another rate. -/
def clockSetRate (c : Clock) (dt rate : Nat) : Clock :=
  { base := c.base + c.rate * (dt - c.since), since := dt, rate := rate }

/-- The rate of a cluster clock in fortieths of a cycle per ns: 1.4 GHz or 0.9 GHz, divided by 4 under fast
throttle, 0 while the clock is stopped (R3, R396, R398, R401). A droop slows it to as little as half, by an amount that the spec leaves open
(R400). -/
def State.clusterRate (s : State) (k : Nat) : Nat :=
  let r := (if (s.cluster k).rail.rail = 0 then 56 else 36) / (if s.power.throttled then 4 else 1)
  if (s.cluster k).brownout || (s.cluster k).lost || (s.cluster k).rail.busy then 0
  else if (s.cluster k).droop then r - Config.stretch s.dt k % (r / 2 + 1) else r

/-- A cluster clock brought to the rate that its rail and the throttle give now. -/
def State.retime (s : State) (k : Nat) : State :=
  s.setCluster k { s.cluster k with clock := clockSetRate (s.cluster k).clock s.dt (s.clusterRate k) }

/-- The watchdog count of a wave in cycles (R177): cycles parked in BWAIT are left out. -/
def State.wdCount (s : State) (w : Nat) : Nat :=
  let v := s.wave w
  match v.park with
  | .bwait _ _ _ _ => v.wdBase
  | .queued _ _ _ _ _ => v.wdBase
  | _ => v.wdBase + (s.crewCycles (crewOf w) - v.wdSince)

/-! ### Lanes and threads (R166) -/

/-- The thread in a lane of a formed wave, as its number in the group; none where the lane is empty. -/
def State.laneThread (s : State) (w l : Nat) : Option Nat :=
  match tabFind (s.wave w).lanes l with
  | none => none
  | some h => some (h * 32 + l)

/-- A thread of a group. -/
def State.thread (s : State) (g t : Nat) : Thread := tabGet (s.group g).threads Thread.idle t

/-- The state with a thread changed. -/
def State.setThread (s : State) (g t : Nat) (v : Thread) : State :=
  s.setGroup g { s.group g with threads := tabPut (s.group g).threads t v }

/-- The lane numbers. -/
def laneList : List Nat := List.range 32

/-- The occupied lanes of a wave, ascending, each with its thread. -/
def State.occupied (s : State) (w : Nat) : List (Nat × Nat) :=
  (s.wave w).lanes.map (fun e => (e.1, e.2 * 32 + e.1))

/-- The mask of a list of lanes. -/
def laneMask (ls : List (Nat × Nat)) : Nat :=
  match ls with
  | [] => 0
  | (l, _) :: rest => 2 ^ l + laneMask rest

/-! ### Reads of slices and predicates (R185, R189, R197) -/

/-- The value that a read of a cell gives when long-class results are outstanding: the file's value, or one of the
outstanding values in program order, as the free value of R197 chooses. -/
def windowValue {α : Type} (free who cell : Nat) (old : α) (vs : List α) : α :=
  match vs with
  | [] => old
  | v :: rest => windowValue free who (cell + 65536) (if Config.window free who cell then v else old) rest

/-- The outstanding values for one cell of one thread, in program order. -/
def pendingCells (ps : List LongRes) (t n : Nat) : List Nib :=
  match ps with
  | [] => []
  | p :: rest =>
    match p.cells.find? (fun c => c.1 == t && c.2.1 == n) with
    | none => pendingCells rest t n
    | some c => c.2.2 :: pendingCells rest t n

/-- The outstanding values for one predicate of one thread, in program order. -/
def pendingPrds (ps : List LongRes) (t n : Nat) : List Bool :=
  match ps with
  | [] => []
  | p :: rest =>
    match p.prds.find? (fun c => c.1 == t && c.2.1 == n) with
    | none => pendingPrds rest t n
    | some c => c.2.2 :: pendingPrds rest t n

/-- One slice of a thread as a wave reads it at issue for the operand of a number in its word (R197). -/
def State.readNib (s : State) (w t n pos : Nat) : Nib :=
  windowValue s.free (groupOf w * 512 + t) (n + 2048 * pos) (tabGet (s.thread (groupOf w) t).slices 0 n)
    (pendingCells (s.wave w).pend t n)

/-- The slices from n on, as one number (R185). -/
def State.readSlices (s : State) (w t pos n : Nat) : Nat → Nat
  | 0 => 0
  | k + 1 => (s.readNib w t n pos).toNat + 16 * s.readSlices w t pos (n + 1) k

/-- Opnd of R250: the value of a slice operand in a thread's lane; pos is its number among the word's operands (0 for source A,
1 for B, 2 for the destination or the data, 3 for a third source). -/
def State.opnd (s : State) (w t : Nat) (o : Slc) (pos : Nat := 0) : Nat := s.readSlices w t pos o.start o.width

/-- A predicate of a thread as a wave reads it at issue, as guard (pos 0) or as a source of the word; p0 reads true (R189, R197). -/
def State.readPrd (s : State) (w t p : Nat) (pos : Nat := 0) : Bool :=
  if p = 0 then true
  else windowValue s.free (groupOf w * 512 + t) (1024 + p + 2048 * pos) (tabGet (s.thread (groupOf w) t).preds false p)
    (pendingPrds (s.wave w).pend t p)

/-- A predicate of a thread as the latest write in program order leaves it once every result has been written (R198). -/
def State.lastPrd (s : State) (w t p : Nat) : Bool :=
  p == 0 || ((pendingPrds (s.wave w).pend t p).getLast?.getD (tabGet (s.thread (groupOf w) t).preds false p))

/-- A source predicate with its complement bit (R225). -/
def State.readPrdN (s : State) (w t p : Nat) (neg : Bool) (pos : Nat := 0) : Bool := s.readPrd w t p pos != neg

/-- Active of R250: the lanes that hold a thread and whose guard is true, ascending, each with its thread. After a
partial trap only the lanes of the retry take part (R377). -/
def State.activeLanes (s : State) (w : Nat) (g : Guard) (pos : Nat := 0) : List (Nat × Nat) :=
  (s.occupied w).filter (fun e => s.readPrdN w e.2 g.pred g.neg pos &&
    match (s.wave w).retry with
    | none => true
    | some m => bit m e.1)

/-! ### Writes of slices and predicates (R189, R198, R388) -/

/-- Outstanding long-class results with the cells that a later write claims taken out (R198). -/
def claimCells (ps : List LongRes) (t n k : Nat) : List LongRes :=
  ps.map (fun p => { p with cells := p.cells.filter (fun c => !(c.1 == t && decide (n ≤ c.2.1) && decide (c.2.1 < n + k))) })

/-- Outstanding long-class results with one predicate claimed by a later write (R198). -/
def claimPrd (ps : List LongRes) (t p : Nat) : List LongRes :=
  ps.map (fun r => { r with prds := r.prds.filter (fun c => !(c.1 == t && c.2.1 == p)) })

/-- A slice table with k slices from n written with the low 4k bits of v (R185). -/
def putSlices (f : Tab Nib) (n v : Nat) : Nat → Tab Nib
  | 0 => f
  | k + 1 => putSlices (tabPut f n (BitVec.ofNat 4 (v % 16))) (n + 1) (v / 16) k

/-- The rows of a range of slices that a write covers whole lose their poison (R388). -/
def clearRows (rows : List Nat) (n k : Nat) : List Nat :=
  rows.filter (fun r => !(decide (n ≤ 16 * r) && decide (16 * r + 16 ≤ n + k)))

/-- The thread with k slices from n written. -/
def Thread.write (t : Thread) (n k v : Nat) : Thread :=
  { t with slices := putSlices t.slices n v k, poisonRows := clearRows t.poisonRows n k }

/-- Old values of slices from n that a speculative wave logs before their first write (R115). -/
def undoCells (u : List (Nat × Nat × Nib)) (f : Tab Nib) (t n : Nat) : Nat → List (Nat × Nat × Nib)
  | 0 => u
  | k + 1 =>
    let u' := if u.any (fun c => c.1 == t && c.2.1 == n) then u else u ++ [(t, n, tabGet f 0 n)]
    undoCells u' f t (n + 1) k

/-- The undo log of a speculative wave before a write of k slices of a thread (R115). -/
def State.logUndo (s : State) (w t n k : Nat) : State :=
  match (s.wave w).spec with
  | none => s
  | some p =>
    s.setWave w { s.wave w with
      spec := some { p with undo := undoCells p.undo (s.thread (groupOf w) t).slices t n k } }

/-- SetD of R250 for a short-class result: the slices take the value, and no outstanding result writes them. -/
def State.setShort (s : State) (w t : Nat) (o : Slc) (v : Nat) : State :=
  let s1 := s.logUndo w t o.start o.width
  let s2 := s1.setWave w { s1.wave w with pend := claimCells (s1.wave w).pend t o.start o.width }
  s2.setThread (groupOf w) t ((s2.thread (groupOf w) t).write o.start o.width v)

/-- A short-class write of a predicate; writes to p0 are ignored (R189). -/
def State.setPrd (s : State) (w t p : Nat) (v : Bool) : State :=
  if p = 0 then s
  else
    let s1 := s.setWave w { s.wave w with pend := claimPrd (s.wave w).pend t p }
    s1.setThread (groupOf w) t
      { s1.thread (groupOf w) t with preds := tabPut (s1.thread (groupOf w) t).preds p v }

/-- The cells of a long-class write of a value to an operand. -/
def cellsOf (t n v : Nat) : Nat → List (Nat × Nat × Nib)
  | 0 => []
  | k + 1 => (t, n, BitVec.ofNat 4 (v % 16)) :: cellsOf t (n + 1) (v / 16) k

/-- A long-class result joins the outstanding ones of its wave (R195); one with no cell is not kept. -/
def State.addLong (s : State) (w : Nat) (r : LongRes) : State :=
  if r.cells = [] ∧ r.prds = [] then s
  else s.setWave w { s.wave w with pend := (s.wave w).pend ++ [r] }

/-! ### Group and uniform registers (R189) -/

/-- The scalar register file of an agent is that of its group or its sequencer. -/
def State.groupS (s : State) (g r : Nat) : W64 := tabGet (s.group g).s 0 r

/-- What a wave knows of a group's writes, joined with what another does: the later of each wave's. -/
def joinKnow (a b : Tab Nat) : Tab Nat := b.foldl (fun t e => tabPut t e.1 (max (tabGet t 0 e.1) e.2)) a

/-- The values that a wave may read of a register where it does not read the latest (R192), newest first: those that it had before
the writes of other waves back to the latest write that comes before the read, its own or one that it knows of (R100). -/
def pastValues {α : Type} (l : List (Past α)) (w : Nat) (know : Tab Nat) (r : Nat) : List α :=
  ((l.filter (fun p => p.reg == r)).takeWhile (fun p => p.writer != w && decide (tabGet know 0 p.writer < p.serial))).map
    (fun p => p.old)

/-- The entry of a list at a place, or else the latest value. -/
def pick {α : Type} : List α → Nat → α → α
  | [], _, d => d
  | x :: _, 0, _ => x
  | _ :: l, n + 1, d => pick l n d

/-- An s register of its group as a wave reads it (R192). -/
def State.waveS (s : State) (w r : Nat) : W64 :=
  pick (pastValues (s.group (groupOf w)).hist.s w (s.wave w).know r) (Config.earlier s.dt w r) (s.groupS (groupOf w) r)

/-- A write of an s register of its group by a wave. -/
def State.setWaveS (s : State) (w r : Nat) (v : W64) : State :=
  let g := s.group (groupOf w)
  let h := g.hist
  s.setGroup (groupOf w) { g with
    s := tabPut g.s r v
    hist := { h with s := { reg := r, old := tabGet g.s 0 r, writer := w, serial := h.writes + 1 } :: h.s, writes := h.writes + 1 } }

/-- A k register of a group. -/
def State.groupK (s : State) (g r : Nat) : Capv := tabGet (s.group g).k Capv.null r

/-- A k register of its group as a wave reads it, whole with its tag (R192). -/
def State.waveK (s : State) (w r : Nat) : Capv :=
  pick (pastValues (s.group (groupOf w)).hist.k w (s.wave w).know r) (Config.earlier s.dt w (256 + r)) (s.groupK (groupOf w) r)

/-- A write of a k register of its group by a wave. -/
def State.setWaveK (s : State) (w r : Nat) (v : Capv) : State :=
  let g := s.group (groupOf w)
  let h := g.hist
  s.setGroup (groupOf w) { g with
    k := tabPut g.k r v
    hist := { h with
      k := { reg := r, old := tabGet g.k Capv.null r, writer := w, serial := h.writes + 1 } :: h.k, writes := h.writes + 1 } }

/-- A view register of a group (R193): reserved bits read zero. -/
def State.groupVw (s : State) (g r : Nat) : W64 := tabGet (s.group g).vw 0 r &&& 0x0000FFFFFFFFFC00

/-- A view register of its group as a wave reads it (R192). -/
def State.waveVw (s : State) (w r : Nat) : W64 :=
  pick (pastValues (s.group (groupOf w)).hist.vw w (s.wave w).know r) (Config.earlier s.dt w (288 + r)) (s.groupVw (groupOf w) r)

/-- A write of a view register of its group by a wave (R193). -/
def State.setWaveVw (s : State) (w r : Nat) (v : W64) : State :=
  let g := s.group (groupOf w)
  let h := g.hist
  s.setGroup (groupOf w) { g with
    vw := tabPut g.vw r (v &&& 0x0000FFFFFFFFFC00)
    hist := { h with
      vw := { reg := r, old := s.groupVw (groupOf w) r, writer := w, serial := h.writes + 1 } :: h.vw, writes := h.writes + 1 } }

/-- An acquire of a wave: the writes of its group's registers that a release follows come before its later reads (R99, R192). -/
def State.orderRegs (s : State) (w : Nat) : State :=
  s.setWave w { s.wave w with know := joinKnow (s.wave w).know (s.group (groupOf w)).hist.released }

/-- A release of a wave: its writes so far of its group's registers, and those that come before it, are released (R99, R192). -/
def State.releaseRegs (s : State) (w : Nat) : State :=
  let g := s.group (groupOf w)
  s.setGroup (groupOf w) { g with
    hist := { g.hist with released := joinKnow (tabPut g.hist.released w g.hist.writes) (s.wave w).know } }

/-- The quota of a home wave in units of 64 slices (R200). -/
def State.quota (s : State) (g h : Nat) : Nat := tabGet (s.group g).quota 0 h

/-- The row of the partition's slice file in which row r of a thread's slices lies (R163, R200): a unit has four rows. -/
def Group.fileRow (g : Group) (t r : Nat) : Nat := 4 * ((tabGet g.units [] (t / 32)).getD (r / 4) 0) + r % 4

/-- A loop counter of a wave. -/
def Wave.lcOf (v : Wave) (n : Nat) : Nat := tabGet v.lc 0 n

/-- The state with the free-value counter advanced. -/
def State.bumpFree (s : State) : State := { s with free := s.free + 1 }

end Sys2Proof.Machine
end

