-- ==== Sys2Proof/Machine/Memory.lean ====
section
/-! DEFINITION. The unified memory and its homes: places of the near memories, bytes, tags, poison and armed
granules (R24, R25, R66, R67, R130), the L2 tags, leases and write completion times (R70 to R77, R107, R108),
barrier completion (R128 to R134) and the performing of a write at its home with all that a write sets off. -/

namespace Sys2Proof.Machine

open Sys2Proof

/-! ### Places (R43, R48, R51, R62 to R64) -/

/-- Scratchpad byte a of a core in the unified memory. -/
def spKey (core a : Nat) : Nat := 2 ^ 48 + core * 2 ^ 18 + a

/-- Pool byte a of a cluster in the unified memory. -/
def poolKey (k a : Nat) : Nat := 2 ^ 49 + k * 2 ^ 22 + a

/-- Operand-buffer byte a of a cluster in the unified memory. -/
def opKey (k a : Nat) : Nat := 2 ^ 50 + k * 2 ^ 20 + a

/-- Accumulator-buffer byte a of a cluster in the unified memory (R63). -/
def accKey (k a : Nat) : Nat := 2 ^ 51 + k * 2 ^ 19 + a

/-- Byte i of the weight slice of column c of a cluster (R64, R306). -/
def weightKey (k c i : Nat) : Nat := 2 ^ 52 + k * 2 ^ 24 + c * 2 ^ 16 + i

/-- A place of PLACE 3 in the physical map: device registers, host memory or a peer's window (R43). -/
def isPlace3 (a : Nat) : Bool :=
  (decide (0x002000000000 ≤ a) && decide (a < 0x002100000000)) || (decide (2 ^ 46 ≤ a) && decide (a < 2 ^ 48))

/-- Host memory (R43). -/
def isHost (a : Nat) : Bool := decide (2 ^ 46 ≤ a) && decide (a < 2 ^ 47)

/-- The window of a Galeus peer (R43). -/
def isPeer (a : Nat) : Bool := decide (2 ^ 47 ≤ a) && decide (a < 2 ^ 48)

/-- The local window of a vault (R43): its number, if the address lies in one. -/
def localVault (a : Nat) : Option Nat :=
  if 0x000400000000 ≤ a ∧ a < 0x000400000000 + 32 * 0x20000000 then some ((a - 0x000400000000) / 0x20000000) else none

/-- L2Slice of R71. -/
def l2Slice (a : Nat) : Nat :=
  match localVault a with
  | some k => k
  | none =>
    bits a 11 7 ^^^ bits a 16 12 ^^^ bits a 21 17 ^^^ bits a 26 22 ^^^ bits a 31 27 ^^^ bits a 36 32 ^^^ bits a 41 37
      ^^^ bits a 46 42 ^^^ bits a 47 47

/-- The home of an address of the unified memory, as a number: an L2 slice, the endpoint, a Galeus port, a bank
of a scratchpad or pool, or an operand buffer (R89, R109). -/
def homeOf (a : Nat) : Nat :=
  if a < 2 ^ 48 then
    if isPeer a then 65 + (a - 2 ^ 47) / 2 ^ 43
    else if isPlace3 a then 64
    else l2Slice a
  else if a < 2 ^ 49 then 1000 + (a - 2 ^ 48) / 2 ^ 18 * 32 + a / 4 % 32
  else if a < 2 ^ 50 then 10000 + (a - 2 ^ 49) / 131072
  else 20000 + (a - 2 ^ 50) / 2 ^ 20

/-- The homes that some cells touch (R89, R109). -/
def homesOf (cells : List (Nat × Byte × Byte)) : List Nat :=
  match cells with
  | [] => []
  | c :: rest => memberAdd (homesOf rest) (homeOf c.1)

/-- The homes of a write on its way. -/
def PWrite.homes (p : PWrite) : List Nat := homesOf p.cells

/-- Some number is in both lists. -/
def meets (a b : List Nat) : Bool := a.any (fun x => b.contains x)

/-- The memories that keep capability tags (R24): vaults, external DRAM, scratchpads and pools. -/
def keepsTags (a : Nat) : Bool := if a < 2 ^ 48 then !isPlace3 a else decide (a < 2 ^ 50)

/-! ### Bytes, tags, poison (R25, R66, R67) -/

/-- One byte; what nothing has written reads as 0 (DESIGN CHOICE, log entry 8). -/
def Store.byte (m : Store) (a : Nat) : Byte := tabGet m.bytes 0 a

/-- The store with one byte written, in canonical form. -/
def Store.setByte (m : Store) (a : Nat) (v : Byte) : Store := { m with bytes := tabSet m.bytes 0 a v }

/-- Bytes from a on. -/
def Store.readBytes (m : Store) (a : Nat) : Nat → List Byte
  | 0 => []
  | n + 1 => m.byte a :: m.readBytes (a + 1) n

/-- Bytes from a on as one little-endian number (R6). -/
def Store.readNat (m : Store) (a : Nat) : Nat → Nat
  | 0 => 0
  | n + 1 => (m.byte a).toNat + 256 * m.readNat (a + 1) n

/-- The bytes of a little-endian number. -/
def bytesOf (v : Nat) : Nat → List Byte
  | 0 => []
  | n + 1 => BitVec.ofNat 8 (v % 256) :: bytesOf (v / 256) n

/-- A little-endian number from bytes (R6). -/
def natOfBytes (bs : List Byte) : Nat :=
  match bs with
  | [] => 0
  | b :: rest => b.toNat + 256 * natOfBytes rest

/-- The write cells of a list of whole bytes from a on. -/
def wholeCells (a : Nat) (bs : List Byte) : List (Nat × Byte × Byte) :=
  match bs with
  | [] => []
  | b :: rest => (a, 255, b) :: wholeCells (a + 1) rest

/-- Each cell changes the bits of its byte that its mask names. -/
def Store.putCells (m : Store) (cells : List (Nat × Byte × Byte)) : Store :=
  match cells with
  | [] => m
  | (a, mask, v) :: rest =>
    (m.setByte a ((m.byte a &&& ~~~mask) ||| (v &&& mask))).putCells rest

/-- The granules (16 bytes) of a list of cells. -/
def granulesOf (cells : List (Nat × Byte × Byte)) : List Nat :=
  match cells with
  | [] => []
  | (a, _, _) :: rest => memberAdd (granulesOf rest) (a / 16)

/-- The 8-byte words of a list of cells. -/
def wordsOf (cells : List (Nat × Byte × Byte)) : List Nat :=
  match cells with
  | [] => []
  | (a, _, _) :: rest => memberAdd (wordsOf rest) (a / 8)

/-- The cells write all eight bytes of a word. -/
def coversWord (cells : List (Nat × Byte × Byte)) (w : Nat) : Bool :=
  (List.range 8).all (fun i => cells.any (fun c => c.1 == 8 * w + i && c.2.1 == 255))

/-- Tags after a write: a capability store sets the tag it carries, every other write clears it (R25). -/
def Store.retag (m : Store) (gs : List Nat) (tag : Option Bool) : Store :=
  match gs with
  | [] => m
  | g :: rest =>
    let m' := if tag = some true ∧ keepsTags (16 * g) = true then { m with tags := memberAdd m.tags g }
      else { m with tags := memberDel m.tags g }
    m'.retag rest tag

/-- A write of all eight bytes of a poisoned word clears its poison (R66). -/
def Store.unpoison (m : Store) (cells : List (Nat × Byte × Byte)) (ws : List Nat) : Store :=
  match ws with
  | [] => m
  | w :: rest =>
    (if coversWord cells w then { m with poison := memberDel m.poison w } else m).unpoison cells rest

/-- One write to memory: bytes, tags and poison. -/
def Store.write (m : Store) (cells : List (Nat × Byte × Byte)) (tag : Option Bool) : Store :=
  ((m.putCells cells).retag (granulesOf cells) tag).unpoison cells (wordsOf cells)

/-- A granule is tagged (R24). -/
def Store.tagAt (m : Store) (a : Nat) : Bool := m.tags.contains (a / 16)

/-- Some of n bytes from a on lie in a poisoned word (R66). -/
def Store.poisoned (m : Store) (a n : Nat) : Bool := m.poison.any (fun w => decide (a < 8 * w + 8) && decide (8 * w < a + n))

/-- An uncorrectable error in a granule of a scratchpad, pool or vault (R67, R85): both words poisoned, tag cleared. -/
def Store.poisonGranule (m : Store) (g : Nat) : Store :=
  { m with poison := memberAdd (memberAdd m.poison (2 * g)) (2 * g + 1), tags := memberDel m.tags g }

/-- A range cleared: bytes zero, tags, poison and armed bits gone (R49, R52, R55, R298). -/
def Store.zero (m : Store) (a n : Nat) : Store :=
  { bytes := m.bytes.filter (fun e => !(decide (a ≤ e.1) && decide (e.1 < a + n)))
    tags := m.tags.filter (fun g => !(decide (a ≤ 16 * g) && decide (16 * g < a + n)))
    poison := m.poison.filter (fun w => !(decide (a ≤ 8 * w) && decide (8 * w < a + n)))
    armed := m.armed.filter (fun g => !(decide (a ≤ 16 * g) && decide (16 * g < a + n))) }

/-- The canonical form of memory: addresses strictly rising, no byte equal to what an unlisted one reads as. -/
def Store.wf (m : Store) : Bool := tabCanon 0 m.bytes

/-- The state with another store. -/
def State.setStore (s : State) (m : Store) : State := { s with mem := { s.mem with store := m } }

/-- The store of the state. -/
def State.store (s : State) : Store := s.mem.store

/-! ### The L2 (R70 to R77) -/

/-- The set of a line, over all slices: slice times 1,024 plus L2Set (R71). -/
def l2SetOf (line : Nat) : Nat := l2Slice (128 * line) * 1024 + line % 1024

/-- Sixteen 8-byte words of a line. -/
def lineWords (m : Store) (line : Nat) : List Nat := (List.range 16).map (fun i => m.readNat (128 * line + 8 * i) 8)

/-- Every difference from the first element, modulo 2^n and signed, fits k bits. -/
def deltasFit (n k : Nat) (xs : List Nat) : Bool :=
  match xs with
  | [] => true
  | x :: _ => xs.all (fun y =>
      let d := sInt n ((y + 2 ^ n - x) % 2 ^ n)
      decide (-(2 ^ (k - 1) : Nat) ≤ d) && decide (d < (2 ^ (k - 1) : Nat)))

/-- The footprint of a line (R73, R74). -/
def footprint (m : Store) (line : Nat) : Nat :=
  let ws := lineWords m line
  let hs := (List.range 32).map (fun i => m.readNat (128 * line + 4 * i) 4)
  if m.poisoned (128 * line) 128 then 128
  else if ws.all (fun w => w == 0) then 0
  else if deltasFit 64 1 ws && ws.all (fun w => w == ws.headD 0) then 8
  else if deltasFit 64 8 ws then 24
  else if deltasFit 32 8 hs then 40
  else if deltasFit 64 16 ws then 40
  else 128

/-- The footprints in a frame of a set. -/
def frameUse (m : Store) (tags : List L2Tag) (set f : Nat) : Nat :=
  ((tags.filter (fun t => l2SetOf t.line == set && t.frame == f)).map (fun t => footprint m t.line)).sum

/-- How many lines a frame of a set holds. -/
def frameCount (tags : List L2Tag) (set f : Nat) : Nat :=
  (tags.filter (fun t => l2SetOf t.line == set && t.frame == f)).length

/-- A line that joins a frame takes its second tag exactly when another line holds the first (R75). -/
def takesSecond (tags : List L2Tag) (set f : Nat) : Bool :=
  tags.any (fun t => l2SetOf t.line == set && t.frame == f && !t.second)

/-- The lowest frame of a set with room for a footprint (R75, R76). -/
def roomyFrame (m : Store) (tags : List L2Tag) (set need : Nat) : Option Nat :=
  (List.range 16).find? (fun f => decide (frameCount tags set f < 2) &&
    (decide (frameCount tags set f = 0) || decide (frameUse m tags set f + need ≤ 128)))

/-- The least recently used tag of a set, other than one line (R72). -/
def l2Victim (tags : List L2Tag) (set keep : Nat) : Option L2Tag :=
  (tags.filter (fun t => l2SetOf t.line == set && t.line != keep)).foldl
    (fun best t => match best with
      | none => some t
      | some b => if t.used < b.used then some t else some b) none

/-- One past the largest recency number of the tags. -/
def nextUse (tags : List L2Tag) : Nat := tags.foldl (fun n t => max n (t.used + 1)) 0

/-- An eviction: the set floor keeps a lease that has not run out (R77). -/
def evictTag (ms : MemSys) (dt : Nat) (t : L2Tag) : MemSys :=
  let set := l2SetOf t.line
  { ms with
    l2 := ms.l2.filter (fun x => x.line != t.line)
    floors := if dt < t.expiry then tabPut ms.floors set (max (tabGet ms.floors set 0) t.expiry) else ms.floors }

/-- A line given a frame of its set: the lowest with room, and while none has room the least recently used line is evicted
(R72, R75; the frame is the model's choice, log entry 81); its recorded expiry starts equal to the set floor as the evictions leave
it (R77). The first argument bounds the evictions. -/
def placeLine (dt : Nat) (t : L2Tag) : Nat → MemSys → MemSys
  | 0, ms => { ms with l2 := ms.l2 ++ [t] }
  | n + 1, ms =>
    match roomyFrame ms.store ms.l2 (l2SetOf t.line) (footprint ms.store t.line) with
    | some f => { ms with l2 := ms.l2 ++ [{ t with
        frame := f, second := takesSecond ms.l2 (l2SetOf t.line) f, expiry := tabGet ms.floors (l2SetOf t.line) 0 }] }
    | none =>
      match l2Victim ms.l2 (l2SetOf t.line) t.line with
      | none => { ms with l2 := ms.l2 ++ [t] }
      | some v => placeLine dt t n (evictTag ms dt v)

/-- An access to a line at its slice: a miss fills it with the set floor as its recorded expiry (R72, R77). -/
def l2Touch (ms : MemSys) (dt line : Nat) (write : Bool) : MemSys :=
  match ms.l2.find? (fun t => t.line == line) with
  | some _ =>
    { ms with l2 := ms.l2.map (fun t =>
        if t.line = line then { t with used := nextUse ms.l2, dirty := t.dirty || write } else t) }
  | none =>
    placeLine dt { line := line, frame := 0, second := false, expiry := tabGet ms.floors (l2SetOf line) 0, dirty := write
                   used := nextUse ms.l2 } 33 ms

/-- Lines of the L2 that n bytes from a on touch. -/
def linesAt (a n : Nat) : List Nat :=
  if a < 2 ^ 48 ∧ isPlace3 a = false then (List.range ((a + n + 127) / 128 - a / 128)).map (fun i => a / 128 + i) else []

/-- A read of n bytes at a place, at its home: the L2 allocates the line and notes the use (R72). -/
def State.touchRead (s : State) (a n : Nat) : State :=
  { s with mem := (linesAt a n).foldl (fun ms l => l2Touch ms s.dt l false) s.mem }

/-- R76: after a write, a partner that no longer fits beside the written line moves or is evicted. -/
def l2Refit (ms : MemSys) (dt line : Nat) : MemSys :=
  match ms.l2.find? (fun t => t.line == line) with
  | none => ms
  | some t =>
    let set := l2SetOf line
    if frameUse ms.store ms.l2 set t.frame ≤ 128 then ms
    else
      match ms.l2.find? (fun p => l2SetOf p.line == set && p.frame == t.frame && p.line != line) with
      | none => ms
      | some p =>
        let rest := ms.l2.filter (fun x => x.line != p.line)
        match roomyFrame ms.store rest set (footprint ms.store p.line) with
        | some f => { ms with l2 := rest ++ [{ p with frame := f, second := takesSecond rest set f }] }
        | none => evictTag ms dt p

/-- Words poisoned at their home (R66, R67), the tags of some granules cleared; a line that is stored uncompressed now keeps its
frame alone (R74, R76). -/
def State.spoil (s : State) (words granules : List Nat) : State :=
  let m := s.store
  let s1 := s.setStore { m with poison := words.foldl memberAdd m.poison, tags := granules.foldl memberDel m.tags }
  { s1 with mem := (words.foldl (fun l w => linesAt (8 * w) 8 ++ l) []).foldl (fun ms l => l2Refit ms s.dt l) s1.mem }

/-- The latest lease expiry recorded for a line (R77). -/
def l2Expiry (ms : MemSys) (line : Nat) : Nat :=
  match ms.l2.find? (fun t => t.line == line) with
  | some t => t.expiry
  | none => tabGet ms.floors (l2SetOf line) 0

/-- Lease lengths in ns by lease class (R107). -/
def leaseNs (cls : Nat) : Nat :=
  match cls with
  | 0 => 0
  | 1 => 100
  | 2 => 400
  | _ => 1600

/-- A lease granted by the home for a line: the expiry and the recorded one (R107, R77). -/
def l2Grant (ms : MemSys) (dt line cls : Nat) : MemSys :=
  let ms' := l2Touch ms dt line false
  { ms' with l2 := ms'.l2.map (fun t =>
      if t.line = line then { t with expiry := max t.expiry (dt + leaseNs cls) } else t) }

/-- The 128-byte lines of physical memory behind the L2 that a list of cells touches. -/
def linesOf (cells : List (Nat × Byte × Byte)) : List Nat :=
  match cells with
  | [] => []
  | (a, _, _) :: rest => if a < 2 ^ 48 ∧ isPlace3 a = false then memberAdd (linesOf rest) (a / 128) else linesOf rest

/-- The L2 as a write of some cells finds it: each line is filled where it misses (R72). -/
def l2Write (ms : MemSys) (dt : Nat) (cells : List (Nat × Byte × Byte)) : MemSys :=
  (linesOf cells).foldl (fun m l => l2Touch m dt l true) ms

/-- GWCT of a write at the DT of its performing (R108), from the expiries of its lines as it finds them (R77). -/
def gwctOf (ms : MemSys) (dt : Nat) (cells : List (Nat × Byte × Byte)) : Nat :=
  (linesOf cells).foldl (fun x line => max x (max dt (l2Expiry (l2Write ms dt cells) line) + 4)) dt

/-! ### Barrier objects (R128 to R134) -/

/-- A barrier object's sixteen bytes as fields (R128). -/
structure BarObj where
  phase : Nat
  expArr : Nat
  pendArr : Nat
  flags : Nat
  expBytes : Nat
  pendBytes : Nat
deriving DecidableEq, Repr

/-- The object at an address. -/
def Store.barrier (m : Store) (a : Nat) : BarObj :=
  { phase := m.readNat a 2, expArr := m.readNat (a + 2) 2, pendArr := m.readNat (a + 4) 2
    flags := m.readNat (a + 6) 2, expBytes := m.readNat (a + 8) 4, pendBytes := m.readNat (a + 12) 4 }

/-- The object's bytes. -/
def barrierBytes (b : BarObj) : List Byte :=
  bytesOf b.phase 2 ++ bytesOf b.expArr 2 ++ bytesOf b.pendArr 2 ++ bytesOf b.flags 2 ++ bytesOf b.expBytes 4
    ++ bytesOf b.pendBytes 4

/-- KIND of FLAGS: 0 LOCAL, 1 FUTURE, 2 GRID, 3 acts as LOCAL (R128). -/
def barKind (b : BarObj) : Nat := bits b.flags 15 14

/-- ERR of FLAGS. -/
def barErr (b : BarObj) : Bool := bit b.flags 13

/-- The object with ERR set (R131, R132). -/
def barSetErr (b : BarObj) : BarObj := { b with flags := b.flags ||| 8192 }

/-- The condition of R130 and, for an object that completes locally, its three writes. -/
def barTest (b : BarObj) : BarObj :=
  if b.pendArr = 0 ∧ b.pendBytes = 0 ∧ barKind b ≠ 2 then
    { b with phase := (b.phase + 1) % 65536, pendArr := b.expArr, pendBytes := b.expBytes }
  else b

/-- The three writes of R130, which a grid release makes on a crew's object (R140). -/
def barRelease (b : BarObj) : BarObj :=
  { b with phase := (b.phase + 1) % 65536, pendArr := b.expArr, pendBytes := b.expBytes }

/-- One arrival (R131). -/
def barArrive (b : BarObj) : BarObj :=
  barTest (if b.pendArr = 0 then barSetErr b else { b with pendArr := b.pendArr - 1 })

/-- A GRID object whose local condition holds takes no further operation in its phase (R140). -/
def gridClosed (b : BarObj) : Bool := barKind b == 2 && b.pendArr == 0 && b.pendBytes == 0

/-- PENDBYTES with a signed count added, saturating (R132). -/
def barAddBytes (b : BarObj) (d : Int) : BarObj :=
  if gridClosed b then b else
  let x := sInt 32 b.pendBytes + d
  let y := clampInt x (-2147483648) 2147483647
  let b' := { b with pendBytes := lowBits y 32 }
  barTest (if x = y then b' else barSetErr b')

/-- The phase q has been reached (R133). -/
def phaseReached (phase q : Nat) : Bool := decide ((phase + 65536 - q % 65536) % 65536 < 32768)

/-! ### What a write sets off: waiters and conflicts (R118, R133, R145) -/

/-- A waiter put into a list ordered by waiting time and then place (R145). -/
def insertWaiter (x : Nat × Nat × Nat) (l : List (Nat × Nat × Nat)) : List (Nat × Nat × Nat) :=
  match l with
  | [] => [x]
  | y :: rest => if x.1 < y.1 ∨ (x.1 = y.1 ∧ x.2.1 < y.2.1) then x :: y :: rest else y :: insertWaiter x rest

/-- The selected waves parked in BWAIT whose phase has been reached, in the joining order of R145: by the time they began to wait,
then core place, partition and wave slot (the wave key stands for the slot: log entry 81). The selection is by wave and object. A
saved wave tests again when it is restored (R135). -/
def State.metWaits (s : State) (sel : Nat → Nat → Bool) : List Nat :=
  let cands := s.waves.filterMap (fun e =>
    match e.2.park with
    | .bwait a q since _ =>
      if sel e.1 a = true ∧ phaseReached (s.store.barrier a).phase q = true ∧ s.isSaved (crewOf e.1) = false then
        some (since, (placeOf (s.waveCore e.1)) * 2 ^ 40 + s.partitionOf (groupOf e.1) * 2 ^ 36 + e.1, e.1)
      else none
    | _ => none)
  (cands.foldr insertWaiter []).map (fun x => x.2.2)

/-- The waves that wait on a granule whose phase has been reached. -/
def State.wokenWaves (s : State) (g : Nat) : List Nat := s.metWaits (fun _ a => a / 16 == g)

/-- A wave joins the release queue of its cluster (R145). -/
def State.joinQueue (s : State) (w : Nat) : State :=
  match (s.wave w).park with
  | .bwait a q since m =>
    let st := if barErr (s.store.barrier a) then 1 else 0
    let s1 := s.setWave w { s.wave w with park := .queued a q st since m }
    let k := s.waveCluster w
    s1.setCluster k { s1.cluster k with relQ := (s1.cluster k).relQ ++ [w] }
  | _ => s

/-- A sequencer whose BWAIT condition has become true returns at once (R145, R295). -/
def State.wakeSeq (s : State) (g k : Nat) : State :=
  let q := s.seqOf k
  match q.park with
  | .bwait a p _ _ =>
    if q.stop = false ∧ a / 16 = g ∧ phaseReached (s.store.barrier a).phase p = true then
      s.setSeq k { q with park := .run, word := q.word + 1
                          cc := { q.cc with status := if barErr (s.store.barrier a) then 1 else 0 } }
    else s
  | _ => s

/-- Waiters re-test after a write to a granule (R133). -/
def State.wakeGranule (s : State) (g : Nat) : State :=
  let s1 := (s.wokenWaves g).foldl State.joinQueue s
  (s1.clusters.map (fun e => e.1)).foldl (fun t k => t.wakeSeq g k) s1

/-- A write on a line that a speculative wave watches is a conflict, unless the wave itself made it (R118). -/
def State.markConflicts (s : State) (by_ : Option Nat) (lines : List Nat) : State :=
  { s with waves := s.waves.map (fun e =>
      match e.2.spec with
      | none => e
      | some p =>
        if by_ ≠ some e.1 ∧ p.watches.any (fun l => lines.contains l) = true then
          (e.1, { e.2 with spec := some { p with conflict := true } })
        else e) }

/-- The place of a crew's object of a declared grid barrier (R139). -/
def State.gridPlace (s : State) (crew : Nat) (b : BarrierDecl) : Nat :=
  spKey (s.crew crew).core ((s.crew crew).spStart + b.offset)

/-- The crews whose object of a grid barrier lies at an address. -/
def State.gridCrews (s : State) (a gid : Nat) : List Nat :=
  (s.crews.map (fun e => e.1)).filter (fun c => !(s.crew c).ended &&
    (s.launch (s.crew c).launch).mod_.barriers.any (fun b => b.gridid == gid && s.gridPlace c b == a))

/-- A crew's GRID object whose local condition holds: it takes no further operation in its phase (R140). An armed object that a crew
of the device has at this place, of the barrier that its FLAGS name. -/
def State.gridShut (s : State) (a : Nat) : Bool :=
  let b := s.store.barrier a
  gridClosed b && s.store.armed.contains (a / 16) && !(s.gridCrews a (b.flags % 16)).isEmpty

/-- A crew notes how many heads it had kicked when the local condition of its GRID object came to hold (R140, R142). -/
def State.noteGrid (s : State) (a : Nat) : State :=
  let b := s.store.barrier a
  if barKind b ≠ 2 then s
  else
    let gid := b.flags % 16
    (s.gridCrews a gid).foldl (fun t c =>
      let cr := t.crew c
      let held := match gridClosed b, tabFind cr.gridHeld gid with
        | true, some _ => cr.gridHeld
        | true, none => tabPut cr.gridHeld gid cr.kicks
        | false, _ => tabDel cr.gridHeld gid
      t.setCrew c { cr with gridHeld := held }) s

/-- The object at a granule tested after a write by any other means than an operation on it (R130). -/
def State.testArmed (s : State) (g : Nat) : State :=
  if s.store.armed.contains g then
    let b := s.store.barrier (16 * g)
    if barTest b = b then s.noteGrid (16 * g)
    else s.setStore ((s.store.putCells (wholeCells (16 * g) (barrierBytes (barTest b)))).retag [g] none)
  else s

/-- Cells written at their home by a wave or another agent: bytes, tags, poison, the L2 tags of the lines, armed
objects, waiters and watches (R25, R66, R72, R76, R118, R130, R133). -/
def State.writeAtHome (s : State) (by_ : Option Nat) (cells : List (Nat × Byte × Byte)) (tag : Option Bool) : State :=
  let lines := linesOf cells
  let s1 := { s with mem := { l2Write s.mem s.dt cells with store := s.store.write cells tag } }
  let s2 := { s1 with mem := lines.foldl (fun ms l => l2Refit ms s.dt l) s1.mem }
  let gs := granulesOf cells
  let s3 := gs.foldl State.testArmed s2
  let s4 := gs.foldl State.wakeGranule s3
  s4.markConflicts by_ lines

/-- An operation on a barrier object at its bank (R129): an RMW of its sixteen bytes that arms the granule. -/
def State.barrierOp (s : State) (a : Nat) (f : BarObj → BarObj) : State :=
  let m := s.store
  let m1 := { m with armed := memberAdd m.armed (a / 16) }
  let s1 := s.setStore (m1.write (wholeCells a (barrierBytes (f (m.barrier a)))) none)
  (s1.noteGrid a).wakeGranule (a / 16)

end Sys2Proof.Machine
end

