-- ==== Sys2Proof/Machine/Access.lean ====
section
/-! DEFINITION. Capabilities and translation: the checks of R27, the page walk and the TLBs (R35 to R43), the
resolving of a lane's bytes, loads with the leased L1 copies (R46, R107), and writes in flight (R108, R109). -/

namespace Sys2Proof.Machine

open Sys2Proof

/-! ### Capability fields (R21 to R23) -/

/-- TOP. -/
def Capv.top (c : Capv) : Nat := Sys2Proof.bits c.bits.toNat 127 80

/-- BASE. -/
def Capv.base (c : Capv) : Nat := Sys2Proof.bits c.bits.toNat 79 32

/-- TID. -/
def Capv.tid (c : Capv) : Nat := Sys2Proof.bits c.bits.toNat 31 16

/-- PERM. -/
def Capv.perm (c : Capv) : Nat := Sys2Proof.bits c.bits.toNat 15 4

/-- SPACE. -/
def Capv.space (c : Capv) : Nat := Sys2Proof.bits c.bits.toNat 3 1

/-- SEALED. -/
def Capv.isSealed (c : Capv) : Bool := Sys2Proof.bit c.bits.toNat 0

/-- A capability from its fields (R21). -/
def Capv.make (tag : Bool) (top base tid perm space : Nat) (sld : Bool) : Capv :=
  { bits := BitVec.ofNat 128 ((if sld then 1 else 0) + 2 * (space % 8 + 8 * (perm % 4096 + 4096 * (tid % 65536 + 65536 *
      (base % 2 ^ 48 + 2 ^ 48 * (top % 2 ^ 48)))))), tag := tag }

/-- Permission masks (R22). -/
def permLD : Nat := 1
/-- ST. -/
def permST : Nat := 2
/-- AT. -/
def permAT : Nat := 4
/-- EX. -/
def permEX : Nat := 8
/-- LC. -/
def permLC : Nat := 16
/-- SC. -/
def permSC : Nat := 32
/-- XF. -/
def permXF : Nat := 64
/-- BA. -/
def permBA : Nat := 128
/-- DV. -/
def permDV : Nat := 256
/-- SU. -/
def permSU : Nat := 512
/-- MX. -/
def permMX : Nat := 1024
/-- PV. -/
def permPV : Nat := 2048

/-- Every permission of a mask is held. -/
def Capv.holds (c : Capv) (mask : Nat) : Bool := c.perm &&& mask == mask

/-- Steps 1 to 3 of R27. -/
def capCheck (c : Capv) (spaces : List Nat) (mask : Nat) : Option Cause :=
  if c.tag = false then some .capTag
  else if c.isSealed = true ∨ spaces.contains c.space = false ∨ c.holds mask = false then some .capPerm
  else none

/-! ### The agent that makes an access -/

/-- What an access needs to know of its agent: its core (none for a sequencer), cluster, crew and launch. -/
structure Env where
  core : Option Nat
  cluster : Nat
  crew : Option Nat
  launch : Nat
deriving DecidableEq, Repr

/-- The environment of a wave. -/
def State.waveEnv (s : State) (w : Nat) : Env :=
  { core := some (s.waveCore w), cluster := s.waveCluster w, crew := some (crewOf w), launch := s.waveLaunch w }

/-- The environment of a sequencer. -/
def State.seqEnv (s : State) (k : Nat) : Env :=
  { core := none, cluster := k, crew := none, launch := match (s.seqOf k).launch with
      | some l => l
      | none => 0 }

/-- The context identifier that an agent's launch runs in (R35). -/
def State.ctxOf (s : State) (e : Env) : Nat := (s.launch e.launch).rec_.ctx

/-- Step 4 of R27 beyond the capability's own bounds: the end that a crew's allocation, a launch's pool run or the
operand buffer sets (R48, R52, R62). -/
def State.spaceLimit (s : State) (e : Env) (space : Nat) : Option Nat :=
  match space with
  | 1 => match e.crew with
    | some c => some (s.crew c).spSize
    | none => some 0
  | 2 => some ((s.launch e.launch).rec_.banks * 131072)
  | 3 => some 1048576
  | _ => none

/-- Steps 4 and 5 of R27 for one lane: the cause and the address of the first failing byte. -/
def State.laneCheck (s : State) (e : Env) (c : Capv) (off n align : Nat) : Option (Cause × Nat) :=
  let cap := c.top - c.base
  let lim := match s.spaceLimit e c.space with
    | none => cap
    | some x => min cap (x - c.base)
  if lim < off + n then some (.capBounds, (c.base + max off lim) % 2 ^ 48)
  else if (c.base + off) % align ≠ 0 then some (.misalign, (c.base + off) % 2 ^ 48)
  else none

/-! ### The physical map (R24, R42, R43) -/

/-- The usable bytes of external DRAM (R24). -/
def usableDram : Nat := Config.dramBytes / 128 * 127 / 2097152 * 2097152

/-- A vault. -/
def State.vault (s : State) (k : Nat) : Vault := tabGet s.mem.vaults Vault.reset k

/-- PLACE of a physical address under R43, or none where an access raises ACCESS_FAULT. -/
def State.physPlace (s : State) (a : Nat) : Option Nat :=
  if a < 32 * s.dev.intlv * 1048576 then
    if (s.vault (l2Slice a)).out then none else some 0
  else
    match localVault a with
    | some k =>
      if (a - 0x000400000000) % 0x20000000 < (384 - s.dev.intlv) * 1048576 ∧ (s.vault k).out = false then some 1 else none
    | none =>
      if 0x001000000000 ≤ a ∧ a < 0x001000000000 + usableDram then (if s.mem.dramOut then none else some 2)
      else if 0x002000000000 ≤ a ∧ a < 0x002100000000 then some 3
      else if isHost a then some 3
      else if isPeer a then
        let d := (a - 2 ^ 47) / 2 ^ 43
        if d < 4 ∧ d ≠ s.dev.galSelf ∧ bit s.dev.galPresent d = true ∧ (a - 2 ^ 47) % 2 ^ 43 < 0x002000000000 then some 3
        else none
      else none

/-! ### The page walk (R35 to R38) -/

/-- Kinds of access that a leaf allows (R37). -/
inductive Acc where
  | load
  | store
  | fetch
deriving DecidableEq, Repr

/-- A leaf whose reserved fields are zero, with the PFN limit of a 2 MiB page (R37, R38). -/
def leafOk (e : Nat) (big : Bool) : Bool :=
  bits e 63 56 == 0 && bits e 51 48 == 0 && bits e 15 12 == 0 && bits e 2 2 == 0 && (!big || bits e 20 16 == 0)

/-- A pointer whose reserved fields are zero, with the alignment of levels 0 and 1 (R37, R38). -/
def pointerOk (e level : Nat) : Bool :=
  bits e 63 56 == 0 && bits e 51 48 == 0 && bits e 7 2 == 0 && (decide (2 ≤ level) || bits e 11 8 == 0)

/-- The index of a virtual address at a level (R36). -/
def walkIndex (va level : Nat) : Nat :=
  match level with
  | 0 => bits va 47 39
  | 1 => bits va 38 30
  | 2 => bits va 29 21
  | _ => bits va 20 16

/-- A place that an access of the walker or of a thread may reach (R43): listed, and not a device register. -/
def State.reachable (s : State) (a : Nat) : Bool :=
  (s.physPlace a).isSome && !(decide (0x002000000000 ≤ a) && decide (a < 0x002100000000))

/-- The address bits that index down to a level (R36, R40). -/
def walkPrefix (va level : Nat) : Nat := va / 2 ^ (39 - 9 * level)

/-- The pointer entry that the walker holds for an address at a level (R40). -/
def State.pointer (s : State) (ctx va level : Nat) : Option PtrEntry :=
  s.mem.ptrs.find? (fun p => p.ctx == ctx && p.level == level && p.index == walkPrefix va level)

/-- A pointer entry that the walker read joins the 512 that it holds (R40); the one held longest leaves (log entry 26). -/
def State.keepPointer (s : State) (p : PtrEntry) : State :=
  { s with mem := { s.mem with ptrs := (p :: s.mem.ptrs.filter (fun x => x != p)).take 512 } }

/-- One walk by the walker from a table at a level (R36 to R38, R40, R43): a pointer entry that it holds, or the entry read at
its home; the leaf's address, the leaf, and whether its page has 2 MiB, or the cause. The last argument counts levels. -/
def State.walkLevels (s : State) (ctx va table level : Nat) : Nat → State × Except Cause (Nat × Nat × Bool)
  | 0 => (s, .error .pageFault)
  | n + 1 =>
    match s.pointer ctx va level with
    | some p => s.walkLevels ctx va (bits p.entry 47 8 * 256) (level + 1) n
    | none =>
      let a := table + 8 * walkIndex va level
      if s.reachable a = false then (s, .error .accessFault)
      else
        let s1 := s.touchRead a 8
        let e := s1.store.readNat a 8
        if bit e 0 = false then (s1, .error .pageFault)
        else if bit e 1 = true then
          if level = 2 ∧ leafOk e true = true then (s1, .ok (a, e, true))
          else if level = 3 ∧ leafOk e false = true then (s1, .ok (a, e, false))
          else (s1, .error .pageFault)
        else if level < 3 ∧ pointerOk e level = true then
          (s1.keepPointer { ctx := ctx, level := level, index := walkPrefix va level, entry := e }).walkLevels ctx va
            (bits e 47 8 * 256) (level + 1) n
        else (s1, .error .pageFault)

/-- A walk of the walker in a context (R35, R40, R43). -/
def State.walkOf (s : State) (ctx va : Nat) : State × Except Cause (Nat × Nat × Bool) :=
  let a := s.dev.ctxBase * 32768 + 8 * ctx
  if s.reachable a = false then (s, .error .accessFault)
  else
    let s1 := s.touchRead a 8
    let e := s1.store.readNat a 8
    if bit e 0 = false then (s1, .error .pageFault) else s1.walkLevels ctx va (bits e 47 12 * 4096) 0 4

/-- The walker sets A, and D for a store, with an atomic at the L2 (R38). -/
def State.setAD (s : State) (a e : Nat) (store : Bool) : State :=
  let want : Nat := (if store then 192 else 64)
  if e &&& want = want then s else s.writeAtHome none [(a, BitVec.ofNat 8 want, 255)] none

/-- The page number that tags a translation (R39). -/
def vpnOf (va : Nat) (big : Bool) : Nat := if big then va / 2097152 else va / 65536

/-- A TLB entry that serves an address. -/
def tlbHit (l : List TlbEntry) (ctx va : Nat) : Option TlbEntry :=
  l.find? (fun t => t.ctx == ctx && t.vpn == vpnOf va t.big)

/-- A TLB of n entries with an entry replaced or added (R39); when it is full the one filled longest ago leaves (log entry
26). -/
def tlbFill (n : Nat) (l : List TlbEntry) (t : TlbEntry) : List TlbEntry :=
  (t :: l.filter (fun x => !(x.ctx == t.ctx && x.big == t.big && x.vpn == t.vpn))).take n

/-- A translation put into the TLB of a core (R39). -/
def State.fillCoreTlb (s : State) (c : Nat) (t : TlbEntry) : State :=
  s.setCore c { s.core c with tlb := tlbFill 256 (s.core c).tlb t }

/-- A finished walk fills the cluster TLB and the TLB of the core that waits (R40). -/
def State.fillTlbs (s : State) (e : Env) (t : TlbEntry) : State :=
  let s1 := s.setCluster e.cluster { s.cluster e.cluster with tlb := tlbFill 4096 (s.cluster e.cluster).tlb t }
  match e.core with
  | none => s1
  | some c => s1.fillCoreTlb c t

/-- A translation that the core's TLB holds. -/
def State.coreLeaf (s : State) (e : Env) (ctx va : Nat) : Option TlbEntry :=
  match e.core with
  | none => none
  | some c => tlbHit (s.core c).tlb ctx va

/-- A cached translation of the core or the cluster (R39). -/
def State.cachedLeaf (s : State) (e : Env) (ctx va : Nat) : Option TlbEntry :=
  match s.coreLeaf e ctx va with
  | some t => some t
  | none => tlbHit (s.cluster e.cluster).tlb ctx va

/-- A cached translation used: one that only the cluster TLB holds fills the core's (R39). -/
def State.useLeaf (s : State) (e : Env) (ctx va : Nat) (t : TlbEntry) : State :=
  match e.core, s.coreLeaf e ctx va with
  | some c, none => s.fillCoreTlb c t
  | _, _ => s

/-- The physical address that a leaf gives (R37). -/
def leafAddr (t : TlbEntry) (va : Nat) : Nat :=
  if t.big then bits t.leaf 47 21 * 2097152 + va % 2097152 else bits t.leaf 47 16 * 65536 + va % 65536

/-- The lease class of a leaf: pages of PLACE 3 are uncached whatever LEASE holds (R38). -/
def leafClass (t : TlbEntry) : Nat := if bits t.leaf 11 10 = 3 then 0 else bits t.leaf 9 8

/-- A leaf allows an access (R37). -/
def leafAllows (t : TlbEntry) (acc : Acc) : Bool :=
  match acc with
  | .load => bit t.leaf 3
  | .store => bit t.leaf 4
  | .fetch => bit t.leaf 5

/-- The place and the lease class that a translation gives an access (R37, R38, R43). -/
def State.leafPlace (s : State) (t : TlbEntry) (va : Nat) (acc : Acc) : Except Cause (Nat × Nat) :=
  let pa := leafAddr t va
  if leafAllows t acc = true ∧ s.physPlace pa = some (bits t.leaf 11 10) ∧ s.reachable pa = true then .ok (pa, leafClass t)
  else .error .accessFault

/-! ### The miss tables and the walker (R39 to R41) -/

/-- A prefetch of a physical line queued at its core: nothing on a page of PLACE 3 or of lease class 0. -/
def State.queuePref (s : State) (core lvl pa cls : Nat) : State :=
  if cls = 0 ∨ isPlace3 pa = true then s
  else
    let rq : PrefReq := { line := (if lvl = 0 then pa / 64 else pa / 128), cls := cls, level := lvl }
    s.setCore core { s.core core with prefs := (s.core core).prefs ++ [rq] }

/-- A miss enters its cluster's miss table, or joins the chain of an entry of the same context and page (R39); the waiters that it
adds are those that wait beyond the step: prefetches. -/
def missJoin (l : List Miss) (ctx page : Nat) (xs : List Waiter) : List Miss :=
  match l with
  | [] => [{ ctx := ctx, page := page, waiters := xs, walking := false }]
  | m :: rest =>
    if m.ctx = ctx ∧ m.page = page then { m with waiters := m.waiters ++ xs } :: rest else m :: missJoin rest ctx page xs

/-- Walks that the walker runs now (R40). -/
def State.walksRunning (s : State) : Nat := (s.clusters.map (fun e => (e.2.misses.filter (fun m => m.walking)).length)).sum

/-- The cluster from which the walker takes its next walk: the first in round-robin order with an entry of its 128-entry miss
table that waits (R39, R40). -/
def State.walkCluster (s : State) : Option Nat :=
  ((List.range 32).map (fun i => (s.mem.walkTurn + i) % 32)).find? (fun k =>
    ((s.cluster k).misses.take 128).any (fun m => !m.walking))

/-- The first entry that waits is taken. -/
def missTake (l : List Miss) : List Miss :=
  match l with
  | [] => []
  | m :: rest => if m.walking then m :: missTake rest else { m with walking := true } :: rest

/-- The walker takes walks until it runs 64 or none waits (R40); the last argument bounds them. -/
def State.takeWalks (s : State) : Nat → State
  | 0 => s
  | n + 1 =>
    if 64 ≤ s.walksRunning then s
    else
      match s.walkCluster with
      | none => s
      | some k =>
        let s1 := s.setCluster k { s.cluster k with misses := missTake (s.cluster k).misses }
        { s1 with mem := { s1.mem with walkTurn := (k + 1) % 32 } }.takeWalks n

/-- An invalidation in progress names a page of a context (R41). -/
def invMatches (mode ictx ivpn ctx va : Nat) (big : Bool) : Bool :=
  match mode with
  | 0 => true
  | 1 => ictx == ctx
  | _ => ictx == ctx && vpnOf va big == vpnOf (ivpn * 4096) big

/-- The walks that the walker runs, each with its cluster, in ascending cluster and table order (R40). -/
def State.running (s : State) : List (Nat × Miss) :=
  s.clusters.flatMap (fun e => (e.2.misses.filter (fun m => m.walking)).map (fun m => (e.1, m)))

/-- A walk that an invalidation in progress names restarts only once BUSY clears (R41). -/
def State.walkHeld (s : State) (m : Miss) : Bool :=
  let d := s.dev
  d.tlbBusy && (invMatches d.tlbMode d.tlbCtx d.tlbVpn m.ctx (m.page * 65536) true
    || invMatches d.tlbMode d.tlbCtx d.tlbVpn m.ctx (m.page * 65536) false)

/-- A walk that fills the TLBs and sets A and, for a store that the leaf allows, D (R38, R40). -/
def State.walkRaw (s : State) (e : Env) (ctx va : Nat) (store : Bool) : State × Except Cause TlbEntry :=
  match s.walkOf ctx va with
  | (s1, .error c) => (s1, .error c)
  | (s1, .ok (a, leaf, big)) =>
    let d := store && bit leaf 4
    let t : TlbEntry := { ctx := ctx, big := big, vpn := vpnOf va big, leaf := leaf ||| (if d then 192 else 64) }
    ((s1.setAD a leaf d).fillTlbs e t, .ok t)

/-- A waiter of a finished walk proceeds: the translation fills its core's TLB, and its prefetch is queued, or dropped where the
translation does not serve it (R40, R284). -/
def State.serveWaiter (t : TlbEntry) (s : State) (x : Waiter) : State :=
  let s1 := s.fillCoreTlb x.core t
  match s1.leafPlace t x.va .load with
  | .error _ => s1
  | .ok (pa, cls) => s1.queuePref x.core x.level pa cls

/-- A walk of the miss table of its agent's cluster finishes: its entry is free, the TLBs are filled, every waiter of its chain
proceeds, and the walker takes another (R39, R40). -/
def State.finishWalk (s : State) (e : Env) (m : Miss) (va : Nat) (store : Bool) : State × Except Cause TlbEntry :=
  let k := e.cluster
  match (s.setCluster k { s.cluster k with misses := (s.cluster k).misses.filter (fun x => x != m) }).walkRaw e m.ctx va store with
  | (s1, .error c) => (s1.takeWalks 64, .error c)
  | (s1, .ok t) => ((m.waiters.foldl (State.serveWaiter t) s1).takeWalks 64, .ok t)

/-- The walks that come before that of a page finish, until the walker has taken it (R40); those that an invalidation holds do not
finish. The last argument bounds them. -/
def State.walkAhead (s : State) (k ctx page : Nat) : Nat → State
  | 0 => s
  | n + 1 =>
    if (s.cluster k).misses.any (fun m => m.ctx == ctx && m.page == page && m.walking) then s
    else
      match s.running.find? (fun r => !s.walkHeld r.2) with
      | none => s
      | some (j, m) =>
        (s.finishWalk { core := none, cluster := j, crew := none, launch := 0 } m (m.page * 65536) false).1.walkAhead k ctx page n

/-- The walk of an access that misses (R39, R40): it enters the miss table of its cluster or joins a chain, waits there and at the
walker for its turn, and the chain proceeds with it. All of it lies in the step of the access (log entry 26). A chain
that an invalidation holds stays, and the access walks alone (R41). -/
def State.walkFill (s : State) (e : Env) (ctx va : Nat) (store : Bool) : State × Except Cause TlbEntry :=
  let k := e.cluster
  let page := va / 65536
  let s1 := (s.setCluster k { s.cluster k with misses := missJoin (s.cluster k).misses ctx page [] }).takeWalks 64
  let s2 := s1.walkAhead k ctx page (s1.clusters.map (fun x => x.2.misses.length)).sum
  match (s2.cluster k).misses.find? (fun m => m.ctx == ctx && m.page == page) with
  | none => s2.walkRaw e ctx va store
  | some m => if s2.walkHeld m = true ∧ m.waiters ≠ [] then s2.walkRaw e ctx va store else s2.finishWalk e m va store

/-- The translation that an access uses: a cached one, except that the first store through a translation whose D is 0
makes a fresh walk (R38, R39). -/
def State.leafFor (s : State) (e : Env) (ctx va : Nat) (acc : Acc) : State × Except Cause TlbEntry :=
  match s.cachedLeaf e ctx va with
  | none => s.walkFill e ctx va (acc == .store)
  | some t => if acc = .store ∧ bit t.leaf 7 = false then s.walkFill e ctx va true else (s.useLeaf e ctx va t, .ok t)

/-- Translation of one address in a context (R38, R43): the state with TLBs and A, D changed, the physical address and the
lease class; or the state that the walk left and the cause. -/
def State.translateIn (s : State) (e : Env) (ctx va : Nat) (acc : Acc) : Except (State × Cause) (State × Nat × Nat) :=
  match s.leafFor e ctx va acc with
  | (s1, .error c) => .error (s1, c)
  | (s1, .ok t) =>
    match s1.leafPlace t va acc with
    | .error c => .error (s1, c)
    | .ok (pa, cls) => .ok (s1, pa, cls)

/-- Translation in the context of the agent's launch (R35). -/
def State.translate (s : State) (e : Env) (va : Nat) (acc : Acc) : Except (State × Cause) (State × Nat × Nat) :=
  s.translateIn e (s.ctxOf e) va acc

/-! ### The bytes of an access -/

/-- Consecutive keys with one lease class. -/
def keyRun (a cls : Nat) : Nat → List (Nat × Nat)
  | 0 => []
  | n + 1 => (a, cls) :: keyRun (a + 1) cls n

/-- The bytes of n virtual addresses from va, page by page: their places in the unified memory with the lease class of
each; or the state left, the cause and the first failing address. The last argument bounds the pages. -/
def State.vaKeys (s : State) (e : Env) (acc : Acc) (va n : Nat) :
    Nat → Except (State × Cause × Nat) (State × List (Nat × Nat))
  | 0 => .ok (s, [])
  | p + 1 =>
    if n = 0 then .ok (s, [])
    else
      let here := min n (65536 - va % 65536)
      match s.translate e (va % 2 ^ 48) acc with
      | .error (s1, c) => .error (s1, c, va % 2 ^ 48)
      | .ok (s1, pa, cls) =>
        match s1.vaKeys e acc (va + here) (n - here) p with
        | .error x => .error x
        | .ok (s2, rest) => .ok (s2, keyRun pa cls here ++ rest)

/-- The places of n bytes at an offset through a capability whose checks have passed (R23, R48, R52, R62). -/
def State.capKeys (s : State) (e : Env) (c : Capv) (acc : Acc) (off n : Nat) :
    Except (State × Cause × Nat) (State × List (Nat × Nat)) :=
  match c.space with
  | 1 => match e.core, e.crew with
    | some core, some cr => .ok (s, keyRun (spKey core ((s.crew cr).spStart + c.base + off)) 0 n)
    | _, _ => .error (s, .capPerm, 0)
  | 2 => .ok (s, keyRun (poolKey e.cluster (tabGet (s.launch e.launch).poolBase 0 e.cluster * 131072 + c.base + off)) 0 n)
  | 3 => .ok (s, keyRun (opKey e.cluster (c.base + off)) 0 n)
  | _ => s.vaKeys e acc (c.base + off) n (n / 65536 + 2)

/-! ### Writes in flight (R91, R108 to R110) -/

/-- A write of a wave performed at its home. A write to a peer that is gone is dropped (R407). -/
def State.landWrite (s : State) (by_ : Option Nat) (p : PWrite) : State :=
  if p.cells.any (fun c => isPeer c.1 && bit s.dev.galPresent ((c.1 - 2 ^ 47) / 2 ^ 43) == false) then s
  else s.writeAtHome by_ p.cells p.tag

/-- The acknowledgement that a write waits for, by its address: that of a write to a peer that is present (R124). -/
def State.peerAcks (s : State) (p : PWrite) : List Nat :=
  match p.cells with
  | [] => []
  | c :: _ => if isPeer c.1 = true ∧ bit s.dev.galPresent ((c.1 - 2 ^ 47) / 2 ^ 43) = true then [c.1] else []

/-- A write performed at its home by a wave: GWCT enters MAXW, and a peer write waits for its acknowledgement. -/
def State.performWrite (s : State) (w : Nat) (p : PWrite) : State :=
  let g := gwctOf s.mem s.dt p.cells
  let s1 := s.landWrite (some w) p
  let v := s1.wave w
  s1.setWave w { v with maxw := max v.maxw g, peerOut := v.peerOut ++ s.peerAcks p }

/-- A write of an account performed at its home: GWCT enters the account's MAXW and that of the launch. -/
def State.performLeft (s : State) (a : Nat) (p : PWrite) : State :=
  let g := gwctOf s.mem s.dt p.cells
  let s1 := s.landWrite none p
  let v := s1.account a
  let s2 := s1.setAccount a { v with maxw := max v.maxw g, peerOut := v.peerOut ++ s.peerAcks p }
  s2.setLaunch v.launch { s2.launch v.launch with maxw := max (s2.launch v.launch).maxw g }

/-- The writes that must be performed so that nothing stays in flight to some homes, each with all the earlier ones to its own
homes (R109): the homes reached, those writes, and the writes that stay, both in the order of issue. -/
def neededFor (hs : List Nat) (out : List PWrite) : List Nat × List PWrite × List PWrite :=
  match out with
  | [] => (hs, [], [])
  | p :: rest =>
    let r := neededFor hs rest
    if meets p.homes r.1 then (p.homes ++ r.1, p :: r.2.1, r.2.2) else (r.1, r.2.1, p :: r.2.2)

/-- The writes of an account to some homes are performed in the order of issue (R109). -/
def State.flushAccount (s : State) (hs : List Nat) (a : Nat) : State :=
  let v := s.account a
  let r := neededFor hs v.out
  r.2.1.foldl (fun t p => t.performLeft a p) (s.setAccount a { v with out := r.2.2 })

/-- All the writes of an account are performed. -/
def State.emptyAccount (s : State) (a : Nat) : State :=
  let v := s.account a
  v.out.foldl (fun t p => t.performLeft a p) (s.setAccount a { v with out := [] })

/-- The wave's writes in flight to some homes are performed, in the order of issue (R109). -/
def State.flushHomes (s : State) (w : Nat) (hs : List Nat) : State :=
  let r := neededFor hs (s.wave w).out
  let s0 := (s.wave w).accts.foldl (fun t a => t.flushAccount r.1 a) s
  if r.2.1 = [] then s0
  else r.2.1.foldl (fun t p => t.performWrite w p) (s0.setWave w { s0.wave w with out := r.2.2 })

/-- The wave's writes in flight to one home are performed. -/
def State.flushHome (s : State) (w home : Nat) : State := s.flushHomes w [home]

/-- All the wave's writes in flight are performed (R103, R106). -/
def State.flushAll (s : State) (w : Nat) : State :=
  let s0 := (s.wave w).accts.foldl State.emptyAccount s
  if (s0.wave w).out = [] then s0
  else (s0.wave w).out.foldl (fun t p => t.performWrite w p) (s0.setWave w { s0.wave w with out := [] })

/-- Cells cut at 8-byte boundaries: each piece is single-copy atomic on its own (R91). -/
def splitCells (cells : List (Nat × Byte × Byte)) : List (List (Nat × Byte × Byte)) :=
  match cells with
  | [] => []
  | c :: rest =>
    match splitCells rest with
    | (d :: ds) :: more => if c.1 / 8 = d.1 / 8 then (c :: d :: ds) :: more else [c] :: (d :: ds) :: more
    | other => [c] :: other

/-- One piece on its way to its home. -/
def pieceOf (lane : Nat) (cells : List (Nat × Byte × Byte)) : PWrite := { lane := lane, ser := 0, cells := cells, tag := none }

/-- The pieces of a lane's store on their way. -/
def piecesOf (lane : Nat) (cells : List (Nat × Byte × Byte)) : List PWrite := (splitCells cells).map (pieceOf lane)

/-- A store invalidates the lines of its core's L1 that it hits, before it leaves the core (R46, R109). -/
def State.dropL1 (s : State) (core : Nat) (cells : List (Nat × Byte × Byte)) : State :=
  s.setCore core { s.core core with
    l1d := (s.core core).l1d.filter (fun l => !cells.any (fun c => c.1 / 64 == l.line)) }

/-! ### Error logs (R68, R79, R393) -/

/-- A log register after an error of a kind (0 corrected, 1 uncorrectable, 2 latent) with its other fields: a free register takes
it, an uncorrectable error replaces a corrected record, and every one that arrives while VALID is 1 sets OVER, which stays until
software clears it (R68). -/
def logErr (reg kind rec_ : Nat) : Nat :=
  let late := bit reg 62 || (kind != 0 && bit reg 63)
  let fields := if bit reg 63 = false ∨ (kind ≠ 0 ∧ bits reg 61 60 = 0) then 2 ^ 63 + kind * 2 ^ 60 + rec_
    else reg - (if bit reg 62 then 2 ^ 62 else 0)
  fields + if late then 2 ^ 62 else 0

/-- What an error is (R68, R79): one that is corrected is 1 when a scrub finds it and 3 when an access does, an uncorrectable one is
2, latent, or 4 and above. -/
def errCorrected (err : Nat) : Bool := err == 1 || err == 3

/-- KIND of an error (R79). -/
def errKind (err : Nat) : Nat := if errCorrected err then 0 else if err = 2 then 2 else 1

/-- The first of n words that a mask of bits names. -/
def firstBit (p n : Nat) : Nat := ((List.range n).find? (fun i => bit p i)).getD 0

/-- Fields of a NEAR_ERR record (R68). -/
def nearRec (unit place bank off : Nat) : Nat :=
  unit % 16 * 2 ^ 56 + place % 4 * 2 ^ 54 + bank % 32 * 2 ^ 49 + off % 2 ^ 48

/-- An MSI-X vector fires (R405). -/
def State.fireMsix (s : State) (v : Nat) : State := { s with dev := { s.dev with msix := s.dev.msix ++ [v] } }

/-- What a log of an error sets off: the memory-error interrupt for an uncorrectable or latent one (R68), and MSI-X vector 17
when a record was written (R405). -/
def State.logAlarm (s : State) (kind : Nat) (recorded : Bool) : State :=
  let s1 := if recorded then s.fireMsix 17 else s
  if kind = 0 then s1 else { s1 with dev := { s1.dev with memIrq := true } }

/-- An error of a near memory logged in its cluster; corrected ones are counted. -/
def State.logNear (s : State) (k kind unit place bank off : Nat) : State :=
  let c := s.cluster k
  let new := logErr c.nearErr kind (nearRec unit place bank off)
  (s.setCluster k { c with
    nearErr := new
    nearCe := if kind = 0 then min (c.nearCe + 1) (2 ^ 32 - 1) else c.nearCe }).logAlarm kind (new != c.nearErr)

/-! ### Loads (R46, R82, R107) -/

/-- A copy of a 64-byte line filled from its home (R107): the line's lease is recorded there. -/
def l1Copy (m : Store) (line expiry : Nat) : L1Line :=
  { line := line, expiry := expiry, bytes := m.readBytes (64 * line) 64
    tags := (List.range 4).foldl (fun x i => if m.tagAt (64 * line + 16 * i) then x + 2 ^ i else x) 0
    poison := (List.range 8).foldl (fun x i => if m.poisoned (64 * line + 8 * i) 8 then x + 2 ^ i else x) 0 }

/-- A list of lines in sets and ways with one line filled: of a full set the line filled longest ago leaves (R44, log entry
23). The arguments name the number of a line, the sets and the ways; the newest line stands first. -/
def wayFill {α : Type} (num : α → Nat) (sets ways : Nat) (l : List α) (x : α) : List α :=
  let same := l.filter (fun y => num y % sets == num x % sets && num y != num x)
  x :: (same.take (ways - 1) ++ l.filter (fun y => num y % sets != num x % sets))

/-- The sets of the L1 data cache of a core, of 8 ways (R44, R45). -/
def l1Sets (split : Nat) : Nat := 64 * 2 ^ min split 2

/-- Some agent of a core has a write in flight to a 64-byte line (R109). -/
def State.lineInFlight (s : State) (core line : Nat) : Bool :=
  let hits := fun (out : List PWrite) => out.any (fun p => p.cells.any (fun c => c.1 / 64 == line))
  s.waves.any (fun e => s.waveCore e.1 == core && hits e.2.out) || s.mem.accounts.any (fun e => s.waveCore e.2.wave == core && hits e.2.out)

/-- An L1 data fill: the home grants a lease of the page's class (R46, R107). The copy is not kept while a store of the core is
on its way to the line (R109). A poisoned word that the fill brings in is logged as latent (R66, R68), at an offset that counts its line
modulo 256 (log entry 83). -/
def State.fillL1 (s : State) (core line cls : Nat) : State :=
  let ms := l2Grant s.mem s.dt (line / 2) cls
  let s1 := { s with mem := ms }
  let c := s1.core core
  let x := l1Copy ms.store line (s.dt + leaseNs cls)
  let s2 := if s.lineInFlight core line then s1
    else s1.setCore core { c with l1d := wayFill L1Line.line (l1Sets c.split) 8 c.l1d x }
  if x.poison = 0 then s2 else s2.logNear (clusterOf core) 2 1 (placeOf core) 0 (line % 256 * 64 + 8 * firstBit x.poison 8)

/-- The copy that serves a load: one whose lease has not run out (R46). -/
def State.l1Hit (s : State) (core line : Nat) : Option L1Line :=
  (s.core core).l1d.find? (fun l => l.line == line && decide (s.dt < l.expiry))

/-- One byte loaded by a wave, with its poison mark. Leased pages go through the L1; every other byte is read at its
home, after the wave's own writes to that home (R46, R66, R109). -/
def State.loadByte (s : State) (w core : Nat) (key cls : Nat) : State × Byte × Bool :=
  if cls = 0 then
    let s1 := s.flushHome w (homeOf key)
    let s2 := s1.touchRead key 1
    (s2, s2.store.byte key, s2.store.poisoned key 1)
  else
    match s.l1Hit core (key / 64) with
    | some l => (s, l.bytes.getD (key % 64) 0, bit l.poison (key % 64 / 8))
    | none =>
      let s1 := (s.flushHome w (homeOf key)).fillL1 core (key / 64) cls
      (s1, s1.store.byte key, s1.store.poisoned key 1)

/-- The homes to which an access to some places goes (R46): those of bytes that no copy in the L1 serves. -/
def State.readHomes (s : State) (core : Nat) (ks : List (Nat × Nat)) : List Nat :=
  (ks.filter (fun k => k.2 == 0 || (s.l1Hit core (k.1 / 64)).isNone)).map (fun k => homeOf k.1)

/-- The bytes of a load as a little-endian number (R6), with the poison mark of any of them. -/
def State.loadKeys (s : State) (w core : Nat) (ks : List (Nat × Nat)) : State × Nat × Bool :=
  match ks with
  | [] => (s, 0, false)
  | (key, cls) :: rest =>
    let r := s.loadByte w core key cls
    let t := r.1.loadKeys w core rest
    (t.1, r.2.1.toNat + 256 * t.2.1, r.2.2 || t.2.2)

/-- One byte as a speculative load takes it: from the wave's own buffered stores, newest first, else from the home
(R115). -/
def specByte (m : Store) (stores : List (List PWrite)) (key : Nat) : Nat :=
  let old := m.byte key
  (stores.foldl (fun b ps => ps.foldl (fun b p => p.cells.foldl (fun b c =>
    if c.1 = key then (b &&& ~~~c.2.1) ||| (c.2.2 &&& c.2.1) else b) b) b) old).toNat

end Sys2Proof.Machine
end

