-- ==== Sys2Proof/Machine/Ops.lean ====
section
/-! DEFINITION. The shared operations of the words: parking and finishing, ends of crews and launches (R379 to
R381), taking a trap (R372, R373, R375) and the return from one (R374, R377), the sequencer fault (R322), and the
waits of releases and fences (R111 to R116). -/

namespace Sys2Proof.Machine

open Sys2Proof

/-! ### Statuses of CC and of completion records (R191, R354) -/

/-- CC with another STATUS. -/
def Cc.withStatus (c : Cc) (n : Nat) : Cc := { c with status := n }

/-- The status that a launch reports: the first end in time, any code but OK and DEADLINE before DEADLINE (R354). -/
def mergeEnd (old : Option (Nat × Nat)) (status info : Nat) : Option (Nat × Nat) :=
  match old with
  | none => some (status, info)
  | some (st, i) => if st ≤ 1 ∧ 1 < status then some (status, info) else some (st, i)

/-- An end recorded for a launch. -/
def State.noteEnd (s : State) (l status info : Nat) : State :=
  s.setLaunch l { s.launch l with endStatus := mergeEnd (s.launch l).endStatus status info }

/-! ### Parking and finishing a word (R196, R366) -/

/-- A wave parked for a cause; its place and registers stay. -/
def State.park (s : State) (w : Nat) (p : Park) : State :=
  s.setWave w { s.wave w with park := p, lastPark := s.coreCycles (s.waveCore w) }

/-- A wave parked in the wait of R111; the word that waits keeps the k registers of its first issue (R27). -/
def State.parkRelease (s : State) (w scope : Nat) : State :=
  let v := s.wave w
  s.setWave w { v with
    park := .release scope, lastPark := s.coreCycles (s.waveCore w)
    held := match v.held with
      | some f => some f
      | none => some { k := (s.group (groupOf w)).k, load := none } }

/-- A parked wave becomes ready (R366). -/
def State.unpark (s : State) (w : Nat) : State :=
  s.setWave w { s.wave w with park := .run, readyAt := s.coreCycles (s.waveCore w) }

/-- Where a wave goes on after a wait at a word that carries a marker or not: an outstanding result keeps it parked (R196). -/
def Wave.afterWait (v : Wave) (mark : Bool) : Park := if mark = true ∧ v.pend ≠ [] then .marker else .run

/-- A wait at a word that the wave has passed has ended. -/
def State.passMark (s : State) (w : Nat) (mark : Bool) : State :=
  s.setWave w { s.wave w with park := (s.wave w).afterWait mark, readyAt := s.coreCycles (s.waveCore w) }

/-- The wave passes its word of n positions; a marker with an outstanding result parks it (R196, R236). -/
def State.finishN (s : State) (w : Nat) (mark : Bool) (n : Nat) : State :=
  let v := s.wave w
  (s.setWave w { v with
    word := v.word + n, retry := none, held := none, park := v.afterWait mark
    lastPark := if mark = true ∧ v.pend ≠ [] then s.coreCycles (s.waveCore w) else v.lastPark }).bumpFree

/-- The wave passes a word of one position. -/
def State.finish (s : State) (w : Nat) (mark : Bool) : State := s.finishN w mark 1

/-- A change of the condition code of a wave. -/
def State.setCc (s : State) (w : Nat) (c : Cc) : State := s.setWave w { s.wave w with cc := c }

/-- A status-returning word writes STATUS. -/
def State.setStatus (s : State) (w n : Nat) : State := s.setCc w ((s.wave w).cc.withStatus n)

/-- MZ after a predicate write: 1 exactly when the destination is false in every occupied lane; p0 leaves 0 (R267). -/
def State.setMz (s : State) (w p : Nat) : State :=
  let mz := p != 0 && (s.occupied w).all (fun e => !s.readPrd w e.2 p)
  s.setCc w { (s.wave w).cc with mz := mz }

/-- The base of the device registers (R43). -/
def devBase : Nat := 0x002000000000

/-! ### The journal (R370, R436) -/

/-- Entry i of the journal. -/
def jrnEntry (i : Nat) : Nat := devBase + 0x100000 + 16 * (i % 4096)

/-- The entries between CKPT and TAIL, oldest first, as KIND and SLOT; the first argument bounds them. -/
def State.jrnFrom (s : State) (i : Nat) : Nat → List (Nat × Nat)
  | 0 => []
  | n + 1 =>
    if i % 4096 = s.sched.jtail then []
    else (s.store.readNat (jrnEntry i) 2, s.store.readNat (jrnEntry i + 2) 2) :: s.jrnFrom (i + 1) n

/-- The entries that a replay would read. -/
def State.jrnOpen (s : State) : List (Nat × Nat) := s.jrnFrom s.sched.ckpt 4096

/-- Free entries of the journal. -/
def State.jrnFree (s : State) : Nat := 4095 - (s.sched.jtail + 4096 - s.sched.ckpt) % 4096

/-- A step that journals n entries may run: what closes the open slots keeps its room. -/
def State.jrnRoom (s : State) (n : Nat) : Bool := decide (n + 64 ≤ s.jrnFree)

/-- A placement slot is open. -/
def State.placeOpen (s : State) (i : Nat) : Bool := s.launches.any (fun e => e.2.placeSlot == some i)

/-- A stage slot is open. -/
def State.stageOpen (s : State) (i : Nat) : Bool := s.launches.any (fun e => e.2.stageSlot == some i)

/-- An entry that opens a slot still open. -/
def State.jrnHolds (s : State) (e : Nat × Nat) : Bool :=
  (e.1 == 3 && s.placeOpen e.2) || (e.1 == 5 && s.stageOpen e.2)

/-- CKPT moved past the entries whose PLACE and DUE have been closed (R436). -/
def State.jrnAdvance (s : State) : State :=
  let n := (s.jrnOpen.takeWhile (fun e => !s.jrnHolds e)).length
  { s with sched := { s.sched with ckpt := (s.sched.ckpt + n) % 4096 } }

/-- One entry written at TAIL (R436): KIND and SLOT; bytes 4 to 15 stay. -/
def State.journal (s : State) (kind slot : Nat) : State :=
  let s1 := s.setStore (s.store.write (wholeCells (jrnEntry s.sched.jtail) (bytesOf kind 2 ++ bytesOf slot 2)) none)
  { s1 with sched := { s1.sched with jtail := (s1.sched.jtail + 1) % 4096 } }

/-- The lowest slot that no entry between CKPT and TAIL opens (R436). -/
def State.freeSlot (s : State) (kind : Nat) (isOpen : Nat → Bool) : Option Nat :=
  let opened := s.jrnOpen
  (List.range 32).find? (fun i => !isOpen i && !opened.any (fun e => e.1 == kind && e.2 == i))

/-! ### Grid instances (R139 to R141, R159) -/

/-- The key of the instance of a grid barrier that holds a crew: 128 times GRIDID plus its sub-rectangle (R159). -/
def gridKey (b : BarrierDecl) (c : Crew) : Nat := b.gridid * 128 + c.ly / 2 ^ b.ly * 16 + c.lx / 2 ^ b.lx

/-- Crews put in the order of their cores (R143). -/
def State.byCore (s : State) (x : Nat) (l : List Nat) : List Nat :=
  match l with
  | [] => [x]
  | y :: rest => if (s.crew x).core ≤ (s.crew y).core then x :: y :: rest else y :: s.byCore x rest

/-- A grid instance that no crew belongs to. -/
def GridInst.none : GridInst := { pending := 0, phase := 0, crews := [], arrived := [] }

/-- A grid instance of a launch. -/
def State.gridInst (s : State) (l key : Nat) : GridInst := tabGet (s.launch l).grids GridInst.none key

/-- A count that reached 0 is reloaded, and a release is sent to every crew of the instance in ascending core number
(R140, R143); the change is journaled before a release goes out (R370). -/
def State.gridTest (s : State) (l key : Nat) : State :=
  let g := s.gridInst l key
  if g.pending = 0 ∧ g.crews ≠ [] then
    let s1 := s.setLaunch l { s.launch l with
      grids := tabPut (s.launch l).grids key { g with pending := g.crews.length, phase := (g.phase + 1) % 65536, arrived := [] } }
    { s1 with sched := { s1.sched with
        gridJrn := true, gridRel := s1.sched.gridRel ++ (g.crews.foldr s1.byCore []).map (fun c => (c, key / 128)) } }
  else s

/-- The arrival of a crew at an instance for its present phase has been sent: it is on its way to the port, or counted (R140). -/
def State.arrivalSent (s : State) (crew l key : Nat) : Bool :=
  s.sched.gridPort.contains (crew, key / 128) || (s.gridInst l key).arrived.contains crew

/-- A crew leaves one instance (R141): the present phase too, unless its arrival for it has been sent. -/
def State.gridLeaveOne (s : State) (crew key : Nat) : State :=
  let l := (s.crew crew).launch
  let g := s.gridInst l key
  if g.crews.contains crew then
    let sent := s.arrivalSent crew l key
    let s1 := s.setLaunch l { s.launch l with
      grids := tabPut (s.launch l).grids key
        { g with pending := (if sent then g.pending else g.pending - 1), crews := memberDel g.crews crew } }
    s1.gridTest l key
  else s

/-- A crew that ends leaves the count of every grid instance that contains it (R141). -/
def State.gridLeave (s : State) (crew : Nat) : State :=
  if (s.crew crew).gridLeft then s
  else
    let keys := (s.launch (s.crew crew).launch).grids.map (fun e => e.1)
    let s1 := keys.foldl (fun t k => t.gridLeaveOne crew k) s
    s1.setCrew crew { s1.crew crew with gridLeft := true }

/-! ### Ending crews and launches (R379 to R381) -/

/-- The completion of a launch waits for a GWCT more (R122). -/
def State.raiseMaxw (s : State) (l m : Nat) : State := s.setLaunch l { s.launch l with maxw := max (s.launch l).maxw m }

/-- A formed wave leaves the partition; its launch keeps its MAXW (R122). -/
def State.dropWave (s : State) (w : Nat) : State :=
  let k := s.waveCluster w
  let l := s.waveLaunch w
  let m := s.maxwOf w
  let s1 := { s with waves := tabDel s.waves w }
  let s2 := s1.setCluster k { s1.cluster k with relQ := (s1.cluster k).relQ.filter (fun x => x != w) }
  s2.raiseMaxw l m

/-- The accounts of a wave that still have something outstanding. -/
def State.openAccounts (s : State) (w : Nat) : List Nat :=
  (s.wave w).accts.filter (fun a => !(s.account a).out.isEmpty || !(s.account a).peerOut.isEmpty)

/-- What a wave has in flight moves to an account when its threads leave it (R110, R165): the state and the accounts
that its threads carry on. -/
def State.leaveWave (s : State) (w : Nat) : State × List Nat :=
  let v := s.wave w
  let old := s.openAccounts w
  if v.out = [] ∧ v.peerOut = [] then (s, old)
  else
    let a := s.mem.nextAcct
    let s1 := { s with mem := { s.mem with nextAcct := a + 1 } }
    (s1.setAccount a { launch := s.waveLaunch w, wave := w, born := v.born, out := v.out, maxw := v.maxw
                       peerOut := v.peerOut }, memberAdd old a)

/-- A wave that a kill ends: accesses sent to their homes are performed, results in flight and buffered speculative
stores are gone with it (R379); peer writes not yet acknowledged stay with its launch (R122). -/
def State.removeWave (s : State) (w : Nat) : State := ((s.flushAll w).leaveWave w).1.dropWave w

/-- Every thread of a group ends, with no release (R183). -/
def State.endGroup (s : State) (g : Nat) : State :=
  s.setGroup g { s.group g with
    threads := (s.group g).threads.map (fun e => (e.1, { e.2 with place := .dead })), task := none
    waitingRel := [], retired := true }

/-- The waves of a crew. -/
def State.wavesOf (s : State) (crew : Nat) : List Nat :=
  (s.waves.map (fun e => e.1)).filter (fun w => crewOf w == crew)

/-- The groups of a crew. -/
def State.groupsOf (s : State) (crew : Nat) : List Nat :=
  (s.groups.map (fun e => e.1)).filter (fun g => g / 8 == crew)

/-- A crew is killed (R379): its waves stop, its threads end with no release, and it leaves its grid instances. Its
scratchpad and pool run return at CREW_END (R157). -/
def State.killCrew (s : State) (crew : Nat) : State :=
  let s1 := (s.wavesOf crew).foldl State.removeWave s
  let s2 := (s1.groupsOf crew).foldl State.endGroup s1
  let s3 := s2.setCrew crew { s2.crew crew with killed := true }
  s3.gridLeave crew

/-- A crew ends alone with a status (R380). -/
def State.endCrewWith (s : State) (crew status info : Nat) : State :=
  (s.noteEnd (s.crew crew).launch status info).killCrew crew

/-- A staged or spilled entry is a record of a task, not a flume head. -/
def Spilled.isTask (x : Spilled) : Bool :=
  match x with
  | .task _ _ => true
  | .head _ _ _ => false

/-- A core without the headrace records of a launch. -/
def CoreSt.dropRecords (c : CoreSt) (l : Nat) : CoreSt := { c with headrace := c.headrace.filter (fun r => r.launch != l) }

/-- A cluster without the staged task records of a launch; its flume heads stay (R157). -/
def ClusterSt.dropRecords (c : ClusterSt) (l : Nat) : ClusterSt :=
  { c with staging := tabPut c.staging l ((tabGet c.staging [] l).filter (fun x => !x.isTask)) }

/-- A wave whose waiting releases are dropped; one parked after SUCC has nothing left to wait for (R366). -/
def Wave.dropReleases (v : Wave) (now : Nat) : Wave :=
  match v.park with
  | .succ mark => { v with succRel := [], park := v.afterWait mark, readyAt := now }
  | _ => { v with succRel := [] }

/-- The releases of the groups and waves of a launch that wait for staging are dropped. -/
def State.dropWaiting (s : State) (l : Nat) : State :=
  let gs : Tab Group := s.groups.map (fun (e : Nat × Group) =>
    if (s.crew (e.1 / 8)).launch = l then (e.1, { e.2 with waitingRel := [] }) else e)
  let ws : Tab Wave := s.waves.map (fun (e : Nat × Wave) =>
    if s.waveLaunch e.1 = l then (e.1, e.2.dropReleases (s.coreCycles (s.waveCore e.1))) else e)
  { s with groups := gs, waves := ws }

/-- Every record of a launch in a headrace, in staging or in the spillway is dropped (R364, R381). -/
def State.dropRecords (s : State) (l : Nat) : State :=
  let cs : Tab CoreSt := s.cores.map (fun (e : Nat × CoreSt) => (e.1, e.2.dropRecords l))
  let ks : Tab ClusterSt := s.clusters.map (fun (e : Nat × ClusterSt) => (e.1, e.2.dropRecords l))
  let s1 := { s with cores := cs, clusters := ks }.dropWaiting l
  s1.setLaunch l { s1.launch l with ring := (s1.launch l).ring.filter (fun x => !x.isTask) }

/-- The end of a sequencer's program (R301): no reservation stays, and the cistern rows and tiles are discarded with
no completion. Accepted MMAs and outstanding MLDBs complete. -/
def State.endSeq (s : State) (k : Nat) : State :=
  let c := s.cluster k
  s.setCluster k { c with
    seq := { c.seq with run := false, preamble := false, stop := false, park := .run, resv := [], stalled := none
                        copying := false, idem := false, idemRec := none }
    cisterns := [] }

/-- A kill ends the sequencers of a launch at once (R301). -/
def State.killSeqs (s : State) (l : Nat) : State :=
  (s.clusters.map (fun e => e.1)).foldl (fun t k => if (t.seqOf k).launch = some l ∧ (t.seqOf k).run = true then t.endSeq k else t) s

/-- The crews of a launch. -/
def State.crewsOf (s : State) (l : Nat) : List Nat :=
  (s.crews.filter (fun e => e.2.launch == l && !e.2.ended)).map (fun e => e.1)

/-- The scheduler core ends a launch (R381). -/
def State.endLaunch (s : State) (l status info : Nat) : State :=
  let s1 := ((s.noteEnd l status info).dropRecords l).killSeqs l
  let s2 := (s1.crewsOf l).foldl State.killCrew s1
  s2.setLaunch l { s2.launch l with ending := true }

/-! ### Taking a trap (R372 to R376) -/

/-- The code of a cause (R347). -/
def causeCode (c : Cause) : Nat :=
  match c with
  | .illegalOpcode => 0
  | .illegalOperand => 1
  | .capTag => 2
  | .capPerm => 3
  | .capBounds => 4
  | .misalign => 5
  | .pageFault => 6
  | .accessFault => 7
  | .poison => 8
  | .poolEmpty => 9
  | .deadline => 10
  | .watchdog => 11
  | .brk => 12
  | .ecall => 13

/-- The row of a cause in TRAPS (R247). -/
def causeRow (c : Cause) : Nat :=
  match c with
  | .illegalOpcode | .illegalOperand => 0
  | .capTag | .capBounds | .capPerm => 1
  | .pageFault | .accessFault | .misalign | .poison => 2
  | .poolEmpty => 3
  | .deadline | .watchdog => 4
  | .brk | .ecall => 5

/-- The rank of a lane's cause (R376). -/
def causeRank (c : Cause) : Nat :=
  match c with
  | .illegalOpcode => 0
  | .illegalOperand => 0
  | .capTag => 1
  | .capPerm => 2
  | .capBounds => 3
  | .misalign => 4
  | .pageFault => 5
  | .accessFault => 6
  | .poison => 7
  | _ => 8

/-- What a word raises: its cause, INFO, the lanes with a cause of their own, whether the other lanes have performed
(R377), and the positions that SKIP passes (R348). -/
structure TrapInfo where
  cause : Cause
  info : Nat
  lanes : Tab TrapLane
  isPartial : Bool
  skip : Nat
deriving DecidableEq, Repr

/-- A cause of the word itself. -/
def TrapInfo.plain (c : Cause) : TrapInfo := { cause := c, info := 0, lanes := [], isPartial := false, skip := 1 }

/-- A cause of some lanes; the wave's is the first of R376 among them. -/
def TrapInfo.ofLanes (ls : Tab TrapLane) : TrapInfo :=
  { cause := match ls with
      | [] => .illegalOperand
      | (_, x) :: rest => rest.foldl (fun c e => if causeRank e.2.cause < causeRank c then e.2.cause else c) x.cause
    info := 0, lanes := ls, isPartial := false, skip := 1 }

/-- The mask of the lanes of a table. -/
def tabMask {α : Type} (t : Tab α) : Nat :=
  match t with
  | [] => 0
  | (l, _) :: rest => 2 ^ l + tabMask rest

/-- The handler segment of a cause; 4,095 is none (R247). -/
def Module.handlerOf (m : Module) (c : Cause) : Nat := m.traps.getD (causeRow c) 4095

/-- The wave enters TRAP level at word 0 of a handler segment with what R372 saves and clears; the choices of R197 are then made
anew. -/
def State.enterHandler (s : State) (w active h : Nat) (t : TrapInfo) : State :=
  let v := s.wave w
  let fault := tabMask t.lanes
  let fr : TrapFrame :=
    { cause := t.cause, seg := v.seg, word := v.word, info := t.info, active := active, fault := fault, lanes := t.lanes
      isPartial := t.isPartial, rerun := if t.isPartial then some fault else v.retry, skip := t.skip, cc := v.cc
      lc := v.lc, wd := s.wdCount w }
  (s.setWave w { v with
    seg := h, word := 0, level := .trap, cc := Cc.zero, lc := [], wdBase := 0
    wdSince := s.coreCycles (s.waveCore w), park := .run, frame := some fr, retry := none, held := none }).bumpFree

/-- Taking a trap (R372): the ONE operation of every cause. A speculative wave waits for its fence first (R116); a
fault inside a handler ends the crew (R373); a cause with no handler ends it too (R375). -/
def State.takeTrap (s : State) (w active : Nat) (t : TrapInfo) : State :=
  let v := s.wave w
  if v.spec.isSome then s.park w .spec
  else
    match v.level with
    | .trap => s.endCrewWith (crewOf w) (if t.cause = .deadline then 1 else 12) 0
    | .thread =>
      let h := (s.launch (s.waveLaunch w)).mod_.handlerOf t.cause
      if h = 4095 then
        if t.cause = .deadline then s.endCrewWith (crewOf w) 1 0
        else s.endCrewWith (crewOf w) 13 (causeCode t.cause + 256 * v.seg)
      else s.enterHandler w active h t

/-- The occupied lanes of a wave as a mask: what a uniform word's ACTIVE holds. -/
def State.occupiedMask (s : State) (w : Nat) : Nat := laneMask (s.occupied w)

/-- A cause raised by a uniform word itself. -/
def State.trapWord (s : State) (w : Nat) (c : Cause) : State := s.takeTrap w (s.occupiedMask w) (TrapInfo.plain c)

/-- The return from a trap (R374): THREAD level with the saved g, i, CC, LC and watchdog count; after a WATCHDOG or
DEADLINE trap the count restarts at 0. -/
def State.trapReturn (s : State) (w : Nat) (skip : Bool) : State :=
  let v := s.wave w
  match v.frame with
  | none => s
  | some f =>
    s.setWave w { v with
      seg := f.seg, word := if skip then f.word + f.skip else f.word, level := .thread, cc := f.cc, lc := f.lc
      wdBase := if f.cause = .watchdog ∨ f.cause = .deadline then 0 else f.wd
      wdSince := s.coreCycles (s.waveCore w), park := .run, frame := none, held := none
      retry := if skip then none else f.rerun }

/-! ### The sequencer (R299, R322) -/

/-- A sequencer fault (R322). -/
def State.seqFault (s : State) (k : Nat) (c : Cause) : State :=
  let q := s.seqOf k
  let s1 := s.setSeq k { q with
    fault := true, seqFault := 2 ^ 63 + causeCode c * 2 ^ 48 + q.seg % 4096 * 2 ^ 32 + q.word % 65536 }
  match q.launch with
  | none => s1.endSeq k
  | some l => (s1.endSeq k).endLaunch l 10 0

/-- The sequencer passes a word of n positions. -/
def State.seqFinish (s : State) (k n : Nat) : State :=
  let q := s.seqOf k
  (s.setSeq k { q with word := q.word + n, park := .run }).bumpFree

/-! ### Who executes a word -/

/-- What exec answers. -/
abbrev Answer := Host.Outcome State Fault Refusal

/-- A word acts for the selected agent: a formed wave or a matrix sequencer. -/
def State.onAgent (s : State) (fw fq : Nat → State) : Answer :=
  match s.cur with
  | .idle => .fault .noAgent
  | .wave w => .next (fw w)
  | .seq k => .next (fq k)

/-- A word that only threads execute; the sequencer does not decode it (R300). -/
def State.onWave (s : State) (fw : Nat → State) : Answer :=
  s.onAgent fw (fun k => s.seqFault k .illegalOpcode)

/-- A word that only the sequencer executes; a thread raises ILLEGAL_OPCODE (R234). -/
def State.onSeq (s : State) (fq : Nat → State) : Answer :=
  s.onAgent (fun w => s.trapWord w .illegalOpcode) fq

/-! ### Waits before a word (R111 to R116) -/

/-- A speculative wave parks at this word until its fence completes (R116). -/
def State.unlessSpec (s : State) (w : Nat) (body : State) : State :=
  if (s.wave w).spec.isSome then s.park w .spec else body

/-- The wait of R111 for a scope has ended for a wave: its writes have been performed, DT is later than MAXW, and the
peers have acknowledged. Reads are performed when they issue. -/
def State.releaseDone (s : State) (w scope : Nat) : Bool :=
  let v := s.wave w
  v.out.isEmpty && v.accts.all (fun a => (s.account a).out.isEmpty)
    && (decide (scope < 2) || decide (s.maxwOf w < s.dt))
    && (decide (scope < 5) || (v.peerOut.isEmpty && v.accts.all (fun a => (s.account a).peerOut.isEmpty)))

/-- A release at a scope: the word goes on once the wait of R111 has ended, else the wave parks. -/
def State.afterRelease (s : State) (w scope : Nat) (body : State) : State :=
  if s.releaseDone w scope then body else s.parkRelease w scope

/-- A word that a FENCE.rel holds (R113): later writes, RMWs, reductions, barrier operations and engine issues. Once
the wait has ended the gate is gone. -/
def State.afterGate (s : State) (w : Nat) (body : State → State) : State :=
  match (s.wave w).relGate with
  | none => body s
  | some scope =>
    if s.releaseDone w scope then body (s.setWave w { s.wave w with relGate := none }) else s.parkRelease w scope

/-- The wait of R111 has ended for a sequencer (R299). -/
def State.seqReleaseDone (s : State) (k scope : Nat) : Bool :=
  decide (scope < 2) || decide ((s.seqOf k).maxw < s.dt)

/-- A release by a sequencer: the word does not issue before the wait of R111 has ended. -/
def State.seqAfterRelease (s : State) (k scope : Nat) (body : State) : State :=
  if s.seqReleaseDone k scope then body else s

/-- A word of a sequencer that a FENCE.rel holds (R113, R299). -/
def State.seqAfterGate (s : State) (k : Nat) (body : State → State) : State :=
  match (s.seqOf k).relGate with
  | none => body s
  | some scope =>
    if s.seqReleaseDone k scope then body (s.setSeq k { s.seqOf k with relGate := none }) else s

/-- A form that raises ILLEGAL_OPERAND inside an idempotent region (R314). -/
def State.outsideRegion (s : State) (k : Nat) (body : State) : State :=
  if (s.seqOf k).idem then s.seqFault k .illegalOperand else body

/-- A write performed by a sequencer: its GWCT enters MAXW (R299). -/
def State.seqWrite (s : State) (k : Nat) (cells : List (Nat × Byte × Byte)) : State :=
  let g := gwctOf s.mem s.dt cells
  let s1 := s.writeAtHome none cells none
  s1.setSeq k { s1.seqOf k with maxw := max (s1.seqOf k).maxw g }

end Sys2Proof.Machine
end

