-- ==== Sys2Proof/Machine/Flags.lean ====
section
/-! DEFINITION. The flag computations: Z, N, C and V of the scalar forms (R254, R255), of CTEST (R291) and of LNSTEP
(R313), and the flag that a selector names (R276, R346). -/

namespace Sys2Proof.Machine

open Sys2Proof

/-- A scalar result with its carry and overflow (R254). -/
structure ScalarRes where
  val : Nat
  c : Bool
  v : Bool
deriving DecidableEq, Repr

/-- A scalar result whose carry and overflow are 0. -/
def ScalarRes.plain (x : Nat) : ScalarRes := { val := x % 2 ^ 64, c := false, v := false }

/-- The sum of R254 with the carry out of bit 63 and the signed overflow. -/
def saddRes (a b : Nat) : ScalarRes :=
  { val := (a + b) % 2 ^ 64, c := decide (2 ^ 64 ≤ a + b)
    v := decide (sInt 64 ((a + b) % 2 ^ 64) ≠ sInt 64 a + sInt 64 b) }

/-- The difference of R254 with the unsigned borrow and the signed overflow. -/
def ssubRes (a b : Nat) : ScalarRes :=
  { val := (a + (2 ^ 64 - b)) % 2 ^ 64, c := decide (a < b)
    v := decide (sInt 64 ((a + (2 ^ 64 - b)) % 2 ^ 64) ≠ sInt 64 a - sInt 64 b) }

/-- The product of R254. -/
def smulRes (a b : Nat) : ScalarRes :=
  { val := a * b % 2 ^ 64, c := decide (2 ^ 64 ≤ a * b)
    v := decide (sInt 64 (a * b % 2 ^ 64) ≠ sInt 64 a * sInt 64 b) }

/-- CC after a scalar form (R254): Z and N of the result; MZ and STATUS stay. -/
def ccOf (old : Cc) (r : ScalarRes) : Cc :=
  { old with z := r.val == 0, n := bit r.val 63, c := r.c, v := r.v }

/-- CC with Z set and N, C, V zero (R291, R313). -/
def ccZ (old : Cc) (z : Bool) : Cc := { old with z := z, n := false, c := false, v := false }

/-- The flag that a selector 0 to 5 names (R276, R346). -/
def ccFlag (c : Cc) (sel : Nat) : Bool :=
  match sel with
  | 0 => c.mz
  | 1 => c.z
  | 2 => c.n
  | 3 => c.c
  | 4 => c.v
  | _ => c.status != 0

end Sys2Proof.Machine
end

