-- ==== Sys2Proof/Machine/Operands.lean ====
section
/-! DEFINITION. Operands and the shared forms of the words: the registers of the selected agent, the limits on slice
operands (R185, R187, R188, R226, R227), the issue of a per-lane word with its checks in every active lane (R185,
R234, R388), and its results, short-class or long-class (R195, R267). -/

namespace Sys2Proof.Machine

open Sys2Proof

/-! ### Registers of the selected agent: a wave's group or a sequencer (R189, R299) -/

/-- An s register of the selected agent. -/
def State.sReg (s : State) (r : Nat) : Nat :=
  match s.cur with
  | .idle => 0
  | .wave w => (s.waveS w r).toNat
  | .seq k => (tabGet (s.seqOf k).s 0 r : W64).toNat

/-- A write of an s register of the selected agent. -/
def State.setSReg (s : State) (r v : Nat) : State :=
  match s.cur with
  | .idle => s
  | .wave w => s.setWaveS w r (BitVec.ofNat 64 v)
  | .seq k => s.setSeq k { s.seqOf k with s := tabPut (s.seqOf k).s r (BitVec.ofNat 64 v) }

/-- A k register of the selected agent. -/
def State.kReg (s : State) (r : Nat) : Capv :=
  match s.cur with
  | .idle => Capv.null
  | .wave w => s.waveK w r
  | .seq k => tabGet (s.seqOf k).k Capv.null r

/-- A k register as a word that uses it for an access has read it: once, at its first issue, also where the word waits for a
release or a gate and goes on later (R27, R111, R113). -/
def State.kUse (s : State) (r : Nat) : Capv :=
  match s.cur with
  | .wave w => match (s.wave w).held with
    | some f => tabGet f.k Capv.null r
    | none => s.kReg r
  | _ => s.kReg r

/-- The condition code of the selected agent. -/
def State.cc (s : State) : Cc :=
  match s.cur with
  | .idle => Cc.zero
  | .wave w => (s.wave w).cc
  | .seq k => (s.seqOf k).cc

/-- A write of the condition code of the selected agent. -/
def State.setAgentCc (s : State) (c : Cc) : State :=
  match s.cur with
  | .idle => s
  | .wave w => s.setCc w c
  | .seq k => s.setSeq k { s.seqOf k with cc := c }

/-- A loop counter of the selected agent. -/
def State.lcReg (s : State) (n : Nat) : Nat :=
  match s.cur with
  | .idle => 0
  | .wave w => (s.wave w).lcOf n
  | .seq k => tabGet (s.seqOf k).lc 0 n

/-- A write of a loop counter of the selected agent. -/
def State.setLc (s : State) (n v : Nat) : State :=
  match s.cur with
  | .idle => s
  | .wave w => s.setWave w { s.wave w with lc := tabPut (s.wave w).lc n (v % 2 ^ 32) }
  | .seq k => s.setSeq k { s.seqOf k with lc := tabPut (s.seqOf k).lc n (v % 2 ^ 32) }

/-- The selected agent passes a word of n positions; the sequencer ignores the marker (R299). -/
def State.agentFinish (s : State) (mark : Bool) (n : Nat) : State :=
  match s.cur with
  | .idle => s
  | .wave w => s.finishN w mark n
  | .seq k => s.seqFinish k n

/-- A cause raised by a uniform word for the selected agent: a trap or a sequencer fault (R322). -/
def State.agentTrap (s : State) (c : Cause) : State :=
  match s.cur with
  | .idle => s
  | .wave w => s.trapWord w c
  | .seq k => s.seqFault k c

/-- A word that both kinds of agent execute alike. A wave parks while speculative if the word is one of R116. -/
def State.onBoth (s : State) (specStop : Bool) (body : State) : Answer :=
  s.onAgent (fun w => if specStop && (s.wave w).spec.isSome then s.park w .spec else body) (fun _ => body)

/-- A scalar form (R254, R255): s[D] takes the result, or no register does; CC takes its flags. -/
def State.scalarWord (s : State) (mark : Bool) (d : Option Nat) (r : ScalarRes) : Answer :=
  let s1 := match d with
    | none => s
    | some n => s.setSReg n r.val
  s.onBoth d.isSome ((s1.setAgentCc (ccOf s1.cc r)).agentFinish mark 1)

/-- The immediate source of a scalar form, sign-extended (R227). -/
def scalarImm (imm : Nat) : Nat := lowBits (sInt 14 imm) 64

/-! ### Limits of slice operands -/

/-- A slice operand ends at or below slice 1,023 (R185). -/
def slcInFile (o : Slc) : Bool := decide (o.start + o.width ≤ 1024)

/-- A slice operand lies inside a quota (R185, R200). -/
def slcInQuota (q : Nat) (o : Slc) : Bool := decide (o.start + o.width ≤ 64 * q)

/-- Slice operands that share a slice. -/
def slcMeet (a b : Slc) : Bool := decide (a.start < b.start + b.width) && decide (b.start < a.start + a.width)

/-- The trap-frame entry of a lane whose cause names no capability (R347). -/
def laneCause (c : Cause) : TrapLane := { cause := c, space := 0, cap := 0, addr := 0 }

/-- In some active lane an operand leaves the quota of the thread's home wave (R185): step 3 of R234, so a cause of the word. -/
def State.overQuota (s : State) (w : Nat) (act : List (Nat × Nat)) (ops : List Slc) : Bool :=
  act.any (fun e => ops.any (fun o => !slcInQuota (s.quota (groupOf w) (e.2 / 32)) o))

/-- The first slice of some operands that lies in a poisoned row of a thread (R388). -/
def Thread.poisonedSlice (t : Thread) (ops : List Slc) : Option Nat :=
  if t.poisonRows = [] then none
  else ops.findSome? (fun o => ((List.range o.width).map (fun i => o.start + i)).find? (fun n => t.poisonRows.contains (n / 16)))

/-- The active lanes that read a poisoned row: SPACE 7, CAP 0, ADDR the first poisoned slice read (R388). -/
def State.poisonLanes (s : State) (w : Nat) (act : List (Nat × Nat)) (ops : List Slc) : Tab TrapLane :=
  act.filterMap (fun e =>
    match (s.thread (groupOf w) e.2).poisonedSlice ops with
    | none => none
    | some n => some (e.1, { cause := .poison, space := 7, cap := 0, addr := n }))

/-- A speculative wave would log a 257th slice in some lane (R115, R116). -/
def State.specOverflow (s : State) (w : Nat) (act : List (Nat × Nat)) (writes : List Slc) : Bool :=
  match (s.wave w).spec with
  | none => false
  | some p => act.any (fun e =>
      let u := writes.foldl (fun u o => undoCells u [] e.2 o.start o.width) (p.undo.filter (fun c => c.1 == e.2))
      decide (256 < u.length))

/-! ### Per-lane words -/

/-- What the issue of a per-lane word checks: marker, guard, the limits of its own entry, and its slice operands. -/
structure LaneWord where
  mark : Bool
  g : Guard
  legal : Bool
  reads : List Slc
  writes : List Slc
deriving DecidableEq, Repr

/-- The issue of a per-lane word up to step 3 of R234, and the limit of a speculative wave's undo log (R116). -/
def State.issueQuota (s : State) (w : Nat) (x : LaneWord) (body : List (Nat × Nat) → State) : State :=
  let act := s.activeLanes w x.g
  let ops := x.reads ++ x.writes
  if (x.legal && ops.all slcInFile && !s.overQuota w act ops) = false then
    s.takeTrap w (laneMask act) (TrapInfo.plain .illegalOperand)
  else if s.specOverflow w act x.writes then s.park w .spec
  else body act

/-- A table with the entries of another added. -/
def tabMerge {α : Type} (a b : Tab α) : Tab α := b.foldl (fun t e => tabPut t e.1 e.2) a

/-- The issue of a per-lane word whose operand values have a limit of their own: a lane whose value breaks it raises ILLEGAL_OPERAND,
and one that reads a poisoned row POISON; the frame holds them all (R376, R388). -/
def State.issueTested (s : State) (w : Nat) (x : LaneWord) (bad : Nat → Bool) (body : List (Nat × Nat) → State) : State :=
  s.issueQuota w x (fun act =>
    let pz := s.poisonLanes w act x.reads
    let ill := (act.filter (fun e => (tabFind pz e.1).isNone && bad e.2)).map (fun e => (e.1, laneCause .illegalOperand))
    let all := tabMerge pz ill
    if all ≠ [] then s.takeTrap w (laneMask act) (TrapInfo.ofLanes all) else body act)

/-- The issue of a per-lane word that reaches no memory: no lane may read a poisoned row (R388). The rest acts on the
active lanes. -/
def State.issueLanes (s : State) (w : Nat) (x : LaneWord) (body : List (Nat × Nat) → State) : State :=
  s.issueQuota w x (fun act =>
    let pz := s.poisonLanes w act x.reads
    if pz ≠ [] then s.takeTrap w (laneMask act) (TrapInfo.ofLanes pz) else body act)

/-- What one lane writes: operands with their values. -/
abbrev LaneOut := List (Slc × Nat)

/-- Short-class results of the lanes of a word (R195): SetD of R250. -/
def State.putShort (s : State) (w : Nat) (act : List (Nat × Nat)) (f : Nat → Nat → LaneOut) : State :=
  act.foldl (fun t e => (f e.1 e.2).foldl (fun u r => u.setShort w e.2 r.1 r.2) t) s

/-- The cells that the lanes of a word write. -/
def laneCells (act : List (Nat × Nat)) (f : Nat → Nat → LaneOut) : List (Nat × Nat × Nib) :=
  act.flatMap (fun e => (f e.1 e.2).flatMap (fun r => cellsOf e.2 r.1.start r.2 r.1.width))

/-- Long-class results of the lanes of a word (R195): they join the outstanding ones. A speculative wave logs the old
values now (R115). -/
def State.putLong (s : State) (w : Nat) (act : List (Nat × Nat)) (writes : List Slc) (f : Nat → Nat → LaneOut) : State :=
  let s1 := act.foldl (fun t e => writes.foldl (fun u o => u.logUndo w e.2 o.start o.width) t) s
  s1.addLong w { cells := laneCells act f, prds := [] }

/-- A short-class per-lane word. -/
def State.shortWord (s : State) (x : LaneWord) (f : Nat → Nat → Nat → LaneOut) : Answer :=
  s.onWave (fun w => s.issueLanes w x (fun act => (s.putShort w act (f w)).finish w x.mark))

/-- A long-class per-lane word. -/
def State.longWord (s : State) (x : LaneWord) (f : Nat → Nat → Nat → LaneOut) : Answer :=
  s.onWave (fun w => s.issueLanes w x (fun act => (s.putLong w act x.writes (f w)).finish w x.mark))

/-- A per-lane word that writes a predicate and MZ (R267). -/
def State.prdWord (s : State) (x : LaneWord) (d : Nat) (f : Nat → Nat → Nat → Bool) : Answer :=
  s.onWave (fun w => s.issueLanes w x (fun act =>
    let s1 := act.foldl (fun t e => t.setPrd w e.2 d (f w e.1 e.2)) s
    (s1.setMz w d).finish w x.mark))

/-! ### Typed forms (R226, R256 to R261) -/

/-- The element width of an integer type nibble. -/
def intE (nib : Nat) : Nat := nib + 1

/-- A float type nibble with an assigned format (R226). -/
def floatOk (nib : Nat) : Bool := decide (nib / 4 < 3)

/-- The element width of a float type nibble. -/
def floatE (nib : Nat) : Nat := fmtSlices (fmtOf (nib / 4))

/-- Widths of a typed form with a slice source (R187, R188). -/
def typedOk (e wd ws ext : Nat) : Bool := decide (wd % e = 0) && widenOk ext ws wd

/-- Source A of a typed form in a lane. -/
def State.srcA (s : State) (w t ext : Nat) (a : Slc) (wd : Nat) : Nat := widen ext (s.opnd w t a) a.width wd

/-- A scalar anchor's source: the low 4e bits of the s register, widened (R226). -/
def State.srcS (s : State) (r e ext wd : Nat) : Nat := widen ext (s.sReg r % 16 ^ e) e wd

/-- The result of an element operation with three sources over whole operands. -/
def mapElems (e wd : Nat) (f : Nat → Nat → Nat → Nat) (a b d : Nat) : Nat :=
  joinElems e ((List.range (wd / e)).map (fun j => f (elem e a j) (elem e b j) (elem e d j)))

/-- A typed form, variant VV. The operation sees the elements of A, B and the old destination; useD marks a form that
reads the destination. -/
def State.typedVV (s : State) (o : VV) (e : Nat) (ok useD long : Bool) (f : Nat → Nat → Nat → Nat) :
    Answer :=
  let b : Slc := { start := o.b, width := o.d.width }
  let x : LaneWord :=
    { mark := o.mark, g := o.g, legal := ok && typedOk e o.d.width o.a.width o.ext
      reads := [o.a, b] ++ (if useD then [o.d] else []), writes := [o.d] }
  let r := fun w _ t =>
    [(o.d, mapElems e o.d.width f (s.srcA w t o.ext o.a o.d.width) (s.opnd w t b 1) (s.opnd w t o.d 2))]
  if long then s.longWord x r else s.shortWord x r

/-- A typed form, variant VS. -/
def State.typedVS (s : State) (o : VS) (e : Nat) (ok useD long : Bool) (f : Nat → Nat → Nat → Nat) :
    Answer :=
  let x : LaneWord :=
    { mark := o.mark, g := o.g
      legal := ok && typedOk e o.d.width o.a.width o.ext && widenOk o.ext e o.d.width
      reads := [o.a] ++ (if useD then [o.d] else []), writes := [o.d] }
  let r := fun w _ t =>
    [(o.d, mapElems e o.d.width f (s.srcA w t o.ext o.a o.d.width) (s.srcS o.s e o.ext o.d.width) (s.opnd w t o.d 2))]
  if long then s.longWord x r else s.shortWord x r

/-- A typed form, variant VI. -/
def State.typedVI (s : State) (o : VI) (useD long : Bool) (f : Nat → Nat → Nat → Nat) :
    Answer :=
  let e := intE o.nib
  let a : Slc := { start := o.a, width := o.d.width }
  let x : LaneWord :=
    { mark := o.mark, g := o.g, legal := decide (o.d.width % e = 0) && immOk o.ext o.d.width
      reads := [a] ++ (if useD then [o.d] else []), writes := [o.d] }
  let r := fun w _ t =>
    [(o.d, mapElems e o.d.width f (s.opnd w t a) (widenImm o.ext o.imm o.d.width) (s.opnd w t o.d 2))]
  if long then s.longWord x r else s.shortWord x r

/-- A unary typed form from slices. -/
def State.typedU (s : State) (o : U1) (e : Nat) (ok long : Bool) (f : Nat → Nat) : Answer :=
  let x : LaneWord :=
    { mark := o.mark, g := o.g, legal := ok && typedOk e o.d.width o.a.width o.ext, reads := [o.a], writes := [o.d] }
  let r := fun w _ t => [(o.d, mapElems e o.d.width (fun a _ _ => f a) (s.srcA w t o.ext o.a o.d.width) 0 0)]
  if long then s.longWord x r else s.shortWord x r

/-- A unary typed form from an s register. -/
def State.typedUS (s : State) (o : US) (e : Nat) (ok long : Bool) (f : Nat → Nat) : Answer :=
  let x : LaneWord :=
    { mark := o.mark, g := o.g, legal := ok && decide (o.d.width % e = 0) && widenOk o.ext e o.d.width
      reads := [], writes := [o.d] }
  let r := fun _ _ _ => [(o.d, mapElems e o.d.width (fun a _ _ => f a) (s.srcS o.s e o.ext o.d.width) 0 0)]
  if long then s.longWord x r else s.shortWord x r

end Sys2Proof.Machine
end

