-- ==== Sys2Proof/Machine/Tasks.lean ====
section
/-! DEFINITION. Task records and their queues: headrace, staging and spillway (R334, R335, R360 to R363), successor
counters and their releases (R336, R391), and the completion of a task (R181, R336). -/

namespace Sys2Proof.Machine

open Sys2Proof

/-- The record of R334 from 64 bytes of memory: the launch identifier enters CTRL. -/
def taskRec (l : Nat) (f : Fork) (ws : List Nat) : TaskRec :=
  { words := listSet ws 4 (fun x => x % 2 ^ 32 + l % 2 ^ 32 * 2 ^ 32), launch := l, fork := f }

/-- ENTRY of a record. -/
def TaskRec.entry (r : TaskRec) : Nat := r.words.getD 0 0 % 4096

/-- TAG of a record: bits 63:56 of TILE. -/
def TaskRec.tag (r : TaskRec) : Nat := r.words.getD 2 0 / 2 ^ 56 % 256

/-- SUCCADDR of a record. -/
def TaskRec.succAddr (r : TaskRec) : Nat := r.words.getD 3 0

/-- The priority of a record: bits 2:0 of CTRL. -/
def TaskRec.prio (r : TaskRec) : Nat := r.words.getD 4 0 % 8

/-- The staging buffer of a launch in a cluster (R360). -/
def State.stagingOf (s : State) (k l : Nat) : List Spilled := tabGet (s.cluster k).staging [] l

/-- The state with a staging buffer changed. -/
def State.setStaging (s : State) (k l : Nat) (x : List Spilled) : State :=
  s.setCluster k { s.cluster k with staging := tabPut (s.cluster k).staging l x }

/-- The spillway ring of a launch is full (R363): 1,024 entries in each of its pages. -/
def State.ringFull (s : State) (l : Nat) : Bool :=
  decide ((s.launch l).rec_.spillPages * 1024 ≤ (s.launch l).ring.length)

/-- The staging buffer takes an entry (R363). -/
def State.stagingRoom (s : State) (k l : Nat) : Bool := decide ((s.stagingOf k l).length < 16) && !s.ringFull l

/-- An entry is a task record of a core. -/
def Spilled.ofCore (x : Spilled) (core : Nat) : Bool :=
  match x with
  | .task c _ => c == core
  | .head _ _ _ => false

/-- Some record of the launch on a core is spilled (R361). -/
def State.spilledOn (s : State) (l core : Nat) : Bool :=
  (s.stagingOf (clusterOf core) l).any (fun x => x.ofCore core) || (s.launch l).ring.any (fun x => x.ofCore core)

/-- The headrace of a core has a free slot (R360). -/
def State.headraceRoom (s : State) (core : Nat) : Bool := decide ((s.core core).headrace.length < 256)

/-- A record enters the headrace of a core; after the deadline it is dropped at once (R364). -/
def State.pushHeadrace (s : State) (core : Nat) (r : TaskRec) : State :=
  if (s.launch r.launch).deadlineFell then s
  else s.setCore core { s.core core with headrace := (s.core core).headrace ++ [r] }

/-- An entry enters staging; a task record after the deadline is dropped at once (R364). -/
def State.pushStaging (s : State) (k l : Nat) (x : Spilled) : State :=
  if (s.launch l).deadlineFell = true ∧ x.isTask = true then s else s.setStaging k l (s.stagingOf k l ++ [x])

/-- A record spawned into the headrace of a core: the state and the status OK, SPILLED or FULL (R335). -/
def State.enqueue (s : State) (core : Nat) (r : TaskRec) : State × Nat :=
  if s.headraceRoom core = true ∧ s.spilledOn r.launch core = false then (s.pushHeadrace core r, 0)
  else if s.stagingRoom (clusterOf core) r.launch then (s.pushStaging (clusterOf core) r.launch (.task core r), 3)
  else (s, 4)

/-- A successor release placed in the headrace of a core or in staging; none while neither has room (R336, R363). -/
def State.placeRelease (s : State) (core : Nat) (r : TaskRec) : Option State :=
  let t := s.enqueue core r
  if t.2 = 4 then (if (s.launch r.launch).deadlineFell then some s else none) else some t.1

/-- Releases placed in order until one finds no room: the state and those that still wait (R363). -/
def State.placeReleases (s : State) (core : Nat) (rs : List TaskRec) : State × List TaskRec :=
  match rs with
  | [] => (s, [])
  | r :: rest =>
    match s.placeRelease core r with
    | none => (s, r :: rest)
    | some t => t.placeReleases core rest

/-! ### Successor counters (R336, R391) -/

/-- All ones in INFO, where a spilled head's offset was lost (R390). -/
def infoLost : Nat := 2 ^ 64 - 1

/-- All ones in INFO's bits 47:0, which hold a successor record's offset, where SUCC cannot be read (R380). -/
def infoNoSucc : Nat := 2 ^ 48 - 1

/-- Bytes of a list of places. -/
def keysNat (m : Store) (ks : List (Nat × Nat)) : Nat :=
  match ks with
  | [] => 0
  | (k, _) :: rest => (m.byte k).toNat + 256 * keysNat m rest

/-- Some byte of a list of places is poisoned. -/
def keysPoisoned (m : Store) (ks : List (Nat × Nat)) : Bool := ks.any (fun k => m.poisoned k.1 1)

/-- The write cells of a value at a list of places. -/
def keyCells (ks : List (Nat × Nat)) (v : Nat) : List (Nat × Byte × Byte) :=
  match ks with
  | [] => []
  | (k, _) :: rest => (k, 255, BitVec.ofNat 8 (v % 256)) :: keyCells rest (v / 256)

/-- A read of a list of places at their homes (R72). -/
def State.touchKeys (s : State) (ks : List (Nat × Nat)) : State := ks.foldl (fun t k => t.touchRead k.1 1) s

/-- The successor record at an offset through the counter's capability, read when the counter reached 0 (R336). A
record that cannot be read leaves nothing to enqueue. -/
def State.readSuccessor (s : State) (e : Env) (c : Capv) (off : Nat) : State × Option TaskRec :=
  match s.laneCheck e c off 64 64, s.capKeys e c .load off 64 with
  | none, .ok (s1, ks) =>
    (s1.touchKeys ks, some (taskRec e.launch Fork.none ((List.range 8).map (fun i => keysNat s1.store ((ks.drop (8 * i)).take 8)))))
  | none, .error (s1, _, _) => (s1, none)
  | _, _ => (s, none)

/-- An RMW on a successor counter whose places are known: COUNT plus a number; a result of exactly 0 releases the
record at SUCC (R336). A poisoned COUNT or SUCC ends the launch with DEP_LOST (R391). -/
def State.counterAdd (s : State) (e : Env) (c : Capv) (ks : List (Nat × Nat)) (d : Int) : State × Option TaskRec :=
  let m := s.store
  let succ := keysNat m (ks.drop 8) % 2 ^ 48
  if keysPoisoned m (ks.drop 8) then (s.endLaunch e.launch 8 infoNoSucc, none)
  else if keysPoisoned m (ks.take 8) then (s.endLaunch e.launch 8 succ, none)
  else
    let n := lowBits (sInt 64 (keysNat m (ks.take 8)) + d) 64
    let s1 := s.writeAtHome none (keyCells (ks.take 8) n) none
    if n = 0 then s1.readSuccessor e c succ else (s1, none)

/-- The decrement that a completed or dropped task makes at its counter, through a k register of its group (R336). A
capability that fails R27 for an atomic access, or an address that does not translate, ends the launch with DEP_LOST. -/
def State.decrement (s : State) (e : Env) (g : Nat) (addr : Nat) : State × Option TaskRec :=
  if addr = 2 ^ 64 - 1 then (s, none)
  else
    let c := s.groupK g (addr / 2 ^ 48 % 32)
    let off := addr % 2 ^ 48
    match capCheck c [0, 1, 2] permAT, s.laneCheck e c off 16 16, s.capKeys e c .store off 16 with
    | none, none, .ok (s1, ks) => s1.counterAdd e c ks (-1)
    | none, none, .error (s1, _, _) => (s1.endLaunch e.launch 8 infoNoSucc, none)
    | _, _, _ => (s.endLaunch e.launch 8 infoNoSucc, none)

/-! ### The end of a task (R181, R336) -/

/-- The environment of a group. -/
def State.groupEnv (s : State) (g : Nat) : Env :=
  { core := some (s.crew (g / 8)).core, cluster := clusterOf (s.crew (g / 8)).core, crew := some (g / 8)
    launch := (s.crew (g / 8)).launch }

/-- The task of a group is complete: its counter is decremented, and a release it makes is placed or waits with the
group (R336, R363). -/
def State.completeTask (s : State) (g : Nat) : State :=
  match (s.group g).task with
  | none => s
  | some r =>
    let e := s.groupEnv g
    let s1 := s.setGroup g { s.group g with task := none }
    match s1.decrement e g r.succAddr with
    | (s2, none) => s2
    | (s2, some x) =>
      match s2.placeRelease (s2.crew (g / 8)).core x with
      | some s3 => s3
      | none => s2.setGroup g { s2.group g with waitingRel := (s2.group g).waitingRel ++ [x] }

/-- Some thread of a group is live. -/
def State.groupLive (s : State) (g : Nat) : Bool := (s.group g).threads.any (fun e => e.2.place != .dead)

/-- What follows when threads of a group may have ended (R180, R181): without a live thread the task is complete, and
in a launch that is not of task mode the group retires. -/
def State.afterDeaths (s : State) (g : Nat) : State :=
  if s.groupLive g then s
  else if (s.launch (s.crew (g / 8)).launch).rec_.task then s.completeTask g
  else s.setGroup g { s.group g with retired := true }

end Sys2Proof.Machine
end

