-- ==== Sys2Proof/Machine/Regroup.lean ====
section
/-! DEFINITION. The regrouper: the sorting of threads at a segment end (R165, R167, R170, R172, R182), the release of a
meeting (R173), ages and the forming of waves (R168, R169, R174, R176). -/

namespace Sys2Proof.Machine

open Sys2Proof

/-! ### Time and segments -/

/-- The cycles that count for a group now (R176). -/
def State.groupNow (s : State) (g : Nat) : Nat := s.crewCycles (g / 8)

/-- The module of a group's launch. -/
def State.groupMod (s : State) (g : Nat) : Module := (s.launch (s.crew (g / 8)).launch).mod_

/-- A segment of a module. -/
def Module.segOf (m : Module) (n : Nat) : Segment := m.segs.getD n { first := 0, len := 0, meetSeg := false, seq := false }

/-- A successor that a thread may name: exit, or a segment of the module without SEQ (R165, R300). -/
def Module.succOk (m : Module) (n : Nat) : Bool := n == 4095 || (decide (n < m.segs.length) && !(m.segOf n).seq)

/-- AGE_MAX of a group's launch (R176). -/
def State.ageMax (s : State) (g : Nat) : Nat :=
  let a := (s.launch (s.crew (g / 8)).launch).rec_.ageMax
  if a = 0 then 4096 else a

/-! ### Meeting (R171 to R173) -/

/-- A thread owes a meeting segment (R173). -/
def Thread.owes (t : Thread) (m : Nat) : Bool := t.place != .dead && t.place != .held m && (t.meetCur == m || t.meetOuter == m)

/-- A thread held at a segment is released into its bucket as one of a numbered batch (R173, R174). -/
def Thread.release (t : Thread) (m now batch : Nat) : Thread :=
  if t.place = .held m then
    { t with meetCur := t.meetOuter, meetOuter := 4095, place := .bucket m now batch }
  else t

/-- The test of R173 for one meeting segment. -/
def Group.meetTest (g : Group) (m now : Nat) : Group :=
  if g.threads.any (fun e => e.2.owes m) then g
  else { g with threads := g.threads.map (fun e => (e.1, e.2.release m now (g.batches + 1))), batches := g.batches + 1 }

/-- The segments at which some thread of a group is held. -/
def Group.heldSegs (g : Group) : List Nat :=
  g.threads.foldl (fun l e => match e.2.place with
    | .held m => memberAdd l m
    | _ => l) []

/-- The test of R173, made after every segment end, MEET instruction and kill in the group. -/
def State.meetRelease (s : State) (g : Nat) : State :=
  let now := s.groupNow g
  s.setGroup g ((s.group g).heldSegs.foldl (fun x m => x.meetTest m now) (s.group g))

/-! ### The end of a segment -/

/-- A thread goes where its successor sends it: it exits, is held, or enters a bucket (R165, R167, R172). -/
def Thread.sendTo (t : Thread) (succ now : Nat) : Thread :=
  if succ = 4095 then { t with place := .dead }
  else if t.meetCur = succ then { t with place := .held succ, meetSeg := succ }
  else { t with place := .bucket succ now 0, meetSeg := succ }

/-- After the deadline a thread that has not been sent goes to the salvage segment (R182). -/
def Thread.salvaged (t : Thread) : Thread := { t with meetOuter := 4095, meetCur := 4095, sent := true }

/-- The successor and the thread after the rewriting of R182. -/
def Thread.redirect (t : Thread) (fell : Bool) (salvage succ : Nat) : Thread × Nat :=
  if fell = true ∧ t.sent = false ∧ succ ≠ 4095 then (t.salvaged, salvage) else (t, succ)

/-- Each thread of a wave goes to its successor; the wave gives up its slot (R165, R167). Then the meeting test of R173
and the end of the group's task or of the group. -/
def State.sortWave (s : State) (w : Nat) (succs : List (Nat × Nat)) : State :=
  let g := groupOf w
  let now := s.groupNow g
  let l := s.launch (s.waveLaunch w)
  let m := s.maxwOf w
  let r := s.leaveWave w
  let s1 := succs.foldl (fun t e =>
    let th := (t.thread g e.1).redirect l.deadlineFell l.mod_.salvage e.2
    t.setThread g e.1 { th.1.sendTo th.2 now with maxw := max th.1.maxw m, accts := r.2, gate := (s.wave w).relGate }) r.1
  (((s1.dropWave w).meetRelease g).afterDeaths g).bumpFree

/-- The accounts of a thread have nothing in flight and DT is later than its MAXW. -/
def State.threadDone (s : State) (t : Thread) : Bool :=
  decide (t.maxw < s.dt) && t.accts.all (fun a => (s.account a).out.isEmpty && decide ((s.account a).maxw < s.dt))

/-- The completion of a task is a release at DEVICE scope (R106): every write of the group has been performed and DT is
later than the largest GWCT. -/
def State.taskDone (s : State) (w : Nat) : Bool :=
  s.releaseDone w 4 && (s.group (groupOf w)).threads.all (fun e => s.threadDone e.2)

/-- The end of these threads of a wave completes the group's task (R106, R336). -/
def State.endsTask (s : State) (w : Nat) (succs : List (Nat × Nat)) : Bool :=
  match (s.group (groupOf w)).task with
  | none => false
  | some _ =>
    let l := s.launch (s.waveLaunch w)
    succs.all (fun e => ((s.thread (groupOf w) e.1).redirect l.deadlineFell l.mod_.salvage e.2).2 == 4095)
    && (s.group (groupOf w)).threads.all (fun e => e.2.place == .dead || succs.any (fun x => x.1 == e.1))

/-- A segment end with these successors: the wave first waits for its long-class results (R165), and for the release of
a task's completion (R106); a successor out of range sorts no thread. -/
def State.segmentEnd (s : State) (w : Nat) (succs : List (Nat × Nat)) : State :=
  if (s.wave w).pend ≠ [] then s.park w .marker
  else
    let m := s.groupMod (groupOf w)
    let bad := ((s.occupied w).zip succs).filter (fun e => !m.succOk e.2.2)
    if bad ≠ [] then
      s.takeTrap w (s.occupiedMask w) (TrapInfo.ofLanes (bad.map (fun e => (e.1.1, laneCause .illegalOperand))))
    else if s.endsTask w succs = true ∧ s.taskDone w = false then s.park w (.release 4)
    else s.sortWave w succs

/-! ### Buckets and formation (R168, R169, R174) -/

/-- The threads of a bucket: number, arrival, and batch. -/
def Group.bucket (g : Group) (seg : Nat) : List (Nat × Nat × Nat) :=
  g.threads.filterMap (fun e => match e.2.place with
    | .bucket m a b => if m = seg then some (e.1, a, b) else none
    | _ => none)

/-- The segments that have a bucket with a thread. -/
def Group.bucketSegs (g : Group) : List Nat :=
  g.threads.foldl (fun l e => match e.2.place with
    | .bucket m _ _ => memberAdd l m
    | _ => l) []

/-- The earliest arrival in a bucket. -/
def earliest (b : List (Nat × Nat × Nat)) : Nat :=
  match b with
  | [] => 0
  | (_, a, _) :: rest => rest.foldl (fun x e => min x e.2.1) a

/-- The age of a bucket (R167). -/
def State.bucketAge (s : State) (g seg : Nat) : Nat := s.groupNow g - earliest ((s.group g).bucket seg)

/-- A bucket is complete (R168). -/
def Group.complete (g : Group) (seg : Nat) : Bool :=
  g.threads.all (fun e => match e.2.place with
    | .dead => true
    | .formed _ => true
    | .bucket m _ _ => m == seg || (g.bucket seg).any (fun b => b.1 % 32 == e.1 % 32)
    | .held _ => (g.bucket seg).any (fun b => b.1 % 32 == e.1 % 32))

/-- The buckets whose age, that of their present threads, has reached AGE_MAX (R167, R168). -/
def State.agedNow (s : State) (g : Nat) : List Nat := (s.group g).bucketSegs.filter (fun m => decide (s.ageMax g ≤ s.bucketAge g m))

/-- The number of distinct lanes of a bucket. -/
def distinctLanes (b : List (Nat × Nat × Nat)) : Nat :=
  ((List.range 32).filter (fun l => b.any (fun e => e.1 % 32 == l))).length

/-- The first of some segments under a measure that is to be largest; the list rises, so ties take the lowest. -/
def firstMax (ms : List Nat) (f : Nat → Nat) : Option Nat :=
  match ms with
  | [] => none
  | m :: rest => some (rest.foldl (fun b x => if f b < f x then x else b) m)

/-- The formation slots of a group that hold no wave. -/
def State.freeSlots (s : State) (g : Nat) : List Nat :=
  (List.range (s.launch (s.crew (g / 8)).launch).rec_.wpg).filter (fun x => (tabFind s.waves (8 * g + x)).isNone)

/-- The bucket from which the regrouper forms the next wave (R168). -/
def State.formingSeg (s : State) (g : Nat) : Option Nat :=
  let gr := s.group g
  let aged := s.agedNow g
  let full := gr.bucketSegs.filter gr.complete
  if aged ≠ [] then firstMax aged (s.bucketAge g)
  else if full ≠ [] then firstMax full (s.bucketAge g)
  else if (s.freeSlots g).length = (s.launch (s.crew (g / 8)).launch).rec_.wpg then
    firstMax gr.bucketSegs (fun m => distinctLanes (gr.bucket m) * 2 ^ 64 + s.bucketAge g m)
  else none

/-- A thread arrives before another in its lane: earlier, or in the same cycle with the lower home wave (R167). -/
def arrivesBefore (a b : Nat × Nat × Nat) : Bool :=
  decide (a.2.1 < b.2.1) || (a.2.1 == b.2.1 && decide (a.1 / 32 < b.1 / 32))

/-- The first of the threads of one lane. -/
def firstArrived (b : List (Nat × Nat × Nat)) : Option (Nat × Nat × Nat) :=
  match b with
  | [] => none
  | x :: rest => some (rest.foldl (fun y e => if arrivesBefore e y then e else y) x)

/-- The threads of the release batch of a bucket that is formed now: the earliest one (R174). -/
def batchOf (b : List (Nat × Nat × Nat)) : List (Nat × Nat × Nat) :=
  let bs := b.filter (fun e => e.2.2 != 0)
  bs.filter (fun e => bs.all (fun x => decide (e.2.2 ≤ x.2.2)))

/-- The threads that a wave formed from a bucket takes (R169, R174). -/
def formedThreads (b : List (Nat × Nat × Nat)) : List Nat :=
  let batch := batchOf b
  match batch with
  | [] => (List.range 32).filterMap (fun l => (firstArrived (b.filter (fun e => e.1 % 32 == l))).map (fun e => e.1))
  | x :: rest =>
    let h := rest.foldl (fun n e => min n (e.1 / 32)) (x.1 / 32)
    (batch.filter (fun e => e.1 / 32 == h)).map (fun e => e.1)

/-- The union of rising lists. -/
def memberUnion (a b : List Nat) : List Nat := b.foldl memberAdd a

/-- The wider of two fence gates (R113). -/
def maxGate (a b : Option Nat) : Option Nat :=
  match a, b with
  | none, y => y
  | x, none => x
  | some x, some y => some (max x y)

/-- A wave formed of some threads in a slot at a segment (R163, R169, R110, R113); the fork, join and meet edges of its
threads order it after the released writes of its group's registers (R99, R192). -/
def State.formWave (s : State) (g slot seg : Nat) (ts : List Nat) : State :=
  let w := 8 * g + slot
  let now := s.groupNow g
  let v : Wave := { Wave.empty with
    lanes := ts.foldl (fun l t => tabPut l (t % 32) (t / 32)) [], seg := seg, born := s.free, order := now, lastPark := now
    readyAt := now
    wdSince := now
    maxw := ts.foldl (fun m t => max m (s.thread g t).maxw) 0
    accts := ts.foldl (fun l t => memberUnion l (s.thread g t).accts) []
    know := (s.group g).hist.released
    relGate := ts.foldl (fun x t => maxGate x (s.thread g t).gate) none }
  let s1 := ts.foldl (fun t n => t.setThread g n { t.thread g n with place := .formed slot, meetSeg := seg, accts := [], gate := none }) s
  s1.setWave w v

/-- A core whose partitions issue no word and form no wave: halted or copying (R385), its clock stopped (R401), or the
crew's context in the shadow (R386). -/
def State.crewFrozen (s : State) (crew : Nat) : Bool :=
  let c := (s.crew crew).core
  let k := s.cluster (clusterOf c)
  (s.core c).swap.halted || (s.core c).swap.saved.contains crew || k.brownout || k.lost || k.rail.busy

/-- WAVE_FORMATION (R168, R169, R174): the lowest free slot (log entry 83), and the first bucket that qualifies. -/
def execWaveFormation (g : Nat) (s : State) : Answer :=
  if s.crewFrozen (g / 8) then .next s
  else
    match s.freeSlots g, s.formingSeg g with
    | slot :: _, some seg =>
      .next (s.formWave g slot seg (formedThreads ((s.group g).bucket seg)))
    | _, _ => .next s

/-- BUCKET_AGE_MAX (R168, R176): a bucket whose age has reached AGE_MAX qualifies under rule 1; if a slot is free the regrouper
forms a wave of it, or of an older one that qualifies so. -/
def execBucketAgeMax (g seg : Nat) (s : State) : Answer :=
  if (s.agedNow g).contains seg = true then execWaveFormation g s else .next s

end Sys2Proof.Machine
end

