-- ==== Sys2Proof/Machine/Control.lean ====
section
/-! DEFINITION. Segment control (class 5; R164, R165, R170, R171, R274 to R278), for a wave and, where R300 lists the
form, for a matrix sequencer (R301, R302). -/

namespace Sys2Proof.Machine

open Sys2Proof

/-- A guard that holds in every occupied lane. -/
def noGuard : Guard := { pred := 0, neg := false }

/-- At TRAP level NEXT, NEXTU, EXIT and MEET raise ILLEGAL_OPCODE (R164, R373); a speculative wave parks (R253). -/
def State.atThread (s : State) (w : Nat) (body : State) : State :=
  if (s.wave w).level = .trap then s.trapWord w .illegalOpcode else s.unlessSpec w body

/-- NEXT (R274): each occupied lane's own successor, which it reads once every long-class result has been written (R165). -/
def execNext (o : Sys2Proof.Next) (s : State) : Answer :=
  s.onWave (fun w => s.atThread w (
    if (s.wave w).pend ≠ [] then s.park w .marker
    else
      s.issueTested w { mark := true, g := noGuard, legal := true, reads := [o.a], writes := [] }
        (fun t => !(s.groupMod (groupOf w)).succOk (s.opnd w t o.a)) (fun _ =>
          s.segmentEnd w ((s.occupied w).map (fun e => (e.2, s.opnd w e.2 o.a))))))

/-- A formed wave goes on at another segment without passing through the buckets (R170, R189). The test of R173 is made where the
deadline's rewriting has changed what the threads owe. -/
def State.continueWave (s : State) (w seg : Nat) : State :=
  let g := groupOf w
  let l := s.launch (s.waveLaunch w)
  let s1 := (s.occupied w).foldl (fun t e =>
    let th := t.thread g e.2
    t.setThread g e.2 { (if l.deadlineFell = true ∧ th.sent = false then th.salvaged else th) with meetSeg := seg }) s
  let s2 := s1.setWave w { s1.wave w with
    seg := seg, word := 0, cc := Cc.zero, lc := [], wdBase := 0, wdSince := s.coreCycles (s.waveCore w), retry := none
    held := none, park := .run }
  (if l.deadlineFell then s2.meetRelease g else s2).bumpFree

/-- The successor of NEXTU after the rewriting of R182: that of the wave's first thread, since a wave never mixes threads
that were sent with threads that were not. -/
def State.nextuTarget (s : State) (w succ : Nat) : Nat :=
  let l := s.launch (s.waveLaunch w)
  match s.occupied w with
  | [] => succ
  | e :: _ => ((s.thread (groupOf w) e.2).redirect l.deadlineFell l.mod_.salvage succ).2

/-- NEXTU continues the same wave: no thread of it is held at the target, and no bucket has reached AGE_MAX (R170). -/
def State.nextuStays (s : State) (w target : Nat) : Bool :=
  let l := s.launch (s.waveLaunch w)
  target != 4095 && (s.agedNow (groupOf w)).isEmpty
    && (s.occupied w).all (fun e =>
      ((s.thread (groupOf w) e.2).redirect l.deadlineFell l.mod_.salvage target).1.meetCur != target
        || (l.deadlineFell && !(s.thread (groupOf w) e.2).sent))

/-- NEXTU on a wave (R170, R274). -/
def State.waveNextu (s : State) (w succ : Nat) : State :=
  let m := s.groupMod (groupOf w)
  if (s.wave w).pend ≠ [] then s.park w .marker
  else if m.succOk succ = true ∧ s.nextuStays w (s.nextuTarget w succ) = true then s.continueWave w (s.nextuTarget w succ)
  else s.segmentEnd w ((s.occupied w).map (fun e => (e.2, succ)))

/-- Every earlier MMA and MLDB of the sequencer has completed: a drain point may issue (R302). -/
def Seq.drained (q : Seq) : Bool := q.mmas.isEmpty && q.stalled.isNone && q.mldbs.isEmpty && !q.copying

/-- A drain point of the sequencer: it does not issue before the earlier operations have completed (R302). -/
def State.seqDrain (s : State) (k : Nat) (body : State) : State := if (s.seqOf k).drained then body else s

/-- The sequencer's EXIT (R301). The end of the preamble lets the crews issue (R298). -/
def State.seqExit (s : State) (k : Nat) : State := (s.endSeq k).bumpFree

/-- NEXTU on the sequencer (R300, R301): after the deadline it exits. -/
def State.seqNextu (s : State) (k succ : Nat) : State :=
  let q := s.seqOf k
  let m := match q.launch with
    | none => Module.none
    | some l => (s.launch l).mod_
  if q.deadline = true ∨ succ = 4095 then s.seqExit k
  else if decide (succ < m.segs.length) && (m.segOf succ).seq then
    (s.setSeq k { q with seg := succ, word := 0, cc := Cc.zero, lc := [], preamble := false, park := .run }).bumpFree
  else s.seqFault k .illegalOperand

/-- NEXTU (R274). -/
def execNextu (o : Sys2Proof.S1) (s : State) : Answer :=
  s.onAgent (fun w => s.atThread w (s.waveNextu w (s.sReg o.a))) 
    (fun k => s.outsideRegion k (s.seqDrain k (s.seqNextu k (s.sReg o.a))))

/-- EXIT (R274): every thread of the wave ends. -/
def execExit (_o : Sys2Proof.Nul) (s : State) : Answer :=
  s.onAgent (fun w => s.atThread w (s.segmentEnd w ((s.occupied w).map (fun e => (e.2, 4095)))))
    (fun k => s.outsideRegion k (s.seqDrain k (s.seqExit k)))

/-- MEET in one thread (R171). -/
def Thread.meet (t : Thread) (m : Nat) : Thread :=
  if m = 4095 then { t with meetCur := t.meetOuter, meetOuter := 4095 } else { t with meetOuter := t.meetCur, meetCur := m }

/-- MEET (R171, R275): a segment that is no meeting segment, or a nesting breach in some lane, changes no lane. -/
def execMeet (o : Sys2Proof.Meet) (s : State) : Answer :=
  s.onWave (fun w => s.atThread w (
    let g := groupOf w
    let md := s.groupMod g
    if o.m ≠ 4095 ∧ (decide (o.m < md.segs.length) && (md.segOf o.m).meetSeg) = false then s.trapWord w .illegalOperand
    else
      let bad := if o.m = 4095 then [] else (s.occupied w).filter (fun e => (s.thread g e.2).meetOuter != 4095)
      if bad ≠ [] then
        s.takeTrap w (s.occupiedMask w) (TrapInfo.ofLanes (bad.map (fun e => (e.1, laneCause .illegalOperand))))
      else
        let s1 := (s.occupied w).foldl (fun t e => t.setThread g e.2 ((t.thread g e.2).meet o.m)) s
        (s1.meetRelease g).finish w o.mark))

/-! ### Uniform jumps (R276, R277) -/

/-- The segment and the word that the selected agent runs. -/
def State.pcOf (s : State) : Nat × Nat :=
  match s.cur with
  | .idle => (0, 0)
  | .wave w => ((s.wave w).seg, (s.wave w).word)
  | .seq k => ((s.seqOf k).seg, (s.seqOf k).word)

/-- The module of the selected agent's launch. -/
def State.agentMod (s : State) : Module :=
  match s.cur with
  | .idle => Module.none
  | .wave w => (s.launch (s.waveLaunch w)).mod_
  | .seq k =>
    match (s.seqOf k).launch with
    | none => Module.none
    | some l => (s.launch l).mod_

/-- The target of a jump: the jump's word plus 1 plus the signed displacement (R276). -/
def State.jumpTarget (s : State) (disp : Nat) : Int := (s.pcOf.2 : Int) + 1 + sInt 14 disp

/-- The target lies inside the segment (R164, R276). -/
def State.targetOk (s : State) (disp : Nat) : Bool :=
  decide (0 ≤ s.jumpTarget disp) && decide (s.jumpTarget disp < (s.agentMod.segOf s.pcOf.1).len)

/-- The word that the selected agent runs next. -/
def State.setWord (s : State) (n : Nat) : State :=
  match s.cur with
  | .idle => s
  | .wave w => s.setWave w { s.wave w with word := n }
  | .seq k => s.setSeq k { s.seqOf k with word := n }

/-- A jump that is taken, or not. -/
def State.jump (s : State) (mark taken : Bool) (disp : Nat) : State :=
  if taken = false then s.agentFinish mark 1
  else if s.targetOk disp then (s.agentFinish mark 1).setWord (s.jumpTarget disp).toNat
  else s.agentTrap .illegalOperand

/-- JMP (R276). -/
def execJmp (o : Sys2Proof.Jmp) (s : State) : Answer := s.onBoth false (s.jump o.mark true o.disp)

/-- JMZ (R276). -/
def execJmz (o : Sys2Proof.JmpS) (s : State) : Answer :=
  s.onBoth false (if 5 < o.sel then s.agentTrap .illegalOperand else s.jump o.mark (!ccFlag s.cc o.sel) o.disp)

/-- JMNZ (R276). -/
def execJmnz (o : Sys2Proof.JmpS) (s : State) : Answer :=
  s.onBoth false (if 5 < o.sel then s.agentTrap .illegalOperand else s.jump o.mark (ccFlag s.cc o.sel) o.disp)

/-- LCSET (R277). -/
def execLcset (o : Sys2Proof.Lcset) (s : State) : Answer :=
  s.onBoth false ((s.setLc o.n (if o.imm then o.v else s.sReg o.v % 2 ^ 32)).agentFinish o.mark 1)

/-- LOOP (R277): a counter above 0 falls by one, and the jump is taken while it has not become 0. -/
def execLoop (o : Sys2Proof.Loop) (s : State) : Answer :=
  let n := s.lcReg o.n
  s.onBoth false (
    if n = 0 then s.agentFinish o.mark 1
    else if n = 1 then (s.setLc o.n 0).agentFinish o.mark 1
    else if s.targetOk o.disp then (s.setLc o.n (n - 1)).jump o.mark true o.disp
    else s.agentTrap .illegalOperand)

/-- NOP (R278). -/
def execNop (o : Sys2Proof.Nul) (s : State) : Answer := s.onBoth false (s.agentFinish o.mark 1)

end Sys2Proof.Machine
end

