-- ==== Sys2Proof/Machine/LoadStore.lean ====
section
/-! DEFINITION. Loads, stores, prefetches, spills, capability moves, atomics, fences and IINV (classes 6 and 7; R279 to
R290), with the shared issue of a memory form (R27, R28, R281, R377) and the speculative forms (R114 to R116). LDT
and ADRN stand in Machine/Near.lean and Machine/Matrix.lean. -/

namespace Sys2Proof.Machine

open Sys2Proof

/-! ### The issue of a per-lane memory form (R27, R28, R281, R376, R377) -/

/-- A lane's frame entry for a cause of the capability (R347): ADDR is BASE + offset of the first failing byte. -/
def capLane (cause : Cause) (c : Capv) (ci addr : Nat) : TrapLane :=
  { cause := cause, space := c.space, cap := ci, addr := addr % 2 ^ 48 }

/-- Spaces of loads, stores, atomics and capability accesses (R27). -/
def loadSpaces : List Nat := [0, 1, 2, 4, 5]
/-- Store spaces. -/
def storeSpaces : List Nat := [0, 1, 2, 3, 4]
/-- Spaces of atomics, reductions, capability loads and stores, and engine accesses. -/
def rmwSpaces : List Nat := [0, 1, 2]

/-- What a memory form asks of its capability and its lanes; an atomic does not reach host memory (R287). -/
structure MemReq where
  ci : Nat
  spaces : List Nat
  mask : Nat
  acc : Acc
  n : Nat
  align : Nat
  host : Bool := true
deriving DecidableEq, Repr

/-- Steps 4 and 5 of R27 and the translation of each lane (R377): the state with the walks made, the lanes with a
cause, and the accesses of the others. -/
def State.locate (s : State) (e : Env) (c : Capv) (r : MemReq) (ls : List (Nat × Nat × Nat)) :
    State × Tab TrapLane × List LaneAcc :=
  match ls with
  | [] => (s, [], [])
  | (l, t, off) :: rest =>
    match s.laneCheck e c off r.n r.align with
    | some (cause, addr) =>
      let x := s.locate e c r rest
      (x.1, (l, capLane cause c r.ci addr) :: x.2.1, x.2.2)
    | none =>
      match s.capKeys e c r.acc off r.n with
      | .error (s1, cause, addr) =>
        let x := s1.locate e c r rest
        (x.1, (l, capLane cause c r.ci addr) :: x.2.1, x.2.2)
      | .ok (s1, ks) =>
        let x := s1.locate e c r rest
        if r.host = false ∧ ks.any (fun k => isHost k.1) = true then
          (x.1, (l, capLane .accessFault c r.ci (c.base + off)) :: x.2.1, x.2.2)
        else (x.1, x.2.1, { lane := l, thread := t, off := off, keys := ks } :: x.2.2)

/-- The issue of a per-lane memory form: the limits of its operands, steps 1 to 3 of R27 once, then each active lane's
own checks and translation; a poisoned row is the last of a lane's causes (R376). If any lane has a cause no lane performs
(R28). The rest acts on the lanes' accesses. -/
def State.memIssue (s : State) (w : Nat) (x : LaneWord) (r : MemReq) (off : Nat → Nat → Nat)
    (body : State → Nat → List LaneAcc → State) : State :=
  s.issueQuota w x (fun act =>
    let am := laneMask act
    let c := s.kUse r.ci
    let offs := act.map (fun e => (e.1, e.2, off e.1 e.2))
    match capCheck c r.spaces r.mask with
    | some cause =>
      if act = [] then body s am []
      else s.takeTrap w am (TrapInfo.ofLanes (offs.map (fun e => (e.1, capLane cause c r.ci (c.base + e.2.2)))))
    | none =>
      let pz := s.poisonLanes w act x.reads
      let y := s.locate (s.waveEnv w) c r offs
      let bad := tabMerge pz y.2.1
      if bad ≠ [] then y.1.takeTrap w am (TrapInfo.ofLanes bad) else body y.1 am y.2.2)

/-- POISON found at the home (R377): the other lanes have performed, and the frame is partial. -/
def State.partialTrap (s : State) (w active : Nat) (bad : Tab TrapLane) : State :=
  s.takeTrap w active { TrapInfo.ofLanes bad with isPartial := true }

/-! ### Loads -/

/-- The first place of an access that a mark says is poisoned. -/
def firstBad (off : Nat) (flags : List Bool) : Nat :=
  match flags with
  | [] => off
  | b :: rest => if b then off else firstBad (off + 1) rest

/-- The bytes of a load, each with its poison mark, in ascending order. -/
def State.takeBytes (s : State) (w core : Nat) (ks : List (Nat × Nat)) : State × List (Byte × Bool) :=
  match ks with
  | [] => (s, [])
  | (key, cls) :: rest =>
    let r := s.loadByte w core key cls
    let t := r.1.takeBytes w core rest
    (t.1, (r.2.1, r.2.2) :: t.2)

/-- The bytes of a load after every write of the wave to the homes that it reads, so that a write of its own does not fall between
them (R91, R109). -/
def State.loadBytes (s : State) (w core : Nat) (ks : List (Nat × Nat)) : State × List (Byte × Bool) :=
  (s.flushHomes w (s.readHomes core ks)).takeBytes w core ks

/-- The bytes that a load has already been returned. -/
def State.gotBytes (s : State) (w : Nat) : Tab (Nat × Byte × Bool) :=
  match (s.wave w).held with
  | none => []
  | some h => match h.load with
    | none => []
    | some x => x.got

/-- A byte that a lane has already been returned from a place. -/
def gotAt (got : Tab (Nat × Byte × Bool)) (lane key : Nat) : Option (Byte × Bool) :=
  (got.find? (fun e => e.1 == lane && e.2.1 == key)).map (fun e => e.2.2)

/-- The bytes of a lane's access, in ascending order: those already returned (R91), and the others as they are read now. -/
def State.laneBytes (s : State) (w core : Nat) (a : LaneAcc) : State × List (Byte × Bool) :=
  let got := s.gotBytes w
  if got = [] then s.loadBytes w core a.keys
  else
    let left := a.keys.filter (fun k => (gotAt got a.lane k.1).isNone)
    let r := s.loadBytes w core left
    let all := got ++ (left.zip r.2).map (fun e => (a.lane, e.1.1, e.2))
    (r.1, a.keys.map (fun k => (gotAt all a.lane k.1).getD (0, false)))

/-- The loads of the lanes in ascending order: the state, the value and thread of each lane that performed, and the
lanes that met poison. -/
def State.loadLanes (s : State) (w core ci : Nat) (c : Capv) (as : List LaneAcc) :
    State × List (Nat × Nat) × Tab TrapLane :=
  match as with
  | [] => (s, [], [])
  | a :: rest =>
    let r := s.laneBytes w core a
    let t := r.1.loadLanes w core ci c rest
    if r.2.any (fun b => b.2) then
      (t.1, t.2.1, (a.lane, capLane .poison c ci (c.base + firstBad a.off (r.2.map (fun b => b.2)))) :: t.2.2)
    else (t.1, (a.thread, natOfBytes (r.2.map (fun b => b.1))) :: t.2.1, t.2.2)

/-- Long-class results of lanes that performed (R195, R377). -/
def State.putLoaded (s : State) (w : Nat) (d : Slc) (vs : List (Nat × Nat)) : State :=
  let s1 := vs.foldl (fun t v => t.logUndo w v.1 d.start d.width) s
  s1.addLong w { cells := vs.flatMap (fun v => cellsOf v.1 d.start v.2 d.width), prds := [] }

/-- The rest of a load: its results are outstanding; where lanes met POISON the trap waits until every lane has returned, so the
other lanes' results are written first (R377). -/
def State.finishLoad (s : State) (w am : Nat) (mark : Bool) (d : Slc) (vs : List (Nat × Nat)) (bad : Tab TrapLane) :
    State :=
  if bad ≠ [] then (vs.foldl (fun t v => t.setShort w v.1 d v.2) s).partialTrap w am bad
  else (s.putLoaded w d vs).finish w mark

/-- The lines of the unified memory that some accesses read, as a speculative wave watches them (R115). -/
def watchLines (old : List Nat) (as : List LaneAcc) : List Nat :=
  as.foldl (fun l a => a.keys.foldl (fun l k => memberAdd l (k.1 / 128)) l) old

/-- A load of a speculative wave (R115, R116): it bypasses the L1, takes no lease, watches its lines, and takes bytes of
the wave's own buffered stores first. -/
def State.specLoad (s : State) (w am : Nat) (mark : Bool) (d : Slc) (ordered : Bool) (c : Capv) (p : Spec)
    (as : List LaneAcc) : State :=
  let lines := watchLines p.watches as
  let far := as.any (fun a => a.keys.any (fun k => isPlace3 k.1))
  let poison := as.any (fun a => a.keys.any (fun k => s.store.poisoned k.1 1))
  if ordered = true ∨ c.space = 1 ∨ c.space = 2 ∨ far = true ∨ 16 < lines.length ∨ poison = true then s.park w .spec
  else
    let s1 := as.foldl (fun t a => a.keys.foldl (fun t k => t.flushHome w (homeOf k.1)) t) s
    let s2 := as.foldl (fun t a => a.keys.foldl (fun t k => t.touchRead k.1 1) t) s1
    let vs := as.map (fun a => (a.thread, natOfBytes (a.keys.map (fun k => BitVec.ofNat 8 (specByte s2.store p.stores k.1)))))
    let s3 := s2.setWave w { s2.wave w with spec := some { p with watches := lines } }
    s3.finishLoad w am mark d vs []

/-- A load of all lanes, speculative or not. -/
def State.loadAll (s : State) (w am ci : Nat) (mark : Bool) (d : Slc) (ordered : Bool) (c : Capv) (as : List LaneAcc) :
    State :=
  match (s.wave w).spec with
  | some p => s.specLoad w am mark d ordered c p as
  | none =>
    let r := s.loadLanes w (s.waveCore w) ci c as
    r.1.finishLoad w am mark d r.2.1 r.2.2

/-- Bytes(w) of R280. -/
def opBytes (wd : Nat) : Nat := (wd + 1) / 2

/-- An access descriptor whose attribute the form allows (R93, R279). -/
def attrOk (allowed : List Nat) (attr scope : Nat) : Bool := allowed.contains attr && decide (scope < 6)

/-- The accesses of a load: those that it has sent, or those of its issue. -/
def State.orSent (s : State) (w : Nat) (issue : State) (body : State → Nat → List LaneAcc → State) : State :=
  match (s.wave w).held with
  | none => issue
  | some h => match h.load with
    | none => issue
    | some x => body s x.mask x.accs

/-- The issue of LD up to its accesses. -/
def State.ldIssue (s : State) (w : Nat) (o : Sys2Proof.Mem) (body : State → Nat → List LaneAcc → State) : State :=
  s.orSent w (s.memIssue w { mark := o.mark, g := o.g, legal := attrOk [0, 1] o.attr o.scope, reads := [o.a], writes := [o.d] }
      { ci := o.cap, spaces := loadSpaces, mask := permLD, acc := .load, n := opBytes o.d.width, align := 1 }
      (fun _ t => s.opnd w t o.a * 2 ^ o.sh) body) body

/-- LD (R282). -/
def execLd (o : Sys2Proof.Mem) (s : State) : Answer :=
  s.onWave (fun w => s.ldIssue w o (fun s1 am as => s1.loadAll w am o.cap o.mark o.d (o.attr != 0) (s.kUse o.cap) as))

/-! ### Stores -/

/-- The write cells of an operand of w slices: with w odd, bits 7:4 of the last byte keep their value (R202, R280). -/
def opCells (ks : List (Nat × Nat)) (v : Nat) : Nat → List (Nat × Byte × Byte)
  | 0 => []
  | 1 => match ks with
    | [] => []
    | (k, _) :: _ => [(k, 15, BitVec.ofNat 8 (v % 16))]
  | n + 2 => match ks with
    | [] => []
    | (k, _) :: rest => (k, 255, BitVec.ofNat 8 (v % 256)) :: opCells rest (v / 256) n

/-- The pieces of the stores of all lanes, in ascending lane order (R91). -/
def lanePieces (as : List LaneAcc) (f : Nat → Nat) (wd : Nat) : List PWrite :=
  as.flatMap (fun a => piecesOf a.lane (opCells a.keys (f a.thread) wd))

/-- Stores leave the core: its L1 lines that they hit are invalidated, and they are in flight to their homes (R46, R108,
R109). -/
def State.sendStores (s : State) (w : Nat) (ps : List PWrite) : State :=
  let s1 := s.dropL1 (s.waveCore w) (ps.flatMap (fun p => p.cells))
  s1.setWave w { s1.wave w with out := (s1.wave w).out ++ ps.map (fun p => { p with ser := s.free }) }

/-- A store of a speculative wave (R115, R116): buffered in order, at most 16 store instructions. -/
def State.specStore (s : State) (w : Nat) (mark ordered : Bool) (p : Spec) (ps : List PWrite) : State :=
  if ordered = true ∨ 16 ≤ p.stores.length ∨ ps.any (fun x => x.cells.any (fun c => isPlace3 c.1)) = true then s.park w .spec
  else (s.setWave w { s.wave w with spec := some { p with stores := p.stores ++ [ps] } }).finish w mark

/-- A store of all lanes: it waits as a release if it carries REL and some lane is active (R94, R111). -/
def State.storeAll (s : State) (w : Nat) (mark : Bool) (attr scope : Nat) (ps : List PWrite) : State :=
  match (s.wave w).spec with
  | some p => s.specStore w mark (attr != 0) p ps
  | none =>
    if ps = [] then s.finish w mark
    else
      let body := s.afterGate w (fun t => (t.sendStores w ps).finish w mark)
      if 2 ≤ attr then s.afterRelease w scope body else body

/-- ST (R282). -/
def execSt (o : Sys2Proof.Mem) (s : State) : Answer :=
  s.onWave (fun w =>
    s.memIssue w { mark := o.mark, g := o.g, legal := attrOk [0, 2] o.attr o.scope, reads := [o.a, o.d], writes := [] }
      { ci := o.cap, spaces := storeSpaces, mask := permST, acc := .store, n := opBytes o.d.width, align := 1 }
      (fun _ t => s.opnd w t o.a * 2 ^ o.sh)
      (fun s1 _ as => s1.storeAll w o.mark o.attr o.scope (lanePieces as (fun t => s.opnd w t o.d 2) o.d.width)))

/-! ### PREF (R284) -/

/-- One lane's prefetch: dropped when a check or the translation fails; nothing through CORESP or POOLSP. A page that no
TLB holds is walked first (R39). -/
def State.prefLane (s : State) (w core lvl : Nat) (c : Capv) (off : Nat) : State :=
  let e := s.waveEnv w
  let va := (c.base + off) % 2 ^ 48
  match s.laneCheck e c off 1 1 with
  | some _ => s
  | none =>
    if c.space = 1 ∨ c.space = 2 then s
    else
      match s.cachedLeaf e (s.ctxOf e) va with
      | none =>
        let k := s.cluster e.cluster
        (s.setCluster e.cluster { k with
          misses := missJoin k.misses (s.ctxOf e) (va / 65536) [{ core := core, level := lvl, va := va }] }).takeWalks 64
      | some _ =>
        match s.translate e va .load with
        | .error (s1, _) => s1
        | .ok (s1, pa, cls) => s1.queuePref core lvl pa cls

/-- PREF (R284): dropped whole when the capability fails or the wave is speculative. -/
def execPref (o : Sys2Proof.Pref) (s : State) : Answer :=
  s.onWave (fun w =>
    s.issueLanes w { mark := o.mark, g := o.g, legal := true, reads := [o.a], writes := [] } (fun act =>
      let c := s.kReg o.cap
      if (s.wave w).spec.isSome ∨ capCheck c loadSpaces permLD ≠ none then s.finish w o.mark
      else
        (act.foldl (fun t e => t.prefLane w (s.waveCore w) o.lvl c (s.opnd w e.2 o.a * 2 ^ o.sh)) s).finish w o.mark))

/-! ### SPILL and FILL (R202, R203, R285) -/

/-- The region of a thread: its number in the group times the stride (R285). -/
def spillOff (base t c : Nat) : Nat := base + t * (16 * ((c + 31) / 32))

/-- SPILL (R285). -/
def execSpill (o : Sys2Proof.Spill) (s : State) : Answer :=
  let d : Slc := { start := o.a, width := o.c }
  s.onWave (fun w =>
    s.memIssue w { mark := o.mark, g := o.g, legal := true, reads := [d], writes := [] }
      { ci := o.cap, spaces := storeSpaces, mask := permST, acc := .store, n := opBytes o.c, align := 1 }
      (fun _ t => spillOff (s.sReg o.s) t o.c)
      (fun s1 _ as => s1.storeAll w o.mark 0 0 (lanePieces as (fun t => s.opnd w t d) o.c)))

/-- The issue of FILL up to its accesses. -/
def State.fillIssue (s : State) (w : Nat) (o : Sys2Proof.Spill) (body : State → Nat → List LaneAcc → State) : State :=
  s.orSent w (s.memIssue w { mark := o.mark, g := o.g, legal := true, reads := [], writes := [{ start := o.a, width := o.c }] }
      { ci := o.cap, spaces := loadSpaces, mask := permLD, acc := .load, n := opBytes o.c, align := 1 }
      (fun _ t => spillOff (s.sReg o.s) t o.c) body) body

/-- FILL (R285). -/
def execFill (o : Sys2Proof.Spill) (s : State) : Answer :=
  s.onWave (fun w => s.fillIssue w o (fun s1 am as =>
    s1.loadAll w am o.cap o.mark { start := o.a, width := o.c } false (s.kUse o.cap) as))

/-! ### Loads that perform in parts (R91, R407) -/

/-- The accesses of a load are sent; those of a speculative wave perform at once (R115). -/
def State.sendLoad (s : State) (w : Nat) (i : Instr) (am : Nat) (as : List LaneAcc) : State :=
  let v := s.wave w
  if v.spec.isSome ∨ (match v.held with
    | none => false
    | some h => h.load.isSome) = true then s
  else s.setWave w { v with held := some { k := (s.group (groupOf w)).k, load := some { instr := i, mask := am, accs := as, got := [] } } }

/-- A load is sent, with the traps of its issue; another instruction has no parts. -/
def State.startLoad (s : State) (w : Nat) (i : Instr) : State :=
  match i with
  | .ld o => s.ldIssue w o (fun t am as => t.sendLoad w i am as)
  | .fill o => s.fillIssue w o (fun t am as => t.sendLoad w i am as)
  | _ => s

/-- The parts of a load that have not performed: a lane and an 8-byte word (R91). -/
def Sent.left (x : Sent) : List (Nat × Nat) :=
  x.accs.foldl (fun l a => a.keys.foldl (fun l k =>
    if (gotAt x.got a.lane k.1).isSome ∨ l.contains (a.lane, k.1 / 8) = true then l else l ++ [(a.lane, k.1 / 8)]) l) []

/-- One part of a load performs. -/
def State.readPart (s : State) (w : Nat) (x : Sent) (lane word : Nat) : State :=
  let ks := x.accs.flatMap (fun a => if a.lane = lane then a.keys.filter (fun k => k.1 / 8 == word) else [])
  let r := s.loadBytes w (s.waveCore w) ks
  let v := r.1.wave w
  match v.held with
  | none => r.1
  | some h => r.1.setWave w { v with
      held := some { h with load := some { x with got := x.got ++ (ks.zip r.2).map (fun e => (lane, e.1.1, e.2)) } } }

/-- Part n of the load at which a wave stands performs, once its accesses have been sent; the rest goes on when the wave next
issues (R91). A number that names no part only sends the accesses. -/
def State.loadPart (s : State) (w : Nat) (i : Instr) (n : Nat) : State :=
  let s1 := s.startLoad w i
  match (s1.wave w).held with
  | none => s1
  | some h =>
    match h.load with
    | none => s1
    | some x => match x.left[n]? with
      | none => s1.bumpFree
      | some p => (s1.readPart w x p.1 p.2).bumpFree

/-- A load that has been sent begins anew: none of its bytes counts. -/
def State.unsend (s : State) (w : Nat) : State :=
  match (s.wave w).held with
  | none => s
  | some h => if h.load.isSome then s.setWave w { s.wave w with held := none } else s

/-! ### LDC and STC (R25, R26, R286) -/

/-- The issue of a uniform capability access: checked once, its cause that of every occupied lane. -/
def State.capIssue (s : State) (w : Nat) (legal : Bool) (r : MemReq) (pre : Option Cause) (off : Nat)
    (body : State → List (Nat × Nat) → State) : State :=
  let am := s.occupiedMask w
  let c := s.kUse r.ci
  let all := fun cause addr => TrapInfo.ofLanes ((s.occupied w).map (fun e => (e.1, capLane cause c r.ci addr)))
  if legal = false then s.trapWord w .illegalOperand
  else
    match capCheck c r.spaces r.mask, pre with
    | some cause, _ => s.takeTrap w am (all cause (c.base + off))
    | none, some cause => s.takeTrap w am (all cause (c.base + off))
    | none, none =>
      match s.laneCheck (s.waveEnv w) c off r.n r.align with
      | some (cause, addr) => s.takeTrap w am (all cause addr)
      | none =>
        match s.capKeys (s.waveEnv w) c r.acc off r.n with
        | .error (s1, cause, addr) => s1.takeTrap w am (all cause addr)
        | .ok (s1, ks) => body s1 ks

/-- The tag that a capability load sees: that of the leased copy it is served from, or of the granule at its home. -/
def State.loadTag (s : State) (core key cls : Nat) : Bool :=
  if cls = 0 then s.store.tagAt key
  else
    match s.l1Hit core (key / 64) with
    | some l => bit l.tags (key % 64 / 16)
    | none => s.store.tagAt key

/-- LDC (R286): the tag stays only if kC holds LC (R26). -/
def execLdc (o : Sys2Proof.Ldc) (s : State) : Answer :=
  s.onWave (fun w => s.unlessSpec w (
    let c := s.kUse o.cap
    s.capIssue w (attrOk [0, 1] o.attr o.scope && decide (o.d < 32))
      { ci := o.cap, spaces := rmwSpaces, mask := permLD, acc := .load, n := 16, align := 16 } none (s.sReg o.a)
      (fun s1 ks =>
        let core := s1.waveCore w
        let r := s1.loadBytes w core ks
        let k0 := (ks.headD (0, 0))
        if r.2.any (fun b => b.2) then
          r.1.takeTrap w (s.occupiedMask w) (TrapInfo.ofLanes ((s.occupied w).map (fun e =>
            (e.1, capLane .poison c o.cap (c.base + firstBad (s.sReg o.a) (r.2.map (fun b => b.2)))))))
        else
          let v : Capv := { bits := BitVec.ofNat 128 (natOfBytes (r.2.map (fun b => b.1)))
                            tag := r.1.loadTag core k0.1 k0.2 && c.holds permLC }
          (r.1.setWaveK w o.d v).finish w o.mark)))

/-- STC (R286): a tagged capability without PV raises CAP_PERM, and one to PLACE 3 ACCESS_FAULT (R27, R38). -/
def execStc (o : Sys2Proof.Ldc) (s : State) : Answer :=
  s.onWave (fun w =>
    let v := s.kUse o.d
    let c := s.kUse o.cap
    s.capIssue w (attrOk [0, 2] o.attr o.scope && decide (o.d < 32))
      { ci := o.cap, spaces := rmwSpaces, mask := permST + permSC, acc := .store, n := 16, align := 16 }
      (if v.tag = true ∧ v.holds permPV = false then some .capPerm else none) (s.sReg o.a)
      (fun s1 ks =>
        if v.tag = true ∧ ks.any (fun k => isPlace3 k.1) = true then
          s1.takeTrap w (s.occupiedMask w) (TrapInfo.ofLanes ((s.occupied w).map (fun e =>
            (e.1, capLane .accessFault c o.cap (c.base + s.sReg o.a)))))
        else
          let p : PWrite := { lane := 0, ser := 0, cells := keyCells ks v.bits.toNat, tag := some v.tag }
          s1.storeAll w o.mark o.attr o.scope [p]))

/-! ### Atomics and reductions (R287, R288) -/

/-- A CAS that finds another value is an RMW without a write (R288): a use of its line at the L2, a conflict on it, and an access
that a peer acknowledges (R72, R118, R124). -/
def State.observeRmw (s : State) (w : Nat) (p : PWrite) : State :=
  let s1 := p.cells.foldl (fun t c => t.touchRead c.1 1) s
  let s2 := s1.markConflicts (some w) (linesOf p.cells)
  s2.setWave w { s2.wave w with peerOut := (s2.wave w).peerOut ++ s.peerAcks p }

/-- One lane's RMW at its home, after the wave's own writes to that home (R102, R109): the old value; none where the
word is poisoned, and nothing is written. A new value of none makes no write (R288). -/
def State.rmwLane (s : State) (w : Nat) (a : LaneAcc) (f : Nat → Option Nat) : State × Option Nat :=
  let s1 := s.flushHomes w (homesOf (keyCells a.keys 0))
  if keysPoisoned s1.store a.keys then (s1.touchRead (a.keys.headD (0, 0)).1 1, none)
  else
    let m := keysNat s1.store a.keys
    match f m with
    | none => (s1.observeRmw w { lane := a.lane, ser := 0, cells := keyCells a.keys m, tag := none }, some m)
    | some v =>
      let cells := keyCells a.keys v
      ((s1.dropL1 (s1.waveCore w) cells).performWrite w { lane := a.lane, ser := 0, cells := cells, tag := none }, some m)

/-- The RMWs of the lanes in ascending order: the old values of those that performed, and the lanes that met poison. -/
def State.rmwLanes (s : State) (w ci : Nat) (c : Capv) (as : List LaneAcc) (f : Nat → Nat → Option Nat) :
    State × List (Nat × Nat) × Tab TrapLane :=
  match as with
  | [] => (s, [], [])
  | a :: rest =>
    match s.rmwLane w a (f a.thread) with
    | (s1, none) =>
      let t := s1.rmwLanes w ci c rest f
      (t.1, t.2.1, (a.lane, capLane .poison c ci (c.base + a.off)) :: t.2.2)
    | (s1, some m) =>
      let t := s1.rmwLanes w ci c rest f
      (t.1, (a.thread, m) :: t.2.1, t.2.2)

/-- An RMW form: it parks while speculative, waits as a release if it carries REL or AR and some lane is active, and
performs its lanes one after another. -/
def State.rmwWord (s : State) (w : Nat) (x : LaneWord) (ci n attr scope : Nat) (off : Nat → Nat → Nat) (d : Option Slc)
    (f : Nat → Nat → Option Nat) : State :=
  s.unlessSpec w (
    let c := s.kUse ci
    s.memIssue w x { ci := ci, spaces := rmwSpaces, mask := permAT, acc := .store, n := n, align := n, host := false } off
      (fun s1 am as =>
        if as = [] then s1.finish w x.mark
        else
          let body := s1.afterGate w (fun t =>
            let r := t.rmwLanes w ci c as f
            match d with
            | some dst => r.1.finishLoad w am x.mark dst r.2.1 r.2.2
            | none => if r.2.2 ≠ [] then r.1.partialTrap w am r.2.2 else r.1.finish w x.mark)
          if 2 ≤ attr then s1.afterRelease w scope body else body))

/-- The limits of ATOM and RED (R287). -/
def atmOk (o : Sys2Proof.Atm) (attrs : List Nat) : Bool :=
  attrOk attrs o.attr o.scope && decide (o.op < 12) && (o.d.width == 8 || (o.d.width == 16 && decide (o.op < 9)))

/-- ATOM (R287). -/
def execAtom (o : Sys2Proof.Atm) (s : State) : Answer :=
  s.onWave (fun w =>
    s.rmwWord w { mark := o.mark, g := o.g, legal := atmOk o [0, 1, 2, 3], reads := [o.a, o.d], writes := [o.d] }
      o.cap (o.d.width / 2) o.attr o.scope (fun _ t => s.opnd w t o.a) (some o.d)
      (fun t m => some (atomOp o.op (4 * o.d.width) m (s.opnd w t o.d 2))))

/-- RED (R287). -/
def execRed (o : Sys2Proof.Atm) (s : State) : Answer :=
  s.onWave (fun w =>
    s.rmwWord w { mark := o.mark, g := o.g, legal := atmOk o [0, 2], reads := [o.a, o.d], writes := [] }
      o.cap (o.d.width / 2) o.attr o.scope (fun _ t => s.opnd w t o.a) none
      (fun t m => some (atomOp o.op (4 * o.d.width) m (s.opnd w t o.d 2))))

/-- CAS (R288): the new value is the operand of w slices above D. -/
def execCas (o : Sys2Proof.Cas) (s : State) : Answer :=
  let nw : Slc := { start := o.d.start + o.d.width, width := o.d.width }
  s.onWave (fun w =>
    s.rmwWord w
      { mark := o.mark, g := o.g, legal := attrOk [0, 1, 2, 3] o.attr o.scope && (o.d.width == 8 || o.d.width == 16)
        reads := [o.a, o.d, nw], writes := [o.d] }
      o.cap (o.d.width / 2) o.attr o.scope (fun _ t => s.opnd w t o.a) (some o.d)
      (fun t m => if m = s.opnd w t o.d 2 then some (s.opnd w t nw 3) else none))

/-! ### Fences and IINV (R113, R114, R289, R290) -/

/-- FENCE on a wave (R113): its marker first; REL holds the later writes, AR every later access. -/
def State.waveFence (s : State) (w attr scope : Nat) : State :=
  if (s.wave w).pend ≠ [] then s.park w .marker
  else if attr = 1 then s.finish w true
  else if attr = 2 then
    if s.releaseDone w scope then s.finish w true
    else (s.setWave w { s.wave w with relGate := some (max scope (((s.wave w).relGate).getD 0)) }).finish w true
  else s.afterRelease w scope (s.finish w true)

/-- FENCE on a sequencer, a drain point (R299, R302). -/
def State.seqFence (s : State) (k attr scope : Nat) : State :=
  s.seqDrain k (
    if attr = 2 ∧ s.seqReleaseDone k scope = false then
      (s.setSeq k { s.seqOf k with relGate := some (max scope (((s.seqOf k).relGate).getD 0)) }).seqFinish k 1
    else if attr = 3 then s.seqAfterRelease k scope (s.seqFinish k 1)
    else s.seqFinish k 1)

/-- FENCE (R289). -/
def execFence (o : Sys2Proof.Fence) (s : State) : Answer :=
  s.onAgent
    (fun w =>
      if attrOk [1, 2, 3] o.attr o.scope = false then s.trapWord w .illegalOperand
      else s.unlessSpec w (s.waveFence w o.attr o.scope))
    (fun k =>
      if attrOk [1, 2, 3] o.attr o.scope = false then s.seqFault k .illegalOperand
      else s.outsideRegion k (s.seqFence k o.attr o.scope))

/-- A wave becomes speculative (R114): the checkpoint of predicates, CC and LC, nothing logged, watched or buffered. -/
def State.enterSpec (s : State) (w scope : Nat) : State :=
  let v := s.wave w
  s.setWave w { v with spec := some {
    scope := scope, ckPreds := (s.occupied w).foldl (fun t e => tabPut t e.2 (s.thread (groupOf w) e.2).preds) []
    ckCc := v.cc, ckLc := v.lc, undo := [], watches := [], stores := [], rollbacks := 0, conflict := false, seg := v.seg
    word := v.word } }

/-- FENCE.S (R114, R289): a fence whose target is met already is complete at once. -/
def execFenceS (o : Sys2Proof.FenceS) (s : State) : Answer :=
  s.onWave (fun w =>
    if 5 < o.scope then s.trapWord w .illegalOperand
    else s.unlessSpec w (
      if (s.wave w).pend ≠ [] then s.park w .marker
      else
        let s1 := s.finish w true
        if s.releaseDone w o.scope then s1 else s1.enterSpec w o.scope))

/-- The instruction lines of a core invalidated (R47, R290). -/
def State.dropL1i (s : State) (core : Nat) : State := s.setCore core { s.core core with l1i := [], fbufs := [] }

/-- Step 2 of R290: the own core, or every core. -/
def State.invalidate (s : State) (core reach : Nat) : State :=
  if reach = 0 then s.dropL1i core else (s.cores.map (fun e => e.1)).foldl State.dropL1i s

/-- IINV (R290): it waits for the GWCTs of the earlier writes, except under speculation, and no word is fetched before
it completes. -/
def execIinv (o : Sys2Proof.Iinv) (s : State) : Answer :=
  s.onWave (fun w =>
    let body :=
      let s1 := (s.invalidate (s.waveCore w) o.reach).finish w o.mark
      s1.park w (.iinv o.reach o.mark)
    if (s.wave w).spec.isSome then body else s.afterRelease w 0 body)

end Sys2Proof.Machine
end

