-- ==== Sys2Proof/Machine/Caps.lean ====
section
/-! DEFINITION. The capability forms of class 8 (R26, R29, R30, R291). -/

namespace Sys2Proof.Machine

open Sys2Proof

/-- A form of class 8 that is uniform and leaves its destination unchanged when a check fails; a speculative wave parks
at it when R116 names it. -/
def State.capForm (s : State) (mark stop legal : Bool) (r : Nat → Except Cause State) : Answer :=
  s.onWave (fun w =>
    if legal = false then s.trapWord w .illegalOperand
    else if stop = true ∧ (s.wave w).spec.isSome = true then s.park w .spec
    else
      match r w with
      | .error c => s.trapWord w c
      | .ok s1 => s1.finish w mark)

/-- The derivation of R29: exact sums of unsigned values; the first of CAP_TAG, CAP_PERM and CAP_BOUNDS that applies. -/
def derive (c : Capv) (off len perm : Nat) : Except Cause Capv :=
  let base := c.base + off
  let top := base + len
  if c.tag = false then .error .capTag
  else if c.isSealed = true ∨ c.holds permDV = false ∨ perm &&& c.perm ≠ perm then .error .capPerm
  else if c.top < top then .error .capBounds
  else .ok (Capv.make true top base c.tid perm c.space false)

/-- CDER (R291). -/
def execCder (o : Sys2Proof.Cder) (s : State) : Answer :=
  s.capForm o.mark true (decide (o.d < 32) && decide (o.a < 32) && decide (o.b < 254)) (fun w =>
    match derive (s.kReg o.a) (s.sReg o.b) (s.sReg (o.b + 1)) (s.sReg (o.b + 2) % 4096) with
    | .error c => .error c
    | .ok v => .ok (s.setWaveK w o.d v))

/-- The restriction of CRES: permissions are only removed. -/
def restrict (c : Capv) (perms : Nat) : Except Cause Capv :=
  if c.tag = false then .error .capTag
  else if c.isSealed then .error .capPerm
  else .ok (Capv.make true c.top c.base c.tid (c.perm &&& perms) c.space false)

/-- CRES (R291). -/
def execCres (o : Sys2Proof.Cres) (s : State) : Answer :=
  s.capForm o.mark true (decide (o.d < 32) && decide (o.a < 32)) (fun w =>
    match restrict (s.kReg o.a) (o.perms % 4096) with
    | .error c => .error c
    | .ok v => .ok (s.setWaveK w o.d v))

/-- The conditions that R30 sets on a key for a capability. -/
def keyOk (key c : Capv) : Bool :=
  key.tag && !key.isSealed && key.holds permSU && key.base == key.top && key.tid == c.tid

/-- Sealing and opening (R30): every field but SEALED stays. -/
def sealWith (c key : Capv) (sld : Bool) : Except Cause Capv :=
  if c.tag = false then .error .capTag
  else if c.isSealed = sld ∨ keyOk key c = false then .error .capPerm
  else .ok (Capv.make true c.top c.base c.tid c.perm c.space sld)

/-- CSEAL (R30, R291). -/
def execCseal (o : Sys2Proof.Cseal) (s : State) : Answer :=
  s.capForm o.mark true (decide (o.d < 32) && decide (o.a < 32) && decide (o.k < 32)) (fun w =>
    match sealWith (s.kReg o.a) (s.kReg o.k) true with
    | .error c => .error c
    | .ok v => .ok (s.setWaveK w o.d v))

/-- CUNSEAL (R30, R291). -/
def execCunseal (o : Sys2Proof.Cseal) (s : State) : Answer :=
  s.capForm o.mark true (decide (o.d < 32) && decide (o.a < 32) && decide (o.k < 32)) (fun w =>
    match sealWith (s.kReg o.a) (s.kReg o.k) false with
    | .error c => .error c
    | .ok v => .ok (s.setWaveK w o.d v))

/-- CMOV (R291): bits and tag, sealed or not. -/
def execCmov (o : Sys2Proof.Cmov) (s : State) : Answer :=
  s.capForm o.mark true (decide (o.d < 32) && decide (o.a < 32)) (fun w =>
    .ok (s.setWaveK w o.d (s.kReg o.a)))

/-- CapField of R291. -/
def capField (c : Capv) (f : Nat) : Nat :=
  match f with
  | 0 => c.base
  | 1 => c.top
  | 2 => (c.top + (2 ^ 64 - c.base)) % 2 ^ 64
  | 3 => c.perm
  | 4 => c.space
  | 5 => c.tid
  | 6 => if c.isSealed then 1 else 0
  | 7 => if c.tag then 1 else 0
  | 8 => c.bits.toNat % 2 ^ 64
  | _ => c.bits.toNat / 2 ^ 64

/-- CGET (R291). -/
def execCget (o : Sys2Proof.Cget) (s : State) : Answer :=
  s.capForm o.mark true (decide (o.a < 32) && decide (o.f < 10)) (fun _ => .ok (s.setSReg o.d (capField (s.kReg o.a) o.f)))

/-- CGETN (R291): in every occupied lane. -/
def execCgetn (o : Sys2Proof.CgetN) (s : State) : Answer :=
  s.longWord
    { mark := o.mark, g := noGuard, legal := decide (o.a < 32) && decide (o.f < 10), reads := [], writes := [o.d] }
    (fun _ _ _ => [(o.d, capField (s.kReg o.a) o.f)])

/-- What CTEST tests (R291). -/
def capTest (c : Capv) (perms size : Nat) : Bool :=
  c.tag && !c.isSealed && perms &&& c.perm == perms && decide (c.base + size ≤ c.top)

/-- CTEST (R291). -/
def execCtest (o : Sys2Proof.Ctest) (s : State) : Answer :=
  s.capForm o.mark false (decide (o.a < 32)) (fun w =>
    .ok (s.setCc w (ccZ (s.wave w).cc (capTest (s.kReg o.a) (o.perms % 4096) (s.sReg o.b)))))

end Sys2Proof.Machine
end

