-- ==== Sys2Proof/Machine/Barrier.lean ====
section
/-! DEFINITION. Barrier objects (class 9; R128 to R143, R292 to R295): BINIT, BARR, BEXP, BWAIT and BTST by a wave or by
a sequencer, the sluice (R145), and the grid port. -/

namespace Sys2Proof.Machine

open Sys2Proof

/-! ### Reaching an object (R129, R292) -/

/-- The barrier object at an offset through a capability: the state and the place of its first byte, or the cause and the
address of the first failing byte. -/
def State.barrierAt (s : State) (e : Env) (spaces : List Nat) (c : Capv) (off n : Nat) :
    Except (State × Cause × Nat) (State × List (Nat × Nat)) :=
  match capCheck c spaces permBA with
  | some cause => .error (s, cause, c.base + off)
  | none =>
    match s.laneCheck e c off n n with
    | some x => .error (s, x)
    | none => s.capKeys e c .store off n

/-- The spaces of barrier objects for threads. -/
def barSpaces : List Nat := [1, 2]

/-- The scope of a barrier object, as a code of R92 (R129). -/
def barScope (space : Nat) (b : BarObj) : Nat :=
  if barKind b = 2 then (if bit b.flags 11 then 4 else 3) else if space = 1 then 1 else 2

/-- The wave's own writes to the homes of n bytes are performed before an operation on them (R109). -/
def State.flushBytes (s : State) (w a n : Nat) : State :=
  s.flushHomes w ((List.range n).foldl (fun l i => memberAdd l (homeOf (a + i))) [])

/-- An operation on an object by a wave (R129): after the wave's own writes to the words of the object, and performed at
its bank at once. -/
def State.waveBarrier (s : State) (w a : Nat) (f : BarObj → BarObj) : State :=
  let s1 := s.flushBytes w a 16
  let s2 := s1.barrierOp a f
  s2.setWave w { s2.wave w with maxw := max (s2.wave w).maxw s2.dt }

/-- An operation on an object by a sequencer (R299). -/
def State.seqBarrier (s : State) (k a : Nat) (f : BarObj → BarObj) : State :=
  let s1 := s.barrierOp a f
  s1.setSeq k { s1.seqOf k with maxw := max (s1.seqOf k).maxw s1.dt }

/-! ### BINIT (R293) -/

/-- KIND of an init word. -/
def initKind (v : Nat) : Nat := bits v 49 48

/-- Bytes of the object that an init word makes: a future has 32 (R136). -/
def initSize (v : Nat) : Nat := if initKind v = 1 then 32 else 16

/-- The object that an init word makes before the test of R130. -/
def initObj (v : Nat) : BarObj :=
  let arr := if initKind v = 1 then 1 else bits v 15 0
  let bytes := if initKind v = 1 then 0 else bits v 47 16
  { phase := 0, expArr := arr, pendArr := arr
    flags := initKind v * 16384 + bits v 50 50 * 4096 + bits v 51 51 * 2048 + bits v 55 52
    expBytes := bytes, pendBytes := bytes }

/-- A GRID init word names a grid barrier of the module (R293). -/
def initGridOk (m : Module) (v : Nat) : Bool := initKind v != 2 || m.barriers.any (fun b => b.gridid == bits v 55 52)

/-- Bytes 16 to 31 of a future written as zero. -/
def futureZero (a : Nat) : List (Nat × Byte × Byte) := wholeCells (a + 16) (List.replicate 16 0)

/-- A uniform barrier word of a wave: the checks of R292 once, with POISON where the object lost its data (R377). -/
def State.barIssue (s : State) (w : Nat) (o : Sys2Proof.Bar) (legal : Bool) (n : Nat)
    (body : State → Nat → State) : State :=
  s.unlessSpec w (
    s.capIssue w legal { ci := o.cap, spaces := barSpaces, mask := permBA, acc := .store, n := n, align := n } none
      (s.sReg o.a)
      (fun s0 ks =>
        let s1 := s0.flushBytes w (ks.headD (0, 0)).1 16
        if keysPoisoned s1.store (ks.take 16) then
          s1.takeTrap w (s.occupiedMask w) (TrapInfo.ofLanes ((s.occupied w).map (fun e =>
            (e.1, capLane .poison (s.kUse o.cap) o.cap ((s.kUse o.cap).base + s.sReg o.a)))))
        else body s1 (ks.headD (0, 0)).1))

/-- A barrier word of a sequencer: not inside a region (R314); a capability failure or a poisoned object is a sequencer fault
(R66, R322). -/
def State.seqBarIssue (s : State) (k cap off n : Nat) (body : State → Nat → State) : State :=
  s.outsideRegion k (
    match s.barrierAt (s.seqEnv k) [2] (s.kReg cap) off n with
    | .error (s1, c, _) => s1.seqFault k c
    | .ok (s1, ks) => if keysPoisoned s1.store (ks.take 16) then s1.seqFault k .poison else body s1 (ks.headD (0, 0)).1)

/-- What BINIT makes of an object: a GRID object whose local condition holds takes no operation in its phase (R140, R293). -/
def initOver (v : Nat) (shut : Bool) (b : BarObj) : BarObj := if shut then b else barTest (initObj v)

/-- BINIT of a future zeroes bytes 16 to 31 (R293). -/
def zeroesFuture (n : Nat) (shut : Bool) : Bool := n == 32 && !shut

/-- BINIT (R293). -/
def execBinit (o : Sys2Proof.Bar) (s : State) : Answer :=
  let v := s.sReg o.d
  let n := initSize v
  let ok := initGridOk s.agentMod v
  s.onAgent
    (fun w => s.barIssue w o ok n (fun s1 a =>
      s1.afterGate w (fun t =>
        let t0 := t.flushBytes w a n
        let shut := t0.gridShut a
        let t1 := if zeroesFuture n shut then t0.writeAtHome (some w) (futureZero a) none else t0
        (t1.waveBarrier w a (initOver v shut)).finish w o.mark)))
    (fun k =>
      if ok = false then s.seqFault k .illegalOperand
      else s.seqBarIssue k o.cap (s.sReg o.a) n (fun s1 a => s1.seqDrain k (s1.seqAfterGate k (fun t =>
        let shut := t.gridShut a
        let t1 := if zeroesFuture n shut then t.writeAtHome none (futureZero a) none else t
        (t1.seqBarrier k a (initOver v shut)).seqFinish k 1))))

/-! ### BARR and BEXP (R294) -/

/-- BARR (R294): one arrival for each active lane, a release at the barrier's scope; a sequencer makes exactly one. -/
def execBarr (o : Sys2Proof.Barr) (s : State) : Answer :=
  let c := s.kUse o.cap
  s.onAgent
    (fun w => s.unlessSpec w (
      s.memIssue w { mark := o.mark, g := o.g, legal := true, reads := [], writes := [] }
        { ci := o.cap, spaces := barSpaces, mask := permBA, acc := .store, n := 16, align := 16 } (fun _ _ => s.sReg o.a)
        (fun s0 am as =>
          match as with
          | [] => s0.finish w o.mark
          | x :: _ =>
            let a := (x.keys.headD (0, 0)).1
            let s1 := s0.flushBytes w a 16
            if keysPoisoned s1.store x.keys then
              s1.partialTrap w am (as.map (fun y => (y.lane, capLane .poison c o.cap (c.base + y.off))))
            else
              s1.afterGate w (fun t => t.afterRelease w (barScope c.space (t.store.barrier a))
                ((as.foldl (fun u _ => u.waveBarrier w a barArrive) t).finish w o.mark)))))
    (fun k => s.seqBarIssue k o.cap (s.sReg o.a) 16 (fun s1 a => s1.seqDrain k (s1.seqAfterGate k (fun t =>
      t.seqAfterRelease k (barScope c.space (t.store.barrier a)) ((t.seqBarrier k a barArrive).seqFinish k 1)))))

/-- BEXP (R294). -/
def execBexp (o : Sys2Proof.Bar) (s : State) : Answer :=
  let f := fun b => barAddBytes b (sInt 64 (s.sReg o.d))
  s.onAgent
    (fun w => s.barIssue w o true 16 (fun s1 a => s1.afterGate w (fun t => (t.waveBarrier w a f).finish w o.mark)))
    (fun k => s.seqBarIssue k o.cap (s.sReg o.a) 16 (fun s1 a =>
      s1.seqDrain k (s1.seqAfterGate k (fun t => (t.seqBarrier k a f).seqFinish k 1))))

/-! ### BWAIT and BTST (R133, R134, R295) -/

/-- STATUS that a completed wait reports: OK, or ERROR with ERR set (R134). -/
def barStatus (b : BarObj) : Nat := if barErr b then 1 else 0

/-- A wave parks in BWAIT; its watchdog count stops (R177). -/
def State.parkBwait (s : State) (w a q : Nat) (mark : Bool) : State :=
  let c := s.wdCount w
  let s1 := s.park w (.bwait a q (s.cycles (s.waveCluster w)) mark)
  s1.setWave w { s1.wave w with wdBase := c }

/-- A sequencer parks in BWAIT: the preamble ends (R298). -/
def State.seqParkBwait (s : State) (k a q : Nat) : State :=
  s.setSeq k { s.seqOf k with park := .bwait a q s.dt false, preamble := false }

/-- The CC of a sequencer with another STATUS. -/
def State.seqStatus (s : State) (k n : Nat) : State :=
  s.setSeq k { s.seqOf k with cc := (s.seqOf k).cc.withStatus n }

/-- BWAIT (R295); after the deadline a sequencer's returns DEADLINE at once (R301). -/
def execBwait (o : Sys2Proof.Bar) (s : State) : Answer :=
  let q := s.sReg o.d % 65536
  s.onAgent
    (fun w => s.barIssue w o true 16 (fun s1 a =>
      let s2 := s1.flushBytes w a 16
      let b := s2.store.barrier a
      if phaseReached b.phase q then (s2.setStatus w (barStatus b)).finish w o.mark else s2.parkBwait w a q o.mark))
    (fun k => s.seqBarIssue k o.cap (s.sReg o.a) 16 (fun s1 a =>
      let b := s1.store.barrier a
      if (s1.seqOf k).deadline then (s1.seqStatus k 2).seqFinish k 1
      else if phaseReached b.phase q then (s1.seqStatus k (barStatus b)).seqFinish k 1
      else s1.seqParkBwait k a q))

/-- STATUS of BTST: OK, ERROR, or PENDING. -/
def testStatus (b : BarObj) (q : Nat) : Nat := if phaseReached b.phase q then barStatus b else 8

/-- BTST (R295). -/
def execBtst (o : Sys2Proof.Bar) (s : State) : Answer :=
  let q := s.sReg o.d % 65536
  s.onAgent
    (fun w => s.barIssue w o true 16 (fun s1 a =>
      let s2 := s1.flushBytes w a 16
      (s2.setStatus w (testStatus (s2.store.barrier a) q)).finish w o.mark))
    (fun k => s.seqBarIssue k o.cap (s.sReg o.a) 16 (fun s1 a =>
      (s1.seqStatus k (testStatus (s1.store.barrier a) q)).seqFinish k 1))

/-! ### The sluice (R144, R145) -/

/-- The spacing of release steps in cycles of the cluster clock (R145). -/
def sluiceSpacing (estimate step limit : Nat) : Nat := ((step + 1) * estimate * 14 + (10 * limit - 1)) / (10 * limit)

/-- A released wave becomes ready: STATUS, and the word after its BWAIT; its watchdog count goes on (R145, R177, R295);
the barrier's edge orders it, which a wait left at its deadline has not (R99, R192). -/
def State.wakeWave (s : State) (w status : Nat) (mark : Bool) : State :=
  let s1 := s.setWave w { s.wave w with wdSince := s.coreCycles (s.waveCore w), readyAt := s.coreCycles (s.waveCore w), park := .run }
  ((if status = 2 then s1 else s1.orderRegs w).setStatus w status).finish w mark

/-- A wave that leaves the release queue. -/
def State.releaseWave (s : State) (w : Nat) : State :=
  match (s.wave w).park with
  | .queued _ _ st _ m => s.wakeWave w st m
  | _ => s

/-- SLUICE_RELEASE_STEP (R145): at most STEP + 1 waves, once the spacing has passed since the last step. -/
def execSluiceReleaseStep (k : Nat) (s : State) : Answer :=
  let c := s.cluster k
  let due := match c.sluiceAt with
    | none => true
    | some t => decide (t + sluiceSpacing c.cslrEstimate c.cslrStep c.cslrLimit ≤ s.cycles k)
  if c.relQ = [] ∨ due = false then .next s
  else
    let s1 := s.setCluster k { c with relQ := c.relQ.drop (c.cslrStep + 1), sluiceAt := some (s.cycles k) }
    .next ((c.relQ.take (c.cslrStep + 1)).foldl State.releaseWave s1)

/-! ### Grid barriers (R139 to R143) -/

/-- The declaration of a grid barrier in a crew's launch. -/
def State.gridDecl (s : State) (crew gid : Nat) : Option BarrierDecl :=
  (s.launch (s.crew crew).launch).mod_.barriers.find? (fun b => b.gridid == gid)

/-- Every chain that a crew kicked before its head number n has ended (R142). -/
def State.chainsSettled (s : State) (crew n : Nat) : Bool :=
  let core := (s.crew crew).core
  let mine := fun (c kick : Nat) => c == crew && decide (kick < n)
  let staged := fun (x : Spilled) => match x with
    | .task _ _ => false
    | .head _ _ h => mine h.crew h.kick
  (s.core core).channels.all (fun e =>
    e.2.heads.all (fun h => !mine h.crew h.kick) && e.2.cancelled.all (fun c => !mine c.crew c.kick)
    && (match e.2.chain with
      | none => true
      | some c => !mine c.crew c.kick))
  && (s.stagingOf (clusterOf core) (s.crew crew).launch).all (fun x => !staged x)
  && (s.launch (s.crew crew).launch).ring.all (fun x => !staged x)

/-- GRID_CREW_ARRIVAL_SEND (R140, R142): the local condition holds, and with SETTLE the chains kicked before it held have
ended; one arrival in each phase. -/
def execGridCrewArrivalSend (crew gid : Nat) (s : State) : Answer :=
  let c := s.crew crew
  match s.gridDecl crew gid, tabFind c.gridHeld gid with
  | some d, some n =>
    let b := s.store.barrier (s.gridPlace crew d)
    if c.ended = true ∨ c.killed = true ∨ c.gridSent.contains gid = true ∨ gridClosed b = false then .next s
    else if bit b.flags 12 = true ∧ s.chainsSettled crew n = false then .next s
    else
      let s1 := s.setCrew crew { c with gridSent := memberAdd c.gridSent gid }
      .next { s1 with sched := { s1.sched with gridPort := s1.sched.gridPort ++ [(crew, gid)] } }
  | _, _ => .next s

/-- A crew arrival counted at its instance (R140). -/
def State.countArrival (s : State) (crew gid : Nat) : State :=
  match s.gridDecl crew gid with
  | none => s
  | some d =>
    let l := (s.crew crew).launch
    let key := gridKey d (s.crew crew)
    let g := s.gridInst l key
    let s1 := s.setLaunch l { s.launch l with
      grids := tabPut (s.launch l).grids key { g with pending := g.pending - 1, arrived := memberAdd g.arrived crew } }
    s1.gridTest l key

/-- GRID_PORT_ARRIVAL (R140): the port counts its oldest arrival; while a take-over replays, arrivals wait (R435). -/
def execGridPortArrival (s : State) : Answer :=
  match s.sched.gridPort with
  | [] => .next s
  | (crew, gid) :: rest =>
    if s.sched.failed = true ∨ s.sched.replay = true then .next s
    else .next ({ s with sched := { s.sched with gridPort := rest } }.countArrival crew gid)

/-- A change of grid descriptors that has not been journaled is, as GRID (R370, R436). -/
def State.journalGrid (s : State) : State :=
  if s.sched.gridJrn then ({ s with sched := { s.sched with gridJrn := false } }.journal 8 0).jrnAdvance else s

/-- GRID_RELEASE_DELIVERY (R140): the three writes of R130 on the crew's object, after the journal's entry (R370). -/
def execGridReleaseDelivery (s : State) : Answer :=
  match s.sched.gridRel with
  | [] => .next s
  | (crew, gid) :: rest =>
    if s.jrnRoom 1 = false then .next s else
    let s0 := s.journalGrid
    let s1 := { s0 with sched := { s0.sched with gridRel := rest } }
    match s1.gridDecl crew gid with
    | none => .next s1
    | some d =>
      let c := s1.crew crew
      if c.ended = true ∨ c.killed = true then .next s1
      else
        let s2 := s1.setCrew crew { c with gridSent := memberDel c.gridSent gid, gridHeld := tabDel c.gridHeld gid }
        .next (s2.barrierOp (s2.gridPlace crew d) barRelease)

end Sys2Proof.Machine
end

