-- ==== Sys2Proof/Machine/Bits.lean ====
section
/-! DEFINITION. Bits, moves and conversions (class 3; R260 to R266). -/

namespace Sys2Proof.Machine

open Sys2Proof

/-- AND_VV (R260). -/
def execAndVV (o : Sys2Proof.VV) (s : State) : Answer :=
  s.typedVV o (intE o.nib) true false false
    (fun x y _ => x &&& y)

/-- AND_VS (R260). -/
def execAndVS (o : Sys2Proof.VS) (s : State) : Answer :=
  s.typedVS o (intE o.nib) true false false
    (fun x y _ => x &&& y)

/-- AND_VI (R260). -/
def execAndVI (o : Sys2Proof.VI) (s : State) : Answer :=
  s.typedVI o false false
    (fun x y _ => x &&& y)

/-- OR_VV (R260). -/
def execOrVV (o : Sys2Proof.VV) (s : State) : Answer :=
  s.typedVV o (intE o.nib) true false false
    (fun x y _ => x ||| y)

/-- OR_VS (R260). -/
def execOrVS (o : Sys2Proof.VS) (s : State) : Answer :=
  s.typedVS o (intE o.nib) true false false
    (fun x y _ => x ||| y)

/-- OR_VI (R260). -/
def execOrVI (o : Sys2Proof.VI) (s : State) : Answer :=
  s.typedVI o false false
    (fun x y _ => x ||| y)

/-- XOR_VV (R260). -/
def execXorVV (o : Sys2Proof.VV) (s : State) : Answer :=
  s.typedVV o (intE o.nib) true false false
    (fun x y _ => x ^^^ y)

/-- XOR_VS (R260). -/
def execXorVS (o : Sys2Proof.VS) (s : State) : Answer :=
  s.typedVS o (intE o.nib) true false false
    (fun x y _ => x ^^^ y)

/-- XOR_VI (R260). -/
def execXorVI (o : Sys2Proof.VI) (s : State) : Answer :=
  s.typedVI o false false
    (fun x y _ => x ^^^ y)

/-- ANDN_VV (R260). -/
def execAndnVV (o : Sys2Proof.VV) (s : State) : Answer :=
  s.typedVV o (intE o.nib) true false false
    (fun x y _ => x &&& notElem (4 * intE o.nib) y)

/-- ANDN_VS (R260). -/
def execAndnVS (o : Sys2Proof.VS) (s : State) : Answer :=
  s.typedVS o (intE o.nib) true false false
    (fun x y _ => x &&& notElem (4 * intE o.nib) y)

/-- ANDN_VI (R260). -/
def execAndnVI (o : Sys2Proof.VI) (s : State) : Answer :=
  s.typedVI o false false
    (fun x y _ => x &&& notElem (4 * intE o.nib) y)

/-- SHL_VV (R260). -/
def execShlVV (o : Sys2Proof.VV) (s : State) : Answer :=
  s.typedVV o (intE o.nib) true false false
    (fun x y _ => shlElem (4 * intE o.nib) x y)

/-- SHL_VS (R260). -/
def execShlVS (o : Sys2Proof.VS) (s : State) : Answer :=
  s.typedVS o (intE o.nib) true false false
    (fun x y _ => shlElem (4 * intE o.nib) x y)

/-- SHL_VI (R260). -/
def execShlVI (o : Sys2Proof.VI) (s : State) : Answer :=
  s.typedVI o false false
    (fun x y _ => shlElem (4 * intE o.nib) x y)

/-- SHR_VV (R260). -/
def execShrVV (o : Sys2Proof.VV) (s : State) : Answer :=
  s.typedVV o (intE o.nib) true false false
    (fun x y _ => shrElem (4 * intE o.nib) x y)

/-- SHR_VS (R260). -/
def execShrVS (o : Sys2Proof.VS) (s : State) : Answer :=
  s.typedVS o (intE o.nib) true false false
    (fun x y _ => shrElem (4 * intE o.nib) x y)

/-- SHR_VI (R260). -/
def execShrVI (o : Sys2Proof.VI) (s : State) : Answer :=
  s.typedVI o false false
    (fun x y _ => shrElem (4 * intE o.nib) x y)

/-- SHA_VV (R260). -/
def execShaVV (o : Sys2Proof.VV) (s : State) : Answer :=
  s.typedVV o (intE o.nib) true false false
    (fun x y _ => shaElem (4 * intE o.nib) x y)

/-- SHA_VS (R260). -/
def execShaVS (o : Sys2Proof.VS) (s : State) : Answer :=
  s.typedVS o (intE o.nib) true false false
    (fun x y _ => shaElem (4 * intE o.nib) x y)

/-- SHA_VI (R260). -/
def execShaVI (o : Sys2Proof.VI) (s : State) : Answer :=
  s.typedVI o false false
    (fun x y _ => shaElem (4 * intE o.nib) x y)

/-- ROT_VV (R260). -/
def execRotVV (o : Sys2Proof.VV) (s : State) : Answer :=
  s.typedVV o (intE o.nib) true false false
    (fun x y _ => rotElem (4 * intE o.nib) x y)

/-- ROT_VS (R260). -/
def execRotVS (o : Sys2Proof.VS) (s : State) : Answer :=
  s.typedVS o (intE o.nib) true false false
    (fun x y _ => rotElem (4 * intE o.nib) x y)

/-- ROT_VI (R260). -/
def execRotVI (o : Sys2Proof.VI) (s : State) : Answer :=
  s.typedVI o false false
    (fun x y _ => rotElem (4 * intE o.nib) x y)

/-- MOV_VV (R260). -/
def execMovVV (o : Sys2Proof.U1) (s : State) : Answer :=
  s.typedU o (intE o.nib) true false (fun x => x)

/-- MOV_VS (R260). -/
def execMovVS (o : Sys2Proof.US) (s : State) : Answer :=
  s.typedUS o (intE o.nib) true false (fun x => x)

/-- MOV_VI (R260). -/
def execMovVI (o : Sys2Proof.MI) (s : State) : Answer :=
  s.shortWord
    { mark := o.mark, g := o.g, legal := decide (o.d.width % intE o.nib = 0) && immOk o.ext o.d.width, reads := []
      writes := [o.d] }
    (fun _ _ _ => [(o.d, widenImm o.ext o.imm o.d.width)])

/-- NOT (R261). -/
def execNotB (o : Sys2Proof.U1) (s : State) : Answer :=
  s.typedU o (intE o.nib) true false (fun x => notElem (4 * intE o.nib) x)

/-- POPC (R261). -/
def execPopc (o : Sys2Proof.U1) (s : State) : Answer :=
  s.typedU o (intE o.nib) true false (fun x => popCount x (4 * intE o.nib))

/-- CLZ (R261). -/
def execClz (o : Sys2Proof.U1) (s : State) : Answer :=
  s.typedU o (intE o.nib) true false (fun x => clzElem (4 * intE o.nib) x)

/-- BREV (R261). -/
def execBrev (o : Sys2Proof.U1) (s : State) : Answer :=
  s.typedU o (intE o.nib) true false (fun x => revElem x 0 (4 * intE o.nib))

/-- The value of BFI: len bits of a put at pos into d (R262). -/
def bfiVal (d a pos len : Nat) : Nat :=
  d % 2 ^ pos + a % 2 ^ len * 2 ^ pos + d / 2 ^ (pos + len) * 2 ^ (pos + len)

/-- BFE (R262). -/
def execBfe (o : Sys2Proof.Bfld) (s : State) : Answer :=
  s.shortWord
    { mark := o.mark, g := o.g, legal := decide (o.pos + o.len ≤ 4 * o.a.width) && decide (o.len ≤ 4 * o.d.width)
      reads := [o.a], writes := [o.d] }
    (fun w _ t => [(o.d, s.opnd w t o.a / 2 ^ o.pos % 2 ^ o.len)])

/-- BFI (R262). -/
def execBfi (o : Sys2Proof.Bfld) (s : State) : Answer :=
  s.shortWord
    { mark := o.mark, g := o.g, legal := decide (o.pos + o.len ≤ 4 * o.d.width) && decide (o.len ≤ 4 * o.a.width)
      reads := [o.a, o.d], writes := [o.d] }
    (fun w _ t => [(o.d, bfiVal (s.opnd w t o.d 2) (s.opnd w t o.a) o.pos o.len)])

/-- ZIP (R263). -/
def execZip (o : Sys2Proof.Zip) (s : State) : Answer :=
  s.shortWord
    { mark := o.mark, g := o.g
      legal := decide (o.a.width = o.b.width) && decide (o.d.width = 2 * o.a.width) && decide (o.a.width % 2 ^ o.gc = 0)
      reads := [o.a, o.b], writes := [o.d] }
    (fun w _ t => [(o.d, zipVal (2 ^ o.gc) (o.a.width / 2 ^ o.gc) (s.opnd w t o.a) (s.opnd w t o.b 1))])

/-- UNZIP (R263). -/
def execUnzip (o : Sys2Proof.Unzip) (s : State) : Answer :=
  s.shortWord
    { mark := o.mark, g := o.g, legal := decide (o.d.width = o.a.width) && decide (o.a.width % (2 * 2 ^ o.gc) = 0)
      reads := [o.a], writes := [o.d] }
    (fun w _ t => [(o.d, unzipVal (2 ^ o.gc) (o.a.width / (2 * 2 ^ o.gc)) (s.opnd w t o.a))])

/-- Widths that give source and destination equal numbers of elements (R264). -/
def convOk (ws es wd ed : Nat) : Bool := decide (ws % es = 0) && decide (wd % ed = 0) && decide (ws / es = wd / ed)

/-- n converted elements, joined. -/
def convElems (es ed n v : Nat) (f : Nat → Nat) : Nat := joinElems ed ((elems es n v).map f)

/-- The exact value of an integer element (R264). -/
def intVal (n : Nat) (uns : Bool) (x : Nat) : FVal := .fin (decide (intOf n uns x < 0)) (intOf n uns x).natAbs 0

/-- The target format of CVTEF (R265). -/
def efFmt (f : Nat) : Fmt :=
  match f with
  | 0 => .e4m3
  | 1 => .e5m2
  | 2 => .f16
  | _ => .bf16

/-- The target format of CVTE8 (R266). -/
def e8Fmt (f : Nat) : Fmt := if f = 0 then .e4m3 else .e5m2

/-- One element of CVTE8: the value times 2^(127 - E), rounded once (R266). -/
def e8Elem (F : Fmt) (sat : Bool) (sc x : Nat) : Nat :=
  if sc = 255 then canonNan F else roundVal F .rne sat (mulVal (v32 x) (.fin false 1 (127 - (sc : Int))))

/-- CVT (R264): the modifier .sat acts where the conversion does not widen (R211). -/
def execCvt (o : Sys2Proof.Cvt) (s : State) : Answer :=
  let F := fmtOf o.src
  let T := fmtOf o.dst
  s.shortWord
    { mark := o.mark, g := o.g
      legal := decide (o.src < 6) && decide (o.dst < 6) && convOk o.a.width (fmtSlices F) o.d.width (fmtSlices T)
      reads := [o.a], writes := [o.d] }
    (fun w _ t => [(o.d, convElems (fmtSlices F) (fmtSlices T) (o.a.width / fmtSlices F) (s.opnd w t o.a)
      (fun x => roundVal T (rmodeOf o.mode) (o.sat && !widens F T) (valOf F x)))])

/-- CVTFI (R264). -/
def execCvtfi (o : Sys2Proof.CvtFI) (s : State) : Answer :=
  let F := fmtOf o.src
  s.shortWord
    { mark := o.mark, g := o.g, legal := decide (o.src < 6) && convOk o.a.width (fmtSlices F) o.d.width o.e
      reads := [o.a], writes := [o.d] }
    (fun w _ t => [(o.d, convElems (fmtSlices F) o.e (o.a.width / fmtSlices F) (s.opnd w t o.a)
      (fun x => toIntClamped (rmodeOf o.mode) o.uns (4 * o.e) (valOf F x)))])

/-- CVTIF (R264). -/
def execCvtif (o : Sys2Proof.CvtIF) (s : State) : Answer :=
  let T := fmtOf o.dst
  s.shortWord
    { mark := o.mark, g := o.g, legal := decide (o.dst < 6) && convOk o.a.width o.e o.d.width (fmtSlices T)
      reads := [o.a], writes := [o.d] }
    (fun w _ t => [(o.d, convElems o.e (fmtSlices T) (o.a.width / o.e) (s.opnd w t o.a)
      (fun x => roundVal T (rmodeOf o.mode) o.sat (intVal (4 * o.e) o.uns x)))])

/-- CVTEF (R265). -/
def execCvtef (o : Sys2Proof.CvtEF) (s : State) : Answer :=
  let F := efFmt o.f
  let n := o.a.width / 8
  s.shortWord
    { mark := o.mark, g := o.g
      legal := decide (o.a.width = o.r.width) && (o.a.width == 8 || o.a.width == 16) && decide (o.d.width = n * fmtSlices F)
        && !slcMeet o.d o.r
      reads := [o.a, o.r], writes := [o.d, o.r] }
    (fun w _ t =>
      let r := List.zipWith (fun x e => errorFeedback F x e) (elems 8 n (s.opnd w t o.a)) (elems 8 n (s.opnd w t o.r 1))
      [(o.d, joinElems (fmtSlices F) (r.map (fun p => p.1))), (o.r, joinElems 8 (r.map (fun p => p.2)))])

/-- CVTE8 (R266). -/
def execCvte8 (o : Sys2Proof.CvtE8) (s : State) : Answer :=
  let n := o.a.width / 8
  s.shortWord
    { mark := o.mark, g := o.g
      legal := (o.a.width == 8 || o.a.width == 16) && decide (o.d.width = 2 * n) && decide (o.s.width = 2)
      reads := [o.a, o.s], writes := [o.d] }
    (fun w _ t => [(o.d, convElems 8 2 n (s.opnd w t o.a) (e8Elem (e8Fmt o.f) o.sat (s.opnd w t o.s 1)))])


end Sys2Proof.Machine
end

