-- ==== Sys2Proof/Decode.lean ====
section
/-! DEFINITION. Decoding of R224 to R235: a total function from words to an instruction or the cause that
steps 1 and 2 of R234, and the guard rule of R229, give. Beside it the encoder. The limits of step 3 that
concern operands are tested by the meanings, which raise the same ILLEGAL_OPERAND (Machine/Operands.lean).

Some definitions are marked noncomputable for one reason only: Lean's compiled code cannot hold a value of a
type with more than 244 constructors that carry fields, and the opcode table has 407 rows. Lean's kernel
evaluates them as it evaluates any other definition. -/

namespace Sys2Proof

/-- The fields of the full format (R224). -/
structure Fields where
  mark : Bool
  pred : Nat
  neg : Bool
  dst : Nat
  a : Nat
  b : Nat
  ext : Nat
deriving DecidableEq, Repr

/-- One bit as a number. -/
def nb (b : Bool) : Nat := if b then 1 else 0

/-- The full-format word of class c, minor m and the fields f (R224). -/
def packFull (c m : Nat) (f : Fields) : Nat :=
  f.ext + 4 * (f.b + 16384 * (f.a + 16384 * (f.dst + 16384 *
    (nb f.neg + 2 * (f.pred + 128 * (m + 64 * (c + 16 * (2 * nb f.mark))))))))

/-- The fields of a full-format word (R224). -/
def unpackFull (w : Nat) : Fields :=
  { mark := bit w 63, pred := bits w 51 45, neg := bit w 44, dst := bits w 43 30
    a := bits w 29 16, b := bits w 15 2, ext := bits w 1 0 }

/-- The slice operand held by a 14-bit field (R225). -/
def slcOf (f : Nat) : Slc := { start := f / 16, width := f % 16 + 1 }

/-- The field of a slice operand (R225). -/
def slcField (s : Slc) : Nat := s.start * 16 + (s.width - 1)

/-- The guard of a per-lane form (R224). -/
def guardOf (f : Fields) : Guard := { pred := f.pred, neg := f.neg }

/-- The fields of a uniform form (R229): the guard is p0 without negation. -/
def uniFields (mark : Bool) (dst a b : Nat) : Fields :=
  { mark := mark, pred := 0, neg := false, dst := dst, a := a, b := b, ext := 0 }

/-- The fields of a per-lane form. -/
def laneFields (mark : Bool) (g : Guard) (dst a b ext : Nat) : Fields :=
  { mark := mark, pred := g.pred, neg := g.neg, dst := dst, a := a, b := b, ext := ext }

/-- The access descriptor of R279. -/
def accField (cap attr scope aux : Nat) : Nat := aux + 16 * (scope + 8 * (attr + 4 * cap))

/-- R279: with ATTR RLX the SCOPE field is defined as zero. -/
def accZeroOk (b : Nat) : Bool := !(bits b 8 7 == 0) || bits b 6 4 == 0

/-- A source predicate operand (R225). -/
def prdField (p : Nat) (n : Bool) : Nat := p + 128 * nb n

/-- The fields of form shape SReg that decode; none where a field defined as zero is not (R234 step 2). -/
def decSReg (f : Fields) : Option SReg :=
  if f.dst < 256 ∧ f.a < 256 ∧ f.b < 256 ∧ f.ext = 0 then
    some { mark := f.mark, d := f.dst, a := f.a, b := f.b }
  else none

/-- The fields that hold shape SReg. -/
def encSReg (o : SReg) : Fields := uniFields o.mark (o.d) (o.a) (o.b)

/-- The fields of form shape SImm that decode; none where a field defined as zero is not (R234 step 2). -/
def decSImm (f : Fields) : Option SImm :=
  if f.dst < 256 ∧ f.a < 256 ∧ f.ext = 0 then
    some { mark := f.mark, d := f.dst, a := f.a, imm := f.b }
  else none

/-- The fields that hold shape SImm. -/
def encSImm (o : SImm) : Fields := uniFields o.mark (o.d) (o.a) (o.imm)

/-- The fields of form shape ScmpR that decode; none where a field defined as zero is not (R234 step 2). -/
def decScmpR (f : Fields) : Option ScmpR :=
  if f.dst = 0 ∧ f.a < 256 ∧ f.b < 256 ∧ f.ext = 0 then
    some { mark := f.mark, a := f.a, b := f.b }
  else none

/-- The fields that hold shape ScmpR. -/
def encScmpR (o : ScmpR) : Fields := uniFields o.mark (0) (o.a) (o.b)

/-- The fields of form shape ScmpI that decode; none where a field defined as zero is not (R234 step 2). -/
def decScmpI (f : Fields) : Option ScmpI :=
  if f.dst = 0 ∧ f.a < 256 ∧ f.ext = 0 then
    some { mark := f.mark, a := f.a, imm := f.b }
  else none

/-- The fields that hold shape ScmpI. -/
def encScmpI (o : ScmpI) : Fields := uniFields o.mark (0) (o.a) (o.imm)

/-- The fields of form shape SmovR that decode; none where a field defined as zero is not (R234 step 2). -/
def decSmovR (f : Fields) : Option SmovR :=
  if f.dst < 256 ∧ f.a = 0 ∧ f.b < 256 ∧ f.ext = 0 then
    some { mark := f.mark, d := f.dst, b := f.b }
  else none

/-- The fields that hold shape SmovR. -/
def encSmovR (o : SmovR) : Fields := uniFields o.mark (o.d) (0) (o.b)

/-- The fields of form shape SmovI that decode; none where a field defined as zero is not (R234 step 2). -/
def decSmovI (f : Fields) : Option SmovI :=
  if f.dst < 256 ∧ f.a = 0 ∧ f.ext = 0 then
    some { mark := f.mark, d := f.dst, imm := f.b }
  else none

/-- The fields that hold shape SmovI. -/
def encSmovI (o : SmovI) : Fields := uniFields o.mark (o.d) (0) (o.imm)

/-- The fields of form shape S2 that decode; none where a field defined as zero is not (R234 step 2). -/
def decS2 (f : Fields) : Option S2 :=
  if f.dst < 256 ∧ f.a < 256 ∧ f.b = 0 ∧ f.ext = 0 then
    some { mark := f.mark, d := f.dst, a := f.a }
  else none

/-- The fields that hold shape S2. -/
def encS2 (o : S2) : Fields := uniFields o.mark (o.d) (o.a) (0)

/-- The fields of form shape Sget that decode; none where a field defined as zero is not (R234 step 2). -/
def decSget (f : Fields) : Option Sget :=
  if f.dst < 256 ∧ f.b < 32 ∧ f.ext = 0 then
    some { mark := f.mark, d := f.dst, a := slcOf f.a, lane := f.b }
  else none

/-- The fields that hold shape Sget. -/
def encSget (o : Sget) : Fields := uniFields o.mark (o.d) (slcField o.a) (o.lane)

/-- The fields of form shape VV that decode; none where a field defined as zero is not (R234 step 2). -/
def decVV (f : Fields) : Option VV :=
  some { mark := f.mark, g := guardOf f, d := slcOf f.dst, a := slcOf f.a, b := f.b / 16, nib := f.b % 16, ext := f.ext }

/-- The fields that hold shape VV. -/
def encVV (o : VV) : Fields := laneFields o.mark o.g (slcField o.d) (slcField o.a) (o.b * 16 + o.nib) (o.ext)

/-- The fields of form shape VS that decode; none where a field defined as zero is not (R234 step 2). -/
def decVS (f : Fields) : Option VS :=
  if f.b < 4096 then
    some { mark := f.mark, g := guardOf f, d := slcOf f.dst, a := slcOf f.a, s := f.b % 256, nib := f.b / 256, ext := f.ext }
  else none

/-- The fields that hold shape VS. -/
def encVS (o : VS) : Fields := laneFields o.mark o.g (slcField o.d) (slcField o.a) (o.s + 256 * o.nib) (o.ext)

/-- The fields of form shape VI that decode; none where a field defined as zero is not (R234 step 2). -/
def decVI (f : Fields) : Option VI :=
  some { mark := f.mark, g := guardOf f, d := slcOf f.dst, a := f.a / 16, nib := f.a % 16, imm := f.b, ext := f.ext }

/-- The fields that hold shape VI. -/
def encVI (o : VI) : Fields := laneFields o.mark o.g (slcField o.d) (o.a * 16 + o.nib) (o.imm) (o.ext)

/-- The fields of form shape U1 that decode; none where a field defined as zero is not (R234 step 2). -/
def decU1 (f : Fields) : Option U1 :=
  if f.b < 16 then
    some { mark := f.mark, g := guardOf f, d := slcOf f.dst, a := slcOf f.a, nib := f.b, ext := f.ext }
  else none

/-- The fields that hold shape U1. -/
def encU1 (o : U1) : Fields := laneFields o.mark o.g (slcField o.d) (slcField o.a) (o.nib) (o.ext)

/-- The fields of form shape US that decode; none where a field defined as zero is not (R234 step 2). -/
def decUS (f : Fields) : Option US :=
  if f.a = 0 ∧ f.b < 4096 then
    some { mark := f.mark, g := guardOf f, d := slcOf f.dst, s := f.b % 256, nib := f.b / 256, ext := f.ext }
  else none

/-- The fields that hold shape US. -/
def encUS (o : US) : Fields := laneFields o.mark o.g (slcField o.d) (0) (o.s + 256 * o.nib) (o.ext)

/-- The fields of form shape MI that decode; none where a field defined as zero is not (R234 step 2). -/
def decMI (f : Fields) : Option MI :=
  if f.a / 16 = f.dst / 16 then
    some { mark := f.mark, g := guardOf f, d := slcOf f.dst, nib := f.a % 16, imm := f.b, ext := f.ext }
  else none

/-- The fields that hold shape MI. -/
def encMI (o : MI) : Fields := laneFields o.mark o.g (slcField o.d) (o.d.start * 16 + o.nib) (o.imm) (o.ext)

/-- The fields of form shape Bfld that decode; none where a field defined as zero is not (R234 step 2). -/
def decBfld (f : Fields) : Option Bfld :=
  if f.b % 4 = 0 ∧ f.ext = 0 then
    some { mark := f.mark, g := guardOf f, d := slcOf f.dst, a := slcOf f.a, pos := f.b / 256, len := f.b / 4 % 64 + 1 }
  else none

/-- The fields that hold shape Bfld. -/
def encBfld (o : Bfld) : Fields := laneFields o.mark o.g (slcField o.d) (slcField o.a) (4 * (o.len - 1) + 256 * o.pos) (0)

/-- The fields of form shape Zip that decode; none where a field defined as zero is not (R234 step 2). -/
def decZip (f : Fields) : Option Zip :=
  some { mark := f.mark, g := guardOf f, d := slcOf f.dst, a := slcOf f.a, b := slcOf f.b, gc := f.ext }

/-- The fields that hold shape Zip. -/
def encZip (o : Zip) : Fields := laneFields o.mark o.g (slcField o.d) (slcField o.a) (slcField o.b) (o.gc)

/-- The fields of form shape Unzip that decode; none where a field defined as zero is not (R234 step 2). -/
def decUnzip (f : Fields) : Option Unzip :=
  if f.b = 0 then
    some { mark := f.mark, g := guardOf f, d := slcOf f.dst, a := slcOf f.a, gc := f.ext }
  else none

/-- The fields that hold shape Unzip. -/
def encUnzip (o : Unzip) : Fields := laneFields o.mark o.g (slcField o.d) (slcField o.a) (0) (o.gc)

/-- The fields of form shape Cvt that decode; none where a field defined as zero is not (R234 step 2). -/
def decCvt (f : Fields) : Option Cvt :=
  if f.b % 32 = 0 ∧ f.ext = 0 then
    some { mark := f.mark, g := guardOf f, d := slcOf f.dst, a := slcOf f.a, src := f.b / 2048, dst := f.b / 256 % 8, mode := f.b / 64 % 4, sat := f.b / 32 % 2 == 1 }
  else none

/-- The fields that hold shape Cvt. -/
def encCvt (o : Cvt) : Fields := laneFields o.mark o.g (slcField o.d) (slcField o.a) (32 * (nb o.sat + 2 * (o.mode + 4 * (o.dst + 8 * o.src)))) (0)

/-- The fields of form shape CvtFI that decode; none where a field defined as zero is not (R234 step 2). -/
def decCvtFI (f : Fields) : Option CvtFI :=
  if f.b % 16 = 0 ∧ f.ext = 0 then
    some { mark := f.mark, g := guardOf f, d := slcOf f.dst, a := slcOf f.a, src := f.b / 2048, e := f.b / 128 % 16 + 1, uns := f.b / 64 % 2 == 1, mode := f.b / 16 % 4 }
  else none

/-- The fields that hold shape CvtFI. -/
def encCvtFI (o : CvtFI) : Fields := laneFields o.mark o.g (slcField o.d) (slcField o.a) (16 * (o.mode + 4 * (nb o.uns + 2 * ((o.e - 1) + 16 * o.src)))) (0)

/-- The fields of form shape CvtIF that decode; none where a field defined as zero is not (R234 step 2). -/
def decCvtIF (f : Fields) : Option CvtIF :=
  if f.b % 8 = 0 ∧ f.ext = 0 then
    some { mark := f.mark, g := guardOf f, d := slcOf f.dst, a := slcOf f.a, e := f.b / 1024 + 1, uns := f.b / 512 % 2 == 1, dst := f.b / 64 % 8, mode := f.b / 16 % 4, sat := f.b / 8 % 2 == 1 }
  else none

/-- The fields that hold shape CvtIF. -/
def encCvtIF (o : CvtIF) : Fields := laneFields o.mark o.g (slcField o.d) (slcField o.a) (8 * (nb o.sat + 2 * (o.mode + 4 * (o.dst + 8 * (nb o.uns + 2 * (o.e - 1)))))) (0)

/-- The fields of form shape CvtEF that decode; none where a field defined as zero is not (R234 step 2). -/
def decCvtEF (f : Fields) : Option CvtEF :=
  some { mark := f.mark, g := guardOf f, d := slcOf f.dst, a := slcOf f.a, r := slcOf f.b, f := f.ext }

/-- The fields that hold shape CvtEF. -/
def encCvtEF (o : CvtEF) : Fields := laneFields o.mark o.g (slcField o.d) (slcField o.a) (slcField o.r) (o.f)

/-- The fields of form shape CvtE8 that decode; none where a field defined as zero is not (R234 step 2). -/
def decCvtE8 (f : Fields) : Option CvtE8 :=
  some { mark := f.mark, g := guardOf f, d := slcOf f.dst, a := slcOf f.a, s := slcOf f.b, f := f.ext % 2, sat := f.ext / 2 == 1 }

/-- The fields that hold shape CvtE8. -/
def encCvtE8 (o : CvtE8) : Fields := laneFields o.mark o.g (slcField o.d) (slcField o.a) (slcField o.s) (o.f + 2 * nb o.sat)

/-- The fields of form shape P3 that decode; none where a field defined as zero is not (R234 step 2). -/
def decP3 (f : Fields) : Option P3 :=
  if f.dst < 128 ∧ f.a < 256 ∧ f.b < 256 ∧ f.ext = 0 then
    some { mark := f.mark, g := guardOf f, d := f.dst, a := f.a % 128, an := f.a / 128 == 1, b := f.b % 128, bn := f.b / 128 == 1 }
  else none

/-- The fields that hold shape P3. -/
def encP3 (o : P3) : Fields := laneFields o.mark o.g (o.d) (prdField o.a o.an) (prdField o.b o.bn) (0)

/-- The fields of form shape P2 that decode; none where a field defined as zero is not (R234 step 2). -/
def decP2 (f : Fields) : Option P2 :=
  if f.dst < 128 ∧ f.a < 256 ∧ f.b = 0 ∧ f.ext = 0 then
    some { mark := f.mark, g := guardOf f, d := f.dst, a := f.a % 128, an := f.a / 128 == 1 }
  else none

/-- The fields that hold shape P2. -/
def encP2 (o : P2) : Fields := laneFields o.mark o.g (o.d) (prdField o.a o.an) (0) (0)

/-- The fields of form shape Pset that decode; none where a field defined as zero is not (R234 step 2). -/
def decPset (f : Fields) : Option Pset :=
  if f.dst < 128 ∧ f.a = 0 ∧ f.b < 2 ∧ f.ext = 0 then
    some { mark := f.mark, g := guardOf f, d := f.dst, v := f.b == 1 }
  else none

/-- The fields that hold shape Pset. -/
def encPset (o : Pset) : Fields := laneFields o.mark o.g (o.d) (0) (nb o.v) (0)

/-- The fields of form shape Pbit that decode; none where a field defined as zero is not (R234 step 2). -/
def decPbit (f : Fields) : Option Pbit :=
  if f.dst < 128 ∧ f.ext = 0 then
    some { mark := f.mark, g := guardOf f, d := f.dst, a := slcOf f.a, b := f.b }
  else none

/-- The fields that hold shape Pbit. -/
def encPbit (o : Pbit) : Fields := laneFields o.mark o.g (o.d) (slcField o.a) (o.b) (0)

/-- The fields of form shape Pton that decode; none where a field defined as zero is not (R234 step 2). -/
def decPton (f : Fields) : Option Pton :=
  if f.a < 256 ∧ f.b = 0 ∧ f.ext = 0 then
    some { mark := f.mark, g := guardOf f, d := slcOf f.dst, a := f.a % 128, an := f.a / 128 == 1 }
  else none

/-- The fields that hold shape Pton. -/
def encPton (o : Pton) : Fields := laneFields o.mark o.g (slcField o.d) (prdField o.a o.an) (0) (0)

/-- The fields of form shape CmpVV that decode; none where a field defined as zero is not (R234 step 2). -/
def decCmpVV (f : Fields) : Option CmpVV :=
  if f.dst / 128 % 2 = 0 ∧ f.ext = 0 then
    some { mark := f.mark, g := guardOf f, cond := f.dst / 2048, uns := f.dst / 1024 % 2 == 1, red := f.dst / 256 % 4, d := f.dst % 128, a := slcOf f.a, b := f.b / 16, nib := f.b % 16 }
  else none

/-- The fields that hold shape CmpVV. -/
def encCmpVV (o : CmpVV) : Fields := laneFields o.mark o.g (o.d + 256 * (o.red + 4 * (nb o.uns + 2 * o.cond))) (slcField o.a) (o.b * 16 + o.nib) (0)

/-- The fields of form shape CmpVS that decode; none where a field defined as zero is not (R234 step 2). -/
def decCmpVS (f : Fields) : Option CmpVS :=
  if f.dst / 128 % 2 = 0 ∧ f.b < 4096 then
    some { mark := f.mark, g := guardOf f, cond := f.dst / 2048, uns := f.dst / 1024 % 2 == 1, red := f.dst / 256 % 4, d := f.dst % 128, a := slcOf f.a, s := f.b % 256, nib := f.b / 256, ext := f.ext }
  else none

/-- The fields that hold shape CmpVS. -/
def encCmpVS (o : CmpVS) : Fields := laneFields o.mark o.g (o.d + 256 * (o.red + 4 * (nb o.uns + 2 * o.cond))) (slcField o.a) (o.s + 256 * o.nib) (o.ext)

/-- The fields of form shape CmpVI that decode; none where a field defined as zero is not (R234 step 2). -/
def decCmpVI (f : Fields) : Option CmpVI :=
  if f.dst / 128 % 2 = 0 then
    some { mark := f.mark, g := guardOf f, cond := f.dst / 2048, uns := f.dst / 1024 % 2 == 1, red := f.dst / 256 % 4, d := f.dst % 128, a := f.a / 16, nib := f.a % 16, imm := f.b, ext := f.ext }
  else none

/-- The fields that hold shape CmpVI. -/
def encCmpVI (o : CmpVI) : Fields := laneFields o.mark o.g (o.d + 256 * (o.red + 4 * (nb o.uns + 2 * o.cond))) (o.a * 16 + o.nib) (o.imm) (o.ext)

/-- The fields of form shape Shfl that decode; none where a field defined as zero is not (R234 step 2). -/
def decShfl (f : Fields) : Option Shfl :=
  if f.ext = 0 then
    some { mark := f.mark, g := guardOf f, d := slcOf f.dst, a := slcOf f.a, b := slcOf f.b }
  else none

/-- The fields that hold shape Shfl. -/
def encShfl (o : Shfl) : Fields := laneFields o.mark o.g (slcField o.d) (slcField o.a) (slcField o.b) (0)

/-- The fields of form shape ShflI that decode; none where a field defined as zero is not (R234 step 2). -/
def decShflI (f : Fields) : Option ShflI :=
  if f.b < 32 ∧ f.ext = 0 then
    some { mark := f.mark, g := guardOf f, d := slcOf f.dst, a := slcOf f.a, imm := f.b }
  else none

/-- The fields that hold shape ShflI. -/
def encShflI (o : ShflI) : Fields := laneFields o.mark o.g (slcField o.d) (slcField o.a) (o.imm) (0)

/-- The fields of form shape Red that decode; none where a field defined as zero is not (R234 step 2). -/
def decRed (f : Fields) : Option Red :=
  if f.b % 16 = 0 ∧ f.ext = 0 then
    some { mark := f.mark, g := guardOf f, d := slcOf f.dst, a := slcOf f.a, nib := f.b / 1024, flt := f.b / 512 % 2 == 1, op := f.b / 64 % 8, uns := f.b / 32 % 2 == 1, excl := f.b / 16 % 2 == 1 }
  else none

/-- The fields that hold shape Red. -/
def encRed (o : Red) : Fields := laneFields o.mark o.g (slcField o.d) (slcField o.a) (16 * (nb o.excl + 2 * (nb o.uns + 2 * (o.op + 8 * (nb o.flt + 2 * o.nib))))) (0)

/-- The fields of form shape Vote that decode; none where a field defined as zero is not (R234 step 2). -/
def decVote (f : Fields) : Option Vote :=
  if f.dst < 128 ∧ f.a < 256 ∧ f.b < 4 ∧ f.ext = 0 then
    some { mark := f.mark, g := guardOf f, d := f.dst, a := f.a % 128, an := f.a / 128 == 1, mode := f.b }
  else none

/-- The fields that hold shape Vote. -/
def encVote (o : Vote) : Fields := laneFields o.mark o.g (o.d) (prdField o.a o.an) (o.mode) (0)

/-- The fields of form shape Pgat that decode; none where a field defined as zero is not (R234 step 2). -/
def decPgat (f : Fields) : Option Pgat :=
  if f.dst < 256 ∧ f.a < 256 ∧ f.b = 0 ∧ f.ext = 0 then
    some { mark := f.mark, g := guardOf f, d := f.dst, a := f.a % 128, an := f.a / 128 == 1 }
  else none

/-- The fields that hold shape Pgat. -/
def encPgat (o : Pgat) : Fields := laneFields o.mark o.g (o.d) (prdField o.a o.an) (0) (0)

/-- The fields of form shape Next that decode; none where a field defined as zero is not (R234 step 2). -/
def decNext (f : Fields) : Option Next :=
  if f.dst = 0 ∧ f.b = 0 ∧ f.ext = 0 then
    some { mark := f.mark, a := slcOf f.a }
  else none

/-- The fields that hold shape Next. -/
def encNext (o : Next) : Fields := uniFields o.mark (0) (slcField o.a) (0)

/-- The fields of form shape S1 that decode; none where a field defined as zero is not (R234 step 2). -/
def decS1 (f : Fields) : Option S1 :=
  if f.dst = 0 ∧ f.a < 256 ∧ f.b = 0 ∧ f.ext = 0 then
    some { mark := f.mark, a := f.a }
  else none

/-- The fields that hold shape S1. -/
def encS1 (o : S1) : Fields := uniFields o.mark (0) (o.a) (0)

/-- The fields of form shape Meet that decode; none where a field defined as zero is not (R234 step 2). -/
def decMeet (f : Fields) : Option Meet :=
  if f.dst = 0 ∧ f.a = 0 ∧ f.b < 4096 ∧ f.ext = 0 then
    some { mark := f.mark, m := f.b }
  else none

/-- The fields that hold shape Meet. -/
def encMeet (o : Meet) : Fields := uniFields o.mark (0) (0) (o.m)

/-- The fields of form shape Jmp that decode; none where a field defined as zero is not (R234 step 2). -/
def decJmp (f : Fields) : Option Jmp :=
  if f.dst = 0 ∧ f.a = 0 ∧ f.ext = 0 then
    some { mark := f.mark, disp := f.b }
  else none

/-- The fields that hold shape Jmp. -/
def encJmp (o : Jmp) : Fields := uniFields o.mark (0) (0) (o.disp)

/-- The fields of form shape JmpS that decode; none where a field defined as zero is not (R234 step 2). -/
def decJmpS (f : Fields) : Option JmpS :=
  if f.dst = 0 ∧ f.a < 8 ∧ f.ext = 0 then
    some { mark := f.mark, sel := f.a, disp := f.b }
  else none

/-- The fields that hold shape JmpS. -/
def encJmpS (o : JmpS) : Fields := uniFields o.mark (0) (o.sel) (o.disp)

/-- The fields of form shape Lcset that decode; none where a field defined as zero is not (R234 step 2). -/
def decLcset (f : Fields) : Option Lcset :=
  if f.dst < 8 ∧ (if f.dst / 4 = 1 then f.a = 0 else f.b = 0 ∧ f.a < 256) ∧ f.ext = 0 then
    some { mark := f.mark, n := f.dst % 4, imm := f.dst / 4 == 1, v := if f.dst / 4 = 1 then f.b else f.a }
  else none

/-- The fields that hold shape Lcset. -/
def encLcset (o : Lcset) : Fields := uniFields o.mark (o.n + 4 * nb o.imm) (if o.imm then 0 else o.v) (if o.imm then o.v else 0)

/-- The fields of form shape Loop that decode; none where a field defined as zero is not (R234 step 2). -/
def decLoop (f : Fields) : Option Loop :=
  if f.dst < 4 ∧ f.a = 0 ∧ f.ext = 0 then
    some { mark := f.mark, n := f.dst, disp := f.b }
  else none

/-- The fields that hold shape Loop. -/
def encLoop (o : Loop) : Fields := uniFields o.mark (o.n) (0) (o.disp)

/-- The fields of form shape Mem that decode; none where a field defined as zero is not (R234 step 2). -/
def decMem (f : Fields) : Option Mem :=
  if accZeroOk f.b = true ∧ f.b / 8 % 2 = 0 ∧ f.ext = 0 then
    some { mark := f.mark, g := guardOf f, d := slcOf f.dst, a := slcOf f.a, cap := f.b / 512, attr := f.b / 128 % 4, scope := f.b / 16 % 8, sh := f.b % 8 }
  else none

/-- The fields that hold shape Mem. -/
def encMem (o : Mem) : Fields := laneFields o.mark o.g (slcField o.d) (slcField o.a) (accField o.cap o.attr o.scope o.sh) (0)

/-- The fields of form shape Cas that decode; none where a field defined as zero is not (R234 step 2). -/
def decCas (f : Fields) : Option Cas :=
  if accZeroOk f.b = true ∧ f.b % 16 = 0 ∧ f.ext = 0 then
    some { mark := f.mark, g := guardOf f, d := slcOf f.dst, a := slcOf f.a, cap := f.b / 512, attr := f.b / 128 % 4, scope := f.b / 16 % 8 }
  else none

/-- The fields that hold shape Cas. -/
def encCas (o : Cas) : Fields := laneFields o.mark o.g (slcField o.d) (slcField o.a) (accField o.cap o.attr o.scope 0) (0)

/-- The fields of form shape Pref that decode; none where a field defined as zero is not (R234 step 2). -/
def decPref (f : Fields) : Option Pref :=
  if f.dst < 2 ∧ f.b / 8 % 64 = 0 ∧ f.ext = 0 then
    some { mark := f.mark, g := guardOf f, lvl := f.dst, a := slcOf f.a, cap := f.b / 512, sh := f.b % 8 }
  else none

/-- The fields that hold shape Pref. -/
def encPref (o : Pref) : Fields := laneFields o.mark o.g (o.lvl) (slcField o.a) (accField o.cap 0 0 o.sh) (0)

/-- The fields of form shape Spill that decode; none where a field defined as zero is not (R234 step 2). -/
def decSpill (f : Fields) : Option Spill :=
  if f.dst % 16 = 0 ∧ f.a % 16 = 0 ∧ f.b / 256 % 2 = 0 ∧ f.ext = 0 then
    some { mark := f.mark, g := guardOf f, a := f.dst / 16, c := f.a / 16 + 1, cap := f.b / 512, s := f.b % 256 }
  else none

/-- The fields that hold shape Spill. -/
def encSpill (o : Spill) : Fields := laneFields o.mark o.g (o.a * 16) ((o.c - 1) * 16) (o.s + 512 * o.cap) (0)

/-- The fields of form shape Ldc that decode; none where a field defined as zero is not (R234 step 2). -/
def decLdc (f : Fields) : Option Ldc :=
  if f.dst < 256 ∧ f.a < 256 ∧ accZeroOk f.b = true ∧ f.b % 16 = 0 ∧ f.ext = 0 then
    some { mark := f.mark, d := f.dst, a := f.a, cap := f.b / 512, attr := f.b / 128 % 4, scope := f.b / 16 % 8 }
  else none

/-- The fields that hold shape Ldc. -/
def encLdc (o : Ldc) : Fields := uniFields o.mark (o.d) (o.a) (accField o.cap o.attr o.scope 0)

/-- The fields of form shape Adrn that decode; none where a field defined as zero is not (R234 step 2). -/
def decAdrn (f : Fields) : Option Adrn :=
  if f.dst < 4 ∧ f.b / 256 % 4 = 0 ∧ f.ext = 0 then
    some { mark := f.mark, g := guardOf f, vw := f.dst, a := slcOf f.a, f := f.b / 2048, sat := f.b / 1024 % 2 == 1, s := f.b % 256 }
  else none

/-- The fields that hold shape Adrn. -/
def encAdrn (o : Adrn) : Fields := laneFields o.mark o.g (o.vw) (slcField o.a) (o.s + 1024 * (nb o.sat + 2 * o.f)) (0)

/-- The fields of form shape Atm that decode; none where a field defined as zero is not (R234 step 2). -/
def decAtm (f : Fields) : Option Atm :=
  if accZeroOk f.b = true ∧ f.ext = 0 then
    some { mark := f.mark, g := guardOf f, d := slcOf f.dst, a := slcOf f.a, cap := f.b / 512, attr := f.b / 128 % 4, scope := f.b / 16 % 8, op := f.b % 16 }
  else none

/-- The fields that hold shape Atm. -/
def encAtm (o : Atm) : Fields := laneFields o.mark o.g (slcField o.d) (slcField o.a) (accField o.cap o.attr o.scope o.op) (0)

/-- The fields of form shape Fence that decode; none where a field defined as zero is not (R234 step 2). -/
def decFence (f : Fields) : Option Fence :=
  if f.dst = 0 ∧ f.a = 0 ∧ f.b / 512 = 0 ∧ accZeroOk f.b = true ∧ f.b % 16 = 0 ∧ f.ext = 0 then
    some { mark := f.mark, attr := f.b / 128 % 4, scope := f.b / 16 % 8 }
  else none

/-- The fields that hold shape Fence. -/
def encFence (o : Fence) : Fields := uniFields o.mark (0) (0) (accField 0 o.attr o.scope 0)

/-- The fields of form shape Iinv that decode; none where a field defined as zero is not (R234 step 2). -/
def decIinv (f : Fields) : Option Iinv :=
  if f.dst = 0 ∧ f.a = 0 ∧ f.b < 2 ∧ f.ext = 0 then
    some { mark := f.mark, reach := f.b }
  else none

/-- The fields that hold shape Iinv. -/
def encIinv (o : Iinv) : Fields := uniFields o.mark (0) (0) (o.reach)

/-- The fields of form shape Cder that decode; none where a field defined as zero is not (R234 step 2). -/
def decCder (f : Fields) : Option Cder :=
  if f.dst < 256 ∧ f.a < 256 ∧ f.b < 256 ∧ f.ext = 0 then
    some { mark := f.mark, d := f.dst, a := f.a, b := f.b }
  else none

/-- The fields that hold shape Cder. -/
def encCder (o : Cder) : Fields := uniFields o.mark (o.d) (o.a) (o.b)

/-- The fields of form shape Cres that decode; none where a field defined as zero is not (R234 step 2). -/
def decCres (f : Fields) : Option Cres :=
  if f.dst < 256 ∧ f.a < 256 ∧ f.b < 4096 ∧ f.ext = 0 then
    some { mark := f.mark, d := f.dst, a := f.a, perms := f.b }
  else none

/-- The fields that hold shape Cres. -/
def encCres (o : Cres) : Fields := uniFields o.mark (o.d) (o.a) (o.perms)

/-- The fields of form shape Cseal that decode; none where a field defined as zero is not (R234 step 2). -/
def decCseal (f : Fields) : Option Cseal :=
  if f.dst < 256 ∧ f.a < 256 ∧ f.b < 256 ∧ f.ext = 0 then
    some { mark := f.mark, d := f.dst, a := f.a, k := f.b }
  else none

/-- The fields that hold shape Cseal. -/
def encCseal (o : Cseal) : Fields := uniFields o.mark (o.d) (o.a) (o.k)

/-- The fields of form shape Cmov that decode; none where a field defined as zero is not (R234 step 2). -/
def decCmov (f : Fields) : Option Cmov :=
  if f.dst < 256 ∧ f.a < 256 ∧ f.b = 0 ∧ f.ext = 0 then
    some { mark := f.mark, d := f.dst, a := f.a }
  else none

/-- The fields that hold shape Cmov. -/
def encCmov (o : Cmov) : Fields := uniFields o.mark (o.d) (o.a) (0)

/-- The fields of form shape Cget that decode; none where a field defined as zero is not (R234 step 2). -/
def decCget (f : Fields) : Option Cget :=
  if f.dst < 256 ∧ f.a < 256 ∧ f.b < 16 ∧ f.ext = 0 then
    some { mark := f.mark, d := f.dst, a := f.a, f := f.b }
  else none

/-- The fields that hold shape Cget. -/
def encCget (o : Cget) : Fields := uniFields o.mark (o.d) (o.a) (o.f)

/-- The fields of form shape CgetN that decode; none where a field defined as zero is not (R234 step 2). -/
def decCgetN (f : Fields) : Option CgetN :=
  if f.a < 256 ∧ f.b < 16 ∧ f.ext = 0 then
    some { mark := f.mark, d := slcOf f.dst, a := f.a, f := f.b }
  else none

/-- The fields that hold shape CgetN. -/
def encCgetN (o : CgetN) : Fields := uniFields o.mark (slcField o.d) (o.a) (o.f)

/-- The fields of form shape Ctest that decode; none where a field defined as zero is not (R234 step 2). -/
def decCtest (f : Fields) : Option Ctest :=
  if f.dst < 4096 ∧ f.a < 256 ∧ f.b < 256 ∧ f.ext = 0 then
    some { mark := f.mark, perms := f.dst, a := f.a, b := f.b }
  else none

/-- The fields that hold shape Ctest. -/
def encCtest (o : Ctest) : Fields := uniFields o.mark (o.perms) (o.a) (o.b)

/-- The fields of form shape Bar that decode; none where a field defined as zero is not (R234 step 2). -/
def decBar (f : Fields) : Option Bar :=
  if f.dst < 256 ∧ f.a < 256 ∧ f.b % 512 = 0 ∧ f.ext = 0 then
    some { mark := f.mark, cap := f.b / 512, a := f.a, d := f.dst }
  else none

/-- The fields that hold shape Bar. -/
def encBar (o : Bar) : Fields := uniFields o.mark (o.d) (o.a) (512 * o.cap)

/-- The fields of form shape Barr that decode; none where a field defined as zero is not (R234 step 2). -/
def decBarr (f : Fields) : Option Barr :=
  if f.dst = 0 ∧ f.a < 256 ∧ f.b % 512 = 0 ∧ f.ext = 0 then
    some { mark := f.mark, g := guardOf f, cap := f.b / 512, a := f.a }
  else none

/-- The fields that hold shape Barr. -/
def encBarr (o : Barr) : Fields := laneFields o.mark o.g (0) (o.a) (512 * o.cap) (0)

/-- The fields of form shape Flk that decode; none where a field defined as zero is not (R234 step 2). -/
def decFlk (f : Fields) : Option Flk :=
  if f.dst < 4 ∧ f.a < 256 ∧ f.b % 512 = 0 ∧ f.ext = 0 then
    some { mark := f.mark, ch := f.dst, cap := f.b / 512, a := f.a }
  else none

/-- The fields that hold shape Flk. -/
def encFlk (o : Flk) : Fields := uniFields o.mark (o.ch) (o.a) (512 * o.cap)

/-- The fields of form shape Flq that decode; none where a field defined as zero is not (R234 step 2). -/
def decFlq (f : Fields) : Option Flq :=
  if f.dst < 256 ∧ f.a = 0 ∧ f.b < 4 ∧ f.ext = 0 then
    some { mark := f.mark, d := f.dst, ch := f.b }
  else none

/-- The fields that hold shape Flq. -/
def encFlq (o : Flq) : Fields := uniFields o.mark (o.d) (0) (o.ch)

/-- The fields of form shape Flc that decode; none where a field defined as zero is not (R234 step 2). -/
def decFlc (f : Fields) : Option Flc :=
  if f.dst < 4 ∧ f.a = 0 ∧ f.b = 0 ∧ f.ext = 0 then
    some { mark := f.mark, ch := f.dst }
  else none

/-- The fields that hold shape Flc. -/
def encFlc (o : Flc) : Fields := uniFields o.mark (o.ch) (0) (0)

/-- The fields of form shape Spawn that decode; none where a field defined as zero is not (R234 step 2). -/
def decSpawn (f : Fields) : Option Spawn :=
  if f.a % 16 = 0 ∧ f.b = 0 ∧ f.ext = 0 then
    some { mark := f.mark, g := guardOf f, d := slcOf f.dst, a := f.a / 16 }
  else none

/-- The fields that hold shape Spawn. -/
def encSpawn (o : Spawn) : Fields := laneFields o.mark o.g (slcField o.d) (o.a * 16) (0) (0)

/-- The fields of form shape Succ that decode; none where a field defined as zero is not (R234 step 2). -/
def decSucc (f : Fields) : Option Succ :=
  if f.b % 512 = 0 ∧ f.ext = 0 then
    some { mark := f.mark, g := guardOf f, cap := f.b / 512, a := slcOf f.a, v := slcOf f.dst }
  else none

/-- The fields that hold shape Succ. -/
def encSucc (o : Succ) : Fields := laneFields o.mark o.g (slcField o.v) (slcField o.a) (512 * o.cap) (0)

/-- The fields of form shape Launch that decode; none where a field defined as zero is not (R234 step 2). -/
def decLaunch (f : Fields) : Option Launch :=
  if f.dst = 0 ∧ f.a < 256 ∧ f.b % 512 = 0 ∧ f.ext = 0 then
    some { mark := f.mark, cap := f.b / 512, a := f.a }
  else none

/-- The fields that hold shape Launch. -/
def encLaunch (o : Launch) : Fields := uniFields o.mark (0) (o.a) (512 * o.cap)

/-- The fields of form shape Palloc that decode; none where a field defined as zero is not (R234 step 2). -/
def decPalloc (f : Fields) : Option Palloc :=
  if f.a = 0 ∧ f.b < 16 ∧ f.ext = 0 then
    some { mark := f.mark, g := guardOf f, d := slcOf f.dst, n := f.b }
  else none

/-- The fields that hold shape Palloc. -/
def encPalloc (o : Palloc) : Fields := laneFields o.mark o.g (slcField o.d) (0) (o.n) (0)

/-- The fields of form shape Pfree that decode; none where a field defined as zero is not (R234 step 2). -/
def decPfree (f : Fields) : Option Pfree :=
  if f.dst = 0 ∧ f.b < 16 ∧ f.ext = 0 then
    some { mark := f.mark, g := guardOf f, a := slcOf f.a, n := f.b }
  else none

/-- The fields that hold shape Pfree. -/
def encPfree (o : Pfree) : Fields := laneFields o.mark o.g (0) (slcField o.a) (o.n) (0)

/-- The fields of form shape Cput that decode; none where a field defined as zero is not (R234 step 2). -/
def decCput (f : Fields) : Option Cput :=
  if f.a % 2 = 0 ∧ f.b % 512 = 0 ∧ f.ext = 0 then
    some { mark := f.mark, g := guardOf f, c := f.a / 2 % 8, a := f.a / 16, cap := f.b / 512, f := slcOf f.dst }
  else none

/-- The fields that hold shape Cput. -/
def encCput (o : Cput) : Fields := laneFields o.mark o.g (slcField o.f) (2 * o.c + 16 * o.a) (512 * o.cap) (0)

/-- The fields of form shape Cflush that decode; none where a field defined as zero is not (R234 step 2). -/
def decCflush (f : Fields) : Option Cflush :=
  if f.dst = 0 ∧ f.a = 0 ∧ f.b < 8 ∧ f.ext = 0 then
    some { mark := f.mark, c := f.b }
  else none

/-- The fields that hold shape Cflush. -/
def encCflush (o : Cflush) : Fields := uniFields o.mark (0) (0) (o.c)

/-- The fields of form shape Eng that decode; none where a field defined as zero is not (R234 step 2). -/
def decEng (f : Fields) : Option Eng :=
  if f.dst < 256 ∧ f.a % 16 = 0 ∧ f.b % 512 = 0 ∧ f.ext = 0 then
    some { mark := f.mark, g := guardOf f, d := f.dst, q := f.a / 512, o := f.a / 16 % 32, f := f.b / 512 }
  else none

/-- The fields that hold shape Eng. -/
def encEng (o : Eng) : Fields := laneFields o.mark o.g (o.d) (16 * (o.o + 32 * o.q)) (512 * o.f) (0)

/-- The fields of form shape Mresv that decode; none where a field defined as zero is not (R234 step 2). -/
def decMresv (f : Fields) : Option Mresv :=
  if f.dst < 16 ∧ f.a < 256 ∧ f.b % 512 = 0 ∧ f.ext = 0 then
    some { mark := f.mark, slot := f.dst, cap := f.b / 512, b := f.a }
  else none

/-- The fields that hold shape Mresv. -/
def encMresv (o : Mresv) : Fields := uniFields o.mark (o.slot) (o.b) (512 * o.cap)

/-- The fields of form shape Mrels that decode; none where a field defined as zero is not (R234 step 2). -/
def decMrels (f : Fields) : Option Mrels :=
  if f.dst < 16 ∧ f.a = 0 ∧ f.b = 0 ∧ f.ext = 0 then
    some { mark := f.mark, slot := f.dst }
  else none

/-- The fields that hold shape Mrels. -/
def encMrels (o : Mrels) : Fields := uniFields o.mark (o.slot) (0) (0)

/-- The fields of form shape Mldb that decode; none where a field defined as zero is not (R234 step 2). -/
def decMldb (f : Fields) : Option Mldb :=
  if f.dst < 256 ∧ f.a < 256 ∧ f.b / 4 % 128 = 0 ∧ f.b % 4 < 3 ∧ f.ext = 0 then
    some { mark := f.mark, d := f.dst, a := f.a, cap := f.b / 512, fmt := f.b % 4 }
  else none

/-- The fields that hold shape Mldb. -/
def encMldb (o : Mldb) : Fields := uniFields o.mark (o.d) (o.a) (o.fmt + 512 * o.cap)

/-- The fields of form shape Mma that decode; none where a field defined as zero is not (R234 step 2). -/
def decMma (f : Fields) : Option Mma :=
  if f.dst = 0 ∧ f.a < 256 ∧ f.b < 2 ∧ f.ext = 0 then
    some { mark := f.mark, a := f.a, ln := f.b == 1 }
  else none

/-- The fields that hold shape Mma. -/
def encMma (o : Mma) : Fields := uniFields o.mark (0) (o.a) (nb o.ln)

/-- The fields of form shape Lnset that decode; none where a field defined as zero is not (R234 step 2). -/
def decLnset (f : Fields) : Option Lnset :=
  if f.dst < 4 ∧ f.a < 256 ∧ f.b = 0 ∧ f.ext = 0 then
    some { mark := f.mark, lvl := f.dst, a := f.a }
  else none

/-- The fields that hold shape Lnset. -/
def encLnset (o : Lnset) : Fields := uniFields o.mark (o.lvl) (o.a) (0)

/-- The fields of form shape Lncoef that decode; none where a field defined as zero is not (R234 step 2). -/
def decLncoef (f : Fields) : Option Lncoef :=
  if f.dst < 16 ∧ f.a < 256 ∧ f.b = 0 ∧ f.ext = 0 then
    some { mark := f.mark, c := f.dst / 4, lvl := f.dst % 4, a := f.a }
  else none

/-- The fields that hold shape Lncoef. -/
def encLncoef (o : Lncoef) : Fields := uniFields o.mark (o.lvl + 4 * o.c) (o.a) (0)

/-- The fields of form shape Ctake that decode; none where a field defined as zero is not (R234 step 2). -/
def decCtake (f : Fields) : Option Ctake :=
  if f.dst < 256 ∧ f.a < 256 ∧ f.b < 128 ∧ f.ext = 0 then
    some { mark := f.mark, d := f.dst, c := f.b / 16, slot := f.b % 16, a := f.a }
  else none

/-- The fields that hold shape Ctake. -/
def encCtake (o : Ctake) : Fields := uniFields o.mark (o.d) (o.a) (o.slot + 16 * o.c)

/-- The fields of form shape CtakeArm that decode; none where a field defined as zero is not (R234 step 2). -/
def decCtakeArm (f : Fields) : Option CtakeArm :=
  if f.dst = 0 ∧ f.a < 256 ∧ f.b / 128 % 4 = 2 ∧ f.b % 16 = 0 ∧ f.ext = 0 then
    some { mark := f.mark, c := f.b / 16 % 8, cap := f.b / 512, a := f.a }
  else none

/-- The fields that hold shape CtakeArm. -/
def encCtakeArm (o : CtakeArm) : Fields := uniFields o.mark (0) (o.a) (16 * o.c + 256 + 512 * o.cap)

/-- The fields of form shape Cgive that decode; none where a field defined as zero is not (R234 step 2). -/
def decCgive (f : Fields) : Option Cgive :=
  if f.dst = 0 ∧ f.a < 256 ∧ f.b % 16 = 0 ∧ f.b < 128 ∧ f.ext = 0 then
    some { mark := f.mark, c := f.b / 16, a := f.a }
  else none

/-- The fields that hold shape Cgive. -/
def encCgive (o : Cgive) : Fields := uniFields o.mark (0) (o.a) (16 * o.c)

/-- The fields of form shape SrdS that decode; none where a field defined as zero is not (R234 step 2). -/
def decSrdS (f : Fields) : Option SrdS :=
  if f.dst < 256 ∧ f.a = 0 ∧ f.b < 4096 ∧ f.ext = 0 then
    some { mark := f.mark, d := f.dst, reg := f.b }
  else none

/-- The fields that hold shape SrdS. -/
def encSrdS (o : SrdS) : Fields := uniFields o.mark (o.d) (0) (o.reg)

/-- The fields of form shape SrdN that decode; none where a field defined as zero is not (R234 step 2). -/
def decSrdN (f : Fields) : Option SrdN :=
  if f.a = 1 ∧ f.b < 4096 ∧ f.ext = 0 then
    some { mark := f.mark, d := slcOf f.dst, reg := f.b }
  else none

/-- The fields that hold shape SrdN. -/
def encSrdN (o : SrdN) : Fields := uniFields o.mark (slcField o.d) (1) (o.reg)

/-- The fields of form shape Swr that decode; none where a field defined as zero is not (R234 step 2). -/
def decSwr (f : Fields) : Option Swr :=
  if f.dst = 0 ∧ f.a < 256 ∧ f.b < 4096 ∧ f.ext = 0 then
    some { mark := f.mark, reg := f.b, a := f.a }
  else none

/-- The fields that hold shape Swr. -/
def encSwr (o : Swr) : Fields := uniFields o.mark (0) (o.a) (o.reg)

/-- The fields of form shape Trap that decode; none where a field defined as zero is not (R234 step 2). -/
def decTrap (f : Fields) : Option Trap :=
  if f.dst = 0 ∧ f.a < 8 ∧ f.ext = 0 then
    some { mark := f.mark, sel := f.a, code := f.b }
  else none

/-- The fields that hold shape Trap. -/
def encTrap (o : Trap) : Fields := uniFields o.mark (0) (o.sel) (o.code)

/-- The fields of form shape Code that decode; none where a field defined as zero is not (R234 step 2). -/
def decCode (f : Fields) : Option Code :=
  if f.dst = 0 ∧ f.a = 0 ∧ f.ext = 0 then
    some { mark := f.mark, code := f.b }
  else none

/-- The fields that hold shape Code. -/
def encCode (o : Code) : Fields := uniFields o.mark (0) (0) (o.code)

/-- The fields of form shape Rquota that decode; none where a field defined as zero is not (R234 step 2). -/
def decRquota (f : Fields) : Option Rquota :=
  if f.dst < 256 ∧ f.a < 256 ∧ f.b < 32 ∧ f.ext = 0 then
    some { mark := f.mark, d := f.dst, a := f.a, q := f.b }
  else none

/-- The fields that hold shape Rquota. -/
def encRquota (o : Rquota) : Fields := uniFields o.mark (o.d) (o.a) (o.q)

/-- The fields of form shape Lit that decode; none where a field defined as zero is not (R234 step 2). -/
def decLit (f : Fields) : Option Lit :=
  if f.dst < 256 ∧ f.a = 0 ∧ f.b = 0 ∧ f.ext = 0 then
    some { mark := f.mark, d := f.dst, v := 0 }
  else none

/-- The fields that hold shape Lit. -/
def encLit (o : Lit) : Fields := uniFields o.mark (o.d) (0) (0)

/-- A form with every operand field equal to a constant (EXIT, NOP, TRET and others): only the marker varies. -/
def decNul (k : Nat) (f : Fields) : Option Nul :=
  if f.dst = 0 ∧ f.a = 0 ∧ f.b = k ∧ f.ext = 0 then some { mark := f.mark } else none

/-- The fields of a form with constant operand fields. -/
def encNul (k : Nat) (o : Nul) : Fields := uniFields o.mark 0 0 k

/-- FENCE.S (R289); its ATTR is tested apart, since a value other than AR is ILLEGAL_OPERAND. -/
def decFenceS (f : Fields) : Option FenceS :=
  if f.dst = 0 ∧ f.a = 0 ∧ f.b / 512 = 0 ∧ accZeroOk f.b = true ∧ f.b % 16 = 0 ∧ f.ext = 0 then
    some { mark := f.mark, scope := f.b / 16 % 8 }
  else none

/-- The fields of FENCE.S (R289). -/
def encFenceS (o : FenceS) : Fields := uniFields o.mark 0 0 (accField 0 3 o.scope 0)

/-- Step 2 of R234 for a per-lane form. -/
def guarded {α : Type} (o : Option α) (k : α → Instr) : Except Cause Instr :=
  match o with
  | none => .error .illegalOpcode
  | some x => .ok (k x)

/-- Step 2 of R234 and the guard rule of R229 for a uniform form. -/
def uniform {α : Type} (f : Fields) (o : Option α) (k : α → Instr) : Except Cause Instr :=
  match o with
  | none => .error .illegalOpcode
  | some x => if f.pred = 0 ∧ f.neg = false then .ok (k x) else .error .illegalOperand

/-- Class 0 of R233, by minor code. -/
def decClass0 (f : Fields) (m : Nat) : Except Cause Instr :=
  match m with
  | 0 => uniform f (decSReg f) .saddReg
  | 1 => uniform f (decSImm f) .saddImm
  | 2 => uniform f (decSReg f) .ssubReg
  | 3 => uniform f (decSImm f) .ssubImm
  | 4 => uniform f (decSReg f) .smulReg
  | 5 => uniform f (decSImm f) .smulImm
  | 6 => uniform f (decSReg f) .smulhReg
  | 7 => uniform f (decSImm f) .smulhImm
  | 8 => uniform f (decSReg f) .smulhuReg
  | 9 => uniform f (decSImm f) .smulhuImm
  | 10 => uniform f (decSReg f) .sdivReg
  | 11 => uniform f (decSImm f) .sdivImm
  | 12 => uniform f (decSReg f) .sdivuReg
  | 13 => uniform f (decSImm f) .sdivuImm
  | 14 => uniform f (decSReg f) .sremReg
  | 15 => uniform f (decSImm f) .sremImm
  | 16 => uniform f (decSReg f) .sremuReg
  | 17 => uniform f (decSImm f) .sremuImm
  | 18 => uniform f (decSReg f) .sandReg
  | 19 => uniform f (decSImm f) .sandImm
  | 20 => uniform f (decSReg f) .sorReg
  | 21 => uniform f (decSImm f) .sorImm
  | 22 => uniform f (decSReg f) .sxorReg
  | 23 => uniform f (decSImm f) .sxorImm
  | 24 => uniform f (decSReg f) .sshlReg
  | 25 => uniform f (decSImm f) .sshlImm
  | 26 => uniform f (decSReg f) .sshrReg
  | 27 => uniform f (decSImm f) .sshrImm
  | 28 => uniform f (decSReg f) .sshaReg
  | 29 => uniform f (decSImm f) .sshaImm
  | 30 => uniform f (decSReg f) .sminReg
  | 31 => uniform f (decSImm f) .sminImm
  | 32 => uniform f (decSReg f) .sminuReg
  | 33 => uniform f (decSImm f) .sminuImm
  | 34 => uniform f (decSReg f) .smaxReg
  | 35 => uniform f (decSImm f) .smaxImm
  | 36 => uniform f (decSReg f) .smaxuReg
  | 37 => uniform f (decSImm f) .smaxuImm
  | 38 => uniform f (decScmpR f) .scmpReg
  | 39 => uniform f (decScmpI f) .scmpImm
  | 40 => uniform f (decSmovR f) .smovReg
  | 41 => uniform f (decSmovI f) .smovImm
  | 48 => uniform f (decS2 f) .spopc
  | 49 => uniform f (decS2 f) .sclz
  | 50 => uniform f (decSget f) .sget
  | _ => .error .illegalOpcode

/-- Class 1 of R233, by minor code. -/
def decClass1 (f : Fields) (m : Nat) : Except Cause Instr :=
  match m with
  | 0 => guarded (decVV f) .addVV
  | 1 => guarded (decVS f) .addVS
  | 2 => guarded (decVI f) .addVI
  | 3 => guarded (decVV f) .subVV
  | 4 => guarded (decVS f) .subVS
  | 5 => guarded (decVI f) .subVI
  | 6 => guarded (decVV f) .mulVV
  | 7 => guarded (decVS f) .mulVS
  | 8 => guarded (decVI f) .mulVI
  | 9 => guarded (decVV f) .madVV
  | 10 => guarded (decVS f) .madVS
  | 11 => guarded (decVI f) .madVI
  | 12 => guarded (decVV f) .addSatIVV
  | 13 => guarded (decVS f) .addSatIVS
  | 14 => guarded (decVI f) .addSatIVI
  | 15 => guarded (decVV f) .addSatBVV
  | 16 => guarded (decVS f) .addSatBVS
  | 17 => guarded (decVI f) .addSatBVI
  | 18 => guarded (decVV f) .subSatIVV
  | 19 => guarded (decVS f) .subSatIVS
  | 20 => guarded (decVI f) .subSatIVI
  | 21 => guarded (decVV f) .subSatBVV
  | 22 => guarded (decVS f) .subSatBVS
  | 23 => guarded (decVI f) .subSatBVI
  | 24 => guarded (decVV f) .mulhIVV
  | 25 => guarded (decVS f) .mulhIVS
  | 26 => guarded (decVI f) .mulhIVI
  | 27 => guarded (decVV f) .mulhBVV
  | 28 => guarded (decVS f) .mulhBVS
  | 29 => guarded (decVI f) .mulhBVI
  | 30 => guarded (decVV f) .divIVV
  | 31 => guarded (decVS f) .divIVS
  | 32 => guarded (decVI f) .divIVI
  | 33 => guarded (decVV f) .divBVV
  | 34 => guarded (decVS f) .divBVS
  | 35 => guarded (decVI f) .divBVI
  | 36 => guarded (decVV f) .remIVV
  | 37 => guarded (decVS f) .remIVS
  | 38 => guarded (decVI f) .remIVI
  | 39 => guarded (decVV f) .remBVV
  | 40 => guarded (decVS f) .remBVS
  | 41 => guarded (decVI f) .remBVI
  | 42 => guarded (decVV f) .minIVV
  | 43 => guarded (decVS f) .minIVS
  | 44 => guarded (decVI f) .minIVI
  | 45 => guarded (decVV f) .minBVV
  | 46 => guarded (decVS f) .minBVS
  | 47 => guarded (decVI f) .minBVI
  | 48 => guarded (decVV f) .maxIVV
  | 49 => guarded (decVS f) .maxIVS
  | 50 => guarded (decVI f) .maxIVI
  | 51 => guarded (decVV f) .maxBVV
  | 52 => guarded (decVS f) .maxBVS
  | 53 => guarded (decVI f) .maxBVI
  | 54 => guarded (decU1 f) .abs
  | 55 => guarded (decU1 f) .neg
  | 56 => guarded (decVV f) .absdI
  | 57 => guarded (decVV f) .absdB
  | _ => .error .illegalOpcode

/-- Class 2 of R233, by minor code. -/
def decClass2 (f : Fields) (m : Nat) : Except Cause Instr :=
  match m with
  | 0 => guarded (decVV f) .faddVV
  | 1 => guarded (decVS f) .faddVS
  | 2 => guarded (decVV f) .fsubVV
  | 3 => guarded (decVS f) .fsubVS
  | 4 => guarded (decVV f) .fmulVV
  | 5 => guarded (decVS f) .fmulVS
  | 6 => guarded (decVV f) .fmaVV
  | 7 => guarded (decVS f) .fmaVS
  | 8 => guarded (decVV f) .fminVV
  | 9 => guarded (decVS f) .fminVS
  | 10 => guarded (decVV f) .fmaxVV
  | 11 => guarded (decVS f) .fmaxVS
  | 12 => guarded (decVV f) .fdivVV
  | 13 => guarded (decVS f) .fdivVS
  | 14 => guarded (decU1 f) .frcpVV
  | 15 => guarded (decUS f) .frcpVS
  | 16 => guarded (decU1 f) .frsqVV
  | 17 => guarded (decUS f) .frsqVS
  | 18 => guarded (decU1 f) .fex2VV
  | 19 => guarded (decUS f) .fex2VS
  | 20 => guarded (decU1 f) .flg2VV
  | 21 => guarded (decUS f) .flg2VS
  | 22 => guarded (decU1 f) .fsinVV
  | 23 => guarded (decUS f) .fsinVS
  | 24 => guarded (decU1 f) .fcosVV
  | 25 => guarded (decUS f) .fcosVS
  | 26 => guarded (decU1 f) .fabsVV
  | 27 => guarded (decUS f) .fabsVS
  | 28 => guarded (decU1 f) .fnegVV
  | 29 => guarded (decUS f) .fnegVS
  | 30 => guarded (decU1 f) .frintVV
  | 31 => guarded (decUS f) .frintVS
  | 32 => guarded (decU1 f) .fclassVV
  | 33 => guarded (decUS f) .fclassVS
  | _ => .error .illegalOpcode

/-- Class 3 of R233, by minor code. -/
def decClass3 (f : Fields) (m : Nat) : Except Cause Instr :=
  match m with
  | 0 => guarded (decVV f) .andVV
  | 1 => guarded (decVS f) .andVS
  | 2 => guarded (decVI f) .andVI
  | 3 => guarded (decVV f) .orVV
  | 4 => guarded (decVS f) .orVS
  | 5 => guarded (decVI f) .orVI
  | 6 => guarded (decVV f) .xorVV
  | 7 => guarded (decVS f) .xorVS
  | 8 => guarded (decVI f) .xorVI
  | 9 => guarded (decVV f) .andnVV
  | 10 => guarded (decVS f) .andnVS
  | 11 => guarded (decVI f) .andnVI
  | 12 => guarded (decVV f) .shlVV
  | 13 => guarded (decVS f) .shlVS
  | 14 => guarded (decVI f) .shlVI
  | 15 => guarded (decVV f) .shrVV
  | 16 => guarded (decVS f) .shrVS
  | 17 => guarded (decVI f) .shrVI
  | 18 => guarded (decVV f) .shaVV
  | 19 => guarded (decVS f) .shaVS
  | 20 => guarded (decVI f) .shaVI
  | 21 => guarded (decVV f) .rotVV
  | 22 => guarded (decVS f) .rotVS
  | 23 => guarded (decVI f) .rotVI
  | 24 => guarded (decU1 f) .movVV
  | 25 => guarded (decUS f) .movVS
  | 26 => guarded (decMI f) .movVI
  | 27 => guarded (decU1 f) .notB
  | 28 => guarded (decU1 f) .popc
  | 29 => guarded (decU1 f) .clz
  | 30 => guarded (decU1 f) .brev
  | 31 => guarded (decBfld f) .bfe
  | 32 => guarded (decBfld f) .bfi
  | 33 => guarded (decZip f) .zip
  | 34 => guarded (decUnzip f) .unzip
  | 40 => guarded (decCvt f) .cvt
  | 41 => guarded (decCvtFI f) .cvtfi
  | 42 => guarded (decCvtIF f) .cvtif
  | 43 => guarded (decCvtEF f) .cvtef
  | 44 => guarded (decCvtE8 f) .cvte8
  | _ => .error .illegalOpcode

/-- Class 4 of R233, by minor code. -/
def decClass4 (f : Fields) (m : Nat) : Except Cause Instr :=
  match m with
  | 0 => guarded (decP3 f) .pand
  | 1 => guarded (decP3 f) .por
  | 2 => guarded (decP3 f) .pxor
  | 3 => guarded (decP3 f) .pandn
  | 4 => guarded (decP2 f) .pnot
  | 5 => guarded (decPset f) .pset
  | 6 => guarded (decPbit f) .pbit
  | 7 => guarded (decPton f) .pton
  | 8 => guarded (decCmpVV f) .cmpVV
  | 9 => guarded (decCmpVS f) .cmpVS
  | 10 => guarded (decCmpVI f) .cmpVI
  | 11 => guarded (decCmpVV f) .fcmpVV
  | 12 => guarded (decCmpVS f) .fcmpVS
  | 16 => guarded (decShfl f) .shfl
  | 17 => guarded (decShflI f) .shflx
  | 18 => guarded (decShflI f) .bcast
  | 19 => guarded (decRed f) .reduce
  | 20 => guarded (decRed f) .scan
  | 21 => guarded (decVote f) .vote
  | 22 => guarded (decPgat f) .ballot
  | 23 => guarded (decPgat f) .pfirst
  | 24 => guarded (decPgat f) .pcount
  | _ => .error .illegalOpcode

/-- Class 5 of R233, by minor code. -/
def decClass5 (f : Fields) (m : Nat) : Except Cause Instr :=
  match m with
  | 0 => uniform f (decNext f) .next
  | 1 => uniform f (decS1 f) .nextu
  | 2 => uniform f (decNul 0 f) .exit
  | 3 => uniform f (decMeet f) .meet
  | 4 => uniform f (decJmp f) .jmp
  | 5 => uniform f (decJmpS f) .jmz
  | 6 => uniform f (decJmpS f) .jmnz
  | 7 => uniform f (decLcset f) .lcset
  | 8 => uniform f (decLoop f) .loop
  | 9 => uniform f (decNul 0 f) .nop
  | _ => .error .illegalOpcode

/-- Class 6 of R233, by minor code. -/
def decClass6 (f : Fields) (m : Nat) : Except Cause Instr :=
  match m with
  | 0 => guarded (decMem f) .ld
  | 1 => guarded (decMem f) .st
  | 2 => guarded (decCas f) .ldt
  | 3 => guarded (decPref f) .pref
  | 4 => guarded (decSpill f) .spill
  | 5 => guarded (decSpill f) .fill
  | 6 => uniform f (decLdc f) .ldc
  | 7 => uniform f (decLdc f) .stc
  | 8 => guarded (decAdrn f) .adrn
  | _ => .error .illegalOpcode

/-- Class 7 of R233, by minor code. -/
def decClass7 (f : Fields) (m : Nat) : Except Cause Instr :=
  match m with
  | 0 => guarded (decAtm f) .atom
  | 1 => guarded (decAtm f) .red
  | 2 => guarded (decCas f) .cas
  | 3 => uniform f (decFence f) .fence
  | 4 =>
    if (decFenceS f).isSome ∧ f.b / 128 % 4 ≠ 3 then .error .illegalOperand
    else uniform f (decFenceS f) .fenceS
  | 5 => uniform f (decIinv f) .iinv
  | _ => .error .illegalOpcode

/-- Class 8 of R233, by minor code. -/
def decClass8 (f : Fields) (m : Nat) : Except Cause Instr :=
  match m with
  | 0 => uniform f (decCder f) .cder
  | 1 => uniform f (decCres f) .cres
  | 2 => uniform f (decCseal f) .cseal
  | 3 => uniform f (decCseal f) .cunseal
  | 4 => uniform f (decCmov f) .cmov
  | 5 => uniform f (decCget f) .cget
  | 6 => uniform f (decCgetN f) .cgetn
  | 7 => uniform f (decCtest f) .ctest
  | _ => .error .illegalOpcode

/-- Class 9 of R233, by minor code. -/
def decClass9 (f : Fields) (m : Nat) : Except Cause Instr :=
  match m with
  | 0 => uniform f (decBar f) .binit
  | 1 => guarded (decBarr f) .barr
  | 2 => uniform f (decBar f) .bexp
  | 3 => uniform f (decBar f) .bwait
  | 4 => uniform f (decBar f) .btst
  | _ => .error .illegalOpcode

/-- Class 10 of R233, by minor code. -/
def decClass10 (f : Fields) (m : Nat) : Except Cause Instr :=
  match m with
  | 0 => uniform f (decFlk f) .flk
  | 1 => uniform f (decFlq f) .flq
  | 2 => uniform f (decFlc f) .flc
  | _ => .error .illegalOpcode

/-- Class 11 of R233, by minor code. -/
noncomputable def decClass11 (f : Fields) (m : Nat) : Except Cause Instr :=
  match m with
  | 0 => guarded (decSpawn f) .spawn
  | 1 => guarded (decSucc f) .succ
  | 2 => uniform f (decS2 f) .cancel
  | 3 => uniform f (decLaunch f) .launch
  | 4 => guarded (decPalloc f) .palloc
  | 5 => guarded (decPalloc f) .pallocT
  | 6 => guarded (decPfree f) .pfree
  | 7 => guarded (decCput f) .cput
  | 8 => uniform f (decCflush f) .cflush
  | _ => .error .illegalOpcode

/-- Class 12 of R233, by minor code. -/
noncomputable def decClass12 (f : Fields) (m : Nat) : Except Cause Instr :=
  match m with
  | 0 => guarded (decEng f) .rcast
  | 1 => guarded (decEng f) .ocap
  | 2 => guarded (decEng f) .cbfk
  | 3 => guarded (decEng f) .cbstep
  | _ => .error .illegalOpcode

/-- Class 13 of R233, by minor code. -/
noncomputable def decClass13 (f : Fields) (m : Nat) : Except Cause Instr :=
  match m with
  | 0 => uniform f (decMresv f) .mresv
  | 1 => uniform f (decMrels f) .mrels
  | 2 => uniform f (decMldb f) .mldb
  | 3 => uniform f (decMma f) .mma
  | 4 => uniform f (decMma f) .mmaz
  | 5 => uniform f (decMma f) .mmap
  | 6 => uniform f (decMma f) .mmazp
  | 8 => uniform f (decLnset f) .lnset
  | 9 => uniform f (decLncoef f) .lncoef
  | 10 => uniform f (decNul 0 f) .lnstep
  | 12 => if f.b / 256 % 2 = 1 then uniform f (decCtakeArm f) .ctakeArm else uniform f (decCtake f) .ctake
  | 13 => uniform f (decCgive f) .cgive
  | 14 => uniform f (decNul 0 f) .idemb
  | 15 => uniform f (decNul 0 f) .ideme
  | _ => .error .illegalOpcode

/-- Class 14 of R233, by minor code. -/
noncomputable def decClass14 (f : Fields) (m : Nat) : Except Cause Instr :=
  match m with
  | 0 => if f.a = 1 then uniform f (decSrdN f) .srdSlice else uniform f (decSrdS f) .srdScalar
  | 1 => uniform f (decSwr f) .swr
  | 2 => uniform f (decTrap f) .trap
  | 3 =>
    match f.b with
    | 0 => uniform f (decNul 0 f) .tretRetry
    | 1 => uniform f (decNul 1 f) .tretSkip
    | 2 => uniform f (decNul 2 f) .tretKilltask
    | 3 => uniform f (decNul 3 f) .tretKillcrew
    | _ => .error .illegalOpcode
  | 4 => uniform f (decCode f) .brk
  | 5 => uniform f (decCode f) .ecall
  | 8 => uniform f (decRquota f) .rquota
  | _ => .error .illegalOpcode

/-- Class 15 of R233, by minor code. -/
noncomputable def decClass15 (f : Fields) (lit : Nat) (m : Nat) : Except Cause Instr :=
  match m with
  | 0 => uniform f (decLit f) (fun o => .lit { o with v := lit })
  | _ => .error .illegalOpcode

/-- R230: the half in 31 bits. -/
def decHalf (h : Nat) : Half :=
  { op := bits h 30 27, ty := bits h 26 24, s1 := bits h 23 16, w1 := bits h 15 13
    s2 := bits h 12 5, w2 := bits h 4 2, pg := bits h 1 0 }

/-- The 31 bits of a half (R230). -/
def encHalf (h : Half) : Nat :=
  h.pg + 4 * (h.w2 + 8 * (h.s2 + 256 * (h.w1 + 8 * (h.s1 + 256 * (h.ty + 8 * h.op)))))

/-- R231 and the first three conditions of R232: the operation and type of a half are assigned and allowed. -/
def halfAssigned (second : Bool) (h : Half) : Bool :=
  if h.op == 14 then
    h.ty == 0 && h.s1 == 0 && h.w1 == 0 && h.s2 == 0 && h.w2 == 0 && h.pg == 0
  else if h.op == 15 || h.ty == 7 then false
  else if 6 ≤ h.op && 4 ≤ h.ty then false
  else if second then h.ty < 4 && h.op != 3
  else true

/-- A paired word (R230, R232). -/
noncomputable def decPair (w : Nat) : Except Cause Instr :=
  let h1 := decHalf (bits w 61 31)
  let h2 := decHalf (bits w 30 0)
  if halfAssigned false h1 = true ∧ halfAssigned true h2 = true then
    .ok (.pairedWord { mark := bit w 63, h1 := h1, h2 := h2 })
  else .error .illegalOpcode

/-- A paired word (R230). -/
def packPair (p : Pair) : Nat :=
  encHalf p.h2 + 2147483648 * (encHalf p.h1 + 2147483648 * (1 + 2 * nb p.mark))

/-- Every word of R233, of either agent: a full-format word by class and minor code, or a paired word.
lit is the word after it, which only LIT takes (R228). -/
noncomputable def decodeWord (w lit : Nat) : Except Cause Instr :=
  if bit w 62 then decPair w
  else
    let f := unpackFull w
    let m := bits w 57 52
    match bits w 61 58 with
    | 0 => decClass0 f m
    | 1 => decClass1 f m
    | 2 => decClass2 f m
    | 3 => decClass3 f m
    | 4 => decClass4 f m
    | 5 => decClass5 f m
    | 6 => decClass6 f m
    | 7 => decClass7 f m
    | 8 => decClass8 f m
    | 9 => decClass9 f m
    | 10 => decClass10 f m
    | 11 => decClass11 f m
    | 12 => decClass12 f m
    | 13 => decClass13 f m
    | 14 => decClass14 f m
    | 15 => decClass15 f lit m
    | _ => .error .illegalOpcode

/-- A word passes steps 1 and 2 of R234: its class does not answer ILLEGAL_OPCODE. -/
def decodable (x : Except Cause Instr) : Bool :=
  match x with
  | .error .illegalOpcode => false
  | _ => true

/-- A full-format word of a portable module that some agent can decode (R233, R234): its form is assigned, and every field that the
form defines as zero is zero. -/
def formOk (w : Nat) : Bool :=
  let f := unpackFull w
  let m := bits w 57 52
  match bits w 61 58, m with
  | 0, _ => decodable (decClass0 f m)
  | 1, _ => decodable (decClass1 f m)
  | 2, _ => decodable (decClass2 f m)
  | 3, _ => decodable (decClass3 f m)
  | 4, _ => decodable (decClass4 f m)
  | 5, _ => decodable (decClass5 f m)
  | 6, _ => decodable (decClass6 f m)
  | 7, _ => decodable (decClass7 f m)
  | 8, _ => decodable (decClass8 f m)
  | 9, _ => decodable (decClass9 f m)
  | 10, _ => decodable (decClass10 f m)
  | 11, 0 => (decSpawn f).isSome
  | 11, 1 => (decSucc f).isSome
  | 11, 2 => (decS2 f).isSome
  | 11, 3 => (decLaunch f).isSome
  | 11, 4 => (decPalloc f).isSome
  | 11, 5 => (decPalloc f).isSome
  | 11, 6 => (decPfree f).isSome
  | 11, 7 => (decCput f).isSome
  | 11, 8 => (decCflush f).isSome
  | 12, _ => decide (m ≤ 3) && (decEng f).isSome
  | 13, 0 => (decMresv f).isSome
  | 13, 1 => (decMrels f).isSome
  | 13, 2 => (decMldb f).isSome
  | 13, 3 => (decMma f).isSome
  | 13, 4 => (decMma f).isSome
  | 13, 5 => (decMma f).isSome
  | 13, 6 => (decMma f).isSome
  | 13, 8 => (decLnset f).isSome
  | 13, 9 => (decLncoef f).isSome
  | 13, 10 => (decNul 0 f).isSome
  | 13, 12 => if f.b / 256 % 2 = 1 then (decCtakeArm f).isSome else (decCtake f).isSome
  | 13, 13 => (decCgive f).isSome
  | 13, 14 => (decNul 0 f).isSome
  | 13, 15 => (decNul 0 f).isSome
  | 14, 0 => if f.a = 1 then (decSrdN f).isSome else (decSrdS f).isSome
  | 14, 1 => (decSwr f).isSome
  | 14, 2 => (decTrap f).isSome
  | 14, 3 => decide (f.b ≤ 3) && (decNul f.b f).isSome
  | 14, 4 => (decCode f).isSome
  | 14, 5 => (decCode f).isSome
  | 14, 8 => (decRquota f).isSome
  | 15, 0 => (decLit f).isSome
  | _, _ => false

/-- R300: the forms that the matrix sequencer decodes, by class and minor code. -/
def sequencerForm (c m : Nat) : Bool :=
  match c with
  | 0 => m < 42 || m == 48 || m == 49
  | 5 => m == 1 || m == 2 || (4 ≤ m && m ≤ 9)
  | 7 => m == 3
  | 9 => m ≤ 4
  | 13 => true
  | 14 => m ≤ 1
  | 15 => true
  | _ => false

/-- Decoding at issue by a partition (R234): class 13 in a thread is ILLEGAL_OPCODE. -/
noncomputable def decodeThread (w lit : Nat) : Except Cause Instr :=
  if bit w 62 = false ∧ bits w 61 58 = 13 then .error .illegalOpcode else decodeWord w lit

/-- Decoding by the matrix sequencer (R235, R300): only its own forms, with no guard. -/
noncomputable def decodeSequencer (w lit : Nat) : Except Cause Instr :=
  if bit w 62 = true then .error .illegalOpcode
  else if sequencerForm (bits w 61 58) (bits w 57 52) = false then .error .illegalOpcode
  else
    match decodeWord w lit with
    | .error c => .error c
    | .ok i => if bits w 51 45 = 0 ∧ bit w 44 = false then .ok i else .error .illegalOperand

/-- The words of an instruction (R224, R228, R230); a step of the device has none. -/
def encode (i : Instr) : List Nat :=
  match i with
  | .saddReg o => [packFull 0 0 (encSReg o)]
  | .saddImm o => [packFull 0 1 (encSImm o)]
  | .ssubReg o => [packFull 0 2 (encSReg o)]
  | .ssubImm o => [packFull 0 3 (encSImm o)]
  | .smulReg o => [packFull 0 4 (encSReg o)]
  | .smulImm o => [packFull 0 5 (encSImm o)]
  | .smulhReg o => [packFull 0 6 (encSReg o)]
  | .smulhImm o => [packFull 0 7 (encSImm o)]
  | .smulhuReg o => [packFull 0 8 (encSReg o)]
  | .smulhuImm o => [packFull 0 9 (encSImm o)]
  | .sdivReg o => [packFull 0 10 (encSReg o)]
  | .sdivImm o => [packFull 0 11 (encSImm o)]
  | .sdivuReg o => [packFull 0 12 (encSReg o)]
  | .sdivuImm o => [packFull 0 13 (encSImm o)]
  | .sremReg o => [packFull 0 14 (encSReg o)]
  | .sremImm o => [packFull 0 15 (encSImm o)]
  | .sremuReg o => [packFull 0 16 (encSReg o)]
  | .sremuImm o => [packFull 0 17 (encSImm o)]
  | .sandReg o => [packFull 0 18 (encSReg o)]
  | .sandImm o => [packFull 0 19 (encSImm o)]
  | .sorReg o => [packFull 0 20 (encSReg o)]
  | .sorImm o => [packFull 0 21 (encSImm o)]
  | .sxorReg o => [packFull 0 22 (encSReg o)]
  | .sxorImm o => [packFull 0 23 (encSImm o)]
  | .sshlReg o => [packFull 0 24 (encSReg o)]
  | .sshlImm o => [packFull 0 25 (encSImm o)]
  | .sshrReg o => [packFull 0 26 (encSReg o)]
  | .sshrImm o => [packFull 0 27 (encSImm o)]
  | .sshaReg o => [packFull 0 28 (encSReg o)]
  | .sshaImm o => [packFull 0 29 (encSImm o)]
  | .sminReg o => [packFull 0 30 (encSReg o)]
  | .sminImm o => [packFull 0 31 (encSImm o)]
  | .sminuReg o => [packFull 0 32 (encSReg o)]
  | .sminuImm o => [packFull 0 33 (encSImm o)]
  | .smaxReg o => [packFull 0 34 (encSReg o)]
  | .smaxImm o => [packFull 0 35 (encSImm o)]
  | .smaxuReg o => [packFull 0 36 (encSReg o)]
  | .smaxuImm o => [packFull 0 37 (encSImm o)]
  | .scmpReg o => [packFull 0 38 (encScmpR o)]
  | .scmpImm o => [packFull 0 39 (encScmpI o)]
  | .smovReg o => [packFull 0 40 (encSmovR o)]
  | .smovImm o => [packFull 0 41 (encSmovI o)]
  | .spopc o => [packFull 0 48 (encS2 o)]
  | .sclz o => [packFull 0 49 (encS2 o)]
  | .sget o => [packFull 0 50 (encSget o)]
  | .addVV o => [packFull 1 0 (encVV o)]
  | .addVS o => [packFull 1 1 (encVS o)]
  | .addVI o => [packFull 1 2 (encVI o)]
  | .subVV o => [packFull 1 3 (encVV o)]
  | .subVS o => [packFull 1 4 (encVS o)]
  | .subVI o => [packFull 1 5 (encVI o)]
  | .mulVV o => [packFull 1 6 (encVV o)]
  | .mulVS o => [packFull 1 7 (encVS o)]
  | .mulVI o => [packFull 1 8 (encVI o)]
  | .madVV o => [packFull 1 9 (encVV o)]
  | .madVS o => [packFull 1 10 (encVS o)]
  | .madVI o => [packFull 1 11 (encVI o)]
  | .addSatIVV o => [packFull 1 12 (encVV o)]
  | .addSatIVS o => [packFull 1 13 (encVS o)]
  | .addSatIVI o => [packFull 1 14 (encVI o)]
  | .addSatBVV o => [packFull 1 15 (encVV o)]
  | .addSatBVS o => [packFull 1 16 (encVS o)]
  | .addSatBVI o => [packFull 1 17 (encVI o)]
  | .subSatIVV o => [packFull 1 18 (encVV o)]
  | .subSatIVS o => [packFull 1 19 (encVS o)]
  | .subSatIVI o => [packFull 1 20 (encVI o)]
  | .subSatBVV o => [packFull 1 21 (encVV o)]
  | .subSatBVS o => [packFull 1 22 (encVS o)]
  | .subSatBVI o => [packFull 1 23 (encVI o)]
  | .mulhIVV o => [packFull 1 24 (encVV o)]
  | .mulhIVS o => [packFull 1 25 (encVS o)]
  | .mulhIVI o => [packFull 1 26 (encVI o)]
  | .mulhBVV o => [packFull 1 27 (encVV o)]
  | .mulhBVS o => [packFull 1 28 (encVS o)]
  | .mulhBVI o => [packFull 1 29 (encVI o)]
  | .divIVV o => [packFull 1 30 (encVV o)]
  | .divIVS o => [packFull 1 31 (encVS o)]
  | .divIVI o => [packFull 1 32 (encVI o)]
  | .divBVV o => [packFull 1 33 (encVV o)]
  | .divBVS o => [packFull 1 34 (encVS o)]
  | .divBVI o => [packFull 1 35 (encVI o)]
  | .remIVV o => [packFull 1 36 (encVV o)]
  | .remIVS o => [packFull 1 37 (encVS o)]
  | .remIVI o => [packFull 1 38 (encVI o)]
  | .remBVV o => [packFull 1 39 (encVV o)]
  | .remBVS o => [packFull 1 40 (encVS o)]
  | .remBVI o => [packFull 1 41 (encVI o)]
  | .minIVV o => [packFull 1 42 (encVV o)]
  | .minIVS o => [packFull 1 43 (encVS o)]
  | .minIVI o => [packFull 1 44 (encVI o)]
  | .minBVV o => [packFull 1 45 (encVV o)]
  | .minBVS o => [packFull 1 46 (encVS o)]
  | .minBVI o => [packFull 1 47 (encVI o)]
  | .maxIVV o => [packFull 1 48 (encVV o)]
  | .maxIVS o => [packFull 1 49 (encVS o)]
  | .maxIVI o => [packFull 1 50 (encVI o)]
  | .maxBVV o => [packFull 1 51 (encVV o)]
  | .maxBVS o => [packFull 1 52 (encVS o)]
  | .maxBVI o => [packFull 1 53 (encVI o)]
  | .abs o => [packFull 1 54 (encU1 o)]
  | .neg o => [packFull 1 55 (encU1 o)]
  | .absdI o => [packFull 1 56 (encVV o)]
  | .absdB o => [packFull 1 57 (encVV o)]
  | .faddVV o => [packFull 2 0 (encVV o)]
  | .faddVS o => [packFull 2 1 (encVS o)]
  | .fsubVV o => [packFull 2 2 (encVV o)]
  | .fsubVS o => [packFull 2 3 (encVS o)]
  | .fmulVV o => [packFull 2 4 (encVV o)]
  | .fmulVS o => [packFull 2 5 (encVS o)]
  | .fmaVV o => [packFull 2 6 (encVV o)]
  | .fmaVS o => [packFull 2 7 (encVS o)]
  | .fminVV o => [packFull 2 8 (encVV o)]
  | .fminVS o => [packFull 2 9 (encVS o)]
  | .fmaxVV o => [packFull 2 10 (encVV o)]
  | .fmaxVS o => [packFull 2 11 (encVS o)]
  | .fdivVV o => [packFull 2 12 (encVV o)]
  | .fdivVS o => [packFull 2 13 (encVS o)]
  | .frcpVV o => [packFull 2 14 (encU1 o)]
  | .frcpVS o => [packFull 2 15 (encUS o)]
  | .frsqVV o => [packFull 2 16 (encU1 o)]
  | .frsqVS o => [packFull 2 17 (encUS o)]
  | .fex2VV o => [packFull 2 18 (encU1 o)]
  | .fex2VS o => [packFull 2 19 (encUS o)]
  | .flg2VV o => [packFull 2 20 (encU1 o)]
  | .flg2VS o => [packFull 2 21 (encUS o)]
  | .fsinVV o => [packFull 2 22 (encU1 o)]
  | .fsinVS o => [packFull 2 23 (encUS o)]
  | .fcosVV o => [packFull 2 24 (encU1 o)]
  | .fcosVS o => [packFull 2 25 (encUS o)]
  | .fabsVV o => [packFull 2 26 (encU1 o)]
  | .fabsVS o => [packFull 2 27 (encUS o)]
  | .fnegVV o => [packFull 2 28 (encU1 o)]
  | .fnegVS o => [packFull 2 29 (encUS o)]
  | .frintVV o => [packFull 2 30 (encU1 o)]
  | .frintVS o => [packFull 2 31 (encUS o)]
  | .fclassVV o => [packFull 2 32 (encU1 o)]
  | .fclassVS o => [packFull 2 33 (encUS o)]
  | .andVV o => [packFull 3 0 (encVV o)]
  | .andVS o => [packFull 3 1 (encVS o)]
  | .andVI o => [packFull 3 2 (encVI o)]
  | .orVV o => [packFull 3 3 (encVV o)]
  | .orVS o => [packFull 3 4 (encVS o)]
  | .orVI o => [packFull 3 5 (encVI o)]
  | .xorVV o => [packFull 3 6 (encVV o)]
  | .xorVS o => [packFull 3 7 (encVS o)]
  | .xorVI o => [packFull 3 8 (encVI o)]
  | .andnVV o => [packFull 3 9 (encVV o)]
  | .andnVS o => [packFull 3 10 (encVS o)]
  | .andnVI o => [packFull 3 11 (encVI o)]
  | .shlVV o => [packFull 3 12 (encVV o)]
  | .shlVS o => [packFull 3 13 (encVS o)]
  | .shlVI o => [packFull 3 14 (encVI o)]
  | .shrVV o => [packFull 3 15 (encVV o)]
  | .shrVS o => [packFull 3 16 (encVS o)]
  | .shrVI o => [packFull 3 17 (encVI o)]
  | .shaVV o => [packFull 3 18 (encVV o)]
  | .shaVS o => [packFull 3 19 (encVS o)]
  | .shaVI o => [packFull 3 20 (encVI o)]
  | .rotVV o => [packFull 3 21 (encVV o)]
  | .rotVS o => [packFull 3 22 (encVS o)]
  | .rotVI o => [packFull 3 23 (encVI o)]
  | .movVV o => [packFull 3 24 (encU1 o)]
  | .movVS o => [packFull 3 25 (encUS o)]
  | .movVI o => [packFull 3 26 (encMI o)]
  | .notB o => [packFull 3 27 (encU1 o)]
  | .popc o => [packFull 3 28 (encU1 o)]
  | .clz o => [packFull 3 29 (encU1 o)]
  | .brev o => [packFull 3 30 (encU1 o)]
  | .bfe o => [packFull 3 31 (encBfld o)]
  | .bfi o => [packFull 3 32 (encBfld o)]
  | .zip o => [packFull 3 33 (encZip o)]
  | .unzip o => [packFull 3 34 (encUnzip o)]
  | .cvt o => [packFull 3 40 (encCvt o)]
  | .cvtfi o => [packFull 3 41 (encCvtFI o)]
  | .cvtif o => [packFull 3 42 (encCvtIF o)]
  | .cvtef o => [packFull 3 43 (encCvtEF o)]
  | .cvte8 o => [packFull 3 44 (encCvtE8 o)]
  | .pand o => [packFull 4 0 (encP3 o)]
  | .por o => [packFull 4 1 (encP3 o)]
  | .pxor o => [packFull 4 2 (encP3 o)]
  | .pandn o => [packFull 4 3 (encP3 o)]
  | .pnot o => [packFull 4 4 (encP2 o)]
  | .pset o => [packFull 4 5 (encPset o)]
  | .pbit o => [packFull 4 6 (encPbit o)]
  | .pton o => [packFull 4 7 (encPton o)]
  | .cmpVV o => [packFull 4 8 (encCmpVV o)]
  | .cmpVS o => [packFull 4 9 (encCmpVS o)]
  | .cmpVI o => [packFull 4 10 (encCmpVI o)]
  | .fcmpVV o => [packFull 4 11 (encCmpVV o)]
  | .fcmpVS o => [packFull 4 12 (encCmpVS o)]
  | .shfl o => [packFull 4 16 (encShfl o)]
  | .shflx o => [packFull 4 17 (encShflI o)]
  | .bcast o => [packFull 4 18 (encShflI o)]
  | .reduce o => [packFull 4 19 (encRed o)]
  | .scan o => [packFull 4 20 (encRed o)]
  | .vote o => [packFull 4 21 (encVote o)]
  | .ballot o => [packFull 4 22 (encPgat o)]
  | .pfirst o => [packFull 4 23 (encPgat o)]
  | .pcount o => [packFull 4 24 (encPgat o)]
  | .next o => [packFull 5 0 (encNext o)]
  | .nextu o => [packFull 5 1 (encS1 o)]
  | .exit o => [packFull 5 2 (encNul 0 o)]
  | .meet o => [packFull 5 3 (encMeet o)]
  | .jmp o => [packFull 5 4 (encJmp o)]
  | .jmz o => [packFull 5 5 (encJmpS o)]
  | .jmnz o => [packFull 5 6 (encJmpS o)]
  | .lcset o => [packFull 5 7 (encLcset o)]
  | .loop o => [packFull 5 8 (encLoop o)]
  | .nop o => [packFull 5 9 (encNul 0 o)]
  | .ld o => [packFull 6 0 (encMem o)]
  | .st o => [packFull 6 1 (encMem o)]
  | .ldt o => [packFull 6 2 (encCas o)]
  | .pref o => [packFull 6 3 (encPref o)]
  | .spill o => [packFull 6 4 (encSpill o)]
  | .fill o => [packFull 6 5 (encSpill o)]
  | .ldc o => [packFull 6 6 (encLdc o)]
  | .stc o => [packFull 6 7 (encLdc o)]
  | .adrn o => [packFull 6 8 (encAdrn o)]
  | .atom o => [packFull 7 0 (encAtm o)]
  | .red o => [packFull 7 1 (encAtm o)]
  | .cas o => [packFull 7 2 (encCas o)]
  | .fence o => [packFull 7 3 (encFence o)]
  | .fenceS o => [packFull 7 4 (encFenceS o)]
  | .iinv o => [packFull 7 5 (encIinv o)]
  | .cder o => [packFull 8 0 (encCder o)]
  | .cres o => [packFull 8 1 (encCres o)]
  | .cseal o => [packFull 8 2 (encCseal o)]
  | .cunseal o => [packFull 8 3 (encCseal o)]
  | .cmov o => [packFull 8 4 (encCmov o)]
  | .cget o => [packFull 8 5 (encCget o)]
  | .cgetn o => [packFull 8 6 (encCgetN o)]
  | .ctest o => [packFull 8 7 (encCtest o)]
  | .binit o => [packFull 9 0 (encBar o)]
  | .barr o => [packFull 9 1 (encBarr o)]
  | .bexp o => [packFull 9 2 (encBar o)]
  | .bwait o => [packFull 9 3 (encBar o)]
  | .btst o => [packFull 9 4 (encBar o)]
  | .flk o => [packFull 10 0 (encFlk o)]
  | .flq o => [packFull 10 1 (encFlq o)]
  | .flc o => [packFull 10 2 (encFlc o)]
  | .spawn o => [packFull 11 0 (encSpawn o)]
  | .succ o => [packFull 11 1 (encSucc o)]
  | .cancel o => [packFull 11 2 (encS2 o)]
  | .launch o => [packFull 11 3 (encLaunch o)]
  | .palloc o => [packFull 11 4 (encPalloc o)]
  | .pallocT o => [packFull 11 5 (encPalloc o)]
  | .pfree o => [packFull 11 6 (encPfree o)]
  | .cput o => [packFull 11 7 (encCput o)]
  | .cflush o => [packFull 11 8 (encCflush o)]
  | .rcast o => [packFull 12 0 (encEng o)]
  | .ocap o => [packFull 12 1 (encEng o)]
  | .cbfk o => [packFull 12 2 (encEng o)]
  | .cbstep o => [packFull 12 3 (encEng o)]
  | .mresv o => [packFull 13 0 (encMresv o)]
  | .mrels o => [packFull 13 1 (encMrels o)]
  | .mldb o => [packFull 13 2 (encMldb o)]
  | .mma o => [packFull 13 3 (encMma o)]
  | .mmaz o => [packFull 13 4 (encMma o)]
  | .mmap o => [packFull 13 5 (encMma o)]
  | .mmazp o => [packFull 13 6 (encMma o)]
  | .lnset o => [packFull 13 8 (encLnset o)]
  | .lncoef o => [packFull 13 9 (encLncoef o)]
  | .lnstep o => [packFull 13 10 (encNul 0 o)]
  | .ctake o => [packFull 13 12 (encCtake o)]
  | .ctakeArm o => [packFull 13 12 (encCtakeArm o)]
  | .cgive o => [packFull 13 13 (encCgive o)]
  | .idemb o => [packFull 13 14 (encNul 0 o)]
  | .ideme o => [packFull 13 15 (encNul 0 o)]
  | .srdScalar o => [packFull 14 0 (encSrdS o)]
  | .srdSlice o => [packFull 14 0 (encSrdN o)]
  | .swr o => [packFull 14 1 (encSwr o)]
  | .trap o => [packFull 14 2 (encTrap o)]
  | .brk o => [packFull 14 4 (encCode o)]
  | .ecall o => [packFull 14 5 (encCode o)]
  | .tretRetry o => [packFull 14 3 (encNul 0 o)]
  | .tretSkip o => [packFull 14 3 (encNul 1 o)]
  | .tretKilltask o => [packFull 14 3 (encNul 2 o)]
  | .tretKillcrew o => [packFull 14 3 (encNul 3 o)]
  | .rquota o => [packFull 14 8 (encRquota o)]
  | .lit o => [packFull 15 0 (encLit o), o.v]
  | .pairedWord o => [packPair o]
  | .longResultWrite _ _ => []
  | .writePerformAtHome _ _ => []
  | .l1LineFill _ => []
  | .leaseExpiry _ => []
  | .tileFillComplete _ _ => []
  | .pageWalkComplete _ => []
  | .specFenceComplete _ => []
  | .specConflictRollback _ => []
  | .iinvComplete _ => []
  | .waveFormation _ => []
  | .bucketAgeMax _ _ => []
  | .segmentWatchdogExpiry _ => []
  | .sluiceReleaseStep _ => []
  | .pendingWaveExchange _ _ => []
  | .waveParkExchange _ _ => []
  | .flumeHeadForward _ _ => []
  | .flumeChainStart _ _ => []
  | .flumeRecordProcess _ _ => []
  | .flumeCancelWalk _ _ => []
  | .gridCrewArrivalSend _ _ => []
  | .gridPortArrival => []
  | .gridReleaseDelivery => []
  | .roeRcastService _ => []
  | .roeOcapService _ => []
  | .cbeCbfkService _ => []
  | .cbeCbstepService _ => []
  | .successorReleasePlace _ => []
  | .taskStart _ => []
  | .cisternFlushTimeout _ _ => []
  | .mldbComplete _ => []
  | .mmaComplete _ => []
  | .ctakeCopyComplete _ => []
  | .doorbell _ _ => []
  | .cqBaseWrite _ _ => []
  | .crHeadWrite _ _ => []
  | .launchRecordTake _ => []
  | .waitEventPoll _ => []
  | .placementRetry _ => []
  | .launchPlacement _ => []
  | .crewStart _ => []
  | .crewEnd _ => []
  | .launchCompletion _ => []
  | .completionRecordWrite _ => []
  | .spillStagingDrain _ _ => []
  | .spillRefill _ => []
  | .launchDeadline _ => []
  | .primaryFailure => []
  | .schedCtlTake _ => []
  | .schedCtlDone _ => []
  | .schedAssistWrite _ => []
  | .schedAssistFinish _ => []
  | .jrnPtrWrite _ _ => []
  | .swapSave _ => []
  | .swapSaveHaltEnd _ => []
  | .swapSaveComplete _ => []
  | .swapRestore _ => []
  | .swapRestoreComplete _ => []
  | .partitionStateError _ _ _ _ => []
  | .sliceRowPoison _ _ _ => []
  | .queueEntryError _ _ _ => []
  | .nearScrubStep _ _ _ _ _ => []
  | .vaultScrubStep _ _ _ => []
  | .vaultTempSample _ _ => []
  | .vaultRefresh _ => []
  | .dramTempPoll _ => []
  | .capMintSet _ => []
  | .capMintClear _ => []
  | .tlbInvAll => []
  | .tlbInvContext _ => []
  | .tlbInvPage _ _ => []
  | .tlbInvComplete => []
  | .vaultSplitWrite _ => []
  | .coreSramWrite _ _ => []
  | .poolModeChange _ _ _ => []
  | .poolDrainComplete _ => []
  | .cslrWrite _ _ => []
  | .poolLimitWrite _ _ _ => []
  | .railSwitch _ _ => []
  | .railSwitchDone _ => []
  | .alarmSourceAssert _ => []
  | .throttleRelease => []
  | .killSequence => []
  | .killLevelStep => []
  | .droopStretch _ => []
  | .brownoutStop _ => []
  | .brownoutResume _ => []
  | .retentionLoss _ => []
  | .clusterRecovery _ => []
  | .energyUpdate => []
  | .energyLoRead _ _ => []
  | .windowLowHalfWrite _ _ _ => []
  | .windowHighHalfWrite _ _ _ => []
  | .windowLowHalfRead _ _ => []
  | .hostWrite _ _ => []
  | .hostRead _ _ => []
  | .peerAccess _ _ _ _ => []
  | .peerWriteAck _ => []
  | .reductionMergedWrite _ _ _ => []
  | .peerUnreachable _ => []
  | .rwinBaseWrite _ _ => []
  | .cpFence _ => []
  | .attest => []
  | .loadTranslator => []
  | .enroll => []
  | .warmStart => []
  | .loadFirmware => []
  | .mboxCommandComplete => []
  | .coldStart => []
  | .mgmtWatchdogWarmStart => []
  | .holdSet _ => []
  | .coreHoldClear _ => []
  | .scanTestStart _ _ _ => []
  | .scanTestComplete => []
  | .tickInterrupt => []
  | .tickCmpWrite _ => []
  | .registerWrite _ _ _ => []
  | .alarmSourceClear _ => []
  | .releaseWaitEnd _ => []
  | .mmaAccept _ => []
  | .peerReachable _ _ => []
  | .perBankRefresh _ => []
  | .droopEnd _ => []
  | .clTempRefresh _ _ => []
  | .schedAssistComplete => []
  | .cancelDropComplete _ => []
  | .faultNPulseEnd => []

/-- Decoding of the words of one instruction: the first word and, for LIT, the one that follows. -/
noncomputable def decode (ws : List Nat) : Except Cause Instr :=
  match ws with
  | [] => .error .illegalOpcode
  | [w] => decodeWord w 0
  | w :: l :: _ => decodeWord w l

/-- The instruction in the words whose bits are w: the first 64-bit word is the lowest 64 bits (R6). -/
noncomputable def decodeTableWord (nbits w : Nat) : Option Instr :=
  match decodeWord (w % 2 ^ nbits % 2 ^ 64) (w % 2 ^ nbits / 2 ^ 64 % 2 ^ 64) with
  | .ok i => some i
  | .error _ => none

/-- A step of the device, which has no encoding (rows 281 to 406 of the table). -/
def isEvent (i : Instr) : Bool := (encode i).isEmpty

end Sys2Proof
end

