-- ==== Sys2Proof/Machine/Digest.lean ====
section
/-! DEFINITION. SHAKE256, by which R248 makes module digests and key identities, and the other functions of its standard that a
signature of R248 rests on. R248 names the standards, and the permutation is written from FIPS 202 (log entry 20). -/

namespace Sys2Proof.Machine

/-- A 64-bit lane turned left. -/
def keccakTurn (x n : Nat) : Nat := (x <<< n ||| x >>> (64 - n)) % 2 ^ 64

/-- Where the walk over the lanes stands after t moves from lane 1: from lane (x, y) it goes to lane (y, 2x + 3y). -/
def keccakWalk : Nat → Nat
  | 0 => 1
  | t + 1 => let i := keccakWalk t; i / 5 + 5 * ((2 * (i % 5) + 3 * (i / 5)) % 5)

/-- How far lane i turns: the lane that the walk meets after t moves turns by the triangular number of t + 1; lane 0 stays. -/
def keccakTurns (i : Nat) : Nat :=
  match (List.range 24).find? (fun t => keccakWalk t == i) with
  | some t => (t + 1) * (t + 2) / 2 % 64
  | none => 0

/-- The shift register of 8 bits whose lowest bits make up the constants of the rounds. -/
def keccakShift : Nat → Nat
  | 0 => 1
  | n + 1 => let r := 2 * keccakShift n; if r < 256 then r else r ^^^ 0x171

/-- The constant of a round: bit 2^j - 1 is bit 0 of the register after j + 7 times the round. -/
def keccakRound (r : Nat) : Nat :=
  (List.range 7).foldl (fun c j => c + keccakShift (j + 7 * r) % 2 * 2 ^ (2 ^ j - 1)) 0

/-- One lane of a state of 1,600 bits. -/
def keccakLane (a i : Nat) : Nat := bits a (64 * i + 63) (64 * i)

/-- The state whose lanes a function gives. -/
def keccakState (f : Nat → Nat) : Nat := (List.range 25).foldl (fun a i => a ||| f i <<< (64 * i)) 0

/-- The parities of the columns are mixed into every lane. -/
def keccakTheta (a : Nat) : Nat :=
  let col x := (List.range 5).foldl (fun c y => c ^^^ keccakLane a (x % 5 + 5 * y)) 0
  keccakState (fun i => keccakLane a i ^^^ col (i % 5 + 4) ^^^ keccakTurn (col (i % 5 + 1)) 1)

/-- The lanes turn and change places. -/
def keccakPi (a : Nat) : Nat :=
  keccakState (fun i =>
    let j := (i % 5 + 3 * (i / 5)) % 5 + 5 * (i % 5)
    keccakTurn (keccakLane a j) (keccakTurns j))

/-- The one step that is not linear. -/
def keccakChi (a : Nat) : Nat :=
  keccakState (fun i =>
    let lane d := keccakLane a ((i + d) % 5 + 5 * (i / 5))
    lane 0 ^^^ ((2 ^ 64 - 1 - lane 1) &&& lane 2))

/-- The permutation of 24 rounds. -/
def keccak (a : Nat) : Nat := (List.range 24).foldl (fun b r => keccakChi (keccakPi (keccakTheta b)) ^^^ keccakRound r) a

/-- Bytes as a number, the first the least. -/
def littleNat (bs : List Nat) : Nat := bs.foldr (fun x n => x % 256 + 256 * n) 0

/-- The blocks of rate bytes that the sponge takes in, n of them full and the last one padded. -/
def keccakAbsorb (rate : Nat) : Nat → List Nat → Nat → Nat
  | 0, bs, a => keccak (a ^^^ littleNat bs ^^^ 0x1F <<< (8 * bs.length) ^^^ 2 ^ (8 * rate - 1))
  | n + 1, bs, a => keccakAbsorb rate n (bs.drop rate) (keccak (a ^^^ littleNat (bs.take rate)))

/-- The state of the sponge that has taken in a string of bytes. -/
def keccakOf (rate : Nat) (bs : List Nat) : Nat := keccakAbsorb rate (bs.length / rate) bs 0

/-- The first n blocks that the sponge gives. -/
def keccakGive (rate : Nat) : Nat → Nat → List Nat
  | 0, _ => []
  | n + 1, a => (List.range rate).map (fun i => bits a (8 * i + 7) (8 * i)) ++ keccakGive rate n (keccak a)

/-- The first n bytes of SHAKE128 (rate 168) or SHAKE256 (rate 136) over a string of bytes. -/
def shakeBytes (rate n : Nat) (bs : List Nat) : List Nat := (keccakGive rate ((n + rate - 1) / rate) (keccakOf rate bs)).take n

/-- R248: the 64-byte SHAKE256 output over a string of bytes, as a number whose least byte is the first. -/
def shake256 (bs : List Nat) : Nat := keccakOf 136 bs % 2 ^ 512

end Sys2Proof.Machine
end

