-- ==== Sys2Proof/Machine/Signature.lean ====
section
/-! DEFINITION. The verdict on an ML-DSA-65 signature (R248). The rule names FIPS 204, and the functions are written from that
standard, polynomials as lists of 256 coefficients and products through their values at the roots of x^256 + 1 (log entry 20). -/

namespace Sys2Proof.Machine

/-- The modulus of the coefficients. -/
def mlMod : Nat := 8380417

/-- The number i with its eight bits in the other order. -/
def mlTurned (i : Nat) : Nat := (List.range 8).foldl (fun v b => 2 * v + i / 2 ^ b % 2) 0

/-- The exponent of the root of unity at which value i of a polynomial is taken. -/
def mlExp (i : Nat) : Nat := 2 * mlTurned i + 1

/-- A power of the root of unity 1,753, which has order 512. -/
def mlRoot (e : Nat) : Nat := 1753 ^ (e % 512) % mlMod

/-- Value i of a polynomial. -/
def mlValue (f : List Nat) (i : Nat) : Nat :=
  let r := mlRoot (mlExp i)
  f.foldr (fun c v => (c + r * v) % mlMod) 0

/-- The polynomial with these values: 8,347,681 times 256 is 1. -/
def mlPoly (v : List Nat) : List Nat :=
  (List.range 256).map (fun j =>
    8347681 * (v.zipIdx.foldl (fun a x => a + x.1 * mlRoot (511 * j * mlExp x.2)) 0) % mlMod)

/-- Fields of w bits in a string of bytes. -/
def mlFields (bs : List Nat) (w n : Nat) : List Nat :=
  let x := littleNat bs
  (List.range n).map (fun i => x / 2 ^ (w * i) % 2 ^ w)

/-- Part i of a string of bytes that has parts of n. -/
def mlPart (bs : List Nat) (n i : Nat) : List Nat := (bs.drop (n * i)).take n

/-- Values below the modulus, of three bytes each; larger ones are passed over. -/
def mlSift : List Nat → List Nat
  | a :: b :: c :: rest =>
    let z := a + 256 * b + 65536 * (c % 128)
    if z < mlMod then z :: mlSift rest else mlSift rest
  | _ => []

/-- The values of the matrix at a row and a column, made from the key's seed. -/
def mlMatrix (seed : List Nat) (row col : Nat) : List Nat := (mlSift (shakeBytes 168 1344 (seed ++ [col, row]))).take 256

/-- The challenge: 49 coefficients are 1 or -1, at places and with signs that the hash gives. -/
def mlChallenge (hash : List Nat) : List Nat :=
  let bs := shakeBytes 136 544 hash
  let signs := littleNat (bs.take 8)
  ((List.range 49).foldl (fun (x : List Nat × List Nat) n =>
    let i := 207 + n
    match x.2.dropWhile (fun j => decide (i < j)) with
    | [] => x
    | j :: rest => ((x.1.set i (x.1.getD j 0)).set j (if signs / 2 ^ n % 2 = 1 then mlMod - 1 else 1), rest))
    (List.replicate 256 0, bs.drop 8)).1

/-- Where the hints of row i begin among the 55 places, and for row 6 where they end. -/
def mlHintAt (h : List Nat) (i : Nat) : Nat := if i = 0 then 0 else h.getD (54 + i) 0

/-- The hints of row i. -/
def mlHints (h : List Nat) (i : Nat) : List Nat := (h.drop (mlHintAt h i)).take (mlHintAt h (i + 1) - mlHintAt h i)

/-- The hints are well formed: rows follow each other, places rise within a row, and what is left of the 55 is zero. -/
def mlHintsOk (h : List Nat) : Bool :=
  (List.range 6).all (fun i => decide (mlHintAt h i ≤ mlHintAt h (i + 1)) && decide (mlHintAt h (i + 1) ≤ 55)
    && ((mlHints h i).zip (mlHints h i).tail).all (fun x => decide (x.1 < x.2)))
    && ((h.take 55).drop (mlHintAt h 6)).all (fun x => x == 0)

/-- The high part of a coefficient in steps of 523,776, moved by one where a hint says so. -/
def mlHigh (r : Nat) (hint : Bool) : Nat :=
  let m := r % 523776
  let high := if m ≤ 261888 then r / 523776 else r / 523776 + 1
  if hint then (if 0 < m ∧ m ≤ 261888 then high + 1 else high + 15) % 16 else high % 16

/-- Row i of what the signature commits to: the matrix times the response less the challenge times the key, its high parts. -/
def mlRow (key c h : List Nat) (zs : List (List Nat)) (i : Nat) : List Nat :=
  let t := mlFields (mlPart (key.drop 32) 320 i) 10 256
  let as := (List.range 5).map (mlMatrix (key.take 32) i)
  let w := mlPoly ((List.range 256).map (fun n =>
    ((as.zip zs).foldl (fun v x => v + x.1.getD n 0 * mlValue x.2 n) 0 + (mlMod - mlValue c n) * mlValue t n * 8192) % mlMod))
  w.zipIdx.map (fun x => mlHigh x.1 ((mlHints h i).contains x.2))

/-- R248: a 3,309-byte ML-DSA-65 signature of a message with the empty context verifies under a public key of 1,952 bytes. -/
def mlVerify (key msg sig : List Nat) : Bool :=
  let hash := sig.take 48
  let fields := (List.range 5).map (fun i => mlFields (mlPart (sig.drop 48) 640 i) 20 256)
  let h := sig.drop 3248
  let zs := fields.map (fun f => f.map (fun x => (mlMod + 524288 - x) % mlMod))
  let mu := shakeBytes 136 64 (shakeBytes 136 64 key ++ 0 :: 0 :: msg)
  let rows := (List.range 6).map (mlRow key (mlChallenge hash) h zs)
  let packed := rows.flatMap (fun r => (List.range 128).map (fun i => r.getD (2 * i) 0 + 16 * r.getD (2 * i + 1) 0))
  key.length == 1952 && sig.length == 3309 && mlHintsOk h
    && fields.all (fun f => f.all (fun x => decide (196 < x) && decide (x < 1048576 - 196)))
    && shakeBytes 136 48 (mu ++ packed) == hash

/-- R248: a KEYID is the first 32 bytes of SHAKE256 of its public key, and the message is the 64-byte digest. -/
def signatureOk (keyid digest : Nat) (sig : List Nat) : Bool :=
  let key := Config.publicKey keyid
  shake256 key % 2 ^ 256 == keyid && mlVerify key ((List.range 64).map (fun i => bits digest (8 * i + 7) (8 * i))) sig

end Sys2Proof.Machine
end

