-- ==== Sys2Proof/Machine/Near.lean ====
section
/-! DEFINITION. Near memories: error logs (R68, R79), L1 fills of prefetches (R46, R107), walks and TLB invalidation
(R39 to R41), the pool banks and their modes (R51 to R55), the tile cache with LDT (R56 to R61, R283), and the scrub of
near memories (R66, R67, R69). -/

namespace Sys2Proof.Machine

open Sys2Proof

/-! ### Error logs of the outer memories (R79) -/

/-- An error logged in FAR_ERR of a slice (R79). -/
def State.logFar (s : State) (slice kind unit sub off : Nat) : State :=
  let rec_ := unit % 16 * 2 ^ 56 + sub % 16 * 2 ^ 48 + off % 2 ^ 48
  let old := tabGet s.mem.farErr 0 slice
  let new := logErr old kind rec_
  State.logAlarm { s with mem := { s.mem with farErr := tabPut s.mem.farErr slice new } } kind (new != old)

/-- The subchannel of an address of external DRAM (R87). -/
def extSub (pa : Nat) : Nat :=
  let x := pa - 0x001000000000
  bits x 10 7 ^^^ bits x 14 11 ^^^ bits x 18 15 ^^^ bits x 22 19 ^^^ bits x 26 23 ^^^ bits x 30 27 ^^^ bits x 34 31

/-- An error of the memory that holds an address logged (R79, R393): external DRAM, or a vault. -/
def State.logHome (s : State) (kind pa : Nat) : State :=
  if 0x001000000000 ≤ pa then s.logFar (2 * extSub pa) kind 13 (extSub pa) pa else s.logFar (l2Slice pa) kind 12 0 pa

/-! ### L1 data lines and prefetches (R46, R107, R284) -/

/-- One prefetch served: an L1 fill with a lease, or an L2 fill without one; a poisoned word raises nothing (R66). The place that
fillL1 logs is the model's choice (log entry 83). -/
def State.servePref (s : State) (core : Nat) (r : PrefReq) : State :=
  if r.level = 0 then s.fillL1 core r.line r.cls
  else { s with mem := l2Touch s.mem s.dt r.line false }

/-- L1_LINE_FILL (R107): the oldest prefetch of a core is served. Lines that loads miss are filled as the load issues. -/
def execL1LineFill (c : Nat) (s : State) : Answer :=
  match (s.core c).prefs with
  | [] => .next s
  | r :: rest => .next ((s.setCore c { s.core c with prefs := rest }).servePref c r)

/-- LEASE_EXPIRY (R107): the copies of a core and of its cluster's tile cache whose expiry has passed are gone. -/
def execLeaseExpiry (c : Nat) (s : State) : Answer :=
  let s1 := s.setCore c { s.core c with l1d := (s.core c).l1d.filter (fun l => decide (s.dt < l.expiry)) }
  let k := clusterOf c
  .next (s1.setCluster k { s1.cluster k with tiles := (s1.cluster k).tiles.filter (fun t => decide (s1.dt < t.expiry)) })

/-! ### Walks and invalidations (R39 to R41) -/

/-- The agent of a core's own translations. -/
def coreEnv (core : Nat) : Env := { core := some core, cluster := clusterOf core, crew := none, launch := 0 }

/-- PAGE_WALK_COMPLETE (R39, R40): running walk i fills the TLBs, its chain of waiters proceeds, and its entry of the miss table
is free; the walker takes another. A walk that an invalidation names restarts once BUSY clears (R41). -/
def execPageWalkComplete (i : Nat) (s : State) : Answer :=
  match s.running[i]? with
  | none => .next s
  | some (k, r) =>
    if s.walkHeld r then .next s else .next (s.finishWalk { core := none, cluster := k, crew := none, launch := 0 } r (r.page * 65536) false).1

/-- A TLB invalidation starts, unless one is in progress (R41). -/
def State.tlbInv (s : State) (mode ctx vpn : Nat) : State :=
  if s.dev.tlbBusy then s
  else { s with dev := { s.dev with tlbMode := mode, tlbCtx := ctx % 4096, tlbVpn := vpn % 2 ^ 36, tlbBusy := mode != 3 } }

/-- TLB_INV_ALL (R41). -/
def execTlbInvAll (s : State) : Answer := .next (s.tlbInv 0 s.dev.tlbCtx s.dev.tlbVpn)

/-- TLB_INV_CONTEXT (R41). -/
def execTlbInvContext (ctx : Nat) (s : State) : Answer := .next (s.tlbInv 1 ctx s.dev.tlbVpn)

/-- TLB_INV_PAGE (R41). -/
def execTlbInvPage (ctx vpn : Nat) (s : State) : Answer := .next (s.tlbInv 2 ctx vpn)

/-- A TLB without the entries that an invalidation names. -/
def tlbPurge (mode ctx vpn : Nat) (l : List TlbEntry) : List TlbEntry :=
  l.filter (fun t => !(match mode with
    | 0 => true
    | 1 => ctx == t.ctx
    | _ => ctx == t.ctx && vpnOf (vpn * 4096) t.big == t.vpn))

/-- The walker's pointer cache without the entries that an invalidation names (R40, R41). -/
def ptrPurge (mode ctx vpn : Nat) (l : List PtrEntry) : List PtrEntry :=
  l.filter (fun p => !(match mode with
    | 0 => true
    | 1 => ctx == p.ctx
    | _ => ctx == p.ctx && walkPrefix (vpn * 4096) p.level == p.index))

/-- No MLDB is outstanding and no speculative wave has a store in its buffer: the accesses that may have used a translation and
that only their own completion ends (R41). -/
def State.noLateAccess (s : State) : Bool :=
  s.clusters.all (fun e => e.2.seq.mldbs.isEmpty)
    && s.waves.all (fun e => match e.2.spec with
      | none => true
      | some p => p.stores.isEmpty)

/-- Every write in flight is performed, and every prefetch served, and a load that has performed in part begins anew with a new
translation: the accesses that used one (R41). -/
def State.settleAll (s : State) : State :=
  let s1 := (s.waves.map (fun e => e.1)).foldl (fun t w => (t.flushAll w).unsend w) s
  let s2 := (s1.mem.accounts.map (fun e => e.1)).foldl State.emptyAccount s1
  (s2.cores.map (fun e => e.1)).foldl (fun t c =>
    (t.core c).prefs.foldl (fun u r => u.servePref c r) (t.setCore c { t.core c with prefs := [] })) s2

/-- TLB_INV_COMPLETE (R41): the accesses that used a matching entry have performed, neither a TLB nor the pointer cache holds one,
and BUSY clears. -/
def execTlbInvComplete (s : State) : Answer :=
  if s.dev.tlbBusy = false ∨ s.noLateAccess = false then .next s
  else
    let d := s.dev
    let s1 := s.settleAll
    let cs : Tab CoreSt := s1.cores.map (fun (e : Nat × CoreSt) => (e.1, { e.2 with tlb := tlbPurge d.tlbMode d.tlbCtx d.tlbVpn e.2.tlb }))
    let ks : Tab ClusterSt := s1.clusters.map (fun (e : Nat × ClusterSt) =>
      (e.1, { e.2 with tlb := tlbPurge d.tlbMode d.tlbCtx d.tlbVpn e.2.tlb }))
    .next { s1 with
      cores := cs, clusters := ks, dev := { s1.dev with tlbBusy := false }
      mem := { s1.mem with ptrs := ptrPurge d.tlbMode d.tlbCtx d.tlbVpn s1.mem.ptrs } }

/-! ### Pool banks (R51 to R55) -/

/-- The mode of a bank at cold and warm start (R51). -/
def bankReset (b : Nat) : Nat := if b < 8 then 0 else if b < 30 then 1 else 2

/-- The mode of a bank: 0 TILE, 1 SCRATCH, 2 FIFO, 3 DRAIN (R51). -/
def State.bankMode (s : State) (k b : Nat) : Nat :=
  match tabFind (s.cluster k).modes b with
  | some m => m
  | none => bankReset b

/-- The banks in TILE mode: the ways of the tile cache (R56). -/
def State.tileBanks (s : State) (k : Nat) : List Nat := (List.range 32).filter (fun b => s.bankMode k b == 0)

/-- A bank is assigned: a SCRATCH bank of a launch, a FIFO bank with a cistern, or bank 31 with a queue that holds an
entry (R52, R54, R360, R362). -/
def State.bankOwned (s : State) (k b : Nat) : Bool :=
  (tabFind (s.cluster k).bankOwner b).isSome ||
    (b == 31 && ((List.range 4).any (fun p => !(s.core (coreAt k p)).headrace.isEmpty
        || (s.core (coreAt k p)).channels.any (fun e => !e.2.heads.isEmpty))
      || (s.cluster k).staging.any (fun e => !e.2.isEmpty)))

/-- STATUS of a refused change of mode, in the order of R54; none where the change is accepted. -/
def State.poolRefusal (s : State) (k b m : Nat) : Option Nat :=
  if s.bankOwned k b then some 1
  else if m = 0 ∧ 16 ≤ (s.tileBanks k).length then some 2
  else if b = 31 ∨ m = 3 then some 3
  else none

/-- A write of POOL_CMD with GO 1 (R54, R55). The test for the mode that the bank has already comes before every refusal (log
entry 81). The change in progress keeps its own bank and mode. -/
def State.poolGo (s : State) (k b m : Nat) : State :=
  let c := s.cluster k
  if c.cmd.busy then s
  else
    let bk := b % 32
    let md := m % 4
    let cmd : PoolCmd := { c.cmd with newMode := md, bank := bk }
    if s.bankMode k bk = md then s.setCluster k { c with cmd := { cmd with status := 0 } }
    else
      match s.poolRefusal k bk md with
      | some st => s.setCluster k { c with cmd := { cmd with status := st } }
      | none => s.setCluster k { c with
          cmd := { cmd with busy := true, run := (bk, md) }, modes := tabPut c.modes bk 3
          fills := c.fills.map (fun f => if f.bank = bk then { f with drop := true } else f) }

/-- POOL_MODE_CHANGE (R54, R55): a write of POOL_CMD with GO 1. -/
def execPoolModeChange (k b m : Nat) (s : State) : Answer := .next (if k < 32 then s.poolGo k b m else s)

/-- POOL_DRAIN_COMPLETE (R55): the fills into the bank have ended; its lines are gone, it is zeroed, and it enters its new
mode. -/
def execPoolDrainComplete (k : Nat) (s : State) : Answer :=
  let c := s.cluster k
  let b := c.cmd.run.1
  if c.cmd.busy = false ∨ c.fills.any (fun f => f.bank == b) = true then .next s
  else
    let s1 := s.setStore (s.store.zero (poolKey k (b * 131072)) 131072)
    .next (s1.setCluster k { c with
      cmd := { c.cmd with busy := false, status := 0 }, modes := tabPut c.modes b c.cmd.run.2
      tiles := c.tiles.filter (fun t => t.bank != b) })

/-! ### The tile cache (R56 to R61) -/

/-- Rows of a tile that lie inside a tensor, and inside bytes of each (R59). -/
def Tensor.inside (d : Tensor) (tx ty tz : Nat) : Nat × Nat :=
  if tz < d.depth then (min 16 (d.height - 16 * ty), min 64 (d.width - 64 * tx)) else (0, 0)

/-- TileByteAddress of byte 0 of a row (R59). -/
def Tensor.rowVa (d : Tensor) (tx ty tz i : Nat) : Nat :=
  d.base + tz * d.planePitch + (ty * 16 + i) * d.rowPitch + tx * 64

/-- The slot of a cluster's tensor table that holds a tensor of a launch (R58). -/
def State.tensorSlot (s : State) (k l tid : Nat) : Option (Nat × Tensor) :=
  (s.cluster k).tensors.find? (fun e => e.2.launch == l && e.2.tid == tid)

/-- TileSet (R60). -/
def tileSet (slot tx ty tz : Nat) : Nat := (tx + 5 * ty + 17 * tz + 29 * slot) % 128

/-- The rows of a tile that hold inside bytes (R59). -/
def Tensor.insideRows (d : Tensor) (tx ty tz : Nat) : List Nat :=
  let ins := d.inside tx ty tz
  if ins.2 = 0 then [] else List.range ins.1

/-- The first inside byte of a tile that lies outside a capability's bounds (R27, R59). -/
def Tensor.outOfBounds (d : Tensor) (c : Capv) (tx ty tz : Nat) : Option Nat :=
  let len := (d.inside tx ty tz).2
  (d.insideRows tx ty tz).findSome? (fun i =>
    let va := d.rowVa tx ty tz i
    if va < c.base then some (va % 2 ^ 48) else if c.top < va + len then some (max va c.top % 2 ^ 48) else none)

/-- The places of the inside rows of a tile (R59): the rows with their numbers, or the state left, the cause and the first failing
address. -/
def State.tileRows (s : State) (e : Env) (d : Tensor) (tx ty tz : Nat) (is : List Nat) :
    Except (State × Cause × Nat) (State × List (Nat × List (Nat × Nat))) :=
  match is with
  | [] => .ok (s, [])
  | i :: rest =>
    match s.vaKeys e .load (d.rowVa tx ty tz i) (d.inside tx ty tz).2 2 with
    | .error x => .error x
    | .ok (s1, ks) =>
      match s1.tileRows e d tx ty tz rest with
      | .error x => .error x
      | .ok (s2, rs) => .ok (s2, (i, ks) :: rs)

/-- The lease class of a tile (R61). -/
def tileClass (d : Tensor) (rows : List (Nat × List (Nat × Nat))) : Nat :=
  rows.foldl (fun x r => r.2.foldl (fun y k => min y k.2) x) d.lease

/-- The 1,024 bytes of a tile read at home: rows outside the tensor are zero (R59). -/
def tileBytes (m : Store) (rows : List (Nat × List (Nat × Nat))) : List Byte :=
  (List.range 16).flatMap (fun i =>
    let ks := tabGet rows [] i
    (List.range 64).map (fun j => match ks[j]? with
      | some k => m.byte k.1
      | none => 0))

/-- The poisoned words of a tile (R66). -/
def tilePoison (m : Store) (rows : List (Nat × List (Nat × Nat))) : List Nat :=
  (List.range 128).filter (fun n => ((tabGet rows [] (n / 8)).drop (n % 8 * 8)).take 8 |>.any (fun k => m.poisoned k.1 1))

/-- A line that serves a lookup: valid, in a TILE bank, its lease not run out (R55, R60, R61). -/
def State.tileHit (s : State) (k slot tx ty tz : Nat) : Option TileLine :=
  (s.cluster k).tiles.find? (fun t => t.slot == slot && t.tx == tx && t.ty == ty && t.tz == tz
    && s.bankMode k t.bank == 0 && decide (s.dt < t.expiry))

/-- A fill in flight that a miss joins while its lease has not run out (R55, R60, R61). -/
def State.tileJoin (s : State) (k slot tx ty tz : Nat) : Option TileFill :=
  (s.cluster k).fills.find? (fun f => f.slot == slot && f.tx == tx && f.ty == ty && f.tz == tz && !f.drop
    && decide (s.dt < f.expiry))

/-- When a bank's way of a set was used last; an empty way counts as never used. -/
def State.wayUsed (s : State) (k set b : Nat) : Nat :=
  match (s.cluster k).tiles.find? (fun t => t.bank == b && tileSet t.slot t.tx t.ty t.tz == set) with
  | none => 0
  | some t => t.used + 1

/-- The way of a set that a miss allocates (R60): least recently used, ties by the lowest bank, none where every way has a
fill in flight. A refill after the lease's end chooses its way anew (log entry 81). -/
def State.tileVictim (s : State) (k set : Nat) : Option Nat :=
  let free := (s.tileBanks k).filter (fun b =>
    !(s.cluster k).fills.any (fun f => f.bank == b && tileSet f.slot f.tx f.ty f.tz == set))
  match free with
  | [] => none
  | b :: rest => some (rest.foldl (fun x y => if s.wayUsed k set y < s.wayUsed k set x then y else x) b)

/-- One past the largest recency number of the tile lines. -/
def State.tileClock (s : State) (k : Nat) : Nat := (s.cluster k).tiles.foldl (fun n t => max n (t.used + 1)) 0

/-- The leases that the L2 grants for the rows of a fill (R61, R107), or the plain reads of a tile without one. -/
def State.tileReads (s : State) (cls : Nat) (rows : List (Nat × List (Nat × Nat))) : State :=
  let keys := rows.flatMap (fun r => r.2.map (fun k => k.1))
  let lines := keys.foldl (fun l a => if isPlace3 a then l else memberAdd l (a / 128)) []
  { s with mem := lines.foldl (fun ms x => if cls = 0 then l2Touch ms s.dt x false else l2Grant ms s.dt x cls) s.mem }

/-- A tile served to a tile read (R56, R60, R61, R98): its bytes and its poisoned words. -/
def State.tileServe (s : State) (k slot tx ty tz cls : Nat) (rows : List (Nat × List (Nat × Nat))) :
    State × List Byte × List Nat :=
  if cls = 0 ∨ s.tileBanks k = [] then
    let s1 := s.tileReads 0 rows
    (s1, tileBytes s1.store rows, tilePoison s1.store rows)
  else
    match s.tileHit k slot tx ty tz, s.tileJoin k slot tx ty tz with
    | some t, _ =>
      let n := s.tileClock k
      let upd := fun (x : TileLine) => if x = t then { x with used := n } else x
      (s.setCluster k { s.cluster k with tiles := (s.cluster k).tiles.map upd }, t.bytes, t.poison)
    | none, some f => (s, f.bytes, f.poison)
    | none, none =>
      let s1 := s.tileReads cls rows
      let bs := tileBytes s1.store rows
      let pz := tilePoison s1.store rows
      match s1.tileVictim k (tileSet slot tx ty tz) with
      | none => (s1, bs, pz)
      | some b =>
        let f : TileFill := { slot := slot, tx := tx, ty := ty, tz := tz, bank := b, drop := false
                              expiry := s1.dt + leaseNs cls, bytes := bs, poison := pz }
        let s2 := s1.setCluster k { s1.cluster k with fills := (s1.cluster k).fills ++ [f] }
        (if pz = [] then s2 else s2.logNear k 2 4 0 b (tileSet slot tx ty tz * 1024 + pz.headD 0 * 8), bs, pz)

/-- A tile served to a lane of a wave: a miss reads its home after the wave's own writes there (R109). -/
def State.serveTile (s : State) (w k slot tx ty tz cls : Nat) (rows : List (Nat × List (Nat × Nat))) :
    State × List Byte × List Nat :=
  let kept := cls != 0 && ((s.tileHit k slot tx ty tz).isSome || (s.tileJoin k slot tx ty tz).isSome)
  let s1 := if kept then s
    else s.flushHomes w (rows.foldl (fun l r => r.2.foldl (fun l k => memberAdd l (homeOf k.1)) l) [])
  s1.tileServe k slot tx ty tz cls rows

/-- TILE_FILL_COMPLETE (R60): a fill arrives; its line takes the way of its set, unless the bank drains (R55). -/
def execTileFillComplete (k i : Nat) (s : State) : Answer :=
  let c := s.cluster k
  match c.fills[i]? with
  | none => .next s
  | some f =>
    let rest := listDel c.fills i
    if f.drop = true ∨ s.bankMode k f.bank ≠ 0 then .next (s.setCluster k { c with fills := rest })
    else
      let set := tileSet f.slot f.tx f.ty f.tz
      let line : TileLine := { slot := f.slot, tx := f.tx, ty := f.ty, tz := f.tz, bank := f.bank, expiry := f.expiry
                               bytes := f.bytes, poison := f.poison, used := s.tileClock k }
      .next (s.setCluster k { c with
        fills := rest
        tiles := line :: c.tiles.filter (fun t => !(t.bank == f.bank && tileSet t.slot t.tx t.ty t.tz == set)) })

/-! ### LDT (R283) -/

/-- The fields of a tile coordinate operand: tx, ty, tz, row and byte. -/
def tileFields (v : Nat) : Nat × Nat × Nat × Nat × Nat := (bits v 15 0, bits v 31 16, bits v 47 32, bits v 51 48, bits v 57 52)

/-- A lane of an LDT that passed its checks: lane, thread, operand, and the places of its tile's rows. -/
structure TileAcc where
  lane : Nat
  thread : Nat
  v : Nat
  rows : List (Nat × List (Nat × Nat))
deriving DecidableEq, Repr

/-- The checks and translations of every lane of an LDT (R283, R377). -/
def State.tileLocate (s : State) (e : Env) (c : Capv) (ci n : Nat) (d : Tensor) (ls : List (Nat × Nat × Nat)) :
    State × Tab TrapLane × List TileAcc :=
  match ls with
  | [] => (s, [], [])
  | (l, t, v) :: rest =>
    let (tx, ty, tz, i, j) := tileFields v
    if 64 < j + n then
      let x := s.tileLocate e c ci n d rest
      (x.1, (l, capLane .misalign c ci (d.rowVa tx ty tz i + j)) :: x.2.1, x.2.2)
    else
      match d.outOfBounds c tx ty tz with
      | some addr =>
        let x := s.tileLocate e c ci n d rest
        (x.1, (l, capLane .capBounds c ci addr) :: x.2.1, x.2.2)
      | none =>
        match s.tileRows e d tx ty tz (d.insideRows tx ty tz) with
        | .error (s1, cause, addr) =>
          let x := s1.tileLocate e c ci n d rest
          (x.1, (l, capLane cause c ci addr) :: x.2.1, x.2.2)
        | .ok (s1, rows) =>
          let x := s1.tileLocate e c ci n d rest
          (x.1, x.2.1, { lane := l, thread := t, v := v, rows := rows } :: x.2.2)

/-- The tiles of the lanes read in ascending order: values, and the lanes that met poison. -/
def State.tileLanes (s : State) (w k ci n slot : Nat) (c : Capv) (d : Tensor) (as : List TileAcc) :
    State × List (Nat × Nat) × Tab TrapLane :=
  match as with
  | [] => (s, [], [])
  | a :: rest =>
    let (tx, ty, tz, i, j) := tileFields a.v
    let r := if a.rows = [] then (s, List.replicate 1024 0, []) else s.serveTile w k slot tx ty tz (tileClass d a.rows) a.rows
    let t := r.1.tileLanes w k ci n slot c d rest
    let bad := (List.range n).find? (fun x => r.2.2.contains (8 * i + (j + x) / 8))
    match bad with
    | some x => (t.1, t.2.1, (a.lane, capLane .poison c ci (d.rowVa tx ty tz i + j + x)) :: t.2.2)
    | none => (t.1, (a.thread, natOfBytes ((r.2.1.drop (64 * i + j)).take n)) :: t.2.1, t.2.2)

/-- LDT (R283). -/
def execLdt (o : Sys2Proof.Cas) (s : State) : Answer :=
  s.onWave (fun w => s.unlessSpec w (
    s.issueQuota w { mark := o.mark, g := o.g, legal := attrOk [0, 1] o.attr o.scope && o.a.width == 16
                     reads := [o.a], writes := [o.d] } (fun act =>
      let am := laneMask act
      let c := s.kReg o.cap
      let all := fun cause => TrapInfo.ofLanes (act.map (fun e => (e.1, capLane cause c o.cap c.base)))
      let k := s.waveCluster w
      if act = [] then s.finish w o.mark
      else
        match capCheck c [5] permLD, s.tensorSlot k (s.waveLaunch w) c.tid with
        | some cause, _ => s.takeTrap w am (all cause)
        | none, none => s.takeTrap w am (all .accessFault)
        | none, some (slot, d) =>
          let pz := s.poisonLanes w act [o.a]
          let ls := act.map (fun e => (e.1, e.2, s.opnd w e.2 o.a))
          let y := s.tileLocate (s.waveEnv w) c o.cap (opBytes o.d.width) d ls
          let bad := tabMerge pz y.2.1
          if bad ≠ [] then y.1.takeTrap w am (TrapInfo.ofLanes bad)
          else
            let r := y.1.tileLanes w k o.cap (opBytes o.d.width) slot c d y.2.2
            r.1.finishLoad w am o.mark o.d r.2.1 r.2.2)))

/-- An engine's read of a byte of a registered tensor through the tile cache (R51, R60, R98): its byte and poison; none where the
byte lies outside the tensor, or the tile's rows do not all translate, and the byte is read at its home. -/
def State.tileByte (s : State) (e : Env) (tid va : Nat) : State × Option (Byte × Bool) :=
  match s.tensorSlot e.cluster e.launch tid with
  | none => (s, none)
  | some (slot, d) =>
    let o := va - d.base
    let tz := if d.planePitch = 0 ∨ d.depth ≤ 1 then 0 else o / d.planePitch
    let o1 := o - tz * d.planePitch
    let row := if d.rowPitch = 0 then 0 else o1 / d.rowPitch
    let col := o1 - row * d.rowPitch
    let (tx, ty) := (col / 64, row / 16)
    if va < d.base ∨ d.width ≤ col ∨ d.height ≤ row ∨ d.depth ≤ tz then (s, none)
    else
      match s.tileRows e d tx ty tz (d.insideRows tx ty tz) with
      | .error (s1, _) => (s1, none)
      | .ok (s1, rows) =>
        let r := s1.tileServe e.cluster slot tx ty tz (tileClass d rows) rows
        (r.1, some (r.2.1.getD (row % 16 * 64 + col % 64) 0, r.2.2.contains (row % 16 * 8 + col % 64 / 8)))

/-! ### Splits and scrubs (R45, R66, R67, R69) -/

/-- KiB of a core's scratchpad under its split (R44). -/
def splitKib (split : Nat) : Nat :=
  match split with
  | 0 => 224
  | 1 => 192
  | _ => 128

/-- A write of CORE_SRAM by the scheduler core, while the core holds no crew; a split of 3 is ignored (R45). -/
def State.writeSplit (s : State) (c v : Nat) : State :=
  if s.liveCrews c ≠ [] ∨ v % 4 = 3 then s else s.setCore c { s.core c with split := v % 4, l1d := [] }

/-- CORE_SRAM_WRITE (R45). -/
def execCoreSramWrite (c v : Nat) (s : State) : Answer := .next (if c < 128 then s.writeSplit c v else s)

/-- The word of a near memory that a scrub checks: its place in the unified memory, by UNIT of R68 with the core place or
the pool bank. -/
def scrubKey (k unit place off : Nat) : Nat :=
  match unit with
  | 2 => spKey (coreAt k (place % 4)) off
  | 3 => poolKey k (place % 32 * 131072 + off)
  | 6 => opKey k off
  | 7 => accKey k off
  | _ => weightKey k (off / 40960) (off % 40960)

/-- The lines that the L1 instruction cache of a core or one of its fetch buffers holds (R66): those of the cache, and then those
that only a buffer holds. -/
def CoreSt.codeLines (x : CoreSt) : List Nat :=
  (x.l1i ++ x.fbufs.flatMap (fun e => e.2)).foldl (fun l y => if l.contains y.line then l else l ++ [y.line]) []

/-- A parity error of a cache or a fetch buffer (R66): the line is gone and is fetched again when it is next asked for. Lines of the
L1 are counted from the one filled last; a tile line is named by its bank and its set. -/
def State.dropLine (s : State) (k unit place off : Nat) : State :=
  let c := coreAt k (place % 4)
  let x := s.core c
  match unit with
  | 0 =>
    let stays := fun (l : ILine) => x.codeLines[off / 64]? != some l.line
    s.setCore c { x with l1i := x.l1i.filter stays, fbufs := x.fbufs.map (fun e => (e.1, e.2.filter stays)) }
  | 1 => s.setCore c { x with l1d := listDel x.l1d (off / 64) }
  | _ => s.setCluster k { s.cluster k with
      tiles := (s.cluster k).tiles.filter (fun t => !(t.bank == place % 32 && tileSet t.slot t.tx t.ty t.tz == off / 1024 % 128)) }

/-- The core and the partition whose slot holds a byte offset of a cluster's shadow (R65). -/
def shadowOwner (k off : Nat) : Nat × Nat := (coreAt k (off / 196608 / 8 % 4), off / 196608 % 8)

/-- An uncorrectable error that a scrub finds: a granule or a word is poisoned, or a shadow slot has lost data (R66, R67). -/
def State.scrubLoss (s : State) (k unit place off : Nat) : State :=
  let key := scrubKey k unit place off
  match unit with
  | 2 | 3 => s.setStore (s.store.poisonGranule (key / 16))
  | 6 | 7 | 8 => s.setStore { s.store with poison := memberAdd s.store.poison (key / 8) }
  | 9 =>
    let x := shadowOwner k off
    let sw := (s.core x.1).swap
    if sw.saved = [] then s else s.setCore x.1 { s.core x.1 with swap := { sw with lost := memberAdd sw.lost x.2 } }
  | _ => s

end Sys2Proof.Machine
end

