-- ==== Sys2Proof/Machine/Flume.lean ====
section
/-! DEFINITION. Flume transfers (class 10; R146 to R157, R296): FLK, FLQ and FLC, and the engine that walks chains. The
engine reads at the home and takes no lease (R107); a record is moved in one step (log entry 21). -/

namespace Sys2Proof.Machine

open Sys2Proof

/-! ### Channels and FLS (R147, R155) -/

/-- A channel of a core. -/
def State.channel (s : State) (core ch : Nat) : Channel := tabGet (s.core core).channels Channel.idle ch

/-- The state with a channel changed. -/
def State.setChannel (s : State) (core ch : Nat) (x : Channel) : State :=
  s.setCore core { s.core core with channels := tabPut (s.core core).channels ch x }

/-- An entry of staging or of the spillway is a head of a channel. -/
def Spilled.headOf (core ch : Nat) (x : Spilled) : Option Head :=
  match x with
  | .task _ _ => none
  | .head c h hd => if c = core ∧ h = ch then some hd else none

/-- The spilled heads of a channel, oldest first: those in the spillway, then those in staging (R147, R363). -/
def State.spilledHeads (s : State) (l core ch : Nat) : List Head :=
  (s.launch l).ring.filterMap (Spilled.headOf core ch) ++ (s.stagingOf (clusterOf core) l).filterMap (Spilled.headOf core ch)

/-- Some head of a crew is spilled, on any channel (R147). -/
def State.crewSpilled (s : State) (crew : Nat) : Bool :=
  let c := s.crew crew
  [0, 1, 2, 3].any (fun ch => (s.spilledHeads c.launch c.core ch).any (fun h => h.crew == crew))

/-- Some head of a channel is spilled, of any launch. -/
def State.channelSpilled (s : State) (core ch : Nat) : Bool :=
  (s.launches.map (fun e => e.1)).any (fun l => !(s.spilledHeads l core ch).isEmpty)

/-- The stored fields of FLS_c. -/
def State.fls (s : State) (crew ch : Nat) : Fls := tabGet (s.crew crew).fls Fls.zero ch

/-- The state with the stored fields of FLS_c changed. -/
def State.setFls (s : State) (crew ch : Nat) (x : Fls) : State :=
  s.setCrew crew { s.crew crew with fls := tabPut (s.crew crew).fls ch x }

/-- FLS_c as a register (R155). A chain that FLC ended or dropped counts as running until it is walked (log entry 83). -/
def State.flsReg (s : State) (crew ch : Nat) : Nat :=
  let c := s.crew crew
  let x := s.channel c.core ch
  let f := s.fls crew ch
  let active := (match x.chain with
    | none => false
    | some y => y.crew == crew) || x.cancelled.any (fun y => y.crew == crew)
  let sp := (s.spilledHeads c.launch c.core ch).any (fun h => h.crew == crew)
  let queued := (x.heads.filter (fun h => h.crew == crew)).length
  (if active then 2 ^ 63 else 0) + (if sp then 2 ^ 62 else 0) + (if f.idxErr then 2 ^ 61 else 0)
    + (if f.stopped then 2 ^ 60 else 0) + queued % 32 * 2 ^ 55 + f.firstRow * 2 ^ 32 + f.firstRec

/-- W1C of IDXERR and STOPPED (R155); FIRSTROW and FIRSTREC keep their values until IDXERR is set again (log entry 83). -/
def State.flsClear (s : State) (crew ch v : Nat) : State :=
  let f := s.fls crew ch
  s.setFls crew ch { f with idxErr := f.idxErr && !bit v 61, stopped := f.stopped && !bit v 60 }

/-- STOPPED set in a crew's FLS of a channel. -/
def State.setStopped (s : State) (crew ch : Nat) : State := s.setFls crew ch { s.fls crew ch with stopped := true }

/-! ### FLK, FLQ and FLC (R296) -/

/-- The checks of FLK on the chain capability, in the order of R28: the cause. -/
def State.flkCheck (s : State) (e : Env) (c : Capv) (off : Nat) : Option Cause :=
  match capCheck c [0, 1, 2] (permXF + permLD + permLC) with
  | some cause => some cause
  | none => (s.laneCheck e c off 64 64).map Prod.fst

/-- A head kicked for a channel (R147): the state and the STATUS. -/
def State.kick (s : State) (crew ch : Nat) (h : Head) : State × Nat :=
  let core := (s.crew crew).core
  let l := (s.crew crew).launch
  let x := s.channel core ch
  let s1 := s.setCrew crew { s.crew crew with kicks := (s.crew crew).kicks + 1 }
  if x.heads.length < 16 ∧ s.crewSpilled crew = false ∧ s.channelSpilled core ch = false then
    (s1.setChannel core ch { x with heads := x.heads ++ [h] }, 0)
  else if s.stagingRoom (clusterOf core) l then (s1.pushStaging (clusterOf core) l (.head core ch h), 3)
  else (s, 4)

/-- FLK (R296): never waits; the head is forwarded under R103. -/
def execFlk (o : Sys2Proof.Flk) (s : State) : Answer :=
  s.onWave (fun w => s.unlessSpec w (
    let c := s.kUse o.cap
    let off := s.sReg o.a
    match s.flkCheck (s.waveEnv w) c off with
    | some cause => s.takeTrap w (s.occupiedMask w) (TrapInfo.ofLanes ((s.occupied w).map (fun e =>
        (e.1, capLane cause c o.cap (c.base + off)))))
    | none => s.afterGate w (fun t =>
        let crew := crewOf w
        let h : Head := { crew := crew, cap := c, off := off, kick := (t.crew crew).kicks, fork := t.forkOf w
                          forwarded := false }
        let r := t.kick crew (o.ch % 4) h
        (r.1.setStatus w r.2).finish w o.mark)))

/-- FLQ (R296). -/
def execFlq (o : Sys2Proof.Flq) (s : State) : Answer :=
  s.onWave (fun w => s.unlessSpec w (
    let v := s.flsReg (crewOf w) (o.ch % 4)
    let busy := bit v 63 || bit v 62 || bits v 59 55 != 0
    ((s.setSReg o.d v).setStatus w (if busy then 9 else 0)).finish w o.mark))

/-- A head that was never started, as a chain to be walked (R156). -/
def Head.toChain (h : Head) : Chain :=
  { crew := h.crew, cap := h.cap, off := h.off, kick := h.kick, fork := h.fork, credit := none }

/-- An entry is a head of a crew on a channel. -/
def Spilled.crewHead (core ch crew : Nat) (x : Spilled) : Bool :=
  match Spilled.headOf core ch x with
  | none => false
  | some h => h.crew == crew

/-- FLC (R156, R296): every queued head of the crew and its running chain are left to be walked. -/
def State.cancelChains (s : State) (crew ch : Nat) : State :=
  let core := (s.crew crew).core
  let l := (s.crew crew).launch
  let x := s.channel core ch
  let sp := (s.spilledHeads l core ch).filter (fun h => h.crew == crew)
  let run := match x.chain with
    | none => []
    | some c => if c.crew = crew then [c] else []
  let s1 := s.setLaunch l { s.launch l with ring := (s.launch l).ring.filter (fun y => !y.crewHead core ch crew) }
  let s2 := s1.setStaging (clusterOf core) l ((s1.stagingOf (clusterOf core) l).filter (fun y => !y.crewHead core ch crew))
  s2.setChannel core ch
    { heads := x.heads.filter (fun h => h.crew != crew), chain := if run = [] then x.chain else none
      cancelled := x.cancelled ++ run ++ (x.heads.filter (fun h => h.crew == crew)).map Head.toChain ++ sp.map Head.toChain }

/-- FLC (R296). -/
def execFlc (o : Sys2Proof.Flc) (s : State) : Answer :=
  s.onWave (fun w => s.unlessSpec w (s.afterGate w (fun t => (t.cancelChains (crewOf w) (o.ch % 4)).finish w o.mark)))

/-! ### Heads become chains (R103, R147) -/

/-- The units of a cluster run: its clock is not stopped (R396, R401). -/
def State.clusterRuns (s : State) (k : Nat) : Bool :=
  !((s.cluster k).brownout || (s.cluster k).lost || (s.cluster k).rail.busy)

/-- A list with the first element that satisfies a test changed. -/
def firstMap {α : Type} (l : List α) (p : α → Bool) (f : α → α) : List α :=
  match l with
  | [] => []
  | x :: rest => if p x then f x :: rest else x :: firstMap rest p f

/-- FLUME_HEAD_FORWARD (R103): the oldest head of a channel that is not forwarded goes on once its wave's earlier writes
have returned; it carries MAXW as NOTBEFORE. -/
def execFlumeHeadForward (c ch : Nat) (s : State) : Answer :=
  let x := s.channel c (ch % 4)
  match x.heads.find? (fun h => !h.forwarded) with
  | none => .next s
  | some h =>
    if s.forkReturned h.fork = false then .next s
    else
      let fwd := fun (y : Head) => { y with forwarded := true, fork := { Fork.none with maxw := s.forkMaxw y.fork } }
      .next (s.setChannel c (ch % 4) { x with heads := firstMap x.heads (fun y => !y.forwarded) fwd })

/-- A list without its first element that satisfies a test. -/
def firstDrop {α : Type} (l : List α) (p : α → Bool) : List α :=
  match l with
  | [] => []
  | x :: rest => if p x then rest else x :: firstDrop rest p

/-- The launch whose spilled head for a channel was kicked first: its word issued earliest (R147). -/
def State.oldestSpilled (s : State) (core ch : Nat) : Option Nat :=
  let firsts := (s.launches.map (fun e => e.1)).filterMap (fun l => ((s.spilledHeads l core ch).head?).map (fun h => (l, h.fork.ser)))
  match firsts with
  | [] => none
  | x :: rest => some (rest.foldl (fun b y => if y.2 < b.2 then y else b) x).1

/-- The oldest spilled head of a channel moves on chip while a slot is free (R147); the argument bounds the moves. -/
def State.refillHeads (s : State) (core ch : Nat) : Nat → State
  | 0 => s
  | n + 1 =>
    let x := s.channel core ch
    let is := fun (y : Spilled) => (Spilled.headOf core ch y).isSome
    match s.oldestSpilled core ch with
    | none => s
    | some l =>
      if 16 ≤ x.heads.length then s
      else
        match s.spilledHeads l core ch with
        | [] => s
        | h :: _ =>
          let s1 := if (s.launch l).ring.any is then
              s.setLaunch l { s.launch l with ring := firstDrop (s.launch l).ring is, ringHead := (s.launch l).ringHead + 1 }
            else s.setStaging (clusterOf core) l (firstDrop (s.stagingOf (clusterOf core) l) is)
          (s1.setChannel core ch { x with heads := x.heads ++ [h] }).refillHeads core ch n

/-- FLUME_CHAIN_START (R147): an idle channel starts its oldest head, and spilled heads take the free slots. -/
def execFlumeChainStart (c ch : Nat) (s : State) : Answer :=
  let s0 := s.refillHeads c (ch % 4) 16
  let x := s0.channel c (ch % 4)
  match x.chain, x.cancelled, x.heads with
  | none, [], h :: rest =>
    if h.forwarded = true ∧ s.forkReady h.fork = true ∧ s.clusterRuns (clusterOf c) = true then
      .next ((s0.setChannel c (ch % 4) { x with heads := rest, chain := some h.toChain }).refillHeads c (ch % 4) 1)
    else .next s0
  | _, _, _ => .next s0

/-! ### Transfer records (R148, R149) -/

/-- A transfer record's fields. -/
structure FlumeRec where
  own : Bool
  last : Bool
  mode : Nat
  next : Nat
  caps : Nat
  srcOff : Nat
  dstOff : Nat
  barOff : Nat
  len0 : Nat
  cnt1 : Nat
  cnt2 : Nat
  cnt3 : Nat
  hdr : Nat
  strides : List Nat
deriving DecidableEq, Repr

/-- The record in 64 bytes (R148). -/
def flumeRec (b : List Byte) : FlumeRec :=
  let f := fun (i n : Nat) => natOfBytes ((b.drop i).take n)
  let hdr := f 0 4
  { own := bit hdr 31, last := bit hdr 30, mode := bits hdr 29 28, next := f 4 4, caps := f 8 6, srcOff := f 14 6
    dstOff := f 20 6, barOff := f 26 3, len0 := f 29 3, cnt1 := f 32 2, cnt2 := f 34 2, cnt3 := f 36 2, hdr := hdr
    strides := (List.range 6).map (fun i => f (40 + 4 * i) 4) }

/-- T (R148). -/
def FlumeRec.total (r : FlumeRec) : Nat := r.len0 * r.cnt1 * r.cnt2 * r.cnt3

/-- A record with no valid count or mode (R148). -/
def FlumeRec.badShape (r : FlumeRec) : Bool := r.total == 0 || decide (2147483647 < r.total) || r.mode == 3

/-- A signed stride: SSTR1, DSTR1, SSTR2, DSTR2, SSTR3, DSTR3. -/
def FlumeRec.stride (r : FlumeRec) (i : Nat) : Int := sInt 32 (r.strides.getD i 0)

/-- A granule index of CAPS. -/
def FlumeRec.capIdx (r : FlumeRec) (i : Nat) : Nat := bits r.caps (12 * i + 11) (12 * i)

/-- The environment of a chain: its crew on the core, in the crew's launch (R149). -/
def State.chainEnv (s : State) (crew : Nat) : Env :=
  { core := some (s.crew crew).core, cluster := clusterOf (s.crew crew).core, crew := some crew, launch := (s.crew crew).launch }

/-- Lines behind the L2 that an engine reads at home (R107). -/
def State.engineTouch (s : State) (ks : List Nat) : State :=
  let lines := ks.foldl (fun l a => if a < 2 ^ 48 ∧ isPlace3 a = false then memberAdd l (a / 128) else l) []
  { s with mem := lines.foldl (fun ms x => l2Touch ms s.dt x false) s.mem }

/-- Record status of a cause (R153). A misaligned granule of a capability is ALIGN, and a barrier object that lost its data
is ACCESS (log entry 83). -/
def flumeStatus (c : Cause) : Nat :=
  match c with
  | .capBounds => 1
  | .capTag => 2
  | .capPerm => 3
  | .pageFault => 5
  | .misalign => 8
  | _ => 6

/-- The capability that a record names by a granule index (R149), or the state left and the cause. -/
def State.chainCap (s : State) (e : Env) (chain : Capv) (i : Nat) : Except (State × Cause) (State × Capv) :=
  match s.laneCheck e chain (16 * i) 16 16 with
  | some (c, _) => .error (s, c)
  | none =>
    match s.capKeys e chain .load (16 * i) 16 with
    | .error (s1, c, _) => .error (s1, c)
    | .ok (s1, ks) =>
      let s2 := s1.touchKeys ks
      .ok (s2, { bits := BitVec.ofNat 128 (keysNat s2.store ks)
                 tag := s2.store.tagAt (ks.headD (0, 0)).1 && keepsTags (ks.headD (0, 0)).1 && !keysPoisoned s2.store ks })

/-! ### Rows (R151 to R153) -/

/-- The places of as many of n virtual addresses as translate, in order, and the cause that ended them. -/
def State.vaPrefix (s : State) (e : Env) (acc : Acc) (va n : Nat) : Nat → State × List (Nat × Nat) × Option Cause
  | 0 => (s, [], none)
  | p + 1 =>
    if n = 0 then (s, [], none)
    else
      let here := min n (65536 - va % 65536)
      match s.translate e (va % 2 ^ 48) acc with
      | .error (s1, c) => (s1, [], some c)
      | .ok (s1, pa, cls) =>
        let r := s1.vaPrefix e acc (va + here) (n - here) p
        (r.1, keyRun pa cls here ++ r.2.1, r.2.2)

/-- The places of the bytes of one side of a row that precede the first failing byte, with the cause of that one. -/
def State.sidePrefix (s : State) (e : Env) (c : Capv) (acc : Acc) (off : Int) (n : Nat) :
    State × List (Nat × Nat) × Option Cause :=
  if off < 0 then (s, [], some .capBounds)
  else
    let o := off.toNat
    let cap := c.top - c.base
    let lim := match s.spaceLimit e c.space with
      | none => cap
      | some x => min cap (x - c.base)
    let m := min n (lim - o)
    let out : Option Cause := if m < n then some .capBounds else none
    match c.space with
    | 1 | 2 | 3 =>
      match s.capKeys e c acc o m with
      | .ok (s1, ks) => (s1, ks, out)
      | .error (s1, x, _) => (s1, [], some x)
    | _ =>
      let r := s.vaPrefix e acc (c.base + o) m (m / 65536 + 2)
      (r.1, r.2.1, match r.2.2 with
        | some x => some x
        | none => out)

/-- One side of a row lies inside its capability's bounds (R152). -/
def State.sideInside (s : State) (e : Env) (c : Capv) (off : Int) (n : Nat) : Bool :=
  let cap := c.top - c.base
  let lim := match s.spaceLimit e c.space with
    | none => cap
    | some x => min cap (x - c.base)
  decide (0 ≤ off) && decide (off.toNat + n ≤ lim)

/-- The bytes of a source prefix with their poison: a TENSOR source is served through the tile cache (R51, R98). -/
def State.sourceBytes (s : State) (e : Env) (c : Capv) (off : Nat) (ks : List (Nat × Nat)) : State × List (Byte × Bool) :=
  match ks with
  | [] => (s, [])
  | k :: rest =>
    let r := if c.space = 5 then s.tileByte e c.tid (c.base + off) else (s, none)
    let s1 := match r.2 with
      | some _ => r.1
      | none => r.1.touchRead k.1 1
    let x := r.2.getD (s1.store.byte k.1, s1.store.poisoned k.1 1)
    let t := s1.sourceBytes e c (off + 1) rest
    (t.1, x :: t.2)

/-- What the rows of a record see: its capabilities, and the record. -/
structure FlumeJob where
  crew : Nat
  ch : Nat
  recNo : Nat
  src : Capv
  dst : Capv
  idx : Capv
  r : FlumeRec
deriving DecidableEq, Repr

/-- The latest completion time of an engine's writes (R108). -/
def State.engineGwct (s : State) (cells : List (Nat × Byte × Byte)) : Nat := gwctOf s.mem s.dt cells

/-- The writes of an engine to a peer wait for its acknowledgement in an account of their launch (R122, R124). -/
def State.owePeers (s : State) (l : Nat) (cells : List (Nat × Byte × Byte)) : State :=
  match (splitCells cells).flatMap (fun p => s.peerAcks (pieceOf 0 p)) with
  | [] => s
  | acks =>
    let a := s.mem.nextAcct
    { s with mem := { s.mem with nextAcct := a + 1 } }.setAccount a { Account.none with launch := l, wave := 2 ^ 64, peerOut := acks }

/-- Bytes written at their places by an engine for a launch, their poison carried on (R66, R151): the state and the completion
time. -/
def State.engineWrite (s : State) (l : Nat) (ks : List (Nat × Nat)) (bs : List (Byte × Bool)) : State × Nat :=
  let cells := (ks.zip bs).map (fun x => (x.1.1, (255 : Byte), x.2.1))
  if cells = [] then (s, 0)
  else
    let g := s.engineGwct cells
    let s1 := (splitCells cells).foldl (fun t p =>
      t.landWrite none (pieceOf 0 p)) s
    let bad := ((ks.zip bs).filter (fun x => x.2.2)).map (fun x => x.1.1 / 8)
    ((if bad = [] then s1 else s1.spoil bad []).owePeers l cells, g)

/-- IDXERR and the first offender (R152, R155). -/
def State.indexError (s : State) (j : FlumeJob) (row : Nat) : State :=
  let f := s.fls j.crew j.ch
  if f.idxErr then s
  else s.setFls j.crew j.ch { f with idxErr := true, firstRow := min row 0xFFFFF, firstRec := j.recNo % 2 ^ 32 }

/-- FlumeIndex (R152): the entry of a row, or the cause of a failing index access. -/
def State.flumeIndex (s : State) (e : Env) (j : FlumeJob) (row : Nat) : Except (State × Cause) (State × Nat) :=
  match s.laneCheck e j.idx (4 * row) 4 1 with
  | some (c, _) => .error (s, c)
  | none =>
    match s.capKeys e j.idx .load (4 * row) 4 with
    | .error (s1, c, _) => .error (s1, c)
    | .ok (s1, ks) => .ok (s1.touchKeys ks, keysNat s1.store ks)

/-- One row copied: every byte that precedes the first failing byte (R151, R153); the state, the completion time and the
cause that stops the record. -/
def State.copyRow (s : State) (e : Env) (j : FlumeJob) (so d : Int) : State × Nat × Option Cause :=
  let a := s.sidePrefix e j.src .load so j.r.len0
  let b := a.1.sidePrefix e j.dst .store d j.r.len0
  let n := min a.2.1.length b.2.1.length
  let x := b.1.sourceBytes e j.src so.toNat (a.2.1.take n)
  let r := x.1.engineWrite e.launch (b.2.1.take n) x.2
  let stop := if a.2.1.length ≤ b.2.1.length then (match a.2.2 with
      | some c => some c
      | none => b.2.2)
    else (match b.2.2 with
      | some c => some c
      | none => a.2.2)
  (r.1, r.2, stop)

/-- One row of zeros, for a gather whose entry is non-canonical or out of range (R152). -/
def State.zeroRow (s : State) (e : Env) (j : FlumeJob) (d : Int) : State × Nat × Option Cause :=
  let b := s.sidePrefix e j.dst .store d j.r.len0
  let r := b.1.engineWrite e.launch b.2.1 (List.replicate b.2.1.length (0, false))
  (r.1, r.2, b.2.2)

/-- One row of FlumeRows (R151, R152). -/
def State.flumeRow (s : State) (e : Env) (j : FlumeJob) (row : Nat) : State × Nat × Option Cause :=
  let r := j.r
  let i1 := row % r.cnt1
  let i2 := row / r.cnt1 % r.cnt2
  let i3 := row / r.cnt1 / r.cnt2
  let rest := fun (b : Nat) => (i2 : Int) * r.stride (2 + b) + (i3 : Int) * r.stride (4 + b)
  let so := (r.srcOff : Int) + i1 * r.stride 0 + rest 0
  let d := (r.dstOff : Int) + i1 * r.stride 1 + rest 1
  if r.mode = 0 then s.copyRow e j so d
  else
    match s.flumeIndex e j row with
    | .error (s1, c) => (s1, 0, some c)
    | .ok (s1, x) =>
      if r.mode = 1 then
        let so := (r.srcOff : Int) + x * r.stride 0 + rest 0
        if bit x 31 = true ∨ s1.sideInside e j.src so r.len0 = false then (s1.indexError j row).zeroRow e j d
        else s1.copyRow e j so d
      else
        let d := (r.dstOff : Int) + x * r.stride 1 + rest 1
        if bit x 31 = true ∨ s1.sideInside e j.dst d r.len0 = false then
          let a := (s1.indexError j row).sidePrefix e j.src .load so r.len0
          (a.1, 0, a.2.2)
        else s1.copyRow e j so d

/-- FlumeRows from a row on (R151): the state, the latest completion time, and the cause that stopped the record. -/
def State.flumeRows (s : State) (e : Env) (j : FlumeJob) (row maxw : Nat) : Nat → State × Nat × Option Cause
  | 0 => (s, maxw, none)
  | n + 1 =>
    let r := s.flumeRow e j row
    match r.2.2 with
    | some c => (r.1, max maxw r.2.1, some c)
    | none => r.1.flumeRows e j (row + 1) (max maxw r.2.1) n

/-! ### A record (R150 to R154) -/

/-- The chain leaves its channel. -/
def State.endChain (s : State) (core ch : Nat) : State := s.setChannel core ch { s.channel core ch with chain := none }

/-- The chain of a channel changed. -/
def State.setChain (s : State) (core ch : Nat) (c : Chain) : State :=
  s.setChannel core ch { s.channel core ch with chain := some c }

/-- The barrier object of a record: its place, or the cause (R154); an object whose words lost their data is lost (R378). -/
def State.recordBarrier (s : State) (e : Env) (c : Chain) (r : FlumeRec) : Except (State × Cause) (State × Nat) :=
  match s.chainCap e c.cap (r.capIdx 2) with
  | .error x => .error x
  | .ok (s1, b) =>
    match s1.barrierAt e barSpaces b r.barOff 16 with
    | .error (s2, x, _) => .error (s2, x)
    | .ok (s2, ks) => if keysPoisoned s2.store ks then .error (s2, .poison) else .ok (s2, (ks.headD (0, 0)).1)

/-- HDR written with OWN 0 and a STATUS (R150 step 4): the state and the completion time; none where the write faults. -/
def State.writeHdr (s : State) (e : Env) (c : Chain) (r : FlumeRec) (status : Nat) : Option (State × Nat) :=
  match s.capKeys e c.cap .store c.off 4 with
  | .error _ => none
  | .ok (s1, ks) =>
    let v := r.hdr % 2 ^ 31 - bits r.hdr 15 8 * 256 + status * 256
    let cells := keyCells ks v
    let g := s1.engineGwct cells
    some ((s1.landWrite none (pieceOf 0 cells)).owePeers e.launch cells, g)

/-- The operation that pays a credit (R132, R153). One that carries ERR sets it also in a GRID object whose phase takes no operation any
more (R140, log entry 69). -/
def creditOp (c : Credit) (b : BarObj) : BarObj :=
  let b' := if c.err then barSetErr b else b
  match c.bytes with
  | some n => barAddBytes b' (-(n : Int))
  | none => barAddBytes b' (-(max 0 (sInt 32 b.pendBytes)))

/-- R104's condition for a credit. -/
def State.creditDue (s : State) (maxw : Nat) : Bool := maxw == 0 || decide (maxw < s.dt)

/-- The record is walked: HDR is written and the credit is owed (R150 step 4): T, or PENDBYTES where there is
no valid count (R153); a cancelled record's credit is its T whatever that is (R156). -/
def State.closeRecord (s : State) (e : Env) (c : Chain) (ch : Nat) (r : FlumeRec) (status maxw place : Nat) (cancel : Bool) :
    State × Chain :=
  let bytes := if cancel = true ∨ r.badShape = false then some r.total else none
  let err := status != 0
  let s1 := if err then s.setStopped c.crew ch else s
  match s1.writeHdr e c r status with
  | none => (s1.setStopped c.crew ch, { c with
      credit := some { place := place, bytes := bytes, err := err, maxw := maxw, last := true, off := c.off } })
  | some (s2, g) => (s2, { c with
      off := r.next * 64
      credit := some { place := place, bytes := bytes, err := err, maxw := max maxw g
                       last := r.last || (err && !cancel), off := c.off } })

/-- A record whose barrier fails its checks (R154): STATUS is written, and the launch ends with FLUME_LOST; its completion waits for
that write (R122). -/
def State.loseRecord (s : State) (e : Env) (c : Chain) (ch : Nat) (r : FlumeRec) (cause : Cause) : State :=
  let s1 := match s.writeHdr e c r (flumeStatus cause) with
    | none => s
    | some (s2, g) => s2.raiseMaxw e.launch g
  (s1.setStopped c.crew ch).endLaunch e.launch 9 c.off

/-- The record that a chain names next (R150 steps 1 and 2): none where its read fails or it is not owned. Poison in its words is
not tested (log entry 83). -/
def State.readRecord (s : State) (e : Env) (c : Chain) (ch : Nat) : State × Option FlumeRec :=
  match s.laneCheck e c.cap c.off 64 64, s.capKeys e c.cap .load c.off 64 with
  | none, .ok (s1, ks) =>
    let s2 := s1.touchKeys ks
    let r := flumeRec (ks.map (fun k => s2.store.byte k.1))
    (s2, if r.own then some r else none)
  | none, .error (s1, _, _) => (s1.setStopped c.crew ch, none)
  | _, _ => (s.setStopped c.crew ch, none)

/-- The capabilities of a record, checked (R149): the job, or the cause. -/
def State.recordJob (s : State) (e : Env) (c : Chain) (ch : Nat) (r : FlumeRec) :
    Except (State × Cause) (State × FlumeJob) :=
  match s.chainCap e c.cap (r.capIdx 0) with
  | .error x => .error x
  | .ok (s1, src) =>
    match s1.chainCap e c.cap (r.capIdx 1) with
    | .error x => .error x
    | .ok (s2, dst) =>
      match (if r.mode = 0 then .ok (s2, Capv.null) else s2.chainCap e c.cap (r.capIdx 3) : Except (State × Cause) (State × Capv)) with
      | .error x => .error x
      | .ok (s3, idx) =>
        match capCheck src [0, 1, 2, 5] (permXF + permLD), capCheck dst [0, 1, 2, 3] (permXF + permST),
          (if r.mode = 0 then none else capCheck idx [0, 1, 2, 5] (permXF + permLD)) with
        | none, none, none =>
          .ok (s3, { crew := c.crew, ch := ch, recNo := c.off / 64, src := src, dst := dst, idx := idx, r := r })
        | some x, _, _ => .error (s3, x)
        | none, some x, _ => .error (s3, x)
        | none, none, some x => .error (s3, x)

/-- The rows of a record moved: STATUS and the latest completion time (R148, R151, R153). -/
def State.moveRecord (s : State) (e : Env) (c : Chain) (ch : Nat) (r : FlumeRec) : State × Nat × Nat :=
  if r.badShape then (s, 4, 0)
  else
    match s.recordJob e c ch r with
    | .error (s1, x) => (s1, flumeStatus x, 0)
    | .ok (s1, j) =>
      let m := s1.flumeRows e j 0 0 (r.cnt1 * r.cnt2 * r.cnt3)
      (m.1, match m.2.2 with
        | none => 0
        | some x => flumeStatus x, m.2.1)

/-- The credit that a chain owes is paid once R104's condition holds; one to an object that has lost its data ends the launch
with FLUME_LOST instead (R154, R378). -/
def State.payCredit (s : State) (l : Nat) (c : Credit) : State :=
  if s.store.poisoned c.place 16 then s.endLaunch l 9 c.off else s.barrierOp c.place (creditOp c)

/-- The chain ends with the credit: after its last record, or because the barrier is lost. -/
def State.lastCredit (s : State) (c : Credit) : Bool := c.last || s.store.poisoned c.place 16

/-- FLUME_RECORD_PROCESS (R150): a channel pays the credit that is due, or walks its next record. -/
def execFlumeRecordProcess (c ch : Nat) (s : State) : Answer :=
  let chn := ch % 4
  match (s.channel c chn).chain with
  | none => .next s
  | some x =>
    if s.clusterRuns (clusterOf c) = false ∨ s.forkReady x.fork = false then .next s
    else
      match x.credit with
      | some cr =>
        if s.creditDue cr.maxw = false then .next s
        else
          let s1 := s.payCredit (s.crew x.crew).launch cr
          .next (if s.lastCredit cr then s1.endChain c chn else s1.setChain c chn { x with credit := none })
      | none =>
        let e := s.chainEnv x.crew
        match s.readRecord e x chn with
        | (s1, none) => .next (s1.endChain c chn)
        | (s1, some r) =>
          match s1.recordBarrier e x r with
          | .error (s2, cause) => .next ((s2.loseRecord e x chn r cause).endChain c chn)
          | .ok (s2, place) =>
            let m := s2.moveRecord e x chn r
            let y := m.1.closeRecord e x chn r m.2.1 m.2.2 place false
            .next (y.1.setChain c chn y.2)

/-- FLUME_CANCEL_WALK (R156): each owned record that a cancelled chain reaches is given STATUS CANCELLED, and its T is
credited with ERR, without moving data. -/
def execFlumeCancelWalk (c ch : Nat) (s : State) : Answer :=
  let chn := ch % 4
  match (s.channel c chn).cancelled with
  | [] => .next s
  | x :: rest =>
    let put := fun (t : State) (l : List Chain) => t.setChannel c chn { t.channel c chn with cancelled := l }
    if s.clusterRuns (clusterOf c) = false ∨ s.forkReady x.fork = false then .next s
    else
      match x.credit with
      | some cr =>
        if s.creditDue cr.maxw = false then .next s
        else .next (put (s.payCredit (s.crew x.crew).launch cr) (if s.lastCredit cr then rest else { x with credit := none } :: rest))
      | none =>
        let e := s.chainEnv x.crew
        match s.readRecord e x chn with
        | (s1, none) => .next (put s1 rest)
        | (s1, some r) =>
          match s1.recordBarrier e x r with
          | .error (s2, cause) => .next (put (s2.loseRecord e x chn r cause) rest)
          | .ok (s2, place) =>
            let y := s2.closeRecord e x chn r 7 0 place true
            .next (put y.1 (y.2 :: rest))

end Sys2Proof.Machine
end

