-- ==== Sys2Proof/Machine/Tasking.lean ====
section
/-! DEFINITION. Tasks, pools and cistern deposits (class 11; R334 to R343, R351, R361, R363): SPAWN, SUCC, CANCEL, LAUNCH,
PALLOC, PALLOC.T, PFREE, CPUT and CFLUSH, with the steps that place successor releases, start tasks and close tiles. -/

namespace Sys2Proof.Machine

open Sys2Proof

/-! ### SPAWN (R335) -/

/-- The record that a lane's slices a to a + 127 hold, as eight words. -/
def State.sliceWords (s : State) (w t a : Nat) : List Nat :=
  (List.range 8).map (fun i => s.opnd w t { start := a + 16 * i, width := 16 })

/-- A segment number that a task may enter: a segment of the module without SEQ (R335). -/
def Module.entryOk (m : Module) (n : Nat) : Bool := decide (n < m.segs.length) && !(m.segOf n).seq

/-- The records of the lanes enqueued in ascending order: the statuses by lane and thread. -/
def State.spawnLanes (s : State) (core : Nat) (rs : List (Nat × TaskRec)) : State × List (Nat × Nat) :=
  match rs with
  | [] => (s, [])
  | (t, r) :: rest =>
    let x := s.enqueue core r
    let y := x.1.spawnLanes core rest
    (y.1, (t, x.2) :: y.2)

/-- STATUS of a word from those of its lanes: FULL before SPILLED before OK. -/
def spawnStatus (sts : List (Nat × Nat)) : Nat :=
  if sts.any (fun x => x.2 == 4) then 4 else if sts.any (fun x => x.2 == 3) then 3 else 0

/-- SPAWN (R335). -/
def execSpawn (o : Sys2Proof.Spawn) (s : State) : Answer :=
  let src : Slc := { start := o.a, width := 128 }
  s.onWave (fun w => s.unlessSpec w (
    let recOf := fun (t : State) (th : Nat) => taskRec (t.waveLaunch w) (t.forkOf w) (t.sliceWords w th o.a)
    s.issueTested w { mark := o.mark, g := o.g, legal := o.d.width == 2, reads := [src], writes := [o.d] }
      (fun th => !(s.groupMod (groupOf w)).entryOk (recOf s th).entry) (fun act =>
        s.afterGate w (fun t =>
          let x := t.spawnLanes (t.waveCore w) (act.map (fun e => (e.2, recOf t e.2)))
          ((x.1.putLoaded w o.d x.2).setStatus w (spawnStatus x.2)).finish w o.mark))))

/-! ### SUCC (R337) -/

/-- The additions of the lanes in ascending order; they stop when a poisoned counter has ended the launch (R391). -/
def State.succLanes (s : State) (w : Nat) (c : Capv) (v : Nat → Int) (as : List LaneAcc) (rs : List TaskRec) :
    State × List TaskRec :=
  match as with
  | [] => (s, rs)
  | a :: rest =>
    let cells := keyCells (a.keys.take 8) 0
    let g := gwctOf s.mem s.dt cells
    let s0 := (s.flushHomes w (homesOf cells)).dropL1 (s.waveCore w) cells
    let x := s0.counterAdd (s0.waveEnv w) c a.keys (v a.thread)
    if (x.1.launch (s.waveLaunch w)).ending then (x.1, rs)
    else
      let s1 := x.1.setWave w { x.1.wave w with maxw := max (x.1.wave w).maxw g }
      s1.succLanes w c v rest (match x.2 with
        | none => rs
        | some r => rs ++ [r])

/-- A word that made releases goes on once they are placed (R363). -/
def State.finishSucc (s : State) (w : Nat) (mark : Bool) (rs : List TaskRec) : State :=
  let x := s.placeReleases (s.waveCore w) rs
  let s1 := x.1.finish w mark
  if x.2 = [] then s1 else (s1.setWave w { s1.wave w with succRel := x.2 }).park w (.succ mark)

/-- SUCC (R337): a lane's addition is an AR at DEVICE scope. -/
def execSucc (o : Sys2Proof.Succ) (s : State) : Answer :=
  s.onWave (fun w => s.unlessSpec w (
    let c := s.kUse o.cap
    s.memIssue w { mark := o.mark, g := o.g, legal := true, reads := [o.a, o.v], writes := [] }
      { ci := o.cap, spaces := rmwSpaces, mask := permAT, acc := .store, n := 16, align := 16, host := false }
      (fun _ t => s.opnd w t o.a)
      (fun s1 _ as =>
        if as = [] then s1.finish w o.mark
        else
          s1.afterGate w (fun t => t.afterRelease w 4 (
            let x := t.succLanes w c (fun th => sInt (4 * o.v.width) (s.opnd w th o.v 2)) as []
            if (x.1.launch (s.waveLaunch w)).ending then x.1 else x.1.finishSucc w o.mark x.2)))))

/-! ### CANCEL (R338) -/

/-- A record of a launch whose TAG a CANCEL's operand selects. -/
def cancelHits (l v : Nat) (r : TaskRec) : Bool :=
  r.launch == l && r.tag &&& bits v 15 8 == bits v 7 0 &&& bits v 15 8

/-- The record of a staged or spilled entry, if a CANCEL selects it. -/
def Spilled.cancelled (l v : Nat) (x : Spilled) : Option TaskRec :=
  match x with
  | .task _ r => if cancelHits l v r then some r else none
  | .head _ _ _ => none

/-- Every record that a CANCEL drops: those of the headraces, of staging and of the spillway. -/
def State.cancelRecords (s : State) (l v : Nat) : List TaskRec :=
  s.cores.flatMap (fun e => e.2.headrace.filter (cancelHits l v))
    ++ s.clusters.flatMap (fun e => (tabGet e.2.staging [] l).filterMap (Spilled.cancelled l v))
    ++ (s.launch l).ring.filterMap (Spilled.cancelled l v)

/-- The state without the records that a CANCEL drops. -/
def State.cancelDrop (s : State) (l v : Nat) : State :=
  let keep := fun (x : Spilled) => (Spilled.cancelled l v x).isNone
  let cs : Tab CoreSt := s.cores.map (fun (e : Nat × CoreSt) =>
    (e.1, { e.2 with headrace := e.2.headrace.filter (fun r => !cancelHits l v r) }))
  let ks : Tab ClusterSt := s.clusters.map (fun (e : Nat × ClusterSt) =>
    (e.1, { e.2 with staging := e.2.staging.map (fun x => if x.1 = l then (x.1, x.2.filter keep) else x) }))
  let s1 := { s with cores := cs, clusters := ks }
  s1.setLaunch l { s1.launch l with ring := (s1.launch l).ring.filter keep }

/-- The counters of the dropped records decremented in order, with the releases they make; a lost counter ends it (R391). -/
def State.cancelDecrements (s : State) (e : Env) (g : Nat) (ds : List TaskRec) (rs : List TaskRec) : State × List TaskRec :=
  match ds with
  | [] => (s, rs)
  | d :: rest =>
    let x := s.decrement e g d.succAddr
    if (x.1.launch e.launch).ending then (x.1, rs)
    else x.1.cancelDecrements e g rest (match x.2 with
      | none => rs
      | some r => rs ++ [r])

/-- CANCEL (R338): a release at DEVICE scope, then the drop; the wave waits for the write of s[D]. -/
def execCancel (o : Sys2Proof.S2) (s : State) : Answer :=
  s.onWave (fun w => s.unlessSpec w (s.afterGate w (fun t => t.afterRelease w 4 (
    let l := t.waveLaunch w
    let ds := t.cancelRecords l (t.sReg o.a)
    let x := (t.cancelDrop l (t.sReg o.a)).cancelDecrements (t.waveEnv w) (groupOf w) ds []
    if (x.1.launch l).ending then x.1
    else
      let y := x.1.placeReleases (x.1.waveCore w) x.2
      let s1 := y.1.setWave w { y.1.wave w with succRel := y.2 }
      s1.park w (.cancel o.d ds.length o.mark)))))

/-- CANCEL_DROP_COMPLETE (R338): once its releases are placed, s[D] receives the number dropped and the wave goes on. -/
def execCancelDropComplete (w : Nat) (s : State) : Answer :=
  match (s.wave w).park with
  | .cancel d n mark =>
    if (s.wave w).succRel ≠ [] ∨ s.isSaved (crewOf w) = true then .next s
    else
      let s1 := s.setWaveS w d (BitVec.ofNat 64 n)
      .next ((s1.setWave w { s1.wave w with readyAt := s.coreCycles (s.waveCore w) }).finish w mark)
  | _ => .next s

/-! ### Successor releases and task starts (R181, R336, R361, R363) -/

/-- The waiting releases of a group, placed while room exists. -/
def State.placeGroup (s : State) (core g : Nat) : State :=
  if (s.group g).waitingRel = [] then s
  else
    let x := s.placeReleases core (s.group g).waitingRel
    x.1.setGroup g { x.1.group g with waitingRel := x.2 }

/-- The waiting releases of a wave, placed while room exists; a wave parked after SUCC goes on when none is left.
Those of a wave in the shadow wait there (R386). -/
def State.placeWave (s : State) (core w : Nat) : State :=
  if (s.wave w).succRel = [] ∨ s.isSaved (crewOf w) = true then s
  else
    let x := s.placeReleases core (s.wave w).succRel
    let v := x.1.wave w
    let s1 := x.1.setWave w { v with succRel := x.2 }
    match v.park with
    | .succ mark =>
      if x.2 = [] then s1.passMark w mark else s1
    | _ => s1

/-- SUCCESSOR_RELEASE_PLACE (R336, R363): a core places the releases that wait in it. -/
def execSuccessorReleasePlace (c : Nat) (s : State) : Answer :=
  let gs := (s.groups.map (fun e => e.1)).filter (fun g => (s.crew (g / 8)).core == c && !(s.crew (g / 8)).ended)
  let ws := (s.waves.map (fun e => e.1)).filter (fun w => s.waveCore w == c)
  .next (ws.foldl (fun t w => t.placeWave c w) (gs.foldl (fun t g => t.placeGroup c g) s))

/-- The record that a group takes next: of its launch, dispatchable, highest priority first, then oldest (R106, R361). -/
def State.nextTask (s : State) (core l : Nat) : Option TaskRec :=
  ((s.core core).headrace.filter (fun r => r.launch == l && s.forkReady r.fork)).foldl
    (fun b r => match b with
      | none => some r
      | some x => if x.prio < r.prio then some r else some x) none

/-- A thread at the start of a task (R181). -/
def Thread.startTask (t : Thread) (entry now : Nat) : Thread :=
  { t with preds := [], meetSeg := entry, meetOuter := 4095, meetCur := 4095, place := .bucket entry now 0
           sent := false, maxw := 0, accts := [], gate := none }

/-- A group set up for a task (R181). -/
def Group.startTask (g : Group) (r : TaskRec) (now : Nat) : Group :=
  { g with
    threads := g.threads.map (fun e => (e.1, e.2.startTask r.entry now)), task := some r
    s := (List.range 8).foldl (fun t i => tabPut t i (BitVec.ofNat 64 (r.words.getD i 0))) g.s }

/-- A group that may take a task: of a started task-mode crew, with no live thread, no release waiting and no deadline
fallen (R361, R363, R364). -/
def State.groupIdle (s : State) (g : Nat) : Bool :=
  let c := s.crew (g / 8)
  let l := s.launch c.launch
  c.started && !c.ended && !c.killed && l.rec_.task && !l.deadlineFell && !(s.group g).retired && !s.groupLive g
    && (s.group g).task.isNone && (s.group g).waitingRel.isEmpty

/-- TASK_START (R181, R361). -/
def execTaskStart (g : Nat) (s : State) : Answer :=
  let core := (s.crew (g / 8)).core
  if s.groupIdle g = false ∨ s.crewFrozen (g / 8) = true then .next s
  else
    match s.nextTask core (s.crew (g / 8)).launch with
    | none => .next s
    | some r =>
      let s1 := s.setCore core { s.core core with headrace := firstDrop (s.core core).headrace (fun x => x == r) }
      .next (s1.setGroup g ((s1.group g).startTask r (s1.groupNow g)))

/-! ### LAUNCH (R339, R351) -/

/-- LAUNCH (R339): the record is copied at once, or QFULL. -/
def execLaunch (o : Sys2Proof.Launch) (s : State) : Answer :=
  s.onWave (fun w => s.unlessSpec w (
    let c := s.kUse o.cap
    s.capIssue w true { ci := o.cap, spaces := loadSpaces, mask := permLD, acc := .load, n := 128, align := 1 } none
      (s.sReg o.a)
      (fun s1 ks => s1.afterGate w (fun t =>
        let r := t.loadBytes w (t.waveCore w) ks
        if r.2.any (fun b => b.2) then
          r.1.takeTrap w (s.occupiedMask w) (TrapInfo.ofLanes ((s.occupied w).map (fun e =>
            (e.1, capLane .poison c o.cap (c.base + firstBad (s.sReg o.a) (r.2.map (fun b => b.2)))))))
        else if 64 ≤ r.1.sched.devQ.length then (r.1.setStatus w 5).finish w o.mark
        else
          let d : DevRec := { bytes := r.2.map (fun b => b.1), launch := t.waveLaunch w, fork := t.forkOf w, at_ := t.dt }
          (({ r.1 with sched := { r.1.sched with devQ := r.1.sched.devQ ++ [d] } }).setStatus w 0).finish w o.mark))))

/-! ### Node pools (R340, R341) -/

/-- A pool that the module declares. -/
def Module.poolDecl (m : Module) (n : Nat) : Option PoolDecl := m.pools.find? (fun p => p.index == n)

/-- A pool of a launch. -/
def State.pool (s : State) (l n : Nat) : NodePool := tabGet (s.launch l).pools { next := 0, limit := 0, freed := [] } n

/-- The state with a pool of a launch changed. -/
def State.setPool (s : State) (l n : Nat) (p : NodePool) : State :=
  s.setLaunch l { s.launch l with pools := tabPut (s.launch l).pools n p }

/-- The key of a pool in the caches of a cluster. -/
def cacheKey (l n : Nat) : Nat := 16 * l + n % 16

/-- The freed nodes of a pool that a cluster caches, newest first. -/
def State.cacheOf (s : State) (k l n : Nat) : List Nat := tabGet (s.cluster k).caches [] (cacheKey l n)

/-- The state with a cluster's cached nodes changed. -/
def State.setCache (s : State) (k l n : Nat) (x : List Nat) : State :=
  s.setCluster k { s.cluster k with caches := tabPut (s.cluster k).caches (cacheKey l n) x }

/-- How many nodes a pool can give in a cluster. -/
def State.poolRoom (s : State) (k l n : Nat) : Nat :=
  (s.cacheOf k l n).length + (s.pool l n).freed.length + ((s.pool l n).limit - (s.pool l n).next)

/-- The next node of a pool (R340): the cluster's cache, the memory list, then the bump index; all ones when none is left. -/
def State.takeNode (s : State) (k l n : Nat) : State × Nat :=
  let p := s.pool l n
  match s.cacheOf k l n, p.freed with
  | x :: rest, _ => (s.setCache k l n rest, x)
  | [], x :: rest => (s.setPool l n { p with freed := rest }, x)
  | [], [] => if p.next < p.limit then (s.setPool l n { p with next := p.next + 1 }, p.next) else (s, 0xFFFFFFFF)

/-- The nodes of the lanes in ascending order, by thread. -/
def State.takeNodes (s : State) (k l n : Nat) (ts : List Nat) : State × List (Nat × Nat) :=
  match ts with
  | [] => (s, [])
  | t :: rest =>
    let x := s.takeNode k l n
    let y := x.1.takeNodes k l n rest
    (y.1, (t, x.2) :: y.2)

/-- The issue of PALLOC and PALLOC.T (R341). -/
def State.palloc (s : State) (o : Sys2Proof.Palloc) (strict : Bool) : Answer :=
  s.onWave (fun w => s.unlessSpec w (
    let ok := ((s.groupMod (groupOf w)).poolDecl o.n).isSome
    s.issueLanes w { mark := o.mark, g := o.g, legal := ok && o.d.width == 8, reads := [], writes := [o.d] } (fun act =>
      s.afterGate w (fun t =>
        let k := t.waveCluster w
        let l := t.waveLaunch w
        if strict = true ∧ t.poolRoom k l o.n < act.length then
          t.takeTrap w (laneMask act) { TrapInfo.plain .poolEmpty with info := o.n }
        else
          let x := t.takeNodes k l o.n (act.map (fun e => e.2))
          ((x.1.putLoaded w o.d x.2).setStatus w (if x.2.any (fun y => y.2 == 0xFFFFFFFF) then 6 else 0)).finish w o.mark))))

/-- PALLOC (R341). -/
def execPalloc (o : Sys2Proof.Palloc) (s : State) : Answer := s.palloc o false

/-- PALLOC.T (R341): a pool that cannot give every active lane a node traps, no node taken. -/
def execPallocT (o : Sys2Proof.Palloc) (s : State) : Answer := s.palloc o true

/-- The capability over which a pool is declared, in the launch's table (R34, R244). -/
def State.tableCap (s : State) (l slot : Nat) : Capv :=
  let a := (s.launch l).capTable + 16 * slot
  { bits := BitVec.ofNat 128 (s.store.readNat a 16), tag := s.store.tagAt a }

/-- Bytes 0 to 7 of a freed node take free values (R340). -/
def State.scrambleNode (s : State) (e : Env) (d : PoolDecl) (i : Nat) : State :=
  let c := s.tableCap e.launch d.slot
  let off := i * 2 ^ d.log2
  match s.laneCheck e c off 8 1, s.capKeys e c .store off 8 with
  | none, .error (s1, _, _) => s1
  | none, .ok (s1, ks) =>
    s1.writeAtHome none (ks.mapIdx (fun j k => (k.1, (255 : Byte), Config.freedByte s.free (8 * i + j)))) none
  | _, _ => s

/-- A freed node pushed on the cluster's cache; past 64 entries the oldest goes to the memory list (R340). -/
def State.pushNode (s : State) (k l n i : Nat) : State :=
  let c := i :: s.cacheOf k l n
  let s1 := s.setCache k l n (c.take 64)
  match (c.drop 64).head? with
  | none => s1
  | some x => s1.setPool l n { s1.pool l n with freed := x :: (s1.pool l n).freed }

/-- PFREE (R341): a release at DEVICE scope. -/
def execPfree (o : Sys2Proof.Pfree) (s : State) : Answer :=
  s.onWave (fun w => s.unlessSpec w (
    let decl := (s.groupMod (groupOf w)).poolDecl o.n
    let l := s.waveLaunch w
    s.issueTested w { mark := o.mark, g := o.g, legal := decl.isSome && o.a.width == 8, reads := [o.a], writes := [] }
      (fun t => decide ((s.pool l o.n).next ≤ s.opnd w t o.a)) (fun act =>
        if act = [] then s.finish w o.mark
        else s.afterGate w (fun t => t.afterRelease w 4 (
          match decl with
          | none => t
          | some d => (act.foldl (fun u e =>
              let i := s.opnd w e.2 o.a
              (u.scrambleNode (u.waveEnv w) d i).pushNode (u.waveCluster w) l o.n i) t).finish w o.mark)))))

/-! ### Futures (R136, R137) -/

/-- Bytes 16 to 31 of a future: RESULT, STATUS and RESPTR (R136). -/
def futureCells (a result status respptr : Nat) : List (Nat × Byte × Byte) :=
  wholeCells (a + 16) (bytesOf result 4 ++ bytesOf status 4 ++ bytesOf respptr 8)

/-- A future of a crew completed (R137): its fields are written, and one arrival on its object follows once DT is later than the
completion of these writes. -/
def State.completeFuture (s : State) (crew a result status respptr : Nat) : State :=
  let s1 := s.writeAtHome none (futureCells a result status respptr) none
  { s1 with mem := { s1.mem with arrivals := s1.mem.arrivals ++ [{ place := a, crew := crew, after := s.dt }] } }

/-- The arrivals of completed futures that are due now (R104, R137); that of an ended crew is dropped with its memory (R317). -/
def State.arriveDue (s : State) : State :=
  let due := s.mem.arrivals.filter (fun x => decide (x.after < s.dt))
  let s1 := { s with mem := { s.mem with arrivals := s.mem.arrivals.filter (fun x => !decide (x.after < s.dt)) } }
  due.foldl (fun t x => if (t.crew x.crew).ended then t else t.barrierOp x.place barArrive) s1

/-! ### Cisterns (R342, R343) -/

/-- A cistern of a cluster. -/
def State.cistern (s : State) (k c : Nat) : Cistern := tabGet (s.cluster k).cisterns Cistern.empty c

/-- The state with a cistern changed. -/
def State.setCistern (s : State) (k c : Nat) (x : Cistern) : State :=
  s.setCluster k { s.cluster k with cisterns := tabPut (s.cluster k).cisterns c x }

/-- A cistern that a matrix launch declares (R297, R342). -/
def Module.cisternDecl (m : Module) (c : Nat) : Option CisternDecl :=
  if m.seqEntry = 4095 then Option.none else m.cisterns.find? (fun d => d.index == c)

/-- The tiles of a cistern other than the open one. -/
def Cistern.closed (x : Cistern) : Nat := x.ready.length + if x.taken.isSome then 1 else 0

/-- The cistern can take a row: its open tile has room, or a tile can be opened (R342). -/
def Cistern.room (x : Cistern) : Bool := !x.openRows.isEmpty || decide (x.closed < 4)

/-- Every deposit of a tile has happened: the writes before it have returned (R103). -/
def State.tileReady (s : State) (fs : List Fork) : Bool := fs.all (fun f => s.forkReady f)

/-- The open tile becomes ready, and an armed barrier gets its arrival, which every deposit of the tile happens before (R103,
R316, R342): it is due until then. -/
def State.closeTile (s : State) (k c : Nat) : State :=
  let x := s.cistern k c
  if x.openRows = [] then s
  else
    let s1 := s.setCistern k c { x with openRows := [], ready := x.ready ++ [x.openRows] }
    match x.armed with
    | none => s1
    | some a =>
      let fs := x.openRows.map (fun r => r.fork)
      if s.tileReady fs then s1.barrierOp a barArrive
      else s1.setCistern k c { s1.cistern k c with due := x.due ++ [(a, fs)] }

/-- The arrivals of tiles on armed barriers that every deposit now happens before (R103, R316). -/
def State.reportTiles (s : State) : State :=
  s.clusters.foldl (fun t e => e.2.cisterns.foldl (fun u x =>
    let now := x.2.due.filter (fun y => s.tileReady y.2)
    if s.clusterRuns e.1 = false ∨ now = [] then u
    else now.foldl (fun v y => v.barrierOp y.1 barArrive)
      (u.setCistern e.1 x.1 { x.2 with due := x.2.due.filter (fun y => !s.tileReady y.2) })) t) s

/-- A row deposited (R342); the tile becomes ready at its threshold. -/
def State.deposit (s : State) (k : Nat) (d : CisternDecl) (r : CisRow) : State :=
  let x := s.cistern k d.index
  let y := { x with openRows := x.openRows ++ [r], firstAt := if x.openRows = [] then s.dt else x.firstAt }
  let s1 := s.setCistern k d.index y
  if d.thresh ≤ y.openRows.length then s1.closeTile k d.index else s1

/-- The rows of the lanes in ascending order: whether some lane was refused. -/
def State.depositLanes (s : State) (k : Nat) (d : CisternDecl) (rs : List CisRow) : State × Bool :=
  match rs with
  | [] => (s, false)
  | r :: rest =>
    if (s.cistern k d.index).room then (s.deposit k d r).depositLanes k d rest
    else (((s.completeFuture r.crew r.future 0 4 0).depositLanes k d rest).1, true)

/-- CPUT (R342). -/
def execCput (o : Sys2Proof.Cput) (s : State) : Answer :=
  s.onWave (fun w => s.unlessSpec w (
    match (s.groupMod (groupOf w)).cisternDecl o.c with
    | none =>
      let act := s.activeLanes w o.g
      s.takeTrap w (laneMask act) (TrapInfo.ofLanes (act.map (fun e => (e.1, laneCause .illegalOperand))))
    | some d =>
      let row : Slc := { start := o.a, width := 2 * d.rowBytes }
      s.memIssue w { mark := o.mark, g := o.g, legal := true, reads := [row, o.f], writes := [] }
        { ci := o.cap, spaces := barSpaces, mask := permBA, acc := .store, n := 32, align := 32 } (fun _ t => s.opnd w t o.f)
        (fun s1 _ as => s1.afterGate w (fun t =>
          let rs := as.map (fun a => ({
            bytes := bytesOf (s.opnd w a.thread row 1) d.rowBytes, future := (a.keys.headD (0, 0)).1, crew := crewOf w
            poison := [], fork := t.forkOf w } : CisRow))
          let x := t.depositLanes (t.waveCluster w) d rs
          (x.1.setStatus w (if x.2 then 4 else 0)).finish w o.mark))))

/-- CFLUSH (R343). -/
def execCflush (o : Sys2Proof.Cflush) (s : State) : Answer :=
  s.onWave (fun w => s.unlessSpec w (
    match (s.groupMod (groupOf w)).cisternDecl o.c with
    | none => s.trapWord w .illegalOperand
    | some d => s.afterGate w (fun t => (t.closeTile (t.waveCluster w) d.index).finish w o.mark)))

/-- CISTERN_FLUSH_TIMEOUT (R342): FLUSH_NS has passed since the open tile's first row. -/
def execCisternFlushTimeout (k i : Nat) (s : State) : Answer :=
  let x := s.cistern k i
  match (s.seqOf k).launch with
  | none => .next s
  | some l =>
    match (s.launch l).mod_.cisternDecl i with
    | none => .next s
    | some d =>
      if d.flushNs = 0 ∨ x.openRows = [] ∨ s.dt < x.firstAt + d.flushNs then .next s else .next (s.closeTile k i)

end Sys2Proof.Machine
end

