-- ==== Sys2Proof/Machine/Matrix.lean ====
section
/-! DEFINITION. The matrix sequencer's own words (class 13; R302 to R317), the completion of MMAs and MLDBs (R308, R310,
R311, R319), and ADRN (R318). -/

namespace Sys2Proof.Machine

open Sys2Proof

/-! ### Issue and damage (R311, R316, R319, R321) -/

/-- A word of class 13: a sequencer that is stalled at an MMA or waits for a copy issues nothing (R311, R316). -/
def State.seqWord (s : State) (body : Nat → State) : Answer :=
  s.onSeq (fun k => if (s.seqOf k).stalled.isSome || (s.seqOf k).copying then s else body k)

/-- SEQ_DERR of R321. -/
def derrRec (unit slot row col kk : Nat) : Nat :=
  2 ^ 63 + unit % 4 * 2 ^ 61 + slot % 16 * 2 ^ 48 + row % 65536 * 2 ^ 32 + col % 65536 * 2 ^ 16 + kk % 256 * 2 ^ 8

/-- Damaged words that one operation read, each with its record (R319, R321): DERR, DCOUNT and the first record. -/
def State.logDamage (s : State) (k : Nat) (recs : List Nat) : State :=
  match recs with
  | [] => s
  | r :: _ =>
    let q := s.seqOf k
    s.setSeq k { q with
      derr := true, dcount := min (q.dcount + recs.length) 0xFFFFFFFF, seqDerr := if bit q.seqDerr 63 then q.seqDerr else r }

/-- The damaged words among n bytes from a place on, by the number of their first byte that is read (R319). -/
def damagedAt (m : Store) (a n : Nat) : List Nat :=
  (List.range n).filter (fun i => (i == 0 || (a + i) % 8 == 0) && m.poisoned (a + i) 1)

/-- The damaged words among bytes read from a place on, each byte with its damage (R319). -/
def damagedIn (a : Nat) (bs : List (Byte × Bool)) : List Nat :=
  (List.range bs.length).filter (fun i => (i == 0 || (a + i) % 8 == 0) && (bs.getD i (0, false)).2)

/-- A 4-byte element, +0 where its word is damaged (R319). -/
def readElem (m : Store) (a : Nat) : Nat := if m.poisoned a 4 then 0 else m.readNat a 4

/-- The place of an accumulator element (R63). -/
def accElem (k row col : Nat) : Nat := accKey k ((row * 256 + col) * 4)

/-- Bytes of an unordered read from some places on, those of one 8-byte word the old ones or the new ones (R91, R302). -/
def mixBytes (free : Nat) (places : List Nat) (old new : List (Byte × Bool)) : List (Byte × Bool) :=
  match places, old, new with
  | a :: as, x :: xs, y :: ys => (if Config.newElement free (a / 8) then y else x) :: mixBytes free as xs ys
  | _, _, ys => ys

/-- Bytes with those in damaged words read as zero (R319). -/
def zeroDamaged (bs : List (Byte × Bool)) : List Byte := bs.map (fun b => if b.2 then 0 else b.1)

/-! ### Reservations (R303 to R305) -/

/-- The row size RB of a reservation (R303). -/
def Resv.rb (r : Resv) : Nat := if r.fmt = 2 then 256 else 128

/-- A reservation has block scales (R303). -/
def Resv.scaled (r : Resv) : Bool := r.scaleOff != 0x1FFFFF

/-- The record in two words, with its absolute start (R303). -/
def resvOf (base w0 w1 : Nat) : Resv :=
  { fmt := bits w0 42 41, length := bits w0 40 20, start := base + bits w0 19 0, scaleOff := bits w1 36 16, rows := bits w1 15 0 }

/-- What R303 asks of a record. -/
def resvLegal (r : Resv) (w0 w1 : Nat) : Bool :=
  decide (w0 < 2 ^ 43) && decide (w1 < 2 ^ 37) && decide (r.fmt < 3) && decide (r.length % 4096 = 0)
    && decide (4096 ≤ r.length) && decide (r.length ≤ 1048576) && decide (r.start % 4096 = 0) && decide (1 ≤ r.rows)
    && decide (r.rows * r.rb ≤ r.length)
    && (!r.scaled || (decide (r.scaleOff % 4 = 0) && decide (r.rows * r.rb ≤ r.scaleOff)
      && decide (r.scaleOff + 4 * r.rows ≤ r.length)))

/-- Two reservations share a byte. -/
def resvMeet (a b : Resv) : Bool := decide (a.start < b.start + b.length) && decide (b.start < a.start + a.length)

/-- A sequencer word that returns a status. -/
def State.seqReturn (s : State) (k n : Nat) : State := (s.seqStatus k n).seqFinish k 1

/-- MRESV (R304). -/
def execMresv (o : Sys2Proof.Mresv) (s : State) : Answer :=
  s.seqWord (fun k => s.outsideRegion k (
    let c := s.kReg o.cap
    let w0 := s.sReg o.b
    let w1 := s.sReg (o.b + 1)
    let q := s.seqOf k
    let r := resvOf c.base w0 w1
    if 255 ≤ o.b then s.seqFault k .illegalOperand
    else
      match capCheck c [3] permMX, s.laneCheck (s.seqEnv k) c (bits w0 19 0) (bits w0 40 20) 1 with
      | some cause, _ => s.seqFault k cause
      | none, some (cause, _) => s.seqFault k cause
      | none, none =>
        if resvLegal r w0 w1 = false then s.seqFault k .illegalOperand
        else if (tabFind q.resv o.slot).isSome then s.seqReturn k 8
        else if q.resv.any (fun e => resvMeet e.2 r) then s.seqReturn k 9
        else (s.setSeq k { q with resv := tabPut q.resv o.slot r }).seqReturn k 0))

/-- MRELS (R305). -/
def execMrels (o : Sys2Proof.Mrels) (s : State) : Answer :=
  s.seqWord (fun k => s.outsideRegion k (s.seqDrain k (
    let q := s.seqOf k
    (s.setSeq k { q with resv := tabDel q.resv o.slot }).seqFinish k 1)))

/-! ### Weights (R213, R214, R306 to R308) -/

/-- U of R306. -/
def weightBytes (fmt : Nat) : Nat := if fmt = 2 then 136 else 68

/-- The units that an MLDB writes. -/
def MldbOp.units (o : MldbOp) : List Nat := if o.fmt = 2 then [o.unit, o.unit + 1] else [o.unit]

/-- The units that an MMA reads. -/
def MmaOp.units (o : MmaOp) : List Nat := if o.bfmt = .e4m3 then [o.unit, o.unit + 1] else [o.unit]

/-- The MMAs accepted or stalled. -/
def Seq.pendingMmas (q : Seq) : List MmaOp :=
  q.mmas ++ match q.stalled with
    | none => []
    | some o => [o]

/-- Consecutive places gathered into runs. -/
def runsOf (ks : List (Nat × Nat)) : List (Nat × Nat) :=
  match ks with
  | [] => []
  | (a, _) :: rest =>
    match runsOf rest with
    | (b, n) :: more => if b = a + 1 then (a, n + 1) :: more else (a, 1) :: (b, n) :: more
    | [] => [(a, 1)]

/-- The places of the bytes of some runs. -/
def runPlaces (rs : List (Nat × Nat)) : List Nat := rs.flatMap (fun r => (List.range r.2).map (fun i => r.1 + i))

/-- The bytes of some runs. -/
def runBytes (m : Store) (rs : List (Nat × Nat)) : List Byte := rs.flatMap (fun r => m.readBytes r.1 r.2)

/-- The poison marks of the bytes of some runs. -/
def runPoison (m : Store) (rs : List (Nat × Nat)) : List Bool :=
  rs.flatMap (fun r => (List.range r.2).map (fun i => m.poisoned (r.1 + i) 1))

/-- The bytes of some runs, each with its poison. -/
def runCells (m : Store) (rs : List (Nat × Nat)) : List (Byte × Bool) := (runBytes m rs).zip (runPoison m rs)

/-- The bytes of some runs as an operation can first read them: now, or nothing yet while DT is not later than its NOTBEFORE
(R103). -/
def State.firstBytes (s : State) (notBefore : Nat) (rs : List (Nat × Nat)) : List (Byte × Bool) :=
  if notBefore < s.dt then runCells s.store rs else []

/-- MLDB (R307): the places of its source are translated at issue. -/
def State.mldb (s : State) (k : Nat) (o : Sys2Proof.Mldb) : State :=
  let q := s.seqOf k
  let t := s.sReg o.d % 1024
  let c := s.kReg o.cap
  let n := 256 * weightBytes o.fmt
  let op : MldbOp := { unit := t, fmt := o.fmt, runs := [], notBefore := q.maxw, snap := [], region := q.idem }
  if (if o.fmt = 2 then 600 else 601) < t then s.seqFault k .illegalOperand
  else
    match capCheck c [0, 5] permMX, s.laneCheck (s.seqEnv k) c (s.sReg o.a) n 1 with
    | some cause, _ => s.seqFault k cause
    | none, some (cause, _) => s.seqFault k cause
    | none, none =>
      if 2 ≤ q.mldbs.length ∨ q.pendingMmas.any (fun m => m.units.any (fun u => op.units.contains u)) = true then s
      else
        match s.capKeys (s.seqEnv k) c .load (s.sReg o.a) n with
        | .error (s1, cause, _) => s1.seqFault k cause
        | .ok (s1, ks) =>
          let rs := runsOf ks
          let q1 := s1.seqOf k
          (s1.setSeq k { q1 with
            mldbs := q1.mldbs ++ [{ op with runs := rs, snap := s1.firstBytes op.notBefore rs }] }).seqFinish k 1

/-- MLDB (R307). -/
def execMldb (o : Sys2Proof.Mldb) (s : State) : Answer :=
  s.seqWord (fun k => if o.fmt = 3 then s.seqFault k .illegalOpcode else s.mldb k o)

/-- The tags after units are overwritten (R307): a pair that loses a half loses the tag of the other half. -/
def retagUnits (tags : Tab WTag) (us : List Nat) (new : Nat → WTag) : Tab WTag :=
  let broken := us.foldl (fun t u =>
    match tabGet tags .none u with
    | .e4m3 => tabDel t (u + 1)
    | .e4m3b => tabDel t (u - 1)
    | _ => t) tags
  us.foldl (fun t u => tabSet t .none u (new u)) broken

/-- The tag of a unit that an MLDB of a format writes (R307). -/
def tagOf (fmt unit u : Nat) : WTag :=
  match fmt with
  | 0 => .w4g
  | 1 => .w3g
  | _ => if u = unit then .e4m3 else .e4m3b

/-- One column of a weight unit written, its damaged source bytes carried as poison (R307). -/
def Store.writeColumn (m : Store) (a : Nat) (bs : List Byte) (bad : List Bool) : Store :=
  let m1 := m.write (wholeCells a bs) none
  { m1 with poison := (List.range bs.length).foldl (fun p i =>
      if bad.getD i false then memberAdd p ((a + i) / 8) else p) m1.poison }

/-- MLDB_COMPLETE (R307, R308): the oldest MLDB of a cluster writes its units and their tags. -/
def execMldbComplete (k : Nat) (s : State) : Answer :=
  let q := s.seqOf k
  match q.mldbs with
  | [] => .next s
  | o :: rest =>
    if s.dt ≤ o.notBefore then .next s
    else
      let u := weightBytes o.fmt
      let bs := mixBytes s.free (runPlaces o.runs) o.snap (runCells s.store o.runs)
      let m := (List.range 256).foldl (fun m c =>
        let col := (bs.drop (c * u)).take u
        m.writeColumn (weightKey k c (68 * o.unit)) (col.map (fun b => b.1)) (col.map (fun b => b.2))) s.store
      let s1 := (s.setStore m).setSeq k { q with mldbs := rest }
      let s2 := s1.setCluster k { s1.cluster k with wtags := retagUnits (s1.cluster k).wtags o.units (tagOf o.fmt o.unit) }
      .next (o.runs.foldl (fun t r => t.touchRead r.1 r.2) s2).bumpFree

/-- n bits from bit lo on of the bytes at a place, 0 where a byte that they lie in is damaged (R319). -/
def weightField (m : Store) (a lo n : Nat) : Nat :=
  if m.poisoned (a + lo / 8) ((lo + n - 1) / 8 - lo / 8 + 1) then 0 else m.readNat (a + lo / 8) 2 / 2 ^ (lo % 8) % 2 ^ n

/-- A signed weight with its group scale (R213, R214). -/
def scaledWeight (q : Int) (e : Nat) : FVal := if e = 255 then .nan else .fin (q < 0) q.natAbs ((e : Int) - 127)

/-- Element k of a column's weight unit, expanded (R214, R306). -/
def weightVal (m : Store) (k c t kk : Nat) (f : WTag) : FVal :=
  let a := weightKey k c (68 * t)
  match f with
  | .w4g => scaledWeight (sInt 4 (weightField m a (4 * kk) 4)) (weightField m a (512 + kk / 32 * 8) 8)
  | .w3g => scaledWeight (sInt 3 (weightField m a (3 * kk) 3)) (weightField m a (384 + kk / 32 * 8) 8)
  | _ => valOf .e4m3 (weightField m a (8 * kk) 8)

/-! ### MMA (R215 to R217, R309 to R311) -/

/-- The value of an activation element in the bytes of its row (R303). -/
def actVal (fmt : Nat) (row : List Byte) (kk : Nat) : FVal :=
  match fmt with
  | 0 => valOf .e4m3 (row.getD kk 0).toNat
  | 1 => valOf .e5m2 (row.getD kk 0).toNat
  | _ => valOf .bf16 ((row.getD (2 * kk) 0).toNat + 256 * (row.getD (2 * kk + 1) 0).toNat)

/-- A value truncated toward zero to a multiple of a power of two (R216). -/
def truncVal (v : FVal) (q : Int) : FVal :=
  match v with
  | .fin s m e => if e < q then .fin s (m / 2 ^ (q - e).toNat) q else .fin s m e
  | x => x

/-- The greatest binary exponent among nonzero finite products (R216). -/
def maxExp (ps : List FVal) : Option Int :=
  ps.foldl (fun x p => match p with
    | .fin _ m e =>
      if m = 0 then x
      else match x with
        | none => some ((Nat.log2 m : Int) + e)
        | some y => some (max y ((Nat.log2 m : Int) + e))
    | _ => x) none

/-- The exact sum of products rounded once, an exact zero as +0 (R215). -/
def sumRn32 (ps : List FVal) : Nat :=
  match ps.foldl (addVal .rne) (.fin false 0 0) with
  | .fin _ 0 _ => 0
  | v => rn32 v

/-- GroupSum (R215, R216) of the products of a k-group. -/
def groupSum (bf16 : Bool) (ps : List FVal) : Nat :=
  if bf16 then
    match maxExp ps with
    | none => sumRn32 ps
    | some x => sumRn32 (ps.map (fun p => truncVal p (x - 40)))
  else sumRn32 ps

/-- The bytes of operands that an MMA reads: rows, block scales and post-scales. -/
structure MmaData where
  rows : List Byte
  scales : List Byte
  post : List Byte
deriving DecidableEq, Repr

/-- The places of an MMA's operand-buffer bytes: first byte and length of its rows, scales and post-scales. -/
def MmaOp.ranges (o : MmaOp) (k : Nat) : List (Nat × Nat) :=
  [(opKey k (o.resv.start + o.arow * o.resv.rb), o.m * o.resv.rb),
   (opKey k (o.resv.start + o.resv.scaleOff + 4 * o.arow), if o.resv.scaled then 4 * o.m else 0),
   (opKey k (o.post.getD 0), if o.post.isSome then 1024 else 0)]

/-- The bytes of the operand buffer that an MMA reads, each with its damage: as it could first read it or as it stands now
(R302). -/
def State.mmaBytes (s : State) (k : Nat) (o : MmaOp) : List (Byte × Bool) :=
  if o.fixed then o.snap else mixBytes s.free (runPlaces (o.ranges k)) o.snap (runCells s.store (o.ranges k))

/-- Those of one of the ranges of an MMA: rows, scales or post-scales. -/
def State.mmaPart (s : State) (k : Nat) (o : MmaOp) (i : Nat) : List (Byte × Bool) :=
  let rs := o.ranges k
  ((s.mmaBytes k o).drop ((rs.take i).foldl (fun n r => n + r.2) 0)).take (rs.getD i (0, 0)).2

/-- What an MMA reads of the operand buffer, +0 where damaged (R319). -/
def State.mmaData (s : State) (k : Nat) (o : MmaOp) : MmaData :=
  { rows := zeroDamaged (s.mmaPart k o 0), scales := zeroDamaged (s.mmaPart k o 1), post := zeroDamaged (s.mmaPart k o 2) }

/-- The products of a k-group of row i and column c (R215). -/
def mmaProducts (m : Store) (k : Nat) (o : MmaOp) (d : MmaData) (i c g : Nat) : List FVal :=
  let row := (d.rows.drop (i * o.resv.rb)).take o.resv.rb
  let sc := if o.resv.scaled then valOf .e8m0 (d.scales.getD (4 * i + g) 0).toNat else .fin false 1 0
  (List.range 32).map (fun j =>
    mulVal (mulVal (actVal o.resv.fmt row (32 * g + j)) sc) (weightVal m k c o.unit (32 * g + j) o.bfmt))

/-- One element of an MMA from the element it starts with (R310, R217). -/
def mmaElement (m : Store) (k : Nat) (o : MmaOp) (d : MmaData) (i c old : Nat) : Nat :=
  let a := (List.range 4).foldl (fun a g => add32 a (groupSum (o.resv.fmt == 2) (mmaProducts m k o d i c g)))
    (if o.zero then 0 else old)
  if o.post.isSome then mul32 a (natOfBytes ((d.post.drop (4 * c)).take 4)) else a

/-- When an MMA first reads a word, as a number that rises with row, column and k in the loops of R310: the accumulator
element before the k-groups (part 0), then by k, the post-scale last (R321). -/
def readTime (row col part : Nat) : Nat := (row * 256 + col) * 1024 + part

/-- A damaged word that an operation reads: when it first reads it, the word, and its record. -/
abbrev DamRead := Nat × Nat × Nat

/-- A damaged word put into a list that rises with the time of reading. -/
def insertRead (x : DamRead) (xs : List DamRead) : List DamRead :=
  match xs with
  | [] => [x]
  | y :: rest => if y.1 ≤ x.1 then y :: insertRead x rest else x :: y :: rest

/-- The records of damaged words in the order in which they are first read, one for each word (R319, R321). -/
def readRecords (l : List DamRead) : List Nat :=
  ((l.foldr insertRead []).foldl (fun (acc : List DamRead) x =>
    if acc.any (fun y => y.2.1 == x.2.1) then acc else acc ++ [x]) []).map (fun x => x.2.2)

/-- The k of the first element of a weight unit that lies in a byte, or that is scaled by it (R306). -/
def unitK (f : WTag) (i : Nat) : Nat :=
  match f with
  | .w4g => if i < 64 then 2 * i else (i - 64) * 32
  | .w3g => if i < 48 then 8 * i / 3 else (i - 48) * 32
  | _ => i

/-- The bytes of a column's weight unit that are read. -/
def unitUsed (f : WTag) : Nat :=
  match f with
  | .w4g => 68
  | .w3g => 52
  | _ => 128

/-- The least k among the bytes of a word from byte i of a unit on, the word being n bytes from its end (R321). -/
def wordK (f : WTag) (i n : Nat) : Nat :=
  (List.range (min n (unitUsed f - i))).foldl (fun x j => min x (unitK f (i + j))) (unitK f i)

/-- Damaged words that an MMA reads, each with its record, in the order in which the MMA first reads them: by row, column and
k ascending (R310, R319, R321). -/
def State.mmaDamage (s : State) (k : Nat) (o : MmaOp) : List Nat :=
  let m := s.store
  let at_ := fun i => ((o.ranges k).getD i (0, 0)).1
  let es := if o.resv.fmt = 2 then 2 else 1
  let pr := tabGet (s.seqOf k).resv o.resv o.pslot
  let rows := (damagedIn (at_ 0) (s.mmaPart k o 0)).map (fun i =>
    let kk := i % o.resv.rb / es
    (readTime (i / o.resv.rb) 0 (1 + 4 * kk), (at_ 0 + i) / 8, derrRec 0 o.slot (o.arow + i / o.resv.rb) kk 0))
  let scales := (damagedIn (at_ 1) (s.mmaPart k o 1)).map (fun i =>
    (readTime (i / 4) 0 (2 + 4 * (i % 4 * 32)), (at_ 1 + i) / 8, derrRec 0 o.slot (o.arow + i / 4) (i % 4 * 32) 0))
  let post := (damagedIn (at_ 2) (s.mmaPart k o 2)).map (fun i =>
    let off := o.post.getD 0 - pr.start + i
    (readTime 0 (i / 4) 1023, (at_ 2 + i) / 8, derrRec 0 o.pslot (off / pr.rb) (off % pr.rb / (if pr.fmt = 2 then 2 else 1)) 0))
  let b := (List.range 256).flatMap (fun c =>
    let a := weightKey k c (68 * o.unit)
    (damagedAt m a (unitUsed o.bfmt)).map (fun i =>
      let kk := wordK o.bfmt i (8 - (a + i) % 8)
      (readTime 0 c (3 + 4 * kk), (a + i) / 8, derrRec 1 0 o.unit c kk)))
  let acc := if o.zero then [] else (List.range o.m).flatMap (fun i =>
    (damagedAt m (accElem k (o.acc + i) 0) 1024).map (fun x =>
      (readTime i (x / 4) 0, (accElem k (o.acc + i) 0 + x) / 8, derrRec 2 0 (o.acc + i) (x / 4) 0)))
  readRecords (rows ++ scales ++ post ++ b ++ acc)

/-- What an MMA writes to accumulator row i; the elements that keep chooses are not written (R315). -/
def State.mmaRow (s : State) (k : Nat) (o : MmaOp) (d : MmaData) (i : Nat) (keep : Nat → Bool) : List (Nat × Byte × Byte) :=
  (List.range 256).flatMap (fun c =>
    let a := accElem k (o.acc + i) c
    if keep c then [] else wholeCells a (bytesOf (mmaElement s.store k o d i c (readElem s.store a)) 4))

/-- Elements of an accumulator row written: a conflict for a speculative wave that watches it (R318). -/
def State.writeAccRow (s : State) (k row : Nat) (cells : List (Nat × Byte × Byte)) : State :=
  (s.setStore (s.store.write cells none)).markConflicts none [accElem k row 0 / 128]

/-- An MMA writes its rows; keep chooses elements, by row and column, that keep their value. -/
def State.applyMma (s : State) (k : Nat) (o : MmaOp) (keep : Nat → Nat → Bool) : State :=
  let d := s.mmaData k o
  let dmg := s.mmaDamage k o
  ((List.range o.m).foldl (fun t i => t.writeAccRow k (o.acc + i) (s.mmaRow k o d i (keep i))) s).logDamage k dmg

/-- Every row of an MMA has entered the array (R311). -/
def MmaOp.hasEntered (o : MmaOp) (now : Nat) : Bool :=
  match o.entered with
  | none => false
  | some n => decide (n ≤ now)

/-- MMA_COMPLETE (R310, R311): the oldest accepted MMA of a cluster, all its rows having entered the array, writes its rows. -/
def execMmaComplete (k : Nat) (s : State) : Answer :=
  let q := s.seqOf k
  match q.mmas with
  | [] => .next s
  | o :: rest =>
    if s.dt ≤ o.notBefore ∨ o.hasEntered (s.cycles k) = false then .next s
    else .next ((s.setSeq k { q with mmas := rest }).applyMma k o (fun _ _ => false)).bumpFree

/-- LnSum (R312). -/
def Seq.lnSum (q : Seq) (a : Nat) : Int :=
  (List.range 4).foldl (fun x i => x + tabGet q.cf 0 (4 * a + i) * (tabGet q.iv 0 i : Nat)) 0

/-- The MMA that a descriptor asks for (R309, R310), or none where a check fails. -/
def State.mmaOp (s : State) (k d : Nat) (ln zero post : Bool) : Option MmaOp :=
  let q := s.seqOf k
  let add := fun (x : Nat) (a : Nat) => if ln then (x : Int) + q.lnSum a else x
  let row := add (bits d 19 4) 0
  let t := add (bits d 38 29) 1
  let acc := add (bits d 47 39) 2
  let m := bits d 28 20 + 1
  let tag := tabGet (s.cluster k).wtags .none t.toNat
  match tabFind q.resv (bits d 3 0), tabFind q.resv (bits d 61 58) with
  | none, _ => none
  | some rv, pv =>
    let postOk := match pv with
      | none => !post
      | some p => !post || decide (bits d 57 48 * 1024 + 1024 ≤ p.length)
    if d < 2 ^ 62 ∧ 0 ≤ row ∧ row + m ≤ rv.rows ∧ 0 ≤ acc ∧ acc + m ≤ 512 ∧ 0 ≤ t ∧ t < 602 ∧ tag ≠ .none ∧ tag ≠ .e4m3b
        ∧ postOk = true then
      some { zero := zero
             post := if post then pv.map (fun p => p.start + bits d 57 48 * 1024) else none
             resv := rv, slot := bits d 3 0, arow := row.toNat, unit := t.toNat, acc := acc.toNat, m := m
             pslot := bits d 61 58, bfmt := tag, region := q.idem, notBefore := q.maxw, snap := []
             fixed := false, entered := none, done := [] }
    else none

/-- The unit that a descriptor names. -/
def Seq.mmaUnit (q : Seq) (d : Nat) (ln : Bool) : Int := if ln then (bits d 38 29 : Int) + q.lnSum 1 else bits d 38 29

/-- Some outstanding MLDB writes a unit that the MMA of a descriptor may read: t, or t + 1 as the second of a pair (R308). -/
def Seq.mldbWrites (q : Seq) (t : Int) (pair : Bool) : Bool :=
  q.mldbs.any (fun o => o.units.any (fun u => (u : Int) == t || (pair && (u : Int) == t + 1)))

/-- The array accepts an MMA: fewer than two are incomplete, every row of the one before has entered by this cycle, and it is not
stopped (R311, R315). -/
def Seq.accepts (q : Seq) (now : Nat) : Bool :=
  decide (q.mmas.length < 2) && q.mmas.all (fun o => o.hasEntered now) && !q.stop

/-- Cycles r for which one row of an MMA occupies the array (R311). -/
def MmaOp.rowCycles (o : MmaOp) : Nat := (if o.resv.fmt = 2 then 2 else 1) * (if o.bfmt = .e4m3 then 2 else 1)

/-- An accepted MMA that could not begin before begins once DT is later than its NOTBEFORE (R103): the bytes that it can read
now (R302), and the cycle at which its last row will have entered (R311). -/
def State.beginMma (s : State) (k : Nat) (o : MmaOp) : MmaOp :=
  if o.entered.isSome ∨ s.dt ≤ o.notBefore then o
  else { o with snap := runCells s.store (o.ranges k), entered := some (s.cycles k + o.m * o.rowCycles) }

/-- An MMA accepted (R311). -/
def State.acceptMma (s : State) (k : Nat) (o : MmaOp) : State :=
  let q := s.seqOf k
  (s.setSeq k { q with mmas := q.mmas ++ [s.beginMma k o], stalled := none }).seqFinish k 1

/-- The accepted MMAs and the outstanding MLDBs that could not read before, with the bytes that they can read now that DT is
later than their NOTBEFORE (R103, R302). -/
def State.openReads (s : State) : State :=
  let rb := fun (nb : Nat) (old : List (Byte × Bool)) (rs : List (Nat × Nat)) => if old = [] then s.firstBytes nb rs else old
  { s with clusters := s.clusters.map (fun e =>
      (e.1, { e.2 with seq := { e.2.seq with
        mmas := e.2.seq.mmas.map (fun o => s.beginMma e.1 o)
        mldbs := e.2.seq.mldbs.map (fun o => { o with snap := rb o.notBefore o.snap o.runs }) } })) }

/-- The four forms of MMA (R310): the descriptor is taken at issue; an MMA that the array cannot accept stalls (R311). -/
def State.mma (s : State) (o : Sys2Proof.Mma) (zero post : Bool) : Answer :=
  s.seqWord (fun k =>
    let q := s.seqOf k
    let d := s.sReg o.a
    let t := q.mmaUnit d o.ln
    if q.mldbWrites t (tabGet (s.cluster k).wtags .none t.toNat == .e4m3) then s
    else
      match s.mmaOp k d o.ln zero post with
      | none => s.seqFault k .illegalOperand
      | some x => if q.accepts (s.cycles k) then s.acceptMma k x else s.setSeq k { q with stalled := some x })

/-- MMA (R310). -/
def execMma (o : Sys2Proof.Mma) (s : State) : Answer := s.mma o false false

/-- MMAZ (R310). -/
def execMmaz (o : Sys2Proof.Mma) (s : State) : Answer := s.mma o true false

/-- MMAP (R310). -/
def execMmap (o : Sys2Proof.Mma) (s : State) : Answer := s.mma o false true

/-- MMAZP (R310). -/
def execMmazp (o : Sys2Proof.Mma) (s : State) : Answer := s.mma o true true

/-- MMA_ACCEPT (R311): a stalled MMA is accepted once the array takes it. -/
def execMmaAccept (k : Nat) (s : State) : Answer :=
  let q := s.seqOf k
  match q.stalled with
  | none => .next s
  | some o => if q.accepts (s.cycles k) then .next (s.acceptMma k o) else .next s

/-! ### The loop-nest unit (R312, R313) -/

/-- LNSET (R313). -/
def execLnset (o : Sys2Proof.Lnset) (s : State) : Answer :=
  s.seqWord (fun k =>
    let q := s.seqOf k
    let n := s.sReg o.a % 65536
    if n = 0 then s.seqFault k .illegalOperand
    else (s.setSeq k { q with lb := tabPut q.lb o.lvl n, iv := tabPut q.iv o.lvl 0 }).seqFinish k 1)

/-- LNCOEF (R313). -/
def execLncoef (o : Sys2Proof.Lncoef) (s : State) : Answer :=
  s.seqWord (fun k =>
    let q := s.seqOf k
    if 3 ≤ o.c then s.seqFault k .illegalOperand
    else (s.setSeq k { q with cf := tabPut q.cf (4 * o.c + o.lvl) (sInt 16 (s.sReg o.a % 65536)) }).seqFinish k 1)

/-- One step of the nest: the induction variables and the carry (R313). -/
def lnStep (lb iv : Tab Nat) : List Nat → Tab Nat × Bool
  | [] => (iv, true)
  | i :: rest =>
    let n := tabGet iv 0 i + 1
    if n = tabGet lb 1 i then lnStep lb (tabPut iv i 0) rest else (tabPut iv i n, false)

/-- LNSTEP (R313). -/
def execLnstep (_o : Sys2Proof.Nul) (s : State) : Answer :=
  s.seqWord (fun k =>
    let q := s.seqOf k
    let r := lnStep q.lb q.iv [0, 1, 2, 3]
    (s.setSeq k { q with iv := r.1, cc := ccZ q.cc r.2 }).seqFinish k 1)

/-! ### Idempotent regions (R314, R315) -/

/-- IDEMB (R314). -/
def execIdemb (_o : Sys2Proof.Nul) (s : State) : Answer :=
  s.seqWord (fun k => s.outsideRegion k (
    let q := s.seqOf k
    (s.setSeq k { q with idem := true, idemRec := some (q.seg, q.word, q.iv, q.lc) }).seqFinish k 1))

/-- IDEME (R314). -/
def execIdeme (_o : Sys2Proof.Nul) (s : State) : Answer :=
  s.seqWord (fun k => s.seqDrain k (
    let q := s.seqOf k
    (s.setSeq k { q with idem := false, idemRec := none }).seqFinish k 1))

/-- The MMAs of a cluster in their order as an abandoned region leaves them (R315): those issued before the region complete, and
those of the region leave each element old or new; from one on that has made no access yet (R103) none does. The array writes
each element in the order of the MMAs (R310): one that an MMA left old, by row and column in old, no later one makes new, and one
that a thread has read new is new (R100). -/
def State.applyAbandoned (s : State) (k : Nat) (ops : List MmaOp) (old : Nat → Nat → Bool := fun _ _ => false) : State :=
  match ops with
  | [] => s
  | o :: rest =>
    if s.dt ≤ o.notBefore then s.setSeq k { s.seqOf k with mmas := (o :: rest).filter (fun x => !x.region) }
    else
      let keep := fun i c => o.region && (old (o.acc + i) c
        || (!(o :: rest).any (fun x => x.done.contains ((o.acc + i) * 256 + c))
          && !Config.newElement s.free (2 ^ 40 + (o.acc + i) * 256 + c)))
      ((s.applyMma k o keep).bumpFree).applyAbandoned k rest
        (fun r c => old r c || (decide (o.acc ≤ r) && decide (r < o.acc + o.m) && keep (r - o.acc) c))

/-- A region abandoned (R315): its MMAs stop, with none of their elements new or after some were written; its MLDBs leave their
units without a tag, and the sequencer goes back to the IDEMB word with the values that it recorded. -/
def State.abandonRegion (s : State) (k : Nat) : State :=
  let q := s.seqOf k
  match q.idemRec with
  | none => s
  | some (seg, word, iv, lc) =>
    let inLdbs := q.mldbs.filter (fun o => o.region)
    let wrote := q.mmas.any (fun o => o.region)
      && (Config.newElement s.free (2 ^ 42) || q.mmas.any (fun o => o.region && !o.done.isEmpty))
    let s1 := s.setSeq k { q with
      mmas := if wrote then [] else q.mmas.filter (fun o => !o.region), mldbs := q.mldbs.filter (fun o => !o.region), stalled := none
      seg := seg, word := word, iv := iv, lc := lc, idem := false, idemRec := none, park := .run }
    let s2 := if wrote then s1.bumpFree.applyAbandoned k q.mmas else s1.bumpFree
    s2.setCluster k { s2.cluster k with
      wtags := inLdbs.foldl (fun tags o => retagUnits tags o.units (fun _ => .none)) (s2.cluster k).wtags }

/-! ### The cistern (R316, R317) -/

/-- The limits of CTAKE's take form (R316). -/
def takeOk (d : CisternDecl) (r : Resv) (row : Nat) : Bool :=
  decide (row + d.thresh ≤ r.rows) && decide (d.rowBytes ≤ r.rb)

/-- Row j of a tile copied into a reservation row, zero-padded, with its poison and a scale of 2^0 (R316). -/
def State.takeRow (s : State) (k : Nat) (r : Resv) (row : Nat) (x : CisRow) : State :=
  let a := opKey k (r.start + row * r.rb)
  let m := s.store.write (wholeCells a ((x.bytes ++ List.replicate r.rb 0).take r.rb)) none
  let m1 := { m with poison := x.poison.foldl (fun p i => memberAdd p (a / 8 + i)) m.poison }
  s.setStore (if r.scaled then
    m1.write (wholeCells (opKey k (r.start + r.scaleOff + 4 * row)) (List.replicate 4 0x7F)) none else m1)

/-- The rows of a tile copied in order. -/
def State.takeRows (s : State) (k : Nat) (r : Resv) (row : Nat) (xs : List CisRow) : State :=
  match xs with
  | [] => s
  | x :: rest => (s.takeRow k r row x).takeRows k r (row + 1) rest

/-- A sequencer word that writes an s register and a status. -/
def State.seqResult (s : State) (k d v st : Nat) : State :=
  let q := s.seqOf k
  (s.setSeq k { q with s := tabPut q.s d (BitVec.ofNat 64 v) }).seqReturn k st

/-- CTAKE (R316): every deposit of a row happens before the take, and the copy waits for NOTBEFORE (R103, R302). -/
def execCtake (o : Sys2Proof.Ctake) (s : State) : Answer :=
  s.seqWord (fun k => s.outsideRegion k (
    let x := s.cistern k o.c
    let row := s.sReg o.a
    match s.agentMod.cisternDecl o.c, tabFind (s.seqOf k).resv o.slot with
    | some d, some r =>
      if takeOk d r row = false then s.seqFault k .illegalOperand
      else if x.taken.isSome then s.seqResult k o.d 0 8
      else
        match x.ready with
        | [] => s.seqResult k o.d 0 6
        | tile :: rest =>
          if s.tileReady (tile.map (fun y => y.fork)) = false ∨ s.dt ≤ (s.seqOf k).maxw then s
          else
            let s1 := (s.takeRows k r row tile).setCistern k o.c { x with ready := rest, taken := some tile }
            let s2 := s1.seqResult k o.d tile.length 0
            s2.setSeq k { s2.seqOf k with copying := true }
    | _, _ => s.seqFault k .illegalOperand))

/-- CTAKE_COPY_COMPLETE (R316): the sequencer issues again. -/
def execCtakeCopyComplete (k : Nat) (s : State) : Answer :=
  .next (s.setSeq k { s.seqOf k with copying := false })

/-- Arrivals made by a sequencer one after another. -/
def State.seqArrivals (s : State) (k a : Nat) : Nat → State
  | 0 => s
  | n + 1 => (s.seqBarrier k a barArrive).seqArrivals k a n

/-- CTAKE.arm (R316): it waits until every deposit of the ready tiles, which its arrivals report, has happened (R103). -/
def execCtakeArm (o : Sys2Proof.CtakeArm) (s : State) : Answer :=
  s.seqWord (fun k =>
    match s.agentMod.cisternDecl o.c with
    | none => s.seqFault k .illegalOperand
    | some _ => s.seqBarIssue k o.cap (s.sReg o.a) 16 (fun s1 a => s1.seqAfterGate k (fun t =>
        let x := t.cistern k o.c
        if x.ready.all (fun tile => t.tileReady (tile.map (fun y => y.fork))) = false then t
        else ((t.setCistern k o.c { x with armed := some a }).seqArrivals k a x.ready.length).seqFinish k 1)))

/-- The futures of a taken tile completed in row order, with the bits of accumulator elements (R317); damaged words are
noted (R319), and the writes enter MAXW (R299). -/
def State.giveRows (s : State) (k row col : Nat) (xs : List CisRow) : State :=
  match xs with
  | [] => s
  | x :: rest =>
    let a := accElem k row col
    if (s.crew x.crew).ended || (s.crew x.crew).killed then s.giveRows k (row + 1) col rest
    else
      let s1 := s.logDamage k (if s.store.poisoned a 4 then [derrRec 2 0 row col 0] else [])
      let s2 := s1.completeFuture x.crew x.future (readElem s.store a) 0 0
      (s2.setSeq k { s2.seqOf k with maxw := max (s2.seqOf k).maxw s2.dt }).giveRows k (row + 1) col rest

/-- CGIVE (R317). -/
def execCgive (o : Sys2Proof.Cgive) (s : State) : Answer :=
  s.seqWord (fun k => s.outsideRegion k (s.seqDrain k (s.seqAfterGate k (fun t =>
    let x := t.cistern k o.c
    let base := s.sReg o.a % 512
    match x.taken with
    | none => t.seqReturn k 6
    | some tile =>
      if 512 < base + tile.length then t.seqFault k .illegalOperand
      else ((t.giveRows k base (bits (s.sReg o.a) 16 9) tile).setCistern k o.c { x with taken := none }).seqReturn k 0))))

/-! ### ADRN (R193, R318) -/

/-- The format of ADRN's code. -/
def adrnFmt (f : Nat) : Fmt :=
  match f with
  | 0 => .f32
  | 1 => .f16
  | 2 => .bf16
  | 3 => .e4m3
  | _ => .e5m2

/-- Row and column numbers of a view's elements, in order. -/
def viewIndex (rows cols : Nat) : List (Nat × Nat) :=
  (List.range (rows + 1)).flatMap (fun i => (List.range (cols + 1)).map (fun j => (i, j)))

/-- Element (i, j) of a view as a slice operand (R193). -/
def viewSlc (v i j : Nat) : Slc :=
  { start := bits v 19 10 + i * bits v 29 20 + j * (bits v 45 42 + 1), width := bits v 45 42 + 1 }

/-- The MMAs from the oldest in flight on, in their order, that write an accumulator element and have read their operands; one
that has not ends the list (R302). -/
def accWriters (row : Nat) (ops : List MmaOp) : List MmaOp :=
  (ops.filter (fun o => decide (o.acc ≤ row) && decide (row < o.acc + o.m))).takeWhile (fun o => o.fixed)

/-- How many of the MMAs in flight that write an element a thread finds done there: at least those that a thread has found done
before (R100, R302). -/
def accSeen (free row col : Nat) (ops : List MmaOp) : Nat :=
  match ops with
  | [] => 0
  | o :: rest =>
    let n := accSeen free row col rest
    if n ≠ 0 ∨ o.done.contains (row * 256 + col) = true
        ∨ Config.newElement free (2 ^ 41 + rest.length * 2 ^ 20 + row * 256 + col) = true then n + 1
    else 0

/-- An accumulator element after some MMAs in flight, oldest first (R310). -/
def State.accAfter (s : State) (k row col : Nat) (ops : List MmaOp) (v : Nat) : Nat :=
  ops.foldl (fun x o => mmaElement s.store k o (s.mmaData k o) (row - o.acc) col x) v

/-- An accumulator element as a thread reads it: that of the file, or what the MMAs in flight that it finds done make of it
(R302). -/
def State.accRead (s : State) (k row col : Nat) : Nat :=
  let ops := accWriters row (s.seqOf k).mmas
  s.accAfter k row col (ops.take (accSeen s.free row col ops)) (readElem s.store (accElem k row col))

/-- MMAs in flight with an element, by row and column, marked as read new in the first n of those that write it. -/
def markDone (row col n : Nat) (ops : List MmaOp) : List MmaOp :=
  match n, ops with
  | n + 1, o :: rest =>
    if o.acc ≤ row ∧ row < o.acc + o.m then
      { o with done := memberAdd o.done (row * 256 + col) } :: markDone row col n rest
    else o :: markDone row col (n + 1) rest
  | _, _ => ops

/-- Accumulator elements that a thread has read: no later read finds one of them older (R100). -/
def State.noteReads (s : State) (k : Nat) (es : List (Nat × Nat)) : State :=
  let q := s.seqOf k
  if q.mmas = [] then s
  else
    let ops := es.foldl (fun l e => markDone e.1 e.2 (accSeen s.free e.1 e.2 (accWriters e.1 q.mmas)) l) q.mmas
    s.setSeq k { q with mmas := ops }

/-- The slices of one thread that an ADRN writes; where elements of the view overlap the later one holds. -/
def State.adrnCells (s : State) (k t v f r0 col : Nat) (sat : Bool) : List (Nat × Nat × Nib) :=
  let es := viewIndex (bits v 41 36) (bits v 35 30)
  let fmt := adrnFmt f
  let tab := es.foldl (fun tb e =>
    let o := viewSlc v e.1 e.2
    let x := s.accRead k (r0 + e.1) (col + e.2)
    putSlices tb o.start (if f = 0 then x else roundVal fmt .rne sat (v32 x)) o.width) ([] : Tab Nib)
  tab.map (fun e => (t, e.1, e.2))

/-- The accumulator words that are damaged among those that some rows of an ADRN read (R319). -/
def accDamage (m : Store) (k r0 rows col cols : Nat) : List DamRead :=
  (List.range (rows + 1)).flatMap (fun i => ((List.range (cols + 1)).filter (fun j =>
    let a := accElem k (r0 + i) (col + j)
    m.poisoned a 4 && (j == 0 || a % 8 == 0))).map (fun j =>
      (readTime (r0 + i) (col + j) 0, accElem k (r0 + i) (col + j) / 8, derrRec 2 0 (r0 + i) (col + j) 0)))

/-- ADRN may find an MMA in flight that has begun to write: the bytes that such an MMA has read are then settled (R302). -/
def State.fixReads (s : State) (k : Nat) (rows : List Nat) : State :=
  let q := s.seqOf k
  if q.mmas = [] then s
  else s.setSeq k { q with mmas := q.mmas.mapIdx (fun i o =>
    if rows.any (fun r => decide (o.acc ≤ r) && decide (r < o.acc + o.m)) && decide (o.notBefore < s.dt)
        && (List.range (i + 1)).all (fun j => Config.newElement s.free (2 ^ 43 + j)) then
      { o with snap := s.mmaBytes k o, fixed := true }
    else o) }

/-- The accumulator rows that some lanes read, as a speculative wave watches them (R318). -/
def accWatches (old : List Nat) (k rows : Nat) (r0s : List Nat) : List Nat :=
  r0s.foldl (fun l r => (List.range (rows + 1)).foldl (fun l i => memberAdd l (accElem k (r + i) 0 / 128)) l) old

/-- ADRN of lanes whose checks have passed. -/
def State.adrnLanes (s : State) (w : Nat) (o : Sys2Proof.Adrn) (v col : Nat) (act : List (Nat × Nat)) : State :=
  let k := s.waveCluster w
  let rows := bits v 41 36
  let cols := bits v 35 30
  let r0 := fun (e : Nat × Nat) => s.opnd w e.2 o.a
  let f := s.fixReads k (act.flatMap (fun e => (List.range (rows + 1)).map (fun i => r0 e + i)))
  let cells := act.flatMap (fun e => f.adrnCells k e.2 v o.f (r0 e) col o.sat)
  let ws := (viewIndex rows cols).map (fun e => viewSlc v e.1 e.2)
  let s1 := act.foldl (fun t e => ws.foldl (fun u x => u.logUndo w e.2 x.start x.width) t) f
  let dmg := readRecords (act.flatMap (fun e => accDamage s.store k (r0 e) rows col cols))
  let s2 := s1.noteReads k (act.flatMap (fun e => (viewIndex rows cols).map (fun x => (r0 e + x.1, col + x.2))))
  ((s2.addLong w { cells := cells, prds := [] }).logDamage k dmg).finish w o.mark

/-- ADRN (R318). -/
def execAdrn (o : Sys2Proof.Adrn) (s : State) : Answer :=
  s.onWave (fun w =>
    let v := (s.waveVw w o.vw).toNat
    let rows := bits v 41 36
    let cols := bits v 35 30
    let col := s.sReg o.s
    let legal := decide (o.f < 5) && bits v 47 46 == 2 && bits v 45 42 + 1 == fmtSlices (adrnFmt o.f) && decide (o.a.width ≤ 16)
      && decide (col + cols + 1 ≤ 256)
    s.issueTested w { mark := o.mark, g := o.g, legal := legal, reads := [o.a]
                      writes := (viewIndex rows cols).map (fun e => viewSlc v e.1 e.2) }
      (fun t => decide (512 < s.opnd w t o.a + rows + 1)) (fun act =>
        match (s.wave w).spec with
        | none => s.adrnLanes w o v col act
        | some p =>
          let ls := accWatches p.watches (s.waveCluster w) rows (act.map (fun e => s.opnd w e.2 o.a))
          if 16 < ls.length then s.park w .spec
          else (s.setWave w { s.wave w with spec := some { p with watches := ls } }).adrnLanes w o v col act))

end Sys2Proof.Machine
end

