-- ==== Sys2Proof/Machine/Engine.lean ====
section
/-! DEFINITION. The ray-and-occupancy engine and the chain-and-body engine (class 12; R324 to R333): the issue of a request,
and the services of RCAST, OCAP, CBFK and CBSTEP. -/

namespace Sys2Proof.Machine

open Sys2Proof

/-! ### Issue (R324) -/

/-- Bytes of a request entry and of a result entry, and the STATUS byte of a result, by form. -/
def engSizes (kind : Nat) : Nat × Nat × Nat :=
  match kind with
  | 0 => (32, 16, 5)
  | 1 => (32, 16, 6)
  | 2 => (64, 64, 50)
  | _ => (80, 80, 68)

/-- The first of several causes in the order of R28. -/
def firstCause (l : List TrapLane) : Option TrapLane :=
  match l with
  | [] => none
  | x :: rest => some (rest.foldl (fun b y => if causeRank y.cause < causeRank b.cause then y else b) x)

/-- Steps 1 to 3 of R27 on a capability of a request, as a frame entry. -/
def engCap (c : Capv) (ci off : Nat) (spaces : List Nat) (mask : Nat) : List TrapLane :=
  match capCheck c spaces mask with
  | none => []
  | some cause => [capLane cause c ci (c.base + off)]

/-- Steps 4 and 5 of R27, as a frame entry. -/
def State.engBytes (s : State) (e : Env) (c : Capv) (ci off n align : Nat) : List TrapLane :=
  match s.laneCheck e c off n align with
  | none => []
  | some (cause, addr) => [capLane cause c ci addr]

/-- The queue of a form: the ROE's or the CBE's. -/
def ClusterSt.engQueue (c : ClusterSt) (kind : Nat) : List EngReq := if kind < 2 then c.roe else c.cbe

/-- A cluster with the queue of a form changed. -/
def ClusterSt.setEngQueue (c : ClusterSt) (kind : Nat) (q : List EngReq) : ClusterSt :=
  if kind < 2 then { c with roe := q } else { c with cbe := q }

/-- A request of a wave whose checks have passed joins its queue; while the queue holds 32 the word does not issue. -/
def State.forward (s : State) (w : Nat) (mark : Bool) (r : EngReq) : State :=
  s.afterGate w (fun t =>
    let k := t.waveCluster w
    let q := (t.cluster k).engQueue r.kind
    if 32 ≤ q.length then s
    else (t.setCluster k ((t.cluster k).setEngQueue r.kind (q ++ [r]))).finish w mark)

/-- RCAST, OCAP, CBFK and CBSTEP (R324). -/
def State.engine (s : State) (o : Sys2Proof.Eng) (kind : Nat) : Answer :=
  s.onWave (fun w => s.unlessSpec w (
    s.issueLanes w { mark := o.mark, g := o.g, legal := decide (o.d < 253), reads := [], writes := [] } (fun act =>
      let am := laneMask act
      let e := s.waveEnv w
      let kq := s.kUse o.q
      let ko := s.kUse o.o
      let kf := s.kUse o.f
      let req := s.sReg o.d
      let res := s.sReg (o.d + 1)
      let fut := s.sReg (o.d + 2)
      let obj := s.sReg (o.d + 3)
      let (qs, rs, _) := engSizes kind
      let caps := engCap kq o.q req rmwSpaces (permXF + permLD + permST) ++ engCap ko o.o obj rmwSpaces (permXF + permLD)
        ++ engCap kf o.f fut barSpaces permBA
      let fu := s.engBytes e kf o.f fut 32 32
      let lanes := act.filterMap (fun a =>
        match firstCause (if caps ≠ [] then caps else fu ++ s.engBytes e kq o.q (req + a.1 * qs) qs 4
            ++ s.engBytes e kq o.q (res + a.1 * rs) rs 4) with
        | none => none
        | some x => some (a.1, x))
      match lanes, firstCause (if caps ≠ [] then caps else fu) with
      | [], none =>
        s.forward w o.mark { kind := kind, core := s.waveCore w, crew := crewOf w, launch := s.waveLaunch w, kq := kq
                             ko := ko, kf := kf, kqIndex := o.q, req := req, res := res, fut := fut, obj := obj, mask := am
                             fork := s.forkOf w, done := none }
      | [], some x => s.takeTrap w am (TrapInfo.plain x.cause)
      | ls, _ => s.takeTrap w am (TrapInfo.ofLanes ls))))

/-- RCAST (R324). -/
def execRcast (o : Sys2Proof.Eng) (s : State) : Answer := s.engine o 0

/-- OCAP (R324). -/
def execOcap (o : Sys2Proof.Eng) (s : State) : Answer := s.engine o 1

/-- CBFK (R324). -/
def execCbfk (o : Sys2Proof.Eng) (s : State) : Answer := s.engine o 2

/-- CBSTEP (R324). -/
def execCbstep (o : Sys2Proof.Eng) (s : State) : Answer := s.engine o 3

/-! ### Reads and writes of an engine (R107, R325, R378) -/

/-- Lane statuses (R325). -/
def stBadreq : Nat := 10
/-- FORMAT. -/
def stFormat : Nat := 11
/-- FAULT. -/
def stFault : Nat := 12

/-- n bytes read at their home, or FAULT where a byte is out of bounds, does not translate or is poisoned. -/
def State.engRead (s : State) (e : Env) (c : Capv) (off n : Nat) : State × Except Nat (List Byte) :=
  match s.laneCheck e c off n 1, s.capKeys e c .load off n with
  | none, .ok (s1, ks) =>
    let s2 := s1.engineTouch (ks.map (fun k => k.1))
    if keysPoisoned s2.store ks then (s2, .error stFault) else (s2, .ok (ks.map (fun k => s2.store.byte k.1)))
  | none, .error (s1, _, _) => (s1, .error stFault)
  | some _, _ => (s, .error stFault)

/-- Bytes written at their home: the completion time, or FAULT and nothing written. -/
def State.engWrite (s : State) (e : Env) (c : Capv) (off : Nat) (bs : List Byte) : State × Except Nat Nat :=
  match s.laneCheck e c off bs.length 1, s.capKeys e c .store off bs.length with
  | none, .ok (s1, ks) =>
    let r := s1.engineWrite e.launch ks (bs.map (fun b => (b, false)))
    (r.1, .ok r.2)
  | none, .error (s1, _, _) => (s1, .error stFault)
  | some _, _ => (s, .error stFault)

/-- The .f32 patterns of a byte string from byte i on. -/
def f32s (bs : List Byte) (i n : Nat) : List Nat := (List.range n).map (fun j => natOfBytes ((bs.drop (i + 4 * j)).take 4))

/-- A pattern is neither NaN nor infinite. -/
def finite32 (x : Nat) : Bool := isFinite (v32 x)

/-- A value is below zero; -0 is not (R325). -/
def belowZero (x : Nat) : Bool := ltVal (v32 x) (.fin false 0 0)

/-- A value times 2^n, exactly. -/
def scaleVal (v : FVal) (n : Int) : FVal :=
  match v with
  | .fin s m e => .fin s m (e + n)
  | x => x

/-- An integer as a value. -/
def engInt (i : Int) : FVal := .fin (i < 0) i.natAbs 0

/-- x - y, exactly. -/
def subVal (x y : FVal) : FVal := addVal .rne x (negVal y)

/-! ### The octree (R326, R327) -/

/-- A cube of the grid: its least corner and its side. -/
structure Cube where
  x : Nat
  y : Nat
  z : Nat
  side : Nat
deriving DecidableEq, Repr

/-- The corner of a cube on an axis. -/
def Cube.at (c : Cube) (a : Nat) : Nat :=
  match a with
  | 0 => c.x
  | 1 => c.y
  | _ => c.z

/-- Octant o of a cube (R326). -/
def Cube.octant (c : Cube) (o : Nat) : Cube :=
  let h := c.side / 2
  { x := c.x + o % 2 * h, y := c.y + o / 2 % 2 * h, z := c.z + o / 4 % 2 * h, side := h }

/-- The key of a voxel (R326). -/
def Cube.key (c : Cube) : Nat := c.x + c.y * 65536 + c.z * 2 ^ 32

/-- An octree header (R326). -/
structure OctHdr where
  origin : List Nat
  vexp : Int
  depth : Nat
  ncount : Nat
deriving DecidableEq, Repr

/-- The header in 32 bytes, or FORMAT (R327). -/
def octHdr (b : List Byte) : Except Nat OctHdr :=
  let h : OctHdr :=
    { origin := f32s b 0 3, vexp := sInt 8 (natOfBytes ((b.drop 12).take 1)), depth := natOfBytes ((b.drop 13).take 1)
      ncount := natOfBytes ((b.drop 16).take 4) }
  if h.depth = 0 ∨ 16 < h.depth ∨ h.ncount = 0 ∨ h.origin.all finite32 = false then .error stFormat else .ok h

/-- How many bits of a byte are 1. -/
def popcount8 (x : Nat) : Nat := ((List.range 8).filter (fun i => bit x i)).length

/-- A node (R327). -/
structure OctNode where
  first : Nat
  full : Nat
  present : Nat
deriving DecidableEq, Repr

/-- The octants that have nodes. -/
def OctNode.stored (n : OctNode) : Nat := n.present &&& (n.full ^^^ 255)

/-- The node of an octant (R327). -/
def OctNode.child (n : OctNode) (o : Nat) : Nat := n.first + popcount8 (n.stored % 2 ^ o)

/-- A node read whole, in a cube of some side, or its lane status (R327). -/
def State.octNode (s : State) (e : Env) (c : Capv) (obj : Nat) (h : OctHdr) (n side : Nat) : State × Except Nat OctNode :=
  match s.engRead e c (obj + 32 + 8 * n) 8 with
  | (s1, .error x) => (s1, .error x)
  | (s1, .ok b) =>
    let v := natOfBytes b
    let nd : OctNode := { first := bits v 63 32, full := bits v 15 8, present := bits v 7 0 }
    if nd.full &&& nd.present ≠ nd.full ∨ bits v 31 16 ≠ 0 ∨ (nd.stored ≠ 0 ∧ side = 2)
        ∨ (nd.stored ≠ 0 ∧ h.ncount < nd.first + popcount8 nd.stored) then (s1, .error stFormat)
    else (s1, .ok nd)

/-- The whole grid. -/
def OctHdr.grid (h : OctHdr) : Cube := { x := 0, y := 0, z := 0, side := 2 ^ h.depth }

/-! ### RCAST (R328, R329) -/

/-- A ray in grid units: o exact, d rounded (R328). -/
structure Ray where
  o : List FVal
  d : List Nat
  tmax : Nat
deriving DecidableEq, Repr

/-- A hit: its parameter, key and axis. -/
structure Hit where
  t : Nat
  key : Nat
  ax : Nat
deriving DecidableEq, Repr

/-- A point in grid units (R328): rounded difference, scaled exactly. -/
def gridPoint (h : OctHdr) (p : List Nat) : List FVal :=
  (List.range 3).map (fun a => scaleVal (v32 (sub32 (p.getD a 0) (h.origin.getD a 0))) (-h.vexp))

/-- The ray of a request entry, or BADREQ (R328). -/
def rayOf (h : OctHdr) (b : List Byte) : Except Nat Ray :=
  let v := f32s b 0 7
  let dir := f32s b 12 3
  let r : Ray := { o := gridPoint h v, d := dir.map (fun x => rn32 (scaleVal (v32 x) (-h.vexp))), tmax := v.getD 6 0 }
  if v.all finite32 = false ∨ dir.all (fun x => eqVal (v32 x) (.fin false 0 0)) = true ∨ belowZero r.tmax = true
      ∨ r.o.all isFinite = false ∨ r.d.all finite32 = false then .error stBadreq
  else .ok r

/-- The exact quotient (i - o) / d rounded once; a zero numerator gives +0. -/
def rayQuot (i : Nat) (o : FVal) (d : Nat) : Nat :=
  match subVal (engInt i) o with
  | .fin _ 0 _ => 0
  | n => divBits .f32 .rne n (v32 d)

/-- RayBox (R328): the smallest parameter and its axis. -/
def rayBox (r : Ray) (c : Cube) : Option (Nat × Nat) :=
  let step := fun (x : Option (Nat × Nat × Nat)) (a : Nat) =>
    match x with
    | none => none
    | some (lo, hi, ax) =>
      let o := r.o.getD a (.fin false 0 0)
      let d := r.d.getD a 0
      let i := c.at a
      if eqVal (v32 d) (.fin false 0 0) then
        if !ltVal o (engInt i) && ltVal o (engInt ((i + c.side : Nat) : Int)) then some (lo, hi, ax) else none
      else
        let q0 := rayQuot i o d
        let q1 := rayQuot (i + c.side) o d
        let t0 := if belowZero d then q1 else q0
        let t1 := if belowZero d then q0 else q1
        some (if belowVal (v32 lo) (v32 t0) then (t0, minMaxBits .f32 false hi t1, a) else (lo, minMaxBits .f32 false hi t1, ax))
  match [0, 1, 2].foldl step (some (0, r.tmax, 3)) with
  | none => none
  | some (lo, hi, ax) => if belowVal (v32 hi) (v32 lo) then none else some (lo, ax)

/-- A hit that comes before another: the smaller parameter, ties by the smaller key. -/
def Hit.before (x y : Hit) : Bool := belowVal (v32 x.t) (v32 y.t) || (x.t == y.t && decide (x.key < y.key))

/-- The better of a hit and the best so far. -/
def betterHit (best : Option Hit) (x : Hit) : Option Hit :=
  match best with
  | none => some x
  | some y => if x.before y then some x else some y

/-- Children in the order of their parameters, ties by octant (R329). -/
def insertKid (x : Nat × Nat × Nat) (l : List (Nat × Nat × Nat)) : List (Nat × Nat × Nat) :=
  match l with
  | [] => [x]
  | y :: rest => if belowVal (v32 y.1) (v32 x.1) then y :: insertKid x rest else x :: y :: rest

/-- The present octants of a cube that the ray does not miss: parameter, octant and axis, in the order of visits. -/
def rayKids (r : Ray) (c : Cube) (present : Nat) : List (Nat × Nat × Nat) :=
  ((List.range 8).filterMap (fun o =>
    if bit present o then (match rayBox r (c.octant o) with
      | none => none
      | some (lo, ax) => some (lo, o, ax)) else none)).foldr insertKid []

/-- The visit of a cube (R329): a node, or with none a wholly occupied cube. The first argument bounds the levels. -/
def State.rayVisit (s : State) (e : Env) (kc : Capv) (obj : Nat) (h : OctHdr) (r : Ray) :
    Nat → Option Nat → Cube → Option Hit → State × Except Nat (Option Hit)
  | 0, _, _, best => (s, .ok best)
  | n + 1, node, c, best =>
    let nd : State × Except Nat OctNode := match node with
      | none => (s, .ok { first := 0, full := 255, present := 255 })
      | some i => s.octNode e kc obj h i c.side
    match nd with
    | (s1, .error x) => (s1, .error x)
    | (s1, .ok nd) =>
      (rayKids r c nd.present).foldl (fun (acc : State × Except Nat (Option Hit)) (kid : Nat × Nat × Nat) =>
        match acc with
        | (t, .error x) => (t, .error x)
        | (t, .ok b) =>
          let far := match b with
            | none => false
            | some y => belowVal (v32 y.t) (v32 kid.1)
          if far then (t, .ok b)
          else
            let q := c.octant kid.2.1
            if q.side = 1 then (t, .ok (betterHit b { t := kid.1, key := q.key, ax := kid.2.2 }))
            else t.rayVisit e kc obj h r n (if bit nd.full kid.2.1 then none else some (nd.child kid.2.1)) q b)
        (s1, .ok best)

/-- The result entry of a ray (R328). -/
def rayResult (r : Ray) (b : Option Hit) : List Byte × Bool :=
  match b with
  | none => (bytesOf 0x7F800000 4 ++ bytesOf 7 1 ++ bytesOf 0 3 ++ bytesOf (2 ^ 64 - 1) 8, false)
  | some x =>
    let face := if x.ax = 3 then 6 else if belowZero (r.d.getD x.ax 0) then 2 * x.ax + 1 else 2 * x.ax
    (bytesOf x.t 4 ++ bytesOf face 1 ++ bytesOf 0 3 ++ bytesOf x.key 8, true)

/-- One lane of RCAST: its result entry and its bit of RESULT. -/
def State.rcastLane (s : State) (e : Env) (kc : Capv) (obj : Nat) (h : OctHdr) (req : List Byte) :
    State × Except Nat (List Byte × Bool) :=
  match rayOf h req with
  | .error x => (s, .error x)
  | .ok r =>
    match s.rayVisit e kc obj h r 17 (some 0) h.grid none with
    | (s1, .error x) => (s1, .error x)
    | (s1, .ok b) => (s1, .ok (rayResult r b))

/-! ### OCAP (R330) -/

/-- A capsule in grid units. -/
structure Capsule where
  a : List FVal
  u : List Nat
  uu : Nat
  rad2 : Nat
  lo : List Nat
  hi : List Nat
deriving DecidableEq, Repr

/-- Dot (R330). -/
def dot32 (x y : List Nat) : Nat :=
  fma32 (x.getD 2 0) (y.getD 2 0) (fma32 (x.getD 1 0) (y.getD 1 0) (mul32 (x.getD 0 0) (y.getD 0 0)))

/-- The smaller and the larger of two values. -/
def minVal (x y : FVal) : FVal := if ltVal y x then y else x
/-- The larger. -/
def maxVal (x y : FVal) : FVal := if ltVal x y then y else x

/-- The capsule of a request entry, or BADREQ (R330). -/
def capsuleOf (h : OctHdr) (req : List Byte) : Except Nat Capsule :=
  let v := f32s req 0 7
  let a := gridPoint h v
  let b := gridPoint h (f32s req 12 3)
  let rs := rn32 (scaleVal (v32 (v.getD 6 0)) (-h.vexp))
  let rad := add32 rs (dec32 false 8660254037844386 16)
  let get := fun (l : List FVal) (i : Nat) => l.getD i (.fin false 0 0)
  let u := (List.range 3).map (fun i => rn32 (subVal (get b i) (get a i)))
  if v.all finite32 = false ∨ belowZero (v.getD 6 0) = true ∨ a.all isFinite = false ∨ b.all isFinite = false
      ∨ finite32 rs = false ∨ u.all finite32 = false then .error stBadreq
  else .ok {
    a := a, u := u, uu := dot32 u u, rad2 := mul32 rad rad
    lo := (List.range 3).map (fun i => rn32 (subVal (minVal (get a i) (get b i)) (v32 rad)))
    hi := (List.range 3).map (fun i => rn32 (addVal .rne (maxVal (get a i) (get b i)) (v32 rad))) }

/-- The centre of a voxel on an axis. -/
def centre (i : Nat) : FVal := .fin false (2 * i + 1) (-1)

/-- The parameter t of a voxel that is counted (R330), none where it is not. -/
def Capsule.test (p : Capsule) (c : Cube) : Option Nat :=
  let axes := [0, 1, 2]
  if axes.any (fun x => ltVal (centre (c.at x)) (v32 (p.lo.getD x 0)) || ltVal (v32 (p.hi.getD x 0)) (centre (c.at x))) then none
  else
    let a := fun x => p.a.getD x (.fin false 0 0)
    let w := axes.map (fun x => rn32 (subVal (centre (c.at x)) (a x)))
    let t := if eqVal (v32 p.uu) (.fin false 0 0) then 0
      else minMaxBits .f32 false (minMaxBits .f32 true (div32 (dot32 w p.u) p.uu) 0) one32
    let ev := axes.map (fun x =>
      rn32 (subVal (centre (c.at x)) (v32 (rn32 (addVal .rne (mulVal (v32 t) (v32 (p.u.getD x 0))) (a x))))))
    let d := v32 (dot32 ev ev)
    if !isNan d && !ltVal (v32 p.rad2) d then some t else none

/-- Voxel coordinates on an axis whose centres lie within lo to hi and within n voxels from i: first and one past last. -/
def centreRange (lo hi : Nat) (i n : Nat) : Nat × Nat :=
  let first := match v32 lo with
    | .nan => i + n
    | .inf neg => if neg then i else i + n
    | .fin s m e =>
      let x := scaleInt s m e (min e (-1)) * 2 - 2 ^ (-(min e (-1))).toNat
      let q : Int := 2 * 2 ^ (-(min e (-1))).toNat
      max i (-((-x) / q)).toNat
  let last := match v32 hi with
    | .nan => i
    | .inf neg => if neg then i else i + n
    | .fin s m e =>
      let x := scaleInt s m e (min e (-1)) * 2 - 2 ^ (-(min e (-1))).toNat
      let q : Int := 2 * 2 ^ (-(min e (-1))).toNat
      min (i + n) (x / q + 1).toNat
  (first, last)

/-- The box of a cube holds a voxel centre within lo to hi on every axis. -/
def Capsule.meets (p : Capsule) (c : Cube) : Bool :=
  [0, 1, 2].all (fun x =>
    let r := centreRange (p.lo.getD x 0) (p.hi.getD x 0) (c.at x) c.side
    decide (r.1 < r.2))

/-- What an OCAP has counted: how many, and the voxel with the smallest t. -/
structure CapCount where
  count : Nat
  best : Option Hit
deriving DecidableEq, Repr

/-- One voxel tested. -/
def Capsule.tally (p : Capsule) (n : CapCount) (c : Cube) : CapCount :=
  match p.test c with
  | none => n
  | some t => { count := min 65535 (n.count + 1), best := betterHit n.best { t := t, key := c.key, ax := 0 } }

/-- Numbers from a to b - 1. -/
def between (a b : Nat) : List Nat := (List.range (b - a)).map (fun i => a + i)

/-- Every voxel of a full cube in the range is tested. -/
def Capsule.fullCube (p : Capsule) (n : CapCount) (c : Cube) : CapCount :=
  let r := fun x =>
    let y := centreRange (p.lo.getD x 0) (p.hi.getD x 0) (c.at x) c.side
    between y.1 y.2
  (r 2).foldl (fun n z => (r 1).foldl (fun n y => (r 0).foldl (fun n x =>
    p.tally n { x := x, y := y, z := z, side := 1 }) n) n) n

/-- The visit of a node (R330), depth-first in ascending octant order. The first argument bounds the levels. -/
def State.capVisit (s : State) (e : Env) (kc : Capv) (obj : Nat) (h : OctHdr) (p : Capsule) :
    Nat → Nat → Cube → CapCount → State × Except Nat CapCount
  | 0, _, _, n => (s, .ok n)
  | lv + 1, node, c, n =>
    match s.octNode e kc obj h node c.side with
    | (s1, .error x) => (s1, .error x)
    | (s1, .ok nd) =>
      (List.range 8).foldl (fun (acc : State × Except Nat CapCount) (o : Nat) =>
        match acc with
        | (t, .error x) => (t, .error x)
        | (t, .ok m) =>
          let q := c.octant o
          if bit nd.present o = false ∨ p.meets q = false then (t, .ok m)
          else if bit nd.full o then (t, .ok (p.fullCube m q))
          else t.capVisit e kc obj h p lv (nd.child o) q m) (s1, .ok n)

/-- One lane of OCAP. -/
def State.ocapLane (s : State) (e : Env) (kc : Capv) (obj : Nat) (h : OctHdr) (req : List Byte) :
    State × Except Nat (List Byte × Bool) :=
  match capsuleOf h req with
  | .error x => (s, .error x)
  | .ok p =>
    let r := if p.meets h.grid then s.capVisit e kc obj h p 17 0 h.grid { count := 0, best := none }
      else (s, .ok { count := 0, best := none })
    match r with
    | (s1, .error x) => (s1, .error x)
    | (s1, .ok n) =>
      let (t, key) := match n.best with
        | none => (0x7F800000, 2 ^ 64 - 1)
        | some b => (b.t, b.key)
      (s1, .ok (bytesOf t 4 ++ bytesOf n.count 2 ++ bytesOf 0 2 ++ bytesOf key 8, decide (0 < n.count)))

/-! ### CBFK (R331, R332) -/

/-- A frame: position, rotation in row-major order, and the clamped joints. -/
structure Frame where
  p : List Nat
  r : List Nat
  clamped : Nat
deriving DecidableEq, Repr

/-- u and v of an axis (R332). -/
def uvOf (axis : Nat) : Nat × Nat :=
  match axis with
  | 0 => (1, 2)
  | 1 => (2, 0)
  | _ => (0, 1)

/-- A joint applied to a frame (R332). -/
def Frame.joint (f : Frame) (j axis : Nat) (prism : Bool) (off : List Nat) (lo hi qj : Nat) : Frame :=
  let rm := fun (i a : Nat) => f.r.getD (3 * i + a) 0
  let p1 := (List.range 3).map (fun i =>
    fma32 (rm i 2) (off.getD 2 0) (fma32 (rm i 1) (off.getD 1 0) (fma32 (rm i 0) (off.getD 0 0) (f.p.getD i 0))))
  let q := minMaxBits .f32 false (minMaxBits .f32 true qj lo) hi
  let cl := if eqVal (v32 q) (v32 qj) then f.clamped else f.clamped + 2 ^ j
  if prism then
    { f with p := (List.range 3).map (fun i => fma32 q (rm i axis) (p1.getD i 0)), clamped := cl }
  else
    let c := cosValue q
    let sn := sinValue q
    let (u, v) := uvOf axis
    let r1 := (List.range 9).map (fun x =>
      let i := x / 3
      if x % 3 = u then fma32 sn (rm i v) (mul32 c (rm i u))
      else if x % 3 = v then fma32 c (rm i v) (mul32 (neg32 sn) (rm i u))
      else rm i (x % 3))
    { p := p1, r := r1, clamped := cl }

/-- The joints from j on: each record is read as it is reached (R325, R331). -/
def State.chainJoints (s : State) (e : Env) (kc : Capv) (obj : Nat) (qs : List Nat) (j : Nat) (f : Frame) :
    Nat → State × Except Nat Frame
  | 0 => (s, .ok f)
  | n + 1 =>
    match s.engRead e kc (obj + 64 + 32 * j) 32 with
    | (s1, .error x) => (s1, .error x)
    | (s1, .ok b) =>
      let ty := natOfBytes (b.take 1)
      let lo := natOfBytes ((b.drop 16).take 4)
      let hi := natOfBytes ((b.drop 20).take 4)
      if ty % 4 = 3 ∨ 8 ≤ ty ∨ isNan (v32 lo) = true ∨ isNan (v32 hi) = true ∨ ltVal (v32 hi) (v32 lo) = true then
        (s1, .error stFormat)
      else s1.chainJoints e kc obj qs (j + 1) (f.joint j (ty % 4) (bit ty 2) (f32s b 4 3) lo hi (qs.getD j 0)) n

/-- One lane of CBFK, from the header's 64 bytes. -/
def State.cbfkLane (s : State) (e : Env) (kc : Capv) (obj : Nat) (h req : List Byte) :
    State × Except Nat (List Byte × Bool) :=
  let n := natOfBytes (h.take 1)
  let qs := f32s req 0 16
  if (qs.take n).any (fun x => isNan (v32 x)) then (s, .error stBadreq)
  else
    match s.chainJoints e kc obj qs 0 { p := f32s h 16 3, r := f32s h 28 9, clamped := 0 } n with
    | (s1, .error x) => (s1, .error x)
    | (s1, .ok f) =>
      (s1, .ok (f.p.flatMap (fun x => bytesOf x 4) ++ f.r.flatMap (fun x => bytesOf x 4) ++ bytesOf f.clamped 2 ++ bytesOf 0 14,
        f.clamped != 0))

/-! ### CBSTEP (R333) -/

/-- t := RN32(x1 y1), then two fused steps. -/
def cross3 (x1 y1 x2 y2 x3 y3 : Nat) : Nat := fma32 x3 y3 (fma32 x2 y2 (mul32 x1 y1))

/-- The stepped body of R333: P, V, QT, W, F and IM, as seventeen patterns. -/
def bodyStep (h : Nat) (g : List Nat) (damp : Nat) (b : List Nat) : List Nat :=
  let p := fun i => b.getD i 0
  let v := fun i => b.getD (3 + i) 0
  let q := fun i => b.getD (6 + i) 0
  let w := fun i => b.getD (10 + i) 0
  let f := fun i => b.getD (13 + i) 0
  let im := b.getD 16 0
  let vel := (List.range 3).map (fun a => mul32 (fma32 h (fma32 (f a) im (g.getD a 0)) (v a)) damp)
  let pos := (List.range 3).map (fun a => fma32 h (vel.getD a 0) (p a))
  let hh := mul32 h 0x3F000000
  let dx := cross3 (w 0) (q 3) (w 1) (q 2) (neg32 (w 2)) (q 1)
  let dy := cross3 (w 1) (q 3) (w 2) (q 0) (neg32 (w 0)) (q 2)
  let dz := cross3 (w 2) (q 3) (w 0) (q 1) (neg32 (w 1)) (q 0)
  let dw := cross3 (neg32 (w 0)) (q 0) (neg32 (w 1)) (q 1) (neg32 (w 2)) (q 2)
  let t := [fma32 hh dx (q 0), fma32 hh dy (q 1), fma32 hh dz (q 2), fma32 hh dw (q 3)]
  let n2 := fma32 (t.getD 3 0) (t.getD 3 0) (dot32 t t)
  let y0 := rsqrtSeed n2
  let g1 := fma32 0xBF000000 (mul32 n2 (mul32 y0 y0)) 0x3FC00000
  let y1 := mul32 y0 g1
  pos ++ vel ++ t.map (fun x => mul32 x y1) ++ (List.range 3).map (fun a => mul32 (w a) damp) ++ [f 0, f 1, f 2, im]

/-- One lane of CBSTEP, from the header's 32 bytes. -/
def cbstepLane (h req : List Byte) : Except Nat (List Byte × Bool) :=
  let b := f32s req 0 17
  if b.all finite32 = false then .error stBadreq
  else .ok ((bodyStep (natOfBytes (h.take 4)) (f32s h 4 3) (natOfBytes ((h.drop 16).take 4)) b).flatMap (fun x => bytesOf x 4)
    ++ bytesOf 0 12, true)

/-- The step header is well formed (R333). -/
def stepHdrOk (h : List Byte) : Bool :=
  let hs := natOfBytes (h.take 4)
  let d := v32 (natOfBytes ((h.drop 16).take 4))
  finite32 hs && !belowZero hs && isFinite d && !ltVal d (.fin false 0 0) && !ltVal (v32 one32) d

/-! ### Services (R324, R325) -/

/-- The environment of a request. -/
def EngReq.env (r : EngReq) : Env :=
  { core := some r.core, cluster := clusterOf r.core, crew := some r.crew, launch := r.launch }

/-- The object header read once: its bytes, or the status of every lane. -/
def State.engHeader (s : State) (r : EngReq) : State × Except Nat (List Byte) :=
  match s.engRead r.env r.ko r.obj (if r.kind = 2 then 64 else 32) with
  | (s1, .error x) => (s1, .error x)
  | (s1, .ok h) =>
    let ok := match r.kind with
      | 0 => (match octHdr h with
        | .ok _ => true
        | .error _ => false)
      | 1 => (match octHdr h with
        | .ok _ => true
        | .error _ => false)
      | 2 => (let n := natOfBytes (h.take 1); decide (1 ≤ n) && decide (n ≤ 16))
      | _ => stepHdrOk h
    (s1, if ok then .ok h else .error stFormat)

/-- One lane computed from the header and its request entry. -/
def State.engLane (s : State) (r : EngReq) (h req : List Byte) : State × Except Nat (List Byte × Bool) :=
  match r.kind with
  | 0 => (match octHdr h with
    | .error x => (s, .error x)
    | .ok o => s.rcastLane r.env r.ko r.obj o req)
  | 1 => (match octHdr h with
    | .error x => (s, .error x)
    | .ok o => s.ocapLane r.env r.ko r.obj o req)
  | 2 => s.cbfkLane r.env r.ko r.obj h req
  | _ => (s, cbstepLane h req)

/-- What the lanes of a request have given so far: RESULT, the largest status, the latest completion time. -/
structure EngSum where
  result : Nat
  status : Nat
  maxw : Nat
deriving DecidableEq, Repr

/-- A lane's result written: the whole entry, or the STATUS byte alone; where the write itself fails nothing, and the lane's
status is FAULT (R325). -/
def State.engStore (s : State) (r : EngReq) (l : Nat) (x : Except Nat (List Byte × Bool)) (a : EngSum) : State × EngSum :=
  let (_, rs, sb) := engSizes r.kind
  match x with
  | .ok (bs, hit) =>
    match s.engWrite r.env r.kq (r.res + l * rs) bs with
    | (s1, .ok g) => (s1, { result := if hit then a.result + 2 ^ l else a.result, status := a.status, maxw := max a.maxw g })
    | (s1, .error st) => (s1, { a with status := max a.status st })
  | .error st =>
    match s.engWrite r.env r.kq (r.res + l * rs + sb) (bytesOf st 1) with
    | (s1, .ok g) => (s1, { a with status := max a.status st, maxw := max a.maxw g })
    | (s1, .error f) => (s1, { a with status := max a.status f })

/-- The active lanes of a request in ascending order. -/
def State.engLanes (s : State) (r : EngReq) (h : Except Nat (List Byte)) (ls : List Nat) (a : EngSum) : State × EngSum :=
  match ls with
  | [] => (s, a)
  | l :: rest =>
    let x : State × Except Nat (List Byte × Bool) := match h with
      | .error st => (s, .error st)
      | .ok hd =>
        match s.engRead r.env r.kq (r.req + l * (engSizes r.kind).1) (engSizes r.kind).1 with
        | (s1, .error st) => (s1, .error st)
        | (s1, .ok b) => s1.engLane r hd b
    let y := x.1.engStore r l x.2 a
    y.1.engLanes r h rest y.2

/-- A request served: its lanes' results are written; the future waits for their completion times (R104). -/
def State.engServe (s : State) (r : EngReq) : State × EngReq :=
  let ls := laneList.filter (fun l => bit r.mask l)
  let h : State × Except Nat (List Byte) := if ls = [] then (s, .error 0) else s.engHeader r
  let x := h.1.engLanes r h.2 ls { result := 0, status := 0, maxw := 0 }
  (x.1, { r with done := some (x.2.result, x.2.status, x.2.maxw) })

/-- The future of a served request completed (R137, R324). -/
def State.engFinish (s : State) (r : EngReq) (result status : Nat) : State :=
  match s.capKeys r.env r.kf .store r.fut 32 with
  | .ok (s1, ks) => s1.completeFuture r.crew (ks.headD (0, 0)).1 result status (r.res % 2 ^ 48 + r.kqIndex % 32 * 2 ^ 48)
  | .error (s1, _, _) => s1

/-- The place of the first request that satisfies a test. -/
def findIdx (p : EngReq → Bool) : List EngReq → Option Nat
  | [] => none
  | x :: rest =>
    if p x then some 0
    else match findIdx p rest with
      | none => none
      | some i => some (i + 1)

/-- A step of an engine of a cluster for one form: a served request whose completion time has passed completes its future;
else the oldest request not yet served is served, if it has that form and its earlier writes have returned (R103, R325). -/
def State.engStep (s : State) (k kind : Nat) : State :=
  let q := (s.cluster k).engQueue kind
  let due := fun (r : EngReq) => r.kind == kind && match r.done with
    | none => false
    | some (_, _, m) => s.creditDue m
  if s.clusterRuns k = false then s
  else
    match findIdx due q, findIdx (fun r => r.done.isNone) (q.take (if kind < 2 then 4 else 1)) with
    | some i, _ =>
      match q[i]? with
      | some r =>
        (match r.done with
        | some (res, st, _) => (s.setCluster k ((s.cluster k).setEngQueue kind (listDel q i))).engFinish r res st
        | none => s)
      | none => s
    | none, some i =>
      match q[i]? with
      | some r =>
        if r.kind = kind ∧ s.forkReady r.fork = true then
          let x := s.engServe r
          x.1.setCluster k ((x.1.cluster k).setEngQueue kind (listSet ((x.1.cluster k).engQueue kind) i (fun _ => x.2)))
        else s
      | none => s
    | none, none => s

/-- ROE_RCAST_SERVICE (R328). -/
def execRoeRcastService (k : Nat) (s : State) : Answer := .next (s.engStep k 0)

/-- ROE_OCAP_SERVICE (R330). -/
def execRoeOcapService (k : Nat) (s : State) : Answer := .next (s.engStep k 1)

/-- CBE_CBFK_SERVICE (R332). -/
def execCbeCbfkService (k : Nat) (s : State) : Answer := .next (s.engStep k 2)

/-- CBE_CBSTEP_SERVICE (R333). -/
def execCbeCbstepService (k : Nat) (s : State) : Answer := .next (s.engStep k 3)

end Sys2Proof.Machine
end

