-- ==== Sys2Proof/Machine/System.lean ====
section
/-! DEFINITION. The system and trap words (class 14), RQUOTA, LIT and the paired word (R200, R201, R228 to R232, R320, R321,
R344 to R348). -/

namespace Sys2Proof.Machine

open Sys2Proof

/-! ### Values of the system registers (R344) -/

/-- LAUNCH_GEOM (R161). -/
def State.launchGeom (s : State) (crew : Nat) : Nat :=
  let l := s.launch (s.crew crew).launch
  let r := l.rec_
  r.wpg % 16 * 2 ^ 44 + r.gpc % 16 * 2 ^ 40 + r.cpc % 16 * 2 ^ 36 + r.ey % 16 * 2 ^ 25 + r.ex % 32 * 2 ^ 20
    + l.oy % 16 * 2 ^ 16 + l.ox % 16 * 2 ^ 12

/-- THREAD_ID of a thread of a group (R161). -/
def State.threadId (s : State) (g t : Nat) : Nat :=
  let c := s.crew (g / 8)
  c.ly % 16 * 2 ^ 28 + c.lx % 16 * 2 ^ 24 + c.index % 16 * 2 ^ 20 + g % 8 * 2 ^ 16 + t / 32 % 16 * 2 ^ 12 + t % 32

/-- EXEC_LIMITS (R176). -/
def State.execLimits (s : State) (l : Nat) : Nat :=
  let r := (s.launch l).rec_
  r.segLim % 65536 * 65536 + (if r.ageMax = 0 then 4096 else r.ageMax % 65536)

/-- CORE_SRAM (R45): FREE and SPLIT. -/
def State.coreSram (s : State) (c : Nat) : Nat :=
  let used := ((s.coreCrews c).map (fun x => (s.crew x).spSize / 1024)).sum
  (splitKib (s.core c).split - used) % 65536 * 256 + (s.core c).split

/-- The demand d_v of a crew of cluster k on vault v (R83, R358). -/
def LaunchRec.demand (r : LaunchRec) (k v : Nat) : Nat :=
  let w := (if bit r.vmask v then 32 else 0) + (if r.ownv = true ∧ v = k then 32 else 0) + (if r.intlv then 1 else 0)
  (r.vbw * w + 31) / 32

/-- The charge of a demand at a refresh class: d f / (1 - f), rounded down (R84). -/
def refreshCharge (d cls : Nat) : Nat :=
  match cls with
  | 0 => d / 24
  | 1 => 2 * d / 23
  | 2 => 4 * d / 21
  | _ => 8 * d / 17

/-- VAULT_CHARGE (R84). -/
def State.vaultCharge (s : State) (crew : Nat) : Nat :=
  let c := s.crew crew
  let r := (s.launch c.launch).rec_
  let vs := (List.range 32).filter (fun v => decide (0 < r.demand (clusterOf c.core) v))
  let cls := vs.foldl (fun m v => max m (s.vault v).cls) 0
  let sum := (vs.map (fun v => refreshCharge (r.demand (clusterOf c.core) v) (s.vault v).cls)).sum
  cls % 16 * 2 ^ 32 + sum % 2 ^ 32

/-- CSLR (R144). -/
def ClusterSt.cslr (c : ClusterSt) : Nat := c.cslrEstimate * 65536 + c.cslrStep * 256 + c.cslrLimit

/-- SEQ_STAT (R320). -/
def State.seqStat (s : State) (k : Nat) : Nat :=
  let q := s.seqOf k
  (if q.run then 2 ^ 63 else 0) + (if q.stop then 2 ^ 62 else 0) + (if q.idem then 2 ^ 61 else 0)
    + (if q.derr then 2 ^ 60 else 0) + (if q.fault then 2 ^ 59 else 0) + k % 32 * 2 ^ 52 + q.mmas.length % 4 * 2 ^ 50
    + q.mldbs.length % 4 * 2 ^ 48
    + ((List.range 16).filter (fun i => (tabFind q.resv i).isSome)).foldl (fun x i => x + 2 ^ (32 + i)) 0 + q.dcount % 2 ^ 32

/-- The W1C fields of SEQ_STAT and SEQ_DERR written (R320, R321). -/
def State.seqStatWrite (s : State) (k reg v : Nat) : State :=
  let q := s.seqOf k
  match reg with
  | 0 => s.setSeq k { q with derr := q.derr && !bit v 60, dcount := q.dcount &&& (v % 2 ^ 32 ^^^ (2 ^ 32 - 1)) }
  | 1 => if bit v 63 then s.setSeq k { q with seqDerr := q.seqDerr % 2 ^ 63 } else s
  | _ => s

/-- POOL_n (R340). -/
def State.poolReg (s : State) (l n : Nat) : Nat :=
  let p := s.pool l n
  p.limit % 2 ^ 32 * 2 ^ 32 + p.next % 2 ^ 32

/-- The reset value of LIMIT: the nodes that the pool's capability holds (R340). -/
def State.poolNodes (s : State) (l n : Nat) : Nat :=
  match (s.launch l).mod_.poolDecl n with
  | none => 0
  | some d =>
    let c := s.tableCap l d.slot
    (c.top - c.base) / 2 ^ d.log2 % 2 ^ 32

/-- A write of LIMIT, clamped up to NEXT and down to its reset value (R340). -/
def State.setPoolLimit (s : State) (l n v : Nat) : State :=
  let p := s.pool l n
  s.setPool l n { p with limit := min (max v p.next) (s.poolNodes l n) }

/-- TF_CAUSE (R347). -/
def TrapFrame.causeReg (f : TrapFrame) : Nat :=
  causeCode f.cause * 2 ^ 48 + f.seg % 4096 * 2 ^ 32 + f.info % 65536 * 2 ^ 16 + f.word % 65536

/-- TF_LANE of a lane (R347). -/
def TrapFrame.laneReg (f : TrapFrame) (l : Nat) : Nat :=
  match tabFind f.lanes l with
  | none => 255 * 2 ^ 56
  | some x => causeCode x.cause * 2 ^ 56 + x.space % 8 * 2 ^ 53 + x.cap % 32 * 2 ^ 48 + x.addr % 2 ^ 48

/-! ### Access (R300, R344) -/

/-- R344 lists a number. -/
def sysListed (r : Nat) : Bool :=
  decide (r ≤ 10) || (decide (16 ≤ r) && decide (r ≤ 26)) || (decide (32 ≤ r) && decide (r ≤ 50))

/-- The registers with a value of their own in each lane. -/
def sysPerLane (r : Nat) : Bool := r == 2 || r == 50

/-- The wave belongs to the cluster's matrix launch (R344). -/
def State.inMatrix (s : State) (w : Nat) : Bool :=
  (s.seqOf (s.waveCluster w)).launch == some (s.waveLaunch w) && (s.launch (s.waveLaunch w)).mod_.seqEntry != 4095

/-- A wave may read a register at its level (R344). -/
def State.sysReadable (s : State) (w r : Nat) : Bool :=
  if 48 ≤ r then (s.wave w).level == .trap
  else if 24 ≤ r ∧ r ≤ 26 then s.inMatrix w
  else true

/-- A thread may write a register (R344). -/
def sysWritable (r : Nat) : Bool := (decide (16 ≤ r) && decide (r ≤ 23)) || (decide (32 ≤ r) && decide (r ≤ 47))

/-- The registers that both kinds of agent reach (R300). -/
def State.sysShared (s : State) (k l r : Nat) : Nat :=
  match r with
  | 0 => s.dt % 2 ^ 64
  | 6 => s.dev.coreLo
  | 7 => s.dev.coreHi
  | 8 => (s.cluster k).cslr
  | 9 => (s.launch l).rec_.deadline
  | 10 => (s.cluster k).allow
  | 24 => s.seqStat k
  | 25 => (s.seqOf k).seqDerr
  | 26 => (s.seqOf k).seqFault
  | _ => s.poolReg l (r - 32)

/-- The value of a register for a lane of a wave. -/
def State.sysValue (s : State) (w lane t r : Nat) : Nat :=
  let g := groupOf w
  match r with
  | 1 => s.launchGeom (crewOf w)
  | 2 => s.threadId g t
  | 3 => s.execLimits (s.waveLaunch w)
  | 4 => s.coreSram (s.waveCore w)
  | 5 => s.vaultCharge (crewOf w)
  | 16 | 17 | 18 | 19 => s.flsReg (crewOf w) (r - 16)
  | 20 | 21 | 22 | 23 => (s.waveVw w (r - 20)).toNat
  | 48 | 49 | 50 =>
    match (s.wave w).frame with
    | none => if r = 50 then 255 * 2 ^ 56 else 0
    | some f => if r = 48 then f.causeReg else if r = 49 then f.active * 2 ^ 32 + tabMask f.lanes else f.laneReg lane
  | _ => s.sysShared (s.waveCluster w) (s.waveLaunch w) r

/-- The registers that a sequencer reaches (R300). -/
def seqReaches (r : Nat) : Bool := r == 0 || (decide (6 ≤ r) && decide (r ≤ 10)) || (decide (24 ≤ r) && decide (r ≤ 47))

/-- The launch of a sequencer. -/
def State.seqLaunch (s : State) (k : Nat) : Nat := (s.seqEnv k).launch

/-! ### SRD and SWR (R345) -/

/-- SRD_SCALAR (R345). -/
def execSrdScalar (o : Sys2Proof.SrdS) (s : State) : Answer :=
  s.onAgent
    (fun w =>
      if (s.wave w).spec.isSome then s.park w .spec
      else if sysListed o.reg = false ∨ sysPerLane o.reg = true then s.trapWord w .illegalOperand
      else if s.sysReadable w o.reg = false then s.trapWord w .accessFault
      else (s.setSReg o.d (s.sysValue w 0 0 o.reg)).finish w o.mark)
    (fun k =>
      if sysListed o.reg = false then s.seqFault k .illegalOperand
      else if seqReaches o.reg = false then s.seqFault k .accessFault
      else (s.setSReg o.d (s.sysShared k (s.seqLaunch k) o.reg)).seqFinish k 1)

/-- SRD_SLICE (R345); in the sequencer it raises ILLEGAL_OPERAND (R300). -/
def execSrdSlice (o : Sys2Proof.SrdN) (s : State) : Answer :=
  s.onAgent
    (fun w => s.issueLanes w { mark := o.mark, g := noGuard, legal := sysListed o.reg, reads := [], writes := [o.d] } (fun act =>
      if s.sysReadable w o.reg = false then s.trapWord w .accessFault
      else (s.putShort w act (fun l t => [(o.d, s.sysValue w l t o.reg)])).finish w o.mark))
    (fun k => s.seqFault k .illegalOperand)

/-- A write of a system register by a wave. -/
def State.sysWrite (s : State) (w r v : Nat) : State :=
  if r < 20 then s.flsClear (crewOf w) (r - 16) v
  else if r < 24 then s.setWaveVw w (r - 20) (BitVec.ofNat 64 v)
  else s.setPoolLimit (s.waveLaunch w) (r - 32) (v % 2 ^ 64 / 2 ^ 32)

/-- A write of a system register by a sequencer (R300). -/
def State.seqSysWrite (s : State) (k r v : Nat) : State :=
  if r < 27 then s.seqStatWrite k (r - 24) v else s.setPoolLimit (s.seqLaunch k) (r - 32) (v % 2 ^ 64 / 2 ^ 32)

/-- SWR (R345). -/
def execSwr (o : Sys2Proof.Swr) (s : State) : Answer :=
  s.onAgent
    (fun w =>
      if (s.wave w).spec.isSome then s.park w .spec
      else if sysListed o.reg = false then s.trapWord w .illegalOperand
      else if sysWritable o.reg = false then s.trapWord w .accessFault
      else (s.sysWrite w o.reg (s.sReg o.a)).finish w o.mark)
    (fun k => s.outsideRegion k (
      if sysListed o.reg = false then s.seqFault k .illegalOperand
      else if seqReaches o.reg = false ∨ o.reg < 24 then s.seqFault k .accessFault
      else (s.seqSysWrite k o.reg (s.sReg o.a)).seqFinish k 1))

/-! ### TRAP, BREAK, ECALL (R346) -/

/-- A trap by program, with its code in INFO. -/
def State.codeTrap (s : State) (w : Nat) (c : Cause) (code : Nat) : State :=
  s.takeTrap w (s.occupiedMask w) { TrapInfo.plain c with info := code }

/-- TRAP (R346): BREAK when the selected flag is 1. -/
def execTrap (o : Sys2Proof.Trap) (s : State) : Answer :=
  s.onWave (fun w =>
    if 5 < o.sel then s.trapWord w .illegalOperand
    else if (s.wave w).spec.isSome then s.park w .spec
    else if ccFlag (s.wave w).cc o.sel then s.codeTrap w .brk o.code
    else s.finish w o.mark)

/-- BREAK (R346). -/
def execBrk (o : Sys2Proof.Code) (s : State) : Answer := s.onWave (fun w => s.codeTrap w .brk o.code)

/-- ECALL (R346). -/
def execEcall (o : Sys2Proof.Code) (s : State) : Answer := s.onWave (fun w => s.codeTrap w .ecall o.code)

/-! ### TRET (R348, R374) -/

/-- TRET of any form: ILLEGAL_OPCODE at THREAD level; it waits for the wave's long-class results. -/
def State.tret (s : State) (body : Nat → State) : Answer :=
  s.onWave (fun w =>
    if (s.wave w).level = .thread then s.trapWord w .illegalOpcode
    else if (s.wave w).pend ≠ [] then s.park w .marker
    else body w)

/-- TRET_RETRY (R348). -/
def execTretRetry (_o : Sys2Proof.Nul) (s : State) : Answer := s.tret (fun w => (s.trapReturn w false).bumpFree)

/-- TRET_SKIP (R348). -/
def execTretSkip (_o : Sys2Proof.Nul) (s : State) : Answer := s.tret (fun w => (s.trapReturn w true).bumpFree)

/-- The other waves of a group end where they are; their threads keep their MAXW. -/
def State.endOtherWave (s : State) (w x : Nat) : State :=
  if x = w then s
  else
    let s1 := s.flushAll x
    let m := s1.maxwOf x
    let s2 := (s1.occupied x).foldl (fun t e =>
      let th := t.thread (groupOf x) e.2
      t.setThread (groupOf x) e.2 { th with place := .dead, maxw := max th.maxw m }) s1
    s2.dropWave x

/-- Every thread of the group outside this wave ends. -/
def State.endOthers (s : State) (w : Nat) : State :=
  let g := groupOf w
  let s1 := (((s.wavesOf (crewOf w)).filter (fun x => groupOf x == g)).foldl (fun t x => t.endOtherWave w x) s)
  let mine := (s1.occupied w).map (fun e => e.2)
  s1.setGroup g { s1.group g with threads := (s1.group g).threads.map (fun e =>
    if mine.contains e.1 then e else (e.1, { e.2 with place := .dead })) }

/-- TRET_KILLTASK (R348): in task mode the group's task ends, and completes as a release at DEVICE scope (R106, R336);
otherwise the threads of the wave end as at EXIT. -/
def execTretKilltask (_o : Sys2Proof.Nul) (s : State) : Answer :=
  s.tret (fun w =>
    let all := (s.occupied w).map (fun e => (e.2, 4095))
    if (s.launch (s.waveLaunch w)).rec_.task then
      let s1 := s.endOthers w
      if s1.endsTask w all = true ∧ s1.taskDone w = false then s1.park w (.release 4)
      else (s1.trapReturn w false).sortWave w all
    else (s.trapReturn w false).sortWave w all)

/-- TRET_KILLCREW (R348, R380). -/
def execTretKillcrew (_o : Sys2Proof.Nul) (s : State) : Answer :=
  s.tret (fun w =>
    match (s.wave w).frame with
    | none => s.endCrewWith (crewOf w) 13 0
    | some f => s.endCrewWith (crewOf w) 13 (causeCode f.cause + 256 * f.seg))

/-! ### RQUOTA (R200, R201) -/

/-- Units of a group's pool that no home wave holds. -/
def State.freeUnits (s : State) (g : Nat) : Nat :=
  let gr := s.group g
  gr.pool - ((List.range (s.launch (s.crew (g / 8)).launch).rec_.wpg).map (fun h => s.quota g h)).sum

/-- A slice of a home wave at or above a quota. -/
def beyond (h q t n : Nat) : Bool := t / 32 == h && decide (64 * q ≤ n)

/-- Some long-class result of the group targets a slice beyond a quota of a home wave. -/
def State.targetsBeyond (s : State) (g h q : Nat) : Bool :=
  s.waves.any (fun e => groupOf e.1 == g && e.2.pend.any (fun p => p.cells.any (fun c => beyond h q c.1 c.2.1)))

/-- The slices of a thread beyond a quota are lost; units gained later read zero (R200). -/
def Thread.cut (t : Thread) (q : Nat) : Thread :=
  { t with slices := t.slices.filter (fun e => decide (e.1 < 64 * q)), poisonRows := t.poisonRows.filter (fun r => decide (r < 4 * q)) }

/-- The units of a home wave at another quota (R200): the last ones go back to the pool, or free ones follow. -/
def Group.unitsAt (g : Group) (h q : Nat) : List Nat :=
  let mine := tabGet g.units [] h
  let used := g.units.flatMap (fun e => e.2)
  mine.take q ++ (g.poolUnits.filter (fun u => !used.contains u)).take (q - mine.length)

/-- The quota of a home wave set; what lies beyond it is lost, also from the undo logs of speculative waves. -/
def State.setQuota (s : State) (g h q : Nat) : State :=
  let gr := s.group g
  let s1 := s.setGroup g { gr with
    quota := tabPut gr.quota h q
    units := tabPut gr.units h (gr.unitsAt h q)
    threads := gr.threads.map (fun e => if e.1 / 32 = h then (e.1, e.2.cut q) else e) }
  { s1 with waves := s1.waves.map (fun e =>
      match e.2.spec with
      | none => e
      | some p =>
        if groupOf e.1 = g then
          (e.1, { e.2 with spec := some { p with undo := p.undo.filter (fun c => !beyond h q c.1 c.2.1) } })
        else e) }

/-- The result word of RQUOTA with a STATUS; the marker is implied (R196). -/
def State.quotaResult (s : State) (w d h st : Nat) : State :=
  let g := groupOf w
  ((s.setSReg d (s.quota g h + s.freeUnits g * 256)).setStatus w st).finish w true

/-- RQUOTA (R201). -/
def execRquota (o : Sys2Proof.Rquota) (s : State) : Answer :=
  s.onWave (fun w =>
    let g := groupOf w
    let h := s.sReg o.a % 16
    let old := s.quota g h
    if 16 < o.q ∨ (s.launch (s.waveLaunch w)).rec_.wpg ≤ h then s.trapWord w .illegalOperand
    else if (s.wave w).spec.isSome then s.park w .spec
    else if o.q ≤ old then
      if s.targetsBeyond g h o.q then s.park w .quota else (s.setQuota g h o.q).quotaResult w o.d h 0
    else if o.q - old ≤ s.freeUnits g then (s.setQuota g h o.q).quotaResult w o.d h 0
    else s.quotaResult w o.d h 7)

/-! ### LIT (R228) -/

/-- LIT (R228): the literal word is passed as well. -/
def execLit (o : Sys2Proof.Lit) (s : State) : Answer := s.onBoth true ((s.setSReg o.d o.v).agentFinish o.mark 2)

/-! ### The paired word (R230 to R232) -/

/-- Slices of a width code (R230). -/
def halfWidth (c : Nat) : Nat := [1, 2, 3, 4, 6, 8, 12, 16].getD c 1

/-- Slices of an element of a type (R231). -/
def halfE (ty : Nat) : Nat := [2, 4, 8, 16, 4, 4, 8].getD ty 2

/-- The float format of a type. -/
def halfFmt (ty : Nat) : Fmt :=
  match ty with
  | 4 => .f16
  | 5 => .bf16
  | _ => .f32

/-- The element operation of a half on integers (R231). -/
def halfInt (op n x y : Nat) : Nat :=
  match op with
  | 0 => y
  | 1 => (x + y) % 2 ^ n
  | 2 => (x + (2 ^ n - y)) % 2 ^ n
  | 3 => x * y % 2 ^ n
  | 4 => minMaxElem n false false x y
  | 5 => minMaxElem n false true x y
  | 6 => x &&& y
  | 7 => x ||| y
  | 8 => x ^^^ y
  | 9 => shlElem n x y
  | 10 => shrElem n x y
  | 11 => shaElem n x y
  | 12 => clampTo n false (intOf n false x + intOf n false y)
  | _ => clampTo n false (intOf n false x - intOf n false y)

/-- The element operation of a half on floats under RNE (R231). -/
def halfFloat (op : Nat) (F : Fmt) (x y : Nat) : Nat :=
  match op with
  | 0 => y
  | 1 => roundVal F .rne false (addVal .rne (valOf F x) (valOf F y))
  | 2 => roundVal F .rne false (addVal .rne (valOf F x) (negVal (valOf F y)))
  | 3 => roundVal F .rne false (mulVal (valOf F x) (valOf F y))
  | 4 => minMaxBits F false x y
  | _ => minMaxBits F true x y

end Sys2Proof.Machine

namespace Sys2Proof

open Sys2Proof.Machine

/-- OP1 of a half, from slice 0 or 256 on. -/
def Half.op1 (h : Half) (from_ : Nat) : Slc := { start := from_ + h.s1, width := halfWidth h.w1 }

/-- OP2 of a half. -/
def Half.op2 (h : Half) (from_ : Nat) : Slc := { start := from_ + h.s2, width := halfWidth h.w2 }

/-- A half that does nothing. -/
def Half.isNop (h : Half) : Bool := h.op == 14

/-- The guard of a half. -/
def Half.guard (h : Half) : Guard := { pred := h.pg, neg := false }

/-- The operands that a half reads. -/
def Half.reads (h : Half) (from_ : Nat) : List Slc :=
  if h.isNop then [] else if h.op = 0 then [h.op2 from_] else [h.op1 from_, h.op2 from_]

/-- The operands that a half writes. -/
def Half.writes (h : Half) (from_ : Nat) : List Slc := if h.isNop then [] else [h.op1 from_]

/-- The conditions of R232 on the operands of a half that end its file at a slice. -/
def Half.legal (h : Half) (from_ last : Nat) : Bool :=
  h.isNop || (decide (halfWidth h.w2 ≤ halfWidth h.w1) && decide (halfWidth h.w1 % halfE h.ty = 0)
    && decide (halfWidth h.w2 % halfE h.ty = 0) && decide ((h.op1 from_).start + halfWidth h.w1 ≤ last)
    && decide ((h.op2 from_).start + halfWidth h.w2 ≤ last))

/-- OP1 op OP2, with OP2 widened to OP1's width by REP. -/
def Half.value (h : Half) (x y : Nat) : Nat :=
  let wd := halfWidth h.w1
  let e := halfE h.ty
  mapElems e wd (fun a b _ => if h.ty < 4 then halfInt h.op (4 * e) a b else halfFloat h.op (halfFmt h.ty) a b)
    x (widen 3 y (halfWidth h.w2) wd) 0

end Sys2Proof

namespace Sys2Proof.Machine

open Sys2Proof

/-- What a half writes in a thread's lane. -/
def State.halfOut (s : State) (w t : Nat) (h : Half) (from_ : Nat) : LaneOut :=
  let i := from_ / 128
  if h.isNop then [] else [(h.op1 from_, h.value (s.opnd w t (h.op1 from_) i) (s.opnd w t (h.op2 from_) (i + 1)))]

/-- The lanes of two rising lists. -/
def laneUnion (a b : List (Nat × Nat)) : List (Nat × Nat) := tabMerge a b

/-- A speculative wave would log a 257th slice (R116). -/
def State.pairOverflow (s : State) (w : Nat) (o : Pair) (a1 a2 act : List (Nat × Nat)) : Bool :=
  act.any (fun e => s.specOverflow w [e]
    ((if a1.contains e then o.h1.writes 0 else []) ++ (if a2.contains e then o.h2.writes 256 else [])))

/-- PAIRED_WORD (R230 to R232): both halves read before either writes. -/
def execPairedWord (o : Sys2Proof.Pair) (s : State) : Answer :=
  s.onWave (fun w =>
    let a1 := s.activeLanes w o.h1.guard
    let a2 := s.activeLanes w o.h2.guard 2
    let act := laneUnion a1 a2
    let am := laneMask act
    let meet := (o.h1.writes 0).any (fun x => (o.h2.writes 256).any (slcMeet x))
    let beyond := s.overQuota w a1 (o.h1.reads 0 ++ o.h1.writes 0) || s.overQuota w a2 (o.h2.reads 256 ++ o.h2.writes 256)
    if (o.h1.legal 0 256 && o.h2.legal 256 512 && !meet && !beyond) = false then
      s.takeTrap w am (TrapInfo.plain .illegalOperand)
    else
      let pz := tabMerge (s.poisonLanes w a1 (o.h1.reads 0)) (s.poisonLanes w a2 (o.h2.reads 256))
      if s.pairOverflow w o a1 a2 act then s.park w .spec
      else if pz ≠ [] then s.takeTrap w am (TrapInfo.ofLanes pz)
      else
        let s1 := s.putShort w a1 (fun _ t => s.halfOut w t o.h1 0)
        (s1.putShort w a2 (fun _ t => s.halfOut w t o.h2 256)).finish w o.mark)

end Sys2Proof.Machine
end

