-- ==== Sys2Proof/Machine/Code.lean ====
section
/-! DEFINITION. The fetch of a word: the L1 instruction cache and the fetch buffers (R44, R47, R127, R392), the words at a place of
a segment (R164, R228), and the traps that precede a word (R348, R376, R392). -/

namespace Sys2Proof.Machine

open Sys2Proof

/-! ### Lines of code (R44, R47) -/

/-- A line of code as it is filled (R47): 64 bytes, a poison bit for each 8-byte word. -/
def iLineOf (m : Store) (line : Nat) : ILine :=
  { line := line, bytes := m.readBytes (64 * line) 64
    poison := (List.range 8).foldl (fun x i => if m.poisoned (64 * line + 8 * i) 8 then x + 2 ^ i else x) 0 }

/-- A fill of the L1 instruction cache of a core, of 128 sets of 8 ways (R44); one that brings in a poisoned word logs it as
latent (R392). -/
def State.fillL1i (s : State) (core line : Nat) : State :=
  let s1 := s.touchRead (64 * line) 64
  let x := iLineOf s1.store line
  let s2 := s1.setCore core { s1.core core with l1i := wayFill ILine.line 128 8 (s1.core core).l1i x }
  if x.poison = 0 then s2 else s2.logNear (clusterOf core) 2 0 (placeOf core) 0 (line % 1024 * 64 + 8 * firstBit x.poison 8)

/-- The line of the L1 instruction cache of a core that holds an address. -/
def State.iLine (s : State) (core line : Nat) : Option ILine := (s.core core).l1i.find? (fun x => x.line == line)

/-- The line that the fetch buffer of a partition holds (R44). -/
def State.bufLine (s : State) (core q line : Nat) : Option ILine :=
  (tabGet (s.core core).fbufs [] q).find? (fun x => x.line == line)

/-- A line put into the fetch buffer of a partition, of four lines; the one filled longest ago leaves (R44, log entry 23). -/
def State.fillBuf (s : State) (core q : Nat) (x : ILine) : State :=
  let c := s.core core
  s.setCore core { c with fbufs := tabPut c.fbufs q ((x :: tabGet c.fbufs [] q).take 4) }

/-- The line that serves a fetch of a partition: of its fetch buffer, else of the L1 instruction cache, else from its home. -/
def State.fetchLine (s : State) (core q line : Nat) : State × ILine :=
  match s.bufLine core q line, s.iLine core line with
  | some x, _ => (s, x)
  | none, some x => (s.fillBuf core q x, x)
  | none, none =>
    let s1 := s.fillL1i core line
    let x := iLineOf s1.store line
    (s1.fillBuf core q x, x)

/-- The word of a line at an address, with its poison. -/
def ILine.word (x : ILine) (pa : Nat) : Nat × Bool :=
  (natOfBytes ((x.bytes.drop (pa % 64)).take 8), bit x.poison (pa % 64 / 8))

/-- The word at a place in memory, with its poison. -/
def Store.codeWord (m : Store) (pa : Nat) : Nat × Bool := (m.readNat pa 8, m.poisoned pa 8)

/-- The word that a wave executes from a line that was changed in memory after it was filled: the old or the new one, chosen word
by word (R127). -/
def State.chosenWord (s : State) (x : ILine) (pa : Nat) : Nat × Bool :=
  if x.word pa = s.store.codeWord pa then x.word pa
  else if Config.newCode s.free pa then s.store.codeWord pa else x.word pa

/-- The word at a virtual address, with its poison: for partition q of a core through its fetch buffer, for a sequencer at its
home. No capability is checked (log entry 81). -/
def State.fetchWord (s : State) (e : Env) (q va : Nat) : Except (State × Cause) (State × Nat × Bool) :=
  match s.translate e va .fetch with
  | .error x => .error x
  | .ok (s1, pa, _) =>
    match e.core with
    | none => .ok (s1.touchRead pa 8, s1.store.codeWord pa)
    | some c =>
      let r := s1.fetchLine c q (pa / 64)
      .ok (r.1, r.1.chosenWord r.2 pa)

/-! ### The words of an instruction (R164, R228) -/

/-- The word is a LIT (R228). -/
def isLitWord (w : Nat) : Bool := bit w 62 == false && bits w 61 58 == 15 && bits w 57 52 == 0

/-- What the fetch of an instruction gives. -/
inductive Fetched where
  /-- Its word, and the literal of a LIT (R228). -/
  | words (w lit : Nat)
  /-- No word: past the end of the segment (R164), or a LIT that is its last word (R228). -/
  | outside
  /-- A cause at a virtual address: translation of the fetch, or poison (R392); and the positions that SKIP passes (R348). -/
  | bad (c : Cause) (va skip : Nat)
deriving DecidableEq, Repr

/-- The positions that SKIP passes at a word (R348): a LIT counts with its literal. -/
def wordSkip (w : Nat) : Nat := if isLitWord w then 2 else 1

/-- The words at a place of a segment of a launch, fetched for partition q or for a sequencer. -/
def State.fetchAt (s : State) (e : Env) (q seg word : Nat) : State × Fetched :=
  let l := s.launch e.launch
  let g := l.mod_.segOf seg
  let va := (l.codeBase + 8 * (g.first + word)) % 2 ^ 48
  if g.len ≤ word then (s, .outside)
  else
    match s.fetchWord e q va with
    | .error (s1, c) => (s1, .bad c va 1)
    | .ok (s1, w, p) =>
      if p then (s1, .bad .poison va 1)
      else if isLitWord w = false then (s1, .words w 0)
      else if g.len ≤ word + 1 then (s1, .outside)
      else
        match s1.fetchWord e q ((va + 8) % 2 ^ 48) with
        | .error (s2, c) => (s2, .bad c ((va + 8) % 2 ^ 48) 2)
        | .ok (s2, x, b) => (s2, if b then .bad .poison va 2 else .words w x)

/-- The words at the place of a wave. -/
def State.fetchWave (s : State) (w : Nat) : State × Fetched :=
  s.fetchAt (s.waveEnv w) (s.partitionOf (groupOf w)) (s.wave w).seg (s.wave w).word

/-! ### Traps before a word is executed (R376) -/

/-- The trap of a word that cannot be fetched: in every active lane, with SPACE 4 and the word's address (R392). -/
def State.fetchTrap (s : State) (w : Nat) (c : Cause) (va skip : Nat) : State :=
  let act := s.activeLanes w noGuard
  let ls : Tab TrapLane := act.map (fun e => (e.1, { cause := c, space := 4, cap := 0, addr := va }))
  s.takeTrap w (laneMask act) { TrapInfo.plain c with lanes := ls, skip := skip }

/-- A trap of a word itself that is passed in a number of positions (R348). -/
def State.plainTrap (s : State) (w : Nat) (c : Cause) (skip : Nat) : State :=
  s.takeTrap w (s.occupiedMask w) { TrapInfo.plain c with skip := skip }

end Sys2Proof.Machine
end

