-- ==== Sys2Proof/Machine/WaveSteps.lean ====
section
/-! DEFINITION. The steps that a formed wave meets without a word of its own: long-class results (R195 to R198), writes
performed at their homes (R108, R109, R124), the speculative fence (R117 to R119), IINV (R290), the ends of waits (R111), the
watchdog (R177, R364), and the active set (R366, R367). -/

namespace Sys2Proof.Machine

open Sys2Proof

/-! ### Long-class results (R195, R198) -/

/-- One slice of a thread written by a result that arrives; a row that it covers whole is not poisoned any more only with
all its slices (R388). -/
def Thread.putNib (t : Thread) (n : Nat) (v : Nib) : Thread := { t with slices := tabPut t.slices n v }

/-- The rows of a thread of which a result writes all sixteen slices (R388). -/
def wholeRows (cells : List (Nat × Nat × Nib)) (t : Nat) (rows : List Nat) : List Nat :=
  rows.filter (fun r => (List.range 16).all (fun i => cells.any (fun c => c.1 == t && c.2.1 == 16 * r + i)))

/-- The cells of a result written; of two for one slice the first holds. -/
def State.putCells (s : State) (g : Nat) (cells : List (Nat × Nat × Nib)) : State :=
  let s1 := cells.foldr (fun c t => t.setThread g c.1 ((t.thread g c.1).putNib c.2.1 c.2.2)) s
  (s1.group g).threads.foldl (fun t e =>
    let whole := wholeRows cells e.1 e.2.poisonRows
    if whole = [] then t
    else t.setThread g e.1 { t.thread g e.1 with poisonRows := e.2.poisonRows.filter (fun r => !whole.contains r) }) s1

/-- The predicates of a result written. -/
def State.putPrds (s : State) (g : Nat) (prds : List (Nat × Nat × Bool)) : State :=
  prds.foldr (fun c t => t.setThread g c.1 { t.thread g c.1 with preds := tabPut (t.thread g c.1).preds c.2.1 c.2.2 }) s

/-- The earlier results lose the cells that a later one has written (R198). -/
def claimBy (ps : List LongRes) (r : LongRes) : List LongRes :=
  ps.map (fun p => {
    cells := p.cells.filter (fun c => !r.cells.any (fun d => d.1 == c.1 && d.2.1 == c.2.1))
    prds := p.prds.filter (fun c => !r.prds.any (fun d => d.1 == c.1 && d.2.1 == c.2.1)) })

/-- A wave parked at a marker is ready once no result is outstanding (R196). -/
def State.endMarker (s : State) (w : Nat) : State :=
  match (s.wave w).park with
  | .marker => if (s.wave w).pend = [] then s.unpark w else s
  | _ => s

/-- Waves of a group that wait in RQUOTA look again (R201). -/
def State.retestQuota (s : State) (g : Nat) : State :=
  { s with waves := s.waves.map (fun e =>
      if groupOf e.1 = g ∧ e.2.park = .quota then (e.1, { e.2 with park := .run, readyAt := s.coreCycles (s.waveCore e.1) }) else e) }

/-- LONG_RESULT_WRITE (R198): result i of a wave, in program order, arrives. -/
def execLongResultWrite (w i : Nat) (s : State) : Answer :=
  let v := s.wave w
  match v.pend[i]? with
  | none => .next s
  | some r =>
    let g := groupOf w
    let s1 := (s.putCells g r.cells).putPrds g r.prds
    let s2 := s1.setWave w { s1.wave w with pend := claimBy (v.pend.take i) r ++ v.pend.drop (i + 1) }
    .next ((s2.endMarker w).retestQuota g).bumpFree

/-! ### Writes performed at their homes (R108 to R110, R124) -/

/-- Two writes are pieces of one lane's access, which are not ordered among themselves (R91). -/
def PWrite.sameAccess (p q : PWrite) : Bool := p.ser == q.ser && p.lane == q.lane

/-- Some earlier write of the same agent is still on its way to a home of a write that it is ordered with (R91, R109). -/
def heldBack (out : List PWrite) (i : Nat) (p : PWrite) : Bool :=
  (out.take i).any (fun q => !p.sameAccess q && meets q.homes p.homes)

/-- A write of a wave performed, once the earlier ones to its homes have been. -/
def State.performOut (s : State) (w i : Nat) : State :=
  let v := s.wave w
  match v.out[i]? with
  | none => s
  | some p =>
    if heldBack v.out i p || v.accts.any (fun a => (s.account a).out.any (fun q => meets q.homes p.homes)) then s
    else (s.setWave w { v with out := listDel v.out i }).performWrite w p

/-- A write of an account performed, once the earlier ones to its homes have been. -/
def State.performAcct (s : State) (a i : Nat) : State :=
  let v := s.account a
  match v.out[i]? with
  | none => s
  | some p =>
    if heldBack v.out i p then s else (s.setAccount a { v with out := listDel v.out i }).performLeft a p

/-- WRITE_PERFORM_AT_HOME (R108): write i of a wave, or of an account as the number 2^64 plus its own. -/
def execWritePerformAtHome (w i : Nat) (s : State) : Answer :=
  .next (if w < 2 ^ 64 then s.performOut w i else s.performAcct (w - 2 ^ 64) i)

/-- PEER_WRITE_ACK (R124): one write of a wave, of an account (2^64 and its number), or of a control processor (2^65 and its number)
is acknowledged by its peer. -/
def execPeerWriteAck (w : Nat) (s : State) : Answer :=
  .next (if w < 2 ^ 64 then s.setWave w { s.wave w with peerOut := (s.wave w).peerOut.tail }
    else if 2 ^ 65 ≤ w then { s with dev := { s.dev with cpPeer := firstDrop s.dev.cpPeer (fun x => x.1 == w - 2 ^ 65) } }
    else s.setAccount (w - 2 ^ 64) { s.account (w - 2 ^ 64) with peerOut := (s.account (w - 2 ^ 64)).peerOut.tail })

/-! ### The end of a release or fence wait (R111) -/

/-- RELEASE_WAIT_END (R111): the parked word goes ahead; a gate that has ended is gone (R113). Nothing of a wave in the shadow
changes (R386). -/
def execReleaseWaitEnd (w : Nat) (s : State) : Answer :=
  if s.isSaved (crewOf w) then .next s
  else
  let v := s.wave w
  let s1 := match v.relGate with
    | none => s
    | some scope => if s.releaseDone w scope then s.setWave w { v with relGate := none } else s
  match v.park with
  | .release scope => .next (if s1.releaseDone w scope then s1.unpark w else s1)
  | _ => .next s1

/-! ### The speculative fence (R117 to R119) -/

/-- No FENCE.rel holds the writes of a wave back any more (R113). -/
def State.gateOpen (s : State) (w : Nat) : Bool :=
  match (s.wave w).relGate with
  | none => true
  | some scope => s.releaseDone w scope

/-- SPEC_FENCE_COMPLETE (R113, R117): buffered stores leave in program order, the watches and the undo log are gone. The fence
target of a wave in the shadow stays there (R120, R386). -/
def execSpecFenceComplete (w : Nat) (s : State) : Answer :=
  match (s.wave w).spec with
  | none => .next s
  | some p =>
    if p.conflict = true ∨ s.releaseDone w p.scope = false ∨ s.gateOpen w = false ∨ s.isSaved (crewOf w) = true then .next s
    else
      let s1 := p.stores.foldl (fun t ps => (t.sendStores w ps).bumpFree) s
      let v := s1.wave w
      let s2 := (s1.setWave w { v with spec := none }).orderRegs w
      .next (if v.park = .spec then s2.unpark w else s2)

/-- The slices that a speculative wave logged get their old values back (R118). -/
def State.restoreUndo (s : State) (g : Nat) (u : List (Nat × Nat × Nib)) : State :=
  u.foldl (fun t c => t.setThread g c.1 ((t.thread g c.1).putNib c.2.1 c.2.2)) s

/-- The checkpointed predicates come back. -/
def State.restorePreds (s : State) (g : Nat) (ck : Tab (Tab Bool)) : State :=
  ck.foldl (fun t e => t.setThread g e.1 { t.thread g e.1 with preds := e.2 }) s

/-- A speculative wave rolls back (R118); the fourth rollback holds it until the fence completes (R119). A swap does not
count it (R120). -/
def State.rollback (s : State) (w : Nat) (counted : Bool) : State :=
  match (s.wave w).spec with
  | none => s
  | some p =>
    let g := groupOf w
    let s1 := (s.restoreUndo g p.undo).restorePreds g p.ckPreds
    let n := if counted then p.rollbacks + 1 else p.rollbacks
    let s2 := s1.setWave w { s1.wave w with
      cc := p.ckCc, lc := p.ckLc, pend := [], retry := none, seg := p.seg, word := p.word
      held := none, park := if 4 ≤ n then .spec else .run, readyAt := s.coreCycles (s.waveCore w)
      spec := some { p with undo := [], watches := [], stores := [], conflict := false, rollbacks := n } }
    s2.retestQuota g

/-- SPEC_CONFLICT_ROLLBACK (R118). -/
def execSpecConflictRollback (w : Nat) (s : State) : Answer :=
  match (s.wave w).spec with
  | none => .next s
  | some p => .next (if p.conflict && !s.isSaved (crewOf w) then (s.rollback w true).bumpFree else s)

/-! ### IINV (R290) -/

/-- IINV_COMPLETE (R290): fetch resumes, after the marker that the word carried. -/
def execIinvComplete (w : Nat) (s : State) : Answer :=
  match (s.wave w).park with
  | .iinv _ mark =>
    .next (if s.isSaved (crewOf w) then s else s.passMark w mark)
  | _ => .next s

/-! ### The watchdog (R177, R364, R376) -/

/-- The smaller of two limits of which 0 means none. -/
def minLimit (a b : Nat) : Nat := if a = 0 then b else if b = 0 then a else min a b

/-- The watchdog limit of the waves of a launch in cycles, 0 for none, and the cause that its expiry takes. -/
def State.wdLimit (s : State) (l : Nat) : Nat × Cause :=
  let v := s.launch l
  if v.deadlineFell then (minLimit (v.rec_.dgrace * 1024) (v.rec_.segLim * 1024), .deadline)
  else (v.rec_.segLim * 1024, .watchdog)

/-- The count of a wave has reached its limit. -/
def State.wdExpired (s : State) (w : Nat) : Bool :=
  let x := s.wdLimit (s.waveLaunch w)
  x.1 != 0 && decide (x.1 ≤ s.wdCount w)

/-- The trap of an expired watchdog before a word that SKIP passes in a number of positions (R348). -/
def State.wdTrap (s : State) (w skip : Nat) : State := s.plainTrap w (s.wdLimit (s.waveLaunch w)).2 skip

/-- SEGMENT_WATCHDOG_EXPIRY (R177, R376): a wave that could issue takes the cause before its next word, unless it has none. The
step asks before whether decoding raises a cause of its own (State.trapsFirst). -/
def execSegmentWatchdogExpiry (w : Nat) (s : State) : Answer :=
  if (tabFind s.waves w).isNone = true ∨ (s.wave w).park ≠ .run ∨ s.crewFrozen (crewOf w) = true ∨ s.wdExpired w = false then .next s
  else
    match s.fetchWave w with
    | (_, .outside) => .next s
    | (s1, .bad _ _ skip) => .next (s1.wdTrap w skip)
    | (s1, .words x _) => .next (s1.wdTrap w (wordSkip x))

/-! ### The active set (R366, R367) -/

/-- A wave that is parked has become ready: the cause that it records has ended. -/
def Wave.ready (v : Wave) : Bool :=
  match v.park with
  | .run => true
  | _ => false

/-- The formed waves of partition q of a core. -/
def State.partWaves (s : State) (c q : Nat) : List (Nat × Wave) :=
  s.waves.filter (fun e => s.waveCore e.1 == c && s.partitionOf (groupOf e.1) == q && !s.crewFrozen (crewOf e.1))

/-- The first of some waves under a measure that is to be smallest. -/
def firstMin (l : List (Nat × Wave)) (f : Wave → Nat) : Option (Nat × Wave) :=
  match l with
  | [] => none
  | x :: rest => some (rest.foldl (fun b y => if f y.2 < f b.2 then y else b) x)

/-- The oldest ready pending wave of a partition, by formation cycle. -/
def State.oldestPending (s : State) (c q : Nat) : Option (Nat × Wave) :=
  firstMin ((s.partWaves c q).filter (fun e => !e.2.active && e.2.ready)) (fun v => v.order)

/-- A wave enters the active set, and another may leave it. -/
def State.exchange (s : State) (enter : Nat) (leave : Option Nat) : State :=
  let s1 := match leave with
    | none => s
    | some x => s.setWave x { s.wave x with active := false, readyAt := s.coreCycles (s.waveCore x) }
  s1.setWave enter { s1.wave enter with active := true }

/-- WAVE_PARK_EXCHANGE (R367): the oldest ready pending wave takes a free place of the active set, or that of an active wave
that has parked. -/
def execWaveParkExchange (c q : Nat) (s : State) : Answer :=
  match s.oldestPending c q with
  | none => .next s
  | some e =>
    let act := (s.partWaves c q).filter (fun x => x.2.active)
    if act.length < 8 then .next (s.exchange e.1 none)
    else
      match firstMin (act.filter (fun x => !x.2.ready)) (fun v => v.lastPark) with
      | none => .next s
      | some x => .next (s.exchange e.1 (some x.1))

/-- The cycle from which a ready wave waits in the pending set: it was formed, became ready or was put there then. -/
def Wave.waitsFrom (v : Wave) : Nat := max v.order v.readyAt

/-- PENDING_WAVE_EXCHANGE (R367): a ready pending wave that has waited 1,024 cycles takes the place of the active wave that has
gone longest without parking. -/
def execPendingWaveExchange (c q : Nat) (s : State) : Answer :=
  let old := (s.partWaves c q).filter (fun e => !e.2.active && e.2.ready && decide (e.2.waitsFrom + 1024 ≤ s.coreCycles c))
  match firstMin old (fun v => v.order), firstMin ((s.partWaves c q).filter (fun e => e.2.active)) (fun v => v.lastPark) with
  | some e, some x => .next (s.exchange e.1 (some x.1))
  | _, _ => .next s

end Sys2Proof.Machine
end

