-- ==== Sys2Proof/Machine/Window.lean ====
section
/-! DEFINITION. The device registers by number (R405, R433), their values (R7), and the bytes of the control processors' window
(R43, R433). -/

namespace Sys2Proof.Machine

open Sys2Proof

/-! ### The registers by number (R405, R433) -/

/-- A device register. -/
inductive Reg where
  | cqBase (q : Nat)
  | cqTail (q : Nat)
  | cqHead (q : Nat)
  | crBase (q : Nat)
  | crTail (q : Nat)
  | crHead (q : Nat)
  | kickPend
  | schedStat
  | schedCtl
  | jrnPtr
  | schedAssist
  | coreMapLo
  | coreMapHi
  | coreHoldLo
  | coreHoldHi
  | scanCtl
  | scanSig
  | tickCmp
  | pwrAlarm
  | pwrCfg
  | holdSet
  | aperBase
  | galStat
  | mbox
  | energyDev
  | energyHigh
  | energyLow
  | energyCl (k : Nat)
  | cslr (k : Nat)
  | issueThr (k : Nat)
  | railCtl (k : Nat)
  | clTemp (k : Nat)
  | poolMode (k : Nat)
  | poolCmd (k : Nat)
  | nearErr (k : Nat)
  | nearCe (k : Nat)
  | vaultStat (v : Nat)
  | coreSram (c : Nat)
  | swapCtl (c : Nat)
  | ctxTable
  | tlbInv
  | vaultSplit
  | capMint
  | errSum
  | farErr (k : Nat)
  | rwinBase (r : Nat)
  | rwinSize (r : Nat)
  | seqStat (k : Nat)
  | seqDerr (k : Nat)
  | seqFault (k : Nat)
deriving DecidableEq, Repr

/-- The registers of a host queue in the order of R349. -/
def queueReg (q i : Nat) : Option Reg :=
  match i with
  | 0 => some (.cqBase q)
  | 1 => some (.cqTail q)
  | 2 => some (.cqHead q)
  | 3 => some (.crBase q)
  | 4 => some (.crTail q)
  | 5 => some (.crHead q)
  | _ => none

/-- The registers of BAR0 (R405). -/
def barReg (off : Nat) : Option Reg :=
  if off % 8 ≠ 0 then none
  else if off < 0x400 then queueReg (off / 64) (off % 64 / 8)
  else if 0x500 ≤ off ∧ off < 0x600 then some (.energyCl ((off - 0x500) / 8))
  else
    match off with
    | 0x400 => some .kickPend
    | 0x408 => some .schedStat
    | 0x410 => some .pwrAlarm
    | 0x418 => some .pwrCfg
    | 0x420 => some .aperBase
    | 0x428 => some .galStat
    | 0x430 => some .mbox
    | 0x440 => some .energyDev
    | 0x448 => some .energyHigh
    | 0x450 => some .energyLow
    | _ => none

/-- The registers of a cluster's block (R433). -/
def clusterReg (k off : Nat) : Option Reg :=
  match off with
  | 0x00 => some (.cslr k)
  | 0x08 => some (.issueThr k)
  | 0x10 => some (.railCtl k)
  | 0x18 => some (.clTemp k)
  | 0x20 => some (.poolMode k)
  | 0x28 => some (.poolCmd k)
  | 0x30 => some (.nearErr k)
  | 0x38 => some (.nearCe k)
  | 0x40 => some (.vaultStat k)
  | _ => none

/-- Registers to which R433 gives no offset, by numbers of the model's own. -/
def ownReg (n : Nat) : Option Reg :=
  if n < 16 then
    match n with
    | 0 => some .ctxTable
    | 1 => some .tlbInv
    | 2 => some .vaultSplit
    | 3 => some .capMint
    | 4 => some .errSum
    | 5 => some .energyDev
    | 6 => some .energyHigh
    | 7 => some .energyLow
    | _ => none
  else if n < 48 then some (.farErr (n - 16))
  else if n < 56 then some (.rwinBase (n - 48))
  else if n < 64 then some (.rwinSize (n - 56))
  else if n < 96 then some (.energyCl (n - 64))
  else if n < 128 then some (.seqStat (n - 96))
  else if n < 160 then some (.seqDerr (n - 128))
  else if n < 192 then some (.seqFault (n - 160))
  else none

/-- The registers of the control processors' window (R433). -/
def windowReg (off : Nat) : Option Reg :=
  if 2 ^ 40 ≤ off then (if off % 8 = 0 then ownReg ((off - 2 ^ 40) / 8) else none)
  else if off % 8 ≠ 0 then none
  else if 0x1000 ≤ off ∧ off < 0x1400 then queueReg ((off - 0x1000) / 64) (off % 64 / 8)
  else if 0x1000000 ≤ off ∧ off < 0x1200000 then clusterReg ((off - 0x1000000) / 0x10000) (off % 0x10000)
  else if 0x2000000 ≤ off ∧ off < 0x2080000 then
    (match off % 0x1000 with
      | 0 => some (.coreSram ((off - 0x2000000) / 0x1000))
      | 8 => some (.swapCtl ((off - 0x2000000) / 0x1000))
      | _ => none)
  else
    match off with
    | 0x00 => some .schedStat
    | 0x08 => some .schedCtl
    | 0x10 => some .kickPend
    | 0x18 => some .jrnPtr
    | 0x20 => some .schedAssist
    | 0x28 => some .coreMapLo
    | 0x30 => some .coreMapHi
    | 0x38 => some .coreHoldLo
    | 0x40 => some .coreHoldHi
    | 0x48 => some .scanCtl
    | 0x50 => some .scanSig
    | 0x58 => some .tickCmp
    | 0x60 => some .pwrAlarm
    | 0x68 => some .pwrCfg
    | 0x70 => some .holdSet
    | _ => none

/-- A register that only the management core reads (R68, R79, R394). -/
def Reg.mgmtReads (r : Reg) : Bool :=
  match r with
  | .nearErr _ => true
  | .nearCe _ => true
  | .farErr _ => true
  | .errSum => true
  | _ => false

/-- The register that an agent reaches at an offset: scheduler cores are 0 and 1, the management core 2, the host 3. -/
def regOf (who off : Nat) : Option Reg :=
  if who = 3 then barReg off else (windowReg off).filter (fun r => who == 2 || !r.mgmtReads)

/-- The memories that a control processor reaches (R433): management RAM (for the management core alone), the journal, the stage slots and
the queue-state table, and, as offsets from 2^41 on, a scheduler core's own instruction and data memories at its own addresses; n
bytes from an offset lie in one of them. -/
def windowMemory (who off n : Nat) : Bool :=
  (decide (who < 2) && decide (2 ^ 41 ≤ off) && decide (off + n ≤ 2 ^ 41 + 0x40000))
    || (decide (who < 2) && decide (2 ^ 41 + 0x10000000 ≤ off) && decide (off + n ≤ 2 ^ 41 + 0x10010000))
    || (who == 2 && decide (0x40000 ≤ off) && decide (off + n ≤ 0x50000))
    || (decide (who < 3) && decide (0x100000 ≤ off) && decide (off + n ≤ 0x110000))
    || (decide (who < 3) && decide (0x110000 ≤ off) && decide (off + n ≤ 0x110800))
    || (decide (who < 3) && decide (0x111000 ≤ off) && decide (off + n ≤ 0x111440))

/-- Where the store holds a byte of those memories: the private ones of a scheduler core lie behind every other key. -/
def windowPlace (who off : Nat) : Nat := if 2 ^ 41 ≤ off then 2 ^ 53 + who * 2 ^ 33 + (off - 2 ^ 41) else devBase + off

/-! ### Values (R7) -/

/-- One bit of a register. -/
def flag (b : Bool) (i : Nat) : Nat := if b then 2 ^ i else 0

/-- KICK_PEND (R350): bit 16 is set while the device launch queue holds a record. -/
def State.kickPend (s : State) : Nat := s.sched.kick % 2 ^ 16 + flag (!s.sched.devQ.isEmpty) 16

/-- Capacity of a vault in a refresh class (R81). -/
def vaultCap (cls : Nat) : Nat :=
  match cls with
  | 0 => 122880
  | 1 => 117760
  | 2 => 107520
  | _ => 87040

/-- The bits of a list of numbers. -/
def bitsOf (l : List Nat) : Nat := l.foldl (fun x i => x ||| 2 ^ i) 0

/-- A host queue. -/
def State.hostQ (s : State) (q : Nat) : HostQ := tabGet s.sched.queues HostQ.reset q

/-- VAULT_STAT (R82). -/
def State.vaultStat (s : State) (v : Nat) : Nat :=
  let x := s.vault v
  flag (x.cls == 3) 63 + x.cls % 4 * 2 ^ 61 + lowBits x.temp 8 * 2 ^ 48 + x.resv % 2 ^ 24 * 2 ^ 24
    + lowBits ((vaultCap x.cls : Int) - x.resv) 24

/-- ERR_SUM (R394). -/
def State.errSum (s : State) : Nat :=
  bitsOf ((List.range 32).filter (fun k => bit (tabGet s.mem.farErr 0 k) 63)) * 2 ^ 32
    + bitsOf ((List.range 32).filter (fun k => bit (s.cluster k).nearErr 63))

/-- The value of a register. -/
def State.regValue (s : State) (r : Reg) : Nat :=
  match r with
  | .cqBase q => (s.hostQ q).base + (s.hostQ q).log2n
  | .cqTail q => (s.hostQ q).tail
  | .cqHead q => (s.hostQ q).head
  | .crBase q => (s.hostQ q).crBase
  | .crTail q => (s.hostQ q).crTail
  | .crHead q => (s.hostQ q).crHead
  | .kickPend => s.kickPend
  | .schedStat => s.sched.primary % 2 * 2 ^ 63 + flag s.sched.replay 62 + flag s.sched.standbyOk 61 + s.sched.takeovers % 2 ^ 32
  | .schedCtl => flag s.sched.failed 63
  | .jrnPtr => s.sched.ckpt % 4096 * 2 ^ 16 + s.sched.jtail % 4096
  | .schedAssist => flag s.sched.assistBusy 62 + s.sched.assistStatus % 4 * 2 ^ 60 + s.sched.assistOp % 2 * 2 ^ 56 + s.sched.assistSlot % 32
  | .coreMapLo => s.dev.coreLo
  | .coreMapHi => s.dev.coreHi
  | .coreHoldLo => bitsOf (s.power.holds.filter (fun c => decide (c < 64)))
  | .coreHoldHi => bitsOf ((s.power.holds.filter (fun c => decide (64 ≤ c))).map (fun c => c - 64))
  | .scanCtl => flag s.power.scanBusy 62 + s.power.scanStatus % 4 * 2 ^ 58 + s.power.scanPrio % 8 * 2 ^ 48
      + s.power.scanPattern % 65536 * 256 + s.power.scanCore % 128
  | .scanSig => s.power.scanSig
  | .tickCmp => s.power.tickCmp
  | .pwrAlarm => flag s.power.throttled 63 + s.power.klevel % 16 * 2 ^ 44 + s.power.sticky % 16 * 256 + s.power.sources % 16
  | .pwrCfg => s.power.killWindow % 65536 * 2 ^ 32 + s.power.hold % 65536 * 65536 + s.power.droopLimit % 65536
  | .holdSet => 0
  | .aperBase => s.dev.aper % 2 ^ 14 * 2 ^ 34
  | .galStat => s.dev.galSelf % 4 * 256 + s.dev.galLinkup % 16 * 16 + s.dev.galPresent % 16
  | .mbox => flag s.dev.mboxBusy 62 + s.dev.mboxStatus % 16 * 2 ^ 58 + s.dev.mboxCmd % 16 * 2 ^ 54 + s.dev.mboxAddr % 2 ^ 48
  | .energyDev => s.power.energyDev
  | .energyHigh => s.power.energyHigh
  | .energyLow => s.power.energyLow
  | .energyCl k => (s.cluster k).energy
  | .cslr k => (s.cluster k).cslr
  | .issueThr k => (s.cluster k).allow
  | .railCtl k =>
    let x := (s.cluster k).rail
    flag x.busy 62 + x.status % 4 * 2 ^ 60 + x.target % 2 * 2 + x.rail % 2
  | .clTemp k => (s.cluster k).temp % 256
  | .poolMode k => (List.range 32).foldl (fun x b => x + s.bankMode k b % 4 * 4 ^ b) 0
  | .poolCmd k =>
    let x := (s.cluster k).cmd
    flag x.busy 62 + x.status % 4 * 2 ^ 60 + x.newMode % 4 * 256 + x.bank % 32
  | .nearErr k => (s.cluster k).nearErr
  | .nearCe k => (s.cluster k).nearCe
  | .vaultStat v => s.vaultStat v
  | .coreSram c => s.coreSram c
  | .swapCtl c =>
    let x := (s.core c).swap
    flag x.busy 62 + flag x.ask 61 + flag x.held 60 + x.status % 4 * 2 ^ 58 + x.haltNs % 2 ^ 32
  | .ctxTable => s.dev.ctxBase * 32768
  | .tlbInv => flag s.dev.tlbBusy 63 + s.dev.tlbMode % 4 * 2 ^ 61 + s.dev.tlbCtx % 4096 * 2 ^ 36 + s.dev.tlbVpn % 2 ^ 36
  | .vaultSplit => s.dev.intlv
  | .capMint => 0
  | .errSum => s.errSum
  | .farErr k => tabGet s.mem.farErr 0 k
  | .rwinBase r => tabGet s.dev.rwinBase 0 r
  | .rwinSize r => tabGet s.dev.rwinSize 0 r
  | .seqStat k => s.seqStat k
  | .seqDerr k => (s.seqOf k).seqDerr
  | .seqFault k => (s.seqOf k).seqFault

/-- A byte that a control processor reads at a physical address: a byte of a register or of a memory of its window (R43, R433), or of
the memory elsewhere. -/
def State.ctlByte (s : State) (who a : Nat) : Byte :=
  if a < devBase ∨ devBase + 2 ^ 32 ≤ a then s.store.byte a
  else
    let off := a - devBase
    if windowMemory who off 1 then s.store.byte a
    else
      match regOf who (off / 8 * 8) with
      | some r => BitVec.ofNat 8 (s.regValue r / 2 ^ (8 * (off % 8)))
      | none => 0

/-- A byte that a write of a control processor reaches as memory: one that R43 lists, and in the window only one of its memories. -/
def State.ctlStores (s : State) (who a : Nat) : Bool :=
  (s.physPlace a).isSome && (decide (a < devBase) || decide (devBase + 2 ^ 32 ≤ a) || windowMemory who (a - devBase) 1)

end Sys2Proof.Machine
end

