-- ==== Sys2Proof/Machine/Loader.lean ====
section
/-! DEFINITION. What the control processors do with a launch record before its placement: their access to memory (R43), the
record (R352, R353), the module and its tests (R237, R240, R244 to R249), and the loader (R31 to R34, R57). -/

namespace Sys2Proof.Machine

open Sys2Proof

/-! ### Memory as the control processors reach it (R43, R433) -/

/-- R43 lists every byte of a range. -/
def State.ctlListed (s : State) (a n : Nat) : Bool :=
  n == 0 || (decide (a + n ≤ 2 ^ 48)
    && (List.range ((a + n - 1) / 128 - a / 128 + 1)).all (fun i => (s.physPlace (max a (128 * (a / 128 + i)))).isSome))

/-- Every byte of a range can be read: R43 lists it and no word of it is poisoned. -/
def State.ctlReadable (s : State) (a n : Nat) : Bool := s.ctlListed a n && (n == 0 || !s.store.poisoned a n)

/-- The L2 notes that a control processor reads a range (R72); a read of an unlisted address is not performed (R43). -/
def State.ctlTouch (s : State) (a n : Nat) : State := if s.ctlListed a n then s.touchRead a n else s

/-- A control processor waits at a FENCE: its later accesses are held (R121). -/
def State.fenced (s : State) (who : Nat) : Bool := s.dev.fencing.contains who

/-- Whole bytes written at their home by a control processor (0 and 1 the scheduler cores, 2 the management core); its next FENCE
waits for their GWCT (R121), and for the acknowledgements of those that go to a peer (R124). A byte at an address that
R43 does not list is not written, and a register is written by REGISTER_WRITE alone. -/
def State.ctlWrite (s : State) (who a : Nat) (bs : List Byte) : State :=
  let cells := (wholeCells a bs).filter (fun c => s.ctlStores who c.1)
  let g := gwctOf s.mem s.dt cells
  let s1 := s.writeAtHome none cells none
  let acks := (splitCells cells).flatMap (fun p => (s.peerAcks (pieceOf 0 p)).map (fun x => (who, x)))
  { s1 with dev := { s1.dev with
      fences := tabPut s1.dev.fences who (max (tabGet s1.dev.fences 0 who) g), cpPeer := s1.dev.cpPeer ++ acks } }

/-- A virtual address translated in a context for a control processor by the walker, past every TLB (log entry 26); a page of device
registers is reachable (R43). -/
def State.ctlTranslate (s : State) (ctx va : Nat) (acc : Acc) : Option (State × Nat) :=
  match s.walkOf ctx (va % 2 ^ 48) with
  | (_, .error _) => none
  | (s1, .ok (a, leaf, big)) =>
    let t : TlbEntry := { ctx := ctx, big := big, vpn := vpnOf va big, leaf := leaf }
    let pa := leafAddr t (va % 2 ^ 48)
    if leafAllows t acc = true ∧ s1.physPlace pa = some (bits leaf 11 10) then
      some (s1.setAD a leaf (acc == .store), pa)
    else none

/-- n bytes from a virtual address read at their homes; none where one does not translate. -/
def State.ctlRead (s : State) (ctx va : Nat) : Nat → Option (State × List Byte)
  | 0 => some (s, [])
  | n + 1 =>
    match s.ctlTranslate ctx va .load with
    | none => none
    | some (s1, pa) =>
      match (s1.touchRead pa 1).ctlRead ctx (va + 1) n with
      | none => none
      | some (s2, bs) => some (s2, s2.ctlByte s2.sched.primary pa :: bs)

/-! ### The launch record (R352, R353) -/

/-- A little-endian field of n bytes at an offset. -/
def fld (bs : List Byte) (off n : Nat) : Nat := natOfBytes ((bs.drop off).take n)

/-- The fields of a record (R352). -/
def parseRecord (b : List Byte) : LaunchRec :=
  let flags := fld b 19 1
  let shape := fld b 20 1
  let crews := fld b 21 1
  let origin := fld b 22 1
  let align := fld b 23 1
  { mod_ := fld b 0 8, digest8 := fld b 8 8, ctx := fld b 16 2 % 4096, prio := fld b 18 1 % 8
    task := bit flags 0, reloc := bit flags 1, rail := bits flags 3 2, intlv := bit flags 4, ownv := bit flags 5
    ex := bits shape 3 0 + 1, ey := bits shape 6 4 + 1
    cpc := bits crews 2 0 + 1, gpc := bits crews 5 3 + 1, wpg := 2 ^ bits crews 7 6
    ox := bits origin 3 0, oy := bits origin 6 4, xstep := 2 ^ bits align 2 0, ystep := 2 ^ bits align 4 3
    split := fld b 24 1 % 4, banks := fld b 25 1, dgrace := fld b 26 2, scratch := fld b 28 4, vbw := fld b 32 4
    vmask := fld b 36 4, ageMax := fld b 40 2, segLim := fld b 42 2, ntensor := fld b 44 2, deadline := fld b 48 8
    tensors := fld b 56 8, args := fld b 64 8, spillBase := fld b 72 8, spillPages := fld b 80 4, bestOff := fld b 84 4
    waitEv := fld b 88 8, waitVal := fld b 96 8, sigEv := fld b 104 8, bestSlot := fld b 112 4, tag := fld b 120 8 }

/-- A reserved field or bit of a record is not zero. -/
def recordReserved (b : List Byte) : Bool :=
  fld b 6 2 != 0 || fld b 16 2 / 4096 != 0 || fld b 18 1 / 8 != 0 || fld b 19 1 / 64 != 0 || fld b 20 1 / 128 != 0
    || fld b 22 1 / 128 != 0 || fld b 23 1 / 32 != 0 || fld b 24 1 / 4 != 0 || fld b 46 2 != 0 || fld b 116 4 != 0

/-- The record ends at once with RECORD_ERROR (R353). -/
def recordBad (b : List Byte) : Bool :=
  let r := parseRecord b
  recordReserved b || r.rail == 3 || r.split == 3 || decide (r.ex < r.xstep) || decide (r.ey < r.ystep)
    || decide (32 < r.ntensor) || r.spillBase % 65536 != 0 || r.spillPages == 0 || r.waitEv % 8 != 0 || r.sigEv % 8 != 0
    || r.bestOff % 8 != 0 || (!r.reloc && (decide (16 < r.ox + r.ex) || decide (8 < r.oy + r.ey)))

/-! ### The module container (R245 to R247) -/

/-- A section: type, offset, size. -/
structure Sect where
  kind : Nat
  off : Nat
  size : Nat
deriving DecidableEq, Repr

/-- The section table. -/
def sections (img : List Byte) : List Sect :=
  (List.range (fld img 10 2)).map (fun i =>
    { kind := fld img (32 + 16 * i) 4, off := fld img (40 + 16 * i) 4, size := fld img (44 + 16 * i) 4 })

/-- The bytes of the section of a type; none where the module has no such section. -/
def sectionOf (img : List Byte) (t : Nat) : List Byte :=
  match (sections img).find? (fun x => x.kind == t) with
  | none => []
  | some x => (img.drop x.off).take x.size

/-- Two sections overlap (R245); an empty one inside another counts (log entry 83). -/
def Sect.meets (x y : Sect) : Bool := decide (x.off < y.off + y.size) && decide (y.off < x.off + x.size)

/-- Every pair of a list, the earlier element first, satisfies a test. -/
def allPairs {α : Type} (l : List α) (f : α → α → Bool) : Bool :=
  match l with
  | [] => true
  | x :: rest => rest.all (f x) && allPairs rest f

/-- The header and the section table are well formed (R245). -/
def containerOk (img : List Byte) : Bool :=
  let ss := sections img
  let n := fld img 10 2
  decide (1 ≤ n) && decide (n ≤ 16) && fld img 12 4 / 2 == 0 && fld img 24 8 == 0 && decide (32 + 16 * n ≤ img.length)
    && (List.range n).all (fun i => fld img (36 + 16 * i) 4 == 0)
    && ss.all (fun x => decide (1 ≤ x.kind) && decide (x.kind ≤ 11) && x.off % 16 == 0 && decide (x.off + x.size ≤ img.length))
    && allPairs ss (fun x y => x.kind != y.kind && !x.meets y)
    && [1, 2, 3, 11].all (fun t => ss.any (fun x => x.kind == t))

/-- The entries of a section of n-byte entries. -/
def entries (bs : List Byte) (n : Nat) : List (List Byte) := (List.range (bs.length / n)).map (fun i => (bs.drop (n * i)).take n)

/-- The code words. -/
def codeWords (img : List Byte) : List Nat := (entries (sectionOf img 1) 8).map natOfBytes

/-- The segment table (R246). -/
def segTable (img : List Byte) : List Segment :=
  (entries (sectionOf img 2) 8).map (fun e =>
    { first := fld e 0 4, len := fld e 4 2, meetSeg := bit (fld e 6 1) 0, seq := bit (fld e 6 1) 1 })

/-- The indices of the literal words among words that begin at an index (R237); lit says that the first is one. -/
def litIndices (ws : List Nat) (i : Nat) (lit : Bool) : List Nat :=
  match ws with
  | [] => []
  | w :: rest => if lit then i :: litIndices rest (i + 1) false else litIndices rest (i + 1) (isLitWord w)

/-- The words of a segment. -/
def segWords (code : List Nat) (x : Segment) : List Nat := (code.drop x.first).take x.len

/-- The literal words of a module. -/
def moduleLits (code : List Nat) (segs : List Segment) : List Nat := segs.flatMap (fun x => litIndices (segWords code x) x.first false)

/-- The last word of a segment is neither a LIT nor a literal (R246). -/
def segEndOk (code : List Nat) (x : Segment) : Bool :=
  let lits := litIndices (segWords code x) x.first false
  let last := x.first + x.len - 1
  !lits.contains last && !isLitWord (code.getD last 0)

/-- The segment table is well formed (R246). -/
def segTableOk (img : List Byte) : Bool :=
  let code := codeWords img
  let segs := segTable img
  (sectionOf img 2).length % 8 == 0 && decide (segs.length ≤ 4095)
    && (entries (sectionOf img 2) 8).all (fun e => fld e 6 1 / 4 == 0 && fld e 7 1 == 0)
    && segs.all (fun x => decide (1 ≤ x.len) && decide (x.first + x.len ≤ code.length) && segEndOk code x)
    && allPairs segs (fun x y => decide (x.first + x.len ≤ y.first) || decide (y.first + y.len ≤ x.first))

/-- A segment that threads may be sent to: an index of a segment without SEQ. -/
def threadSeg (segs : List Segment) (n : Nat) : Bool :=
  match segs[n]? with
  | none => false
  | some x => !x.seq

/-- The launch section is well formed (R246, R247). -/
def launchSectOk (img : List Byte) : Bool :=
  let b := sectionOf img 11
  let segs := segTable img
  let seqE := fld b 4 2
  b.length == 36 && fld b 22 2 == 0 && threadSeg segs (fld b 0 2) && (fld b 2 2 == 4095 || threadSeg segs (fld b 2 2))
    && (List.range 6).all (fun i => fld b (24 + 2 * i) 2 == 4095 || threadSeg segs (fld b (24 + 2 * i) 2))
    && (seqE == 4095 || (bit (fld img 12 4) 0 && (match segs[seqE]? with
      | none => false
      | some x => x.seq)))

/-- The other sections hold whole entries whose reserved fields are zero (R32, R57, R193, R245). -/
def tablesOk (img : List Byte) : Bool :=
  (sectionOf img 1).length % 8 == 0 && (sectionOf img 3).length % 32 == 0 && (sectionOf img 5).length % 32 == 0
    && (sectionOf img 6).length % 32 == 0 && (sectionOf img 7).length % 16 == 0 && (sectionOf img 8).length % 8 == 0
    && (sectionOf img 9).length % 8 == 0
    && (entries (sectionOf img 3) 32).all (fun e => fld e 4 1 / 8 == 0 && bits (fld e 5 1) 6 5 == 0 && fld e 6 2 / 4096 == 0
      && fld e 14 2 == 0)
    && (entries (sectionOf img 5) 8).all (fun e => fld e 0 2 % 1024 == 0 && fld e 6 2 == 0)
    && (entries (sectionOf img 6) 32).all (fun e => fld e 22 1 / 4 == 0 && fld e 23 1 == 0 && fld e 30 2 == 0)
    && (entries (sectionOf img 7) 16).all (fun e => fld e 12 4 == 0)
    && (entries (sectionOf img 8) 8).all (fun e => fld e 2 2 == 0)
    && (entries (sectionOf img 9) 8).all (fun e => fld e 1 1 == 0)

/-! ### Levels and the translator (R237, R238, R240) -/

/-- The first level that has the form of a word (R240). -/
def formLevel (w : Nat) : Nat :=
  if bit w 62 then 20
  else
    match bits w 61 58, bits w 57 52 with
    | 3, 43 => 21
    | 3, 44 => 21
    | 7, 4 => 22
    | 12, 3 => 23
    | 11, 8 => 23
    | 13, 6 => 24
    | 8, 6 => 24
    | _, _ => 20

/-- The words with their indices. -/
def indexed (ws : List Nat) (i : Nat) : List (Nat × Nat) :=
  match ws with
  | [] => []
  | w :: rest => (i, w) :: indexed rest (i + 1)

/-- A word that needs no marker: a form on scalar registers alone, short-class, which reads no slice and no predicate (R196,
R197). -/
def spareMark (w : Nat) : Bool := bits w 61 58 == 0 && decide (bits w 57 52 < 50)

/-- A word of the native image of a translator (R238): a word that no agent can decode is copied unchanged; every other one has a
marker, but that the translator chooses where none is needed (log entry 62). -/
def nativeWord (t w : Nat) : Nat :=
  if formOk w = false then w
  else if spareMark w = true ∧ Config.translatorMark t w = false then w % 2 ^ 63
  else w % 2 ^ 63 + 2 ^ 63

/-- The native image of R238 that a translator makes: no pair, and every literal unchanged. -/
def nativeCode (t : Nat) (code : List Nat) (lits : List Nat) : List Nat :=
  (indexed code 0).map (fun e => if lits.contains e.1 = false then nativeWord t e.2 else e.2)

/-! ### The declarations (R32, R245) -/

/-- Initial data of a binding entry: what the DATA section holds from INIT on, at most SIZE bytes. -/
def initData (img : List Byte) (init size : Nat) : List Byte :=
  match (sections img).find? (fun x => x.kind == 10) with
  | none => []
  | some x => if init = 2 ^ 64 - 1 ∨ init < x.off then [] else (img.drop init).take (min size (x.off + x.size - init))

/-- A binding table entry. -/
def parseBinding (img e : List Byte) : Binding :=
  { space := fld e 4 1 % 8, target := if bit (fld e 5 1) 7 then some (fld e 5 1 % 32) else none, perm := fld e 6 2 % 4096
    size := fld e 8 6, tid := fld e 16 2, align := fld e 18 1, place := fld e 19 1, slot := fld e 20 4
    init := initData img (fld e 24 8) (fld e 8 6) }

/-- The verified module of an image with its digest, its code that of a translator (R238, R245 to R247). -/
def parseModule (t : Nat) (img : List Byte) (digest : Nat) : Module :=
  let b := sectionOf img 11
  let code := codeWords img
  let segs := segTable img
  { digest := digest, translator := t, level := fld img 8 2, words := code, code := nativeCode t code (moduleLits code segs), segs := segs
    binds := (entries (sectionOf img 3) 32).map (parseBinding img)
    views := (entries (sectionOf img 5) 8).map natOfBytes
    barriers := (entries (sectionOf img 7) 16).map (fun e =>
      { offset := fld e 4 4, gridid := fld e 8 1, settle := fld e 9 1, lx := fld e 10 1, ly := fld e 11 1 })
    pools := (entries (sectionOf img 8) 8).map (fun e => { index := fld e 0 1, log2 := fld e 1 1, slot := fld e 4 4 })
    cisterns := (entries (sectionOf img 9) 8).map (fun e =>
      { index := fld e 0 1, thresh := fld e 2 2, flushNs := fld e 4 2, rowBytes := fld e 6 2 })
    entry := fld b 0 2, salvage := fld b 2 2, seqEntry := fld b 4 2, poolP := fld b 6 2
    quota := (List.range 8).map (fun i => fld b (8 + i) 1), scratch := fld b 16 4, banks := fld b 20 2
    traps := (List.range 6).map (fun i => fld b (24 + 2 * i) 2) }

/-! ### Bindings and geometry (R33, R34, R159, R160, R244, R297) -/

/-- Rounding up to a multiple. -/
def roundUp (x a : Nat) : Nat := (x + (a - 1)) / a * a

/-- The entry's BASE is that of an allocation, chosen by PLACE (R33). -/
def Binding.allocated (b : Binding) : Bool := b.space == 0 || b.space == 4 || b.space == 5

/-- Offsets laid out in the order of a list: each the lowest multiple of 2^ALIGN at or above the end before it (R33); an entry
that the test leaves out has offset 0. -/
def layFrom (l : List Binding) (t : Binding → Bool) (stop : Nat) : List Nat :=
  match l with
  | [] => []
  | b :: rest =>
    if t b then roundUp stop (2 ^ b.align) :: layFrom rest t (roundUp stop (2 ^ b.align) + b.size)
    else 0 :: layFrom rest t stop

/-- BASE of the entries of CORESP, POOLSP and OPBUF, by index (R33). -/
def Module.spaceBase (m : Module) (i : Nat) : Nat :=
  match m.binds[i]? with
  | .none => 0
  | some b => (layFrom m.binds (fun x => x.space == b.space) 0).getD i 0

/-- An entry of the host argument buffer (R33). -/
def Binding.hostArg (b : Binding) : Bool := b.allocated && b.place == 3

/-- The offset of entry i in the host argument buffer (R33). -/
def Module.argOff (m : Module) (i : Nat) : Nat := (layFrom m.binds Binding.hostArg 0).getD i 0

/-- Bytes of the host argument buffer, to the end of its last entry. -/
def Module.argSize (m : Module) : Nat :=
  (List.range m.binds.length).foldl (fun n i => match m.binds[i]? with
    | .none => n
    | some b => if b.hostArg then max n (m.argOff i + b.size) else n) 0

/-- The limit of a space for a record (R33). -/
def spaceSize (r : LaunchRec) (space : Nat) : Nat :=
  match space with
  | 1 => r.scratch
  | 2 => r.banks * 131072
  | _ => 1048576

/-- One entry keeps the limits of R33; an ALIGN above 21 or a PLACE above 3 is BIND_ERROR for every space (log entry 81). -/
def bindingOk (r : LaunchRec) (m : Module) (i : Nat) (b : Binding) : Bool :=
  decide (b.space < 6) && decide (b.align ≤ 21) && decide (b.place < 4)
    && (b.allocated || decide (m.spaceBase i + b.size ≤ spaceSize r b.space))
    && !(b.allocated && b.place == 1 && !r.ownv && r.vmask == 0)
    && !(b.space == 3 && m.seqEntry == 4095)

/-- The host argument buffer lies in the host window (R33, R43). -/
def argsOk (r : LaunchRec) (m : Module) : Bool :=
  !m.binds.any Binding.hostArg
    || (r.args % 65536 == 0 && decide (2 ^ 46 ≤ r.args) && decide (r.args + m.argSize ≤ 2 ^ 47))

/-- No two entries name one slot or one k register (R33, R34). -/
def bindingsDistinct (m : Module) : Bool :=
  allPairs m.binds (fun x y => x.slot != y.slot && (x.target.isNone || x.target != y.target))

/-- How many groups of a launch lie in partition q of a core (R160). -/
def groupsIn (r : LaunchRec) (q : Nat) : Nat := ((List.range (r.cpc * r.gpc)).filter (fun j => j % 8 == q)).length

/-- The launch fits an empty core (R160, R200). -/
def fitsCore (r : LaunchRec) (m : Module) : Bool :=
  (List.range 8).all (fun q => decide (groupsIn r q * r.wpg ≤ 16) && decide (groupsIn r q * m.poolP ≤ 128))

/-- The quotas of the home waves suit the record (R200, R244); where not, the launch ends with BIND_ERROR (log entry 83). -/
def quotasOk (r : LaunchRec) (m : Module) : Bool :=
  decide (1 ≤ m.poolP) && decide (m.poolP ≤ 128) && m.quota.all (fun q => decide (q ≤ 16))
    && (m.quota.drop r.wpg).all (fun q => q == 0) && decide (m.quota.sum ≤ m.poolP)

/-- A barrier is declared as a grid barrier: GRIDID 0 to 15 (R139). -/
def BarrierDecl.isGrid (b : BarrierDecl) : Bool := decide (b.gridid < 16)

/-- The tests that end with BIND_ERROR and need no memory. -/
def bindOk (r : LaunchRec) (m : Module) : Bool :=
  (List.range m.binds.length).all (fun i => match m.binds[i]? with
      | none => true
      | some b => bindingOk r m i b)
    && bindingsDistinct m && argsOk r m && quotasOk r m && decide (m.scratch ≤ r.scratch) && decide (m.banks ≤ r.banks)
    && m.barriers.all (fun b => !b.isGrid || (r.ex % 2 ^ b.lx == 0 && r.ey % 2 ^ b.ly == 0)) && fitsCore r m

/-- Steps 3 to 6 of R249 on an image: the module that a translator makes of it, or the status. -/
def verifyImage (t : Nat) (r : LaunchRec) (img : List Byte) (digest : Nat) : Except Nat Module :=
  let m := parseModule t img digest
  let code := codeWords img
  let lits := moduleLits code (segTable img)
  let words := (indexed code 0).filter (fun e => !lits.contains e.1)
  if (containerOk img && segTableOk img && launchSectOk img && tablesOk img) = false then .error 4
  else if m.level < 20 ∨ 24 < m.level ∨ words.any (fun e => decide (m.level < formLevel e.2)) = true then .error 5
  else if words.any (fun e => e.2 / 2 ^ 62 != 0) then .error 4
  else if bindOk r m then .ok m
  else .error 2

/-- The SHAKE256 digest of bytes (R248). -/
def digestOf (img : List Byte) : Nat := shake256 (img.map (fun b => b.toNat))

/-- The signature block of an image verifies under a trusted key (R248, R410). -/
def sigOk (owners : List Nat) (img blk : List Byte) : Bool :=
  let key := fld blk 0 32
  (Config.isRootKey key || owners.contains key) && fld blk 3341 3 == 0
    && signatureOk key (digestOf img) (((blk.drop 32).take 3309).map (fun b => b.toNat))

/-- MAGIC (R245). -/
def moduleMagic : Nat := 0x444D52415341474E

/-- An image is that of a module by the translator of the time (R409). -/
def State.imageOf (s : State) (m : Module) (x : NativeImage) : Bool := x.digest == m.digest && x.translator == s.dev.translator

/-- A module that has passed runs the native image that is cached for it, if there is one (R249, R409). -/
def State.cached (s : State) (m : Module) : Module :=
  match s.dev.images.find? (s.imageOf m) with
  | none => m
  | some x => { m with code := x.code }

/-- An image that stays: one by the translator of the time, or an old one that a placed launch runs (R409). -/
def State.imageUsed (s : State) (x : NativeImage) : Bool :=
  x.translator == s.dev.translator
    || s.launches.any (fun e => e.2.phase == .placed && e.2.mod_.digest == x.digest && e.2.mod_.translator == x.translator)

/-- The images that no launch uses any more are dropped. -/
def State.dropImages (s : State) : State := { s with dev := { s.dev with images := s.dev.images.filter s.imageUsed } }

/-- The native image of a module cached under the digests of the module and the translator (R249, R409). -/
def State.keepImage (s : State) (at_ total : Nat) (m : Module) : State :=
  if s.dev.images.any (s.imageOf m) then s
  else
    let x : NativeImage := { digest := m.digest, translator := s.dev.translator, at_ := at_, total := total, code := m.code }
    { s with dev := { s.dev with images := x :: s.dev.images.filter s.imageUsed } }

/-- The code of a module as bytes of its code memory. -/
def Module.codeBytes (m : Module) : List Byte := m.code.flatMap (fun w => bytesOf w 8)

/-- TOTAL of the module at an address. -/
def State.moduleTotal (s : State) (a : Nat) : Nat := fld (s.store.readBytes a 32) 16 8

/-- A launch placed after a switch of the translator runs an image that the new one has made of its module (R409). -/
def State.renewImage (s : State) (l : Nat) : State :=
  let v := s.launch l
  if v.mod_.translator = s.dev.translator then s
  else
    let t := s.dev.translator
    let m := s.cached { v.mod_ with translator := t, code := nativeCode t v.mod_.words (moduleLits v.mod_.words v.mod_.segs) }
    ((s.setLaunch l { v with mod_ := m }).keepImage v.rec_.mod_ (s.moduleTotal v.rec_.mod_) m).ctlWrite 2 v.codeBase m.codeBytes

/-- The cached image of a module whose digest verifies again (R249). -/
def State.imageStands (s : State) (x : NativeImage) : Bool :=
  s.ctlReadable x.at_ x.total && digestOf (s.store.readBytes x.at_ x.total) == x.digest

/-- The module of a record can be found: its header can be read, MAGIC and TOTAL are right, and its bytes can be read (R249). -/
def State.framed (s : State) (r : LaunchRec) : Bool :=
  let total := s.moduleTotal r.mod_
  s.ctlReadable r.mod_ 32 && fld (s.store.readBytes r.mod_ 32) 0 8 == moduleMagic && decide (32 ≤ total) && total % 16 == 0
    && s.ctlReadable r.mod_ (total + 3344)

/-- The bytes of the module of a record read at their homes (R72). -/
def State.touchModule (s : State) (r : LaunchRec) : State :=
  if s.framed r then s.touchRead r.mod_ (s.moduleTotal r.mod_ + 3344) else s.ctlTouch r.mod_ 32

/-- The tests of R249 on the module of a record, translated by the translator of the time. -/
def State.verifyModule (s : State) (r : LaunchRec) : Except Nat Module :=
  let hdr := s.store.readBytes r.mod_ 32
  let total := s.moduleTotal r.mod_
  if s.ctlReadable r.mod_ 32 = false then .error 6
  else if fld hdr 0 8 ≠ moduleMagic ∨ total < 32 ∨ total % 16 ≠ 0 then .error 4
  else if s.ctlReadable r.mod_ (total + 3344) = false then .error 6
  else
    let img := s.store.readBytes r.mod_ total
    if sigOk s.dev.ownerKeys img (s.store.readBytes (r.mod_ + total) 3344) = false then .error 3
    else (verifyImage s.dev.translator r img (digestOf img)).map s.cached

/-! ### Tensor descriptors (R57) -/

/-- A descriptor. -/
def parseTensor (l : Nat) (e : List Byte) : Tensor :=
  { launch := l, base := fld e 0 6, tid := fld e 6 2, rowPitch := fld e 8 4, width := fld e 12 4, height := fld e 16 4
    depth := fld e 20 2, lease := fld e 22 1 % 4, planePitch := fld e 24 6 }

/-- A descriptor's fields are within their ranges, and its reserved fields zero. -/
def tensorOk (e : List Byte) : Bool :=
  let d := parseTensor 0 e
  d.rowPitch != 0 && d.rowPitch % 64 == 0 && decide (1 ≤ d.width) && decide (d.width ≤ 4194304) && decide (1 ≤ d.height)
    && decide (d.height ≤ 1048576) && d.depth != 0 && fld e 22 1 / 4 == 0 && fld e 23 1 == 0 && fld e 30 2 == 0

/-- The tensor table of a record (R57); none is BIND_ERROR, as for a table that does not translate; poison in its words is not
tested (log entry 81). -/
def State.readTensors (s : State) (l : Nat) (r : LaunchRec) : Option (State × List Tensor) :=
  match s.ctlRead r.ctx r.tensors (32 * r.ntensor) with
  | none => none
  | some (s1, bs) =>
    let es := entries bs 32
    if es.all tensorOk && allPairs (es.map (parseTensor l)) (fun x y => x.tid != y.tid) then some (s1, es.map (parseTensor l)) else none

/-! ### Allocation and page tables (R33, R35 to R38) -/

/-- Where the loader's allocations of a region start and end: 0 interleaved window, 1 + v local window of vault v, 33 external
DRAM, 34 virtual addresses of host argument buffers. -/
def State.loaderRegion (s : State) (key : Nat) : Nat × Nat :=
  if key = 0 then (0x100000, 32 * s.dev.intlv * 1048576)
  else if key < 33 then
    (0x000400000000 + (key - 1) * 0x20000000, 0x000400000000 + (key - 1) * 0x20000000 + (384 - s.dev.intlv) * 1048576)
  else if key = 33 then (0x001000000000, 0x001000000000 + usableDram)
  else (2 ^ 46, 2 ^ 47)

/-- An allocation of whole 64 KiB pages from a region, aligned; none when the region holds no more. -/
def State.alloc (s : State) (key align size : Nat) : Option (State × Nat) :=
  let rg := s.loaderRegion key
  let at_ := roundUp (max rg.1 (tabGet s.dev.loader 0 key)) (max align 65536)
  let stop := roundUp (at_ + size) 65536
  if stop ≤ rg.2 then some ({ s with dev := { s.dev with loader := tabPut s.dev.loader key stop } }, at_) else none

/-- Memory zeroed at its home by the loader (R72); a line of zeros fits any frame (R74, R76). -/
def State.zeroHome (s : State) (a n : Nat) : State :=
  let s1 := s.setStore (s.store.zero a n)
  { s1 with mem := (linesAt a n).foldl (fun ms l => l2Touch ms s.dt l true) s1.mem }

/-- A table of zeros allocated, and the entry at an address made to point to it; none where R43 does not list the entry. -/
def State.newTable (s : State) (who a : Nat) : Option (State × Nat) :=
  match s.alloc 0 65536 65536 with
  | none => none
  | some (s1, t) => if s1.ctlListed a 8 then some ((s1.zeroHome t 65536).ctlWrite who a (bytesOf (t + 1) 8), t) else none

/-- The table that an entry at an address points to, allocated when the entry is not valid. -/
def State.nextTable (s : State) (who a : Nat) : Option (State × Nat) :=
  let e := s.store.readNat a 8
  if s.ctlListed a 8 = false then none
  else if bit e 0 then (if bit e 1 then none else some (s.touchRead a 8, bits e 47 8 * 256))
  else (s.touchRead a 8).newTable who a

/-- The root table of a context (R35), allocated when its entry is not valid. -/
def State.rootTable (s : State) (who ctx : Nat) : Option (State × Nat) :=
  let a := s.dev.ctxBase * 32768 + 8 * ctx
  let e := s.store.readNat a 8
  if s.ctlListed a 8 = false then none
  else if bit e 0 then some (s.touchRead a 8, bits e 47 12 * 4096)
  else (s.touchRead a 8).newTable who a

/-- One 64 KiB page mapped in a context. -/
def State.mapPage (s : State) (who ctx va leaf : Nat) : Option State :=
  match s.rootTable who ctx with
  | none => none
  | some (s0, t0) =>
    match s0.nextTable who (t0 + 8 * walkIndex va 0) with
    | none => none
    | some (s1, t1) =>
      match s1.nextTable who (t1 + 8 * walkIndex va 1) with
      | none => none
      | some (s2, t2) =>
        match s2.nextTable who (t2 + 8 * walkIndex va 2) with
        | none => none
        | some (s3, t3) =>
          if s3.ctlListed (t3 + 8 * walkIndex va 3) 8 then some (s3.ctlWrite who (t3 + 8 * walkIndex va 3) (bytesOf leaf 8)) else none

/-- A leaf of 64 KiB (R37). -/
def leafWord (pa place lease : Nat) (x w r : Bool) : Nat :=
  pa / 65536 * 65536 + place * 1024 + lease * 256 + (if x then 32 else 0) + (if w then 16 else 0) + (if r then 8 else 0) + 3

/-- n pages mapped from a virtual and a physical address on. -/
def State.mapPages (s : State) (who ctx va pa place lease : Nat) (x w : Bool) : Nat → Option State
  | 0 => some s
  | n + 1 =>
    match s.mapPage who ctx va (leafWord pa place lease x w true) with
    | none => none
    | some s1 => s1.mapPages who ctx (va + 65536) (pa + 65536) place lease x w n

/-- The lease class of the pages that the loader maps. DESIGN CHOICE: 400 ns. -/
def loaderLease : Nat := 2

/-- Zero-filled memory allocated, mapped at virtual addresses equal to the physical ones, and given its initial data. Its leaves
allow loads and stores, and fetches for CODE alone (log entry 81). -/
def State.allocMapped (s : State) (ctx key place align size : Nat) (x w : Bool) (data : List Byte) : Option (State × Nat) :=
  match s.alloc key align size with
  | none => none
  | some (s1, a) =>
    let s2 := s1.zeroHome a (roundUp size 65536)
    match s2.mapPages 2 ctx a a place loaderLease x w (roundUp size 65536 / 65536) with
    | none => none
    | some s3 => some (s3.ctlWrite 2 a data, a)

/-! ### Minting (R31, R33, R34, R358) -/

/-- The permissions that the loader grants (R33). -/
def mintPerm (b : Binding) : Nat :=
  let p := if b.space = 4 then b.perm else b.perm &&& (4095 - permEX)
  let q := if b.space = 3 ∨ b.space = 0 ∨ b.space = 5 then p else p &&& (4095 - permMX)
  if b.size = 0 then q else q &&& (4095 - permSU)

/-- The number of the lowest set bit. -/
def lowestBit (m : Nat) : Nat := ((List.range 32).find? (fun i => bit m i)).getD 0

/-- BASE of entry i of a launch for a cluster: its allocation, its place in the host argument buffer or in its space (R33, R358). -/
def State.bindAddr (s : State) (l i k : Nat) : Nat :=
  let v := s.launch l
  match v.mod_.binds[i]? with
  | none => 0
  | some b =>
    if b.allocated = false then v.mod_.spaceBase i
    else if b.place = 1 ∧ v.rec_.ownv = true then tabGet v.bindBase 0 (64 * i + k)
    else tabGet v.bindBase 0 (64 * i)

/-- The capability minted for entry i of a launch in a cluster (R33). -/
def State.mintCap (s : State) (l i k : Nat) : Capv :=
  match (s.launch l).mod_.binds[i]? with
  | none => Capv.null
  | some b => Capv.make true (s.bindAddr l i k + b.size) (s.bindAddr l i k) b.tid (mintPerm b) b.space false

/-- A BASE recorded for a launch. -/
def State.setBind (s : State) (l key a : Nat) : State :=
  s.setLaunch l { s.launch l with bindBase := tabPut (s.launch l).bindBase key a }

/-- The copies of an entry allocated in each cluster's vault (R358). -/
def State.allocOwn (s : State) (l i : Nat) (b : Binding) (ks : List Nat) : Option State :=
  match ks with
  | [] => some s
  | k :: rest =>
    match s.allocMapped (s.launch l).rec_.ctx (1 + k) 1 (2 ^ b.align) b.size (b.space == 4) true b.init with
    | none => none
    | some (s1, a) => (s1.setBind l (64 * i + k) a).allocOwn l i b rest

/-- Entry i allocated as PLACE asks (R33); argVa is where the host argument buffer is mapped. -/
def State.allocBinding (s : State) (l i argVa : Nat) (b : Binding) : Option State :=
  let v := s.launch l
  if b.allocated = false then some s
  else if b.place = 3 then some (s.setBind l (64 * i) (argVa + v.mod_.argOff i))
  else if b.place = 1 ∧ v.rec_.ownv = true then s.allocOwn l i b (List.range 32)
  else
    let key := if b.place = 1 then 1 + lowestBit v.rec_.vmask else if b.place = 2 then 33 else 0
    match s.allocMapped v.rec_.ctx key b.place (2 ^ b.align) b.size (b.space == 4) true b.init with
    | none => none
    | some (s1, a) => some (s1.setBind l (64 * i) a)

/-- The entries from i on. -/
def State.allocBindings (s : State) (l argVa i : Nat) (bs : List Binding) : Option State :=
  match bs with
  | [] => some s
  | b :: rest =>
    match s.allocBinding l i argVa b with
    | none => none
    | some s1 => s1.allocBindings l argVa (i + 1) rest

/-- The host argument buffer mapped at a multiple of 2 MiB with lease class 0 (R33): its virtual address. -/
def State.mapArgs (s : State) (l : Nat) : Option (State × Nat) :=
  let v := s.launch l
  let n := roundUp v.mod_.argSize 65536 / 65536
  if n = 0 then some (s, 2 ^ 46)
  else
    match s.alloc 34 2097152 (65536 * n) with
    | none => none
    | some (s1, va) =>
      match s1.mapPages 2 v.rec_.ctx va v.rec_.args 3 0 false true n with
      | none => none
      | some s2 => some (s2, va)

/-- A capability stored with its tag. -/
def State.storeCap (s : State) (a : Nat) (c : Capv) : State :=
  s.writeAtHome none (wholeCells a (bytesOf c.bits.toNat 16)) (some c.tag)

/-- The capability table written with the copies of a cluster (R33, R358). -/
def State.fillTable (s : State) (l k i : Nat) (bs : List Binding) : State :=
  match bs with
  | [] => s
  | b :: rest => (s.storeCap ((s.launch l).capTable + 16 * b.slot) (s.mintCap l i k)).fillTable l k (i + 1) rest

/-- Bytes of the capability table: up to its highest slot. -/
def Module.tableSize (m : Module) : Nat := m.binds.foldl (fun n b => max n (16 * b.slot + 16)) 0

/-- The k registers at crew start and at a sequencer's preparation (R34, R298). -/
def State.startK (s : State) (l k : Nat) : Tab Capv :=
  let v := s.launch l
  let tbl := Capv.make true (v.capTable + v.mod_.tableSize) v.capTable 0 (permLD + permLC) 0 false
  (List.range v.mod_.binds.length).foldl (fun t i => match v.mod_.binds[i]? with
    | none => t
    | some b => match b.target with
      | none => t
      | some r => tabPut t r (s.mintCap l i k)) [(31, tbl)]

/-- The node pools of a launch at their reset values (R340). -/
def State.startPools (s : State) (l : Nat) : Tab NodePool :=
  (s.launch l).mod_.pools.foldl (fun t p => tabPut t p.index { next := 0, limit := s.poolNodes l p.index, freed := [] }) []

/-- The loader's work for a launch whose module has passed (R33): none when memory is exhausted. -/
def State.loadLaunch (s : State) (l : Nat) : Option State :=
  let m := (s.launch l).mod_
  let ctx := (s.launch l).rec_.ctx
  match s.allocMapped ctx 0 0 65536 (8 * m.code.length) true false m.codeBytes with
  | none => none
  | some (s1, code) =>
    match s1.mapArgs l with
    | none => none
    | some (s2, va) =>
      match s2.allocBindings l va 0 m.binds with
      | none => none
      | some s3 =>
        match s3.allocMapped ctx 0 0 65536 m.tableSize false true [] with
        | none => none
        | some (s4, tbl) =>
          let s5 := s4.setLaunch l { s4.launch l with codeBase := code, capTable := tbl }
          let s6 := s5.fillTable l 0 0 m.binds
          some (s6.setLaunch l { s6.launch l with pools := s6.startPools l })

end Sys2Proof.Machine
end

