-- ==== Sys2Proof/Machine/Placement.lean ====
section
/-! DEFINITION. Placement: the journal (R370, R436), the conditions of R357, rails (R395), the acceptance of an origin (R359),
the preparation of sequencers (R298), and pre-emption (R382, R383) with the start of a save or a restore (R384, R385, R387). -/

namespace Sys2Proof.Machine

open Sys2Proof

/-! ### The command processor (R371) -/

/-- A scheduler core runs the command processor: no failure, no replay, no completion that waits from one (R371), no FENCE that it waits
at (R121), and no save or restore that was under way at a take-over (R387). -/
def State.cpRuns (s : State) : Bool :=
  !s.sched.failed && !s.sched.replay && !s.fenced s.sched.primary
    && s.cores.all (fun e => !(e.2.swap.busy && decide (e.2.swap.goAt < s.sched.tookAt)))
    && s.launches.all (fun e => !(e.2.phase == .due && decide (e.2.dueSeq < s.sched.replayDue)))

/-! ### Rails (R395, R396) -/

/-- A launch asks for the other rail: RAIL 1 is high, 2 is low. -/
def LaunchRec.pins (r : LaunchRec) (target : Nat) : Bool := (r.rail == 1 && target == 1) || (r.rail == 2 && target == 0)

/-- The crews of a cluster whose allocations have not been returned, saved ones included. -/
def State.clusterCrews (s : State) (k : Nat) : List Nat :=
  (s.crews.filter (fun e => clusterOf e.2.core == k && !e.2.ended)).map (fun e => e.1)

/-- A switch is refused (R395). -/
def State.railPinned (s : State) (k target : Nat) : Bool :=
  (s.clusterCrews k).any (fun c => (s.launch (s.crew c).launch).rec_.pins target)
    || ((s.seqOf k).run && (match (s.seqOf k).launch with
      | none => false
      | some l => (s.launch l).rec_.pins target))

/-- A GO of RAIL_CTL (R395): ignored while a switch runs, DONE at once on the rail in use, PINNED, or a switch that holds the
cluster's clock (R396). -/
def State.railGo (s : State) (k target : Nat) : State :=
  let c := s.cluster k
  if c.rail.busy then s
  else if c.rail.rail = target then s.setCluster k { c with rail := { c.rail with target := target, status := 0 } }
  else if s.railPinned k target then s.setCluster k { c with rail := { c.rail with target := target, status := 1 } }
  else (s.setCluster k { c with rail := { c.rail with target := target, going := target, busy := true } }).retime k

/-- A switch that the scheduler cores need (R359, R387): a GO is ignored while another switch runs, so it is given when that one
has ended. -/
def State.railWant (s : State) (k target : Nat) : State :=
  let c := s.cluster k
  if c.rail.busy then s.setCluster k { c with rail := { c.rail with next := some target } } else s.railGo k target

/-- The rail that a cluster is on, or goes to. -/
def State.railOf (s : State) (k : Nat) : Nat :=
  let r := (s.cluster k).rail
  if r.busy then r.next.getD r.going else r.rail

/-! ### Candidates (R357) -/

/-- The cores of a rectangle, ascending. -/
def rectCores (ox oy ex ey : Nat) : List Nat :=
  (List.range ey).flatMap (fun y => (List.range ex).map (fun x => (oy + y) * 16 + ox + x))

/-- The clusters that some cores touch, ascending. -/
def rectClusters (cores : List Nat) : List Nat := cores.foldl (fun l c => memberAdd l (clusterOf c)) []

/-- The candidate origins in the order of R357. -/
def originsOf (r : LaunchRec) : List (Nat × Nat) :=
  if r.reloc = false then [(r.ox, r.oy)]
  else
    let all := (List.range 8).flatMap (fun y => (List.range 16).map (fun x => (x, y)))
    let ok := all.filter (fun o => o.1 % r.xstep == 0 && o.2 % r.ystep == 0 && decide (o.1 + r.ex ≤ 16) && decide (o.2 + r.ey ≤ 8))
    let at_ := r.oy * 16 + r.ox
    ok.filter (fun o => decide (at_ ≤ o.2 * 16 + o.1)) ++ ok.filter (fun o => decide (o.2 * 16 + o.1 < at_))

/-- A core is present (R13). -/
def State.present (s : State) (c : Nat) : Bool := if c < 64 then bit s.dev.coreLo c else bit s.dev.coreHi (c - 64)

/-- A core is held for a scan test, for a record of a priority (R441). -/
def State.heldFor (s : State) (c prio : Nat) : Bool := s.power.holds.contains c && decide (prio ≤ s.power.scanPrio)

/-- The crews of a core that take room in its partitions: those that run, and those that a restore brings back. -/
def State.roomCrews (s : State) (c : Nat) : List Nat :=
  if (s.core c).swap.busy && (s.core c).swap.dir then s.coreCrews c else s.liveCrews c

/-- Group g of a crew still holds its partition's resources (R180). -/
def State.groupHolds (s : State) (crew g : Nat) : Bool := !((s.crew crew).started && (s.group (8 * crew + g)).retired)

/-- Groups of a crew that hold partition q (R160). -/
def State.crewGroups (s : State) (crew q : Nat) : Nat :=
  let r := (s.launch (s.crew crew).launch).rec_
  ((List.range r.gpc).filter (fun g => ((s.crew crew).index * r.gpc + g) % 8 == q && s.groupHolds crew g)).length

/-- The partitions have room for a launch beside some crews (R160, R200). -/
def State.partitionRoom (s : State) (r : LaunchRec) (m : Module) (crews : List Nat) : Bool :=
  (List.range 8).all (fun q =>
    let waves := (crews.map (fun c => s.crewGroups c q * (s.launch (s.crew c).launch).rec_.wpg)).sum
    let units := (crews.map (fun c => s.crewGroups c q * (s.launch (s.crew c).launch).mod_.poolP)).sum
    decide (waves + groupsIn r q * r.wpg ≤ 16) && decide (units + groupsIn r q * m.poolP ≤ 128))

/-- The lowest start of a free run of some bytes among occupied runs (R48). -/
def firstFit (occ : List (Nat × Nat)) (size limit : Nat) : Option Nat :=
  let fits := fun (a : Nat) => decide (a + size ≤ limit) && occ.all (fun o => decide (a + size ≤ o.1) || decide (o.1 + o.2 ≤ a))
  ((0 :: occ.map (fun o => o.1 + o.2)).filter fits).foldl (fun b a => match b with
    | none => some a
    | some x => some (min x a)) none

/-- n runs placed one after the other. -/
def fitRuns (occ : List (Nat × Nat)) (size limit : Nat) : Nat → Option (List Nat)
  | 0 => some []
  | n + 1 =>
    match firstFit occ size limit with
    | none => none
    | some a =>
      match fitRuns ((a, size) :: occ) size limit n with
      | none => none
      | some rest => some (a :: rest)

/-- Bytes of a crew's allocation (R48). -/
def LaunchRec.spSize (r : LaunchRec) : Nat := roundUp r.scratch 1024

/-- The starts of the scratchpad runs of a launch's crews on a core (R48, R357); the runs of the crews that are there stay, those of
crews in the shadow too, and lie in the scratchpad (R382, R386). -/
def State.spRuns (s : State) (r : LaunchRec) (c : Nat) : Option (List Nat) :=
  let occ := (s.coreCrews c).map (fun x => ((s.crew x).spStart, (s.crew x).spSize))
  if occ.all (fun o => decide (o.1 + o.2 ≤ splitKib r.split * 1024)) then fitRuns occ r.spSize (splitKib r.split * 1024) r.cpc
  else none

/-- Condition 1 of R357 for one core, with the crews that it counts. -/
def State.coreOk (s : State) (r : LaunchRec) (m : Module) (c : Nat) (crews : List Nat) : Bool :=
  s.present c && !s.heldFor c r.prio && ((s.core c).split == r.split || crews == [])
    && s.partitionRoom r m crews && (s.spRuns r c).isSome

/-- A bank of a cluster that no launch has, in a mode. -/
def State.bankFree (s : State) (k mode b : Nat) : Bool :=
  s.bankMode k b == mode && (tabFind (s.cluster k).bankOwner b).isNone

/-- The lowest run of free SCRATCH banks that fits (R52). -/
def State.bankRun (s : State) (k n : Nat) : Option Nat :=
  (List.range 32).find? (fun b => decide (b + n ≤ 32) && (List.range n).all (fun i => s.bankFree k 1 (b + i)))

/-- FIFO banks that a module's cisterns take (R362). -/
def Module.cisternBanks (m : Module) : Nat := ((m.cisterns.map (fun c => 4 * c.thresh * c.rowBytes)).sum + 131071) / 131072

/-- The free FIFO banks of a cluster other than bank 31, lowest first. -/
def State.fifoBanks (s : State) (k : Nat) : List Nat := (List.range 31).filter (s.bankFree k 2)

/-- The FIFO banks of a cluster that a launch has, lowest first (R362). -/
def State.cisternBanksOf (s : State) (k l : Nat) : List Nat :=
  (List.range 31).filter (fun b => s.bankMode k b == 2 && tabFind (s.cluster k).bankOwner b == some l)

/-- Bytes of a launch's cisterns before cistern n, in declaration order (R362). -/
def Module.cisternStart (m : Module) (n : Nat) : Nat :=
  ((m.cisterns.takeWhile (fun c => c.index != n)).map (fun c => 4 * c.thresh * c.rowBytes)).sum

/-- Bytes of a row of cistern n. -/
def Module.cisternRow (m : Module) (n : Nat) : Nat :=
  match m.cisterns.find? (fun c => c.index == n) with
  | .none => 0
  | some c => c.rowBytes

/-- The bank and the byte offset in it of a byte of a launch's cisterns, packed into its banks (R362). -/
def State.cisternPlace (s : State) (k l off : Nat) : Nat × Nat := ((s.cisternBanksOf k l).getD (off / 131072) 30, off % 131072)

/-- The free slots of a cluster's tensor table, lowest first (R58). -/
def State.tensorSlots (s : State) (k : Nat) : List Nat :=
  (List.range 256).filter (fun i => (tabFind (s.cluster k).tensors i).isNone)

/-- A launch has a matrix program. -/
def Module.isMatrix (m : Module) : Bool := m.seqEntry != 4095

/-- Another matrix launch has a cluster (R297), or operations of one that has ended are incomplete there (R322). -/
def State.matrixBusy (s : State) (k : Nat) : Bool :=
  (s.clusterCrews k).any (fun c => (s.launch (s.crew c).launch).mod_.isMatrix) || (s.seqOf k).run
    || !(s.seqOf k).mmas.isEmpty || !(s.seqOf k).mldbs.isEmpty

/-- The launches with crews in a cluster. -/
def State.clusterLaunches (s : State) (k : Nat) : List Nat :=
  (s.clusterCrews k).foldl (fun l c => memberAdd l (s.crew c).launch) []

/-- Condition 2 of R357 for one cluster, with the 48 staging buffers of R360. -/
def State.clusterOk (s : State) (r : LaunchRec) (m : Module) (k : Nat) : Bool :=
  !(s.cluster k).lost && (s.bankRun k r.banks).isSome && decide (r.ntensor ≤ (s.tensorSlots k).length)
    && decide (m.cisternBanks ≤ (s.fifoBanks k).length) && !(m.isMatrix && s.matrixBusy k)
    && decide ((s.clusterLaunches k).length < 48)

/-- Grid-barrier descriptors that a module takes (R139). -/
def Module.grids (m : Module) : Nat := (m.barriers.filter BarrierDecl.isGrid).length

/-- Grid-barrier descriptors in use. -/
def State.gridsUsed (s : State) : Nat :=
  ((s.launches.filter (fun e => e.2.phase == .placed)).map (fun e => e.2.mod_.grids)).sum

/-- Condition 4 of R357 for one cluster. -/
def State.railOk (s : State) (r : LaunchRec) (k : Nat) : Bool :=
  r.rail == 0 || (r.rail == 1 && s.railOf k == 0) || (r.rail == 2 && s.railOf k == 1)
    || (s.clusterCrews k == [] && !(s.seqOf k).run)

/-- The demand on a vault of all the crews that a launch has on some cores (R358). -/
def LaunchRec.demandAt (r : LaunchRec) (cores : List Nat) (v : Nat) : Nat :=
  (cores.map (fun c => r.cpc * r.demand (clusterOf c) v)).sum

/-- Condition 5 of R357: R83 with the summed demands. -/
def State.vaultsOk (s : State) (r : LaunchRec) (cores : List Nat) : Bool :=
  (List.range 32).all (fun v =>
    let d := r.demandAt cores v
    d == 0 || ((s.vault v).cls != 3 && decide ((s.vault v).resv + d ≤ vaultCap (s.vault v).cls)))

/-- A record of priority p may pre-empt a core (R382). -/
def State.mayPreempt (s : State) (p c : Nat) : Bool :=
  let crews := s.coreCrews c
  crews != [] && !(s.core c).swap.held && crews.all (fun x => decide ((s.launch (s.crew x).launch).rec_.prio < p))

/-- Condition 1 for one core, also by pre-emption. -/
def State.coreOkPre (s : State) (r : LaunchRec) (m : Module) (c : Nat) : Bool :=
  s.coreOk r m c (s.roomCrews c) || (s.mayPreempt r.prio c && s.coreOk r m c [])

/-- A core is saved for another record (R382); those of its priority or below do not take it (log entry 81). -/
def State.savedForOther (s : State) (l c : Nat) : Bool :=
  s.launches.any (fun e => e.1 != l && e.2.saving.contains c && decide ((s.launch l).rec_.prio ≤ e.2.rec_.prio))

/-- A candidate meets the conditions of R357. -/
def State.originOk (s : State) (l : Nat) (pre : Bool) (o : Nat × Nat) : Bool :=
  let r := (s.launch l).rec_
  let m := (s.launch l).mod_
  let cores := rectCores o.1 o.2 r.ex r.ey
  let ks := rectClusters cores
  cores.all (fun c => !s.savedForOther l c && (if pre then s.coreOkPre r m c else s.coreOk r m c (s.roomCrews c)))
    && ks.all (fun k => s.clusterOk r m k && s.railOk r k) && decide (s.gridsUsed + m.grids ≤ 64) && s.vaultsOk r cores

/-- The first candidate that meets every condition. -/
def State.findOrigin (s : State) (l : Nat) (pre : Bool) : Option (Nat × Nat) :=
  (originsOf (s.launch l).rec_).find? (s.originOk l pre)

/-! ### Whose turn it is (R356, R399) -/

/-- One of two launches is tried before the other. -/
def State.triedBefore (s : State) (a b : Nat) : Bool :=
  let x := s.launch a
  let y := s.launch b
  if x.rec_.prio ≠ y.rec_.prio then decide (y.rec_.prio < x.rec_.prio)
  else if x.at_ ≠ y.at_ then decide (x.at_ < y.at_)
  else if x.queue ≠ y.queue then decide (x.queue < y.queue)
  else decide (a < b)

/-- The launches that wait for placement. -/
def State.readyLaunches (s : State) : List Nat :=
  (s.launches.filter (fun e => e.2.phase == .ready)).map (fun e => e.1)

/-- A set-aside record that has waited 1 ms (R356). -/
def State.starved (s : State) (l : Nat) : Bool :=
  match (s.launch l).asideAt with
  | none => false
  | some t => decide (t + 1000000 ≤ s.dt)

/-- Another record keeps this one from being placed: one that has waited 1 ms (R356). -/
def State.blocked (s : State) (l : Nat) : Bool :=
  s.readyLaunches.any (fun x => x != l && s.starved x && decide ((s.launch l).rec_.prio ≤ (s.launch x).rec_.prio)
    && !(s.starved l && s.triedBefore l x))

/-- Fast throttle keeps a record of low priority out (R399). -/
def State.throttledOut (s : State) (l : Nat) : Bool := s.power.throttled && decide ((s.launch l).rec_.prio < s.power.klevel)

/-- The record may be placed now: it has an origin, and nothing keeps it out. -/
def State.placeable (s : State) (l : Nat) : Option (Nat × Nat) :=
  if s.blocked l = true ∨ s.throttledOut l = true ∨ (s.freeSlot 3 s.placeOpen).isNone = true then none
  else s.findOrigin l false

/-! ### Acceptance (R33, R49, R52, R58, R139, R298, R358, R359) -/

/-- One past the highest key of a table, and at least 1. -/
def nextKey {α : Type} (t : Tab α) : Nat := t.foldl (fun n e => max n (e.1 + 1)) 1

/-- RESV of every vault changed by the demands of n crews of a launch on a core (R82, R83). -/
def State.reserve (s : State) (r : LaunchRec) (core n : Nat) (give : Bool) : State :=
  (List.range 32).foldl (fun t v =>
    let d := n * r.demand (clusterOf core) v
    if d = 0 then t
    else
      let x := t.vault v
      let y := { x with resv := if give then x.resv - d else x.resv + d }
      { t with mem := { t.mem with vaults := tabPut t.mem.vaults v y } }) s

/-- Initial data written at the places of the entries of a space (R33); the places are counted from a base. -/
def State.initSpace (s : State) (m : Module) (space base : Nat) : State :=
  (List.range m.binds.length).foldl (fun t i => match m.binds[i]? with
    | none => t
    | some b =>
      if b.space = space ∧ b.init ≠ [] then
        t.setStore (t.store.write (wholeCells (base + m.spaceBase i) b.init) none)
      else t) s

/-- The descriptors of a launch loaded into a cluster's table; no tile line, and no fill under way, stays tagged with a slot
(R58). -/
def State.loadTensors (s : State) (l k : Nat) : State :=
  let ds := (s.launch l).tensors
  let slots := (s.tensorSlots k).take ds.length
  let c := s.cluster k
  s.setCluster k { c with
    tensors := (slots.zip ds).foldl (fun t e => tabPut t e.1 e.2) c.tensors
    tiles := c.tiles.filter (fun t => !slots.contains t.slot), fills := c.fills.filter (fun t => !slots.contains t.slot) }

/-- The banks of a launch in a cluster: its pool run and those of its cisterns (R52, R362); the run zeroed, then its initial
data (R33). -/
def State.takeBanks (s : State) (l k : Nat) : State :=
  let v := s.launch l
  let pb := (s.bankRun k v.rec_.banks).getD 0
  let run := (List.range v.rec_.banks).map (fun i => pb + i)
  let fifo := (s.fifoBanks k).take v.mod_.cisternBanks
  let s1 := s.setCluster k { s.cluster k with bankOwner := (run ++ fifo).foldl (fun t b => tabPut t b l) (s.cluster k).bankOwner }
  let s2 := s1.setLaunch l { s1.launch l with poolBase := tabPut (s1.launch l).poolBase k pb }
  let s3 := s2.setStore (s2.store.zero (poolKey k (pb * 131072)) (v.rec_.banks * 131072))
  s3.initSpace v.mod_ 2 (poolKey k (pb * 131072))

/-- The preparation of a cluster's sequencer (R298). -/
def State.prepareSeq (s : State) (l k : Nat) : State :=
  let v := s.launch l
  if v.mod_.isMatrix = false then s
  else
    let s1 := s.setStore ((s.store.zero (opKey k 0) 1048576).zero (accKey k 0) 524288)
    let s2 := s1.initSpace v.mod_ 3 (opKey k 0)
    s2.setSeq k { s2.seqOf k with
      launch := some l, run := true, stop := false, idem := false, fault := false, seqFault := (s2.seqOf k).seqFault % 2 ^ 63, preamble := true, deadline := false, s := []
      k := s2.startK l k, cc := Cc.zero, lc := [], maxw := s2.dt, seg := v.mod_.seqEntry, word := 0, park := .run, resv := []
      lb := [], iv := [], cf := [], idemRec := none, mmas := [], stalled := none, mldbs := [], copying := false, relGate := none }

/-- The state of one cluster for a launch that is placed there. -/
def State.takeCluster (s : State) (l k : Nat) : State := ((s.loadTensors l k).takeBanks l k).prepareSeq l k

/-- A crew placed on a core, its start commanded (R158, R359). -/
def newCrew (l core index lx ly start size : Nat) : Crew :=
  { Crew.none with launch := l, core := core, index := index, lx := lx, ly := ly, spStart := start, spSize := size, commanded := true }

/-- The crews of a launch on one core. -/
def State.placeCore (s : State) (l core : Nat) : State :=
  let v := s.launch l
  let s1 := s.writeSplit core v.rec_.split
  let runs := (s1.spRuns v.rec_ core).getD []
  let id := nextKey s1.crews
  let s2 := (indexed runs 0).foldl (fun t e =>
    t.setCrew (id + e.1) (newCrew l core e.1 (core % 16 - v.ox) (core / 16 - v.oy) e.2 v.rec_.spSize)) s1
  s2.reserve v.rec_ core v.rec_.cpc false

/-- A grid barrier loaded for the crews of a launch (R139, R159). -/
def State.loadGrid (s : State) (l : Nat) (b : BarrierDecl) : State :=
  (s.crewsOf l).foldl (fun t c =>
    let key := gridKey b (t.crew c)
    let g := t.gridInst l key
    t.setLaunch l { t.launch l with
      grids := tabPut (t.launch l).grids key { g with pending := g.pending + 1, crews := memberAdd g.crews c } }) s

/-- The scheduler core clears the hold bits of the cores it takes; a test under way there is aborted (R20, R440, R441). -/
def State.clearHold (s : State) (c : Nat) : State :=
  if s.power.holds.contains c then
    { s with power := { s.power with
        holds := memberDel s.power.holds c
        scanAbort := s.power.scanAbort || (s.power.scanBusy && s.power.scanOn.1 == c) } }
  else s

/-- The origin accepted for a launch (R359), which runs the image of the translator of the time (R409). -/
def State.placeAt (s0 : State) (l : Nat) (o : Nat × Nat) : State :=
  let s := s0.renewImage l
  let r := (s.launch l).rec_
  let cores := rectCores o.1 o.2 r.ex r.ey
  let ks := rectClusters cores
  let slot := s.freeSlot 3 s.placeOpen
  let s1 := s.setLaunch l { s.launch l with
    phase := .placed, asideAt := none, ox := o.1, oy := o.2, saving := [], placeSlot := slot }
  let s2 := ((s1.journal 3 (slot.getD 0)).journal 7 0).journal 8 0
  let s3 := cores.foldl State.clearHold s2
  let s4 := if r.rail = 0 then s3 else ks.foldl (fun t k => t.railWant k (r.rail - 1)) s3
  let s5 := ks.foldl (fun t k => t.takeCluster l k) s4
  let s6 := if r.ownv then s5.fillTable l (clusterOf (cores.headD 0)) 0 (s5.launch l).mod_.binds else s5
  let s7 := cores.foldl (fun t c => t.placeCore l c) s6
  let s8 := ((s7.launch l).mod_.barriers.filter BarrierDecl.isGrid).foldl (fun t b => t.loadGrid l b) s7
  { s8 with dev := { s8.dev with placedOnce := true } }

/-- The record set aside (R356). -/
def State.setAside (s : State) (l : Nat) : State :=
  (s.setLaunch l { s.launch l with asideAt := some s.dt }).journal 2 0

/-- The launch's deadline has come: it is not placed any more (R365). -/
def State.pastDeadline (s : State) (l : Nat) : Bool :=
  (s.launch l).rec_.deadline != 0 && decide ((s.launch l).rec_.deadline ≤ s.dt)

/-- LAUNCH_PLACEMENT (R356, R357, R359, R365): the first record in order that has not been tried is placed or set aside. -/
def execLaunchPlacement (l : Nat) (s : State) : Answer :=
  let v := s.launch l
  if v.phase ≠ .ready ∨ v.asideAt.isSome = true ∨ s.pastDeadline l = true ∨ s.cpRuns = false ∨ s.jrnRoom 4 = false
      ∨ s.readyLaunches.any (fun x => (s.launch x).asideAt.isNone && s.triedBefore x l) = true then .next s
  else
    match s.placeable l with
    | some o => .next (s.placeAt l o).jrnAdvance
    | none => .next (s.setAside l).jrnAdvance

/-! ### Saves and restores (R315, R383 to R387) -/

/-- The matrix launch with a crew on a core (R383). -/
def State.matrixAt (s : State) (c : Nat) : Option Nat :=
  ((s.liveCrews c).map (fun x => (s.crew x).launch)).find? (fun l => (s.launch l).mod_.isMatrix)

/-- The running sequencer of a core's cluster is that of a matrix launch with a crew on the core (R383). -/
def State.matrixOn (s : State) (c : Nat) : Bool :=
  match (s.seqOf (clusterOf c)).launch with
  | none => false
  | some l => (s.seqOf (clusterOf c)).run && (s.liveCrews c).any (fun x => (s.crew x).launch == l)

/-- The sequencer stops under R315. -/
def State.stopSeq (s : State) (k : Nat) : State :=
  let s1 := if (s.seqOf k).idem then s.abandonRegion k else s
  s1.setSeq k { s1.seqOf k with stop := true }

/-- The waves of a core that are not in the shadow. -/
def State.coreWaves (s : State) (c : Nat) : List Nat :=
  (s.waves.map (fun e => e.1)).filter (fun w => s.waveCore w == c && !s.isSaved (crewOf w))

/-- A save of a core starts (R384, R385): its partitions halt, speculative waves roll back uncounted (R120), and the sequencer
of a matrix launch stops. -/
def State.startSave (s : State) (c : Nat) : State :=
  let sw := (s.core c).swap
  if sw.busy then s
  else if sw.held then s.setCore c { s.core c with swap := { sw with ask := false, status := 1 } }
  else
    let s1 := s.setCore c { s.core c with
      swap := { sw with
        busy := true, dir := false, ask := false, goAt := s.dt, halted := true, copying := false, going := s.liveCrews c } }
    let s2 := (s1.coreWaves c).foldl (fun t w => t.rollback w false) s1
    if s2.matrixOn c then s2.stopSeq (clusterOf c) else s2

/-- The rail that a saved crew of a core requires (R387). -/
def State.savedRail (s : State) (c : Nat) : Option Nat :=
  ((s.core c).swap.saved.filterMap (fun x => match (s.launch (s.crew x).launch).rec_.rail with
    | 1 => some 0
    | 2 => some 1
    | _ => none)).head?

/-- The SPLIT that the saved crews of a core run with (R45). -/
def State.savedSplit (s : State) (c : Nat) : Nat :=
  match (s.core c).swap.saved with
  | [] => (s.core c).split
  | x :: _ => (s.launch (s.crew x).launch).rec_.split

/-- A restore of a core starts, on the split and the rail of its crews (R45, R384, R385, R387). -/
def State.startRestore (s : State) (c : Nat) : State :=
  let sw := (s.core c).swap
  if sw.busy then s
  else if sw.held = false then s.setCore c { s.core c with swap := { sw with ask := true, status := 1 } }
  else
    let s1 := match s.savedRail c with
      | none => s
      | some t => s.railWant (clusterOf c) t
    let s2 := if s1.savedSplit c = (s1.core c).split then s1 else s1.writeSplit c (s1.savedSplit c)
    s2.setCore c { s2.core c with
      swap := { (s2.core c).swap with
        busy := true, dir := true, ask := true, copying := true, goAt := s.dt, copyAt := s2.cycles (clusterOf c), going := [] } }

/-- A restore that a scheduler core asks for (R384): while crews placed since the save run (R387) it starts nothing (log entry 83). -/
def State.askRestore (s : State) (c : Nat) : State :=
  let sw := (s.core c).swap
  if sw.busy = false ∧ sw.held = true ∧ s.liveCrews c ≠ [] then s.setCore c { s.core c with swap := { sw with ask := true } }
  else s.startRestore c

/-- The scheduler core restores a saved core that holds no other crew and that no record waits for, after journaling it (R387; the
KIND of the entry is the model's choice, log entry 81). -/
def State.restoreDecision (s : State) (c : Nat) : State :=
  if (s.core c).swap.held = true ∧ (s.core c).swap.busy = false ∧ s.liveCrews c = [] ∧ s.sched.failed = false
      ∧ s.launches.any (fun e => e.2.saving.contains c) = false ∧ s.jrnRoom 1 = true then
    ((s.journal 2 0).startRestore c).jrnAdvance
  else s

/-- The cores that a placement must save: those without room, and the other cores of a matrix launch on one of them in its
cluster (R382, R383). -/
def State.coresToSave (s : State) (l : Nat) (o : Nat × Nat) : List Nat :=
  let r := (s.launch l).rec_
  let need := (rectCores o.1 o.2 r.ex r.ey).filter (fun c => !s.coreOk r (s.launch l).mod_ c (s.roomCrews c))
  need.foldl (fun t c =>
    let others := match s.matrixAt c with
      | none => []
      | some m => ((List.range 4).map (coreAt (clusterOf c))).filter (fun x => (s.liveCrews x).any (fun y => (s.crew y).launch == m))
    (c :: others).foldl memberAdd t) []

/-- The record does not hold its saves any more: the saved cores are restored. -/
def State.endSaving (s : State) (l : Nat) : State :=
  let cores := (s.launch l).saving
  cores.foldl State.restoreDecision (s.setLaunch l { s.launch l with saving := [] })

/-- A record that waits for its saves: placed when each core is held, or given up when it no longer fits. -/
def State.afterSaves (s : State) (l : Nat) : State :=
  if (s.launch l).saving.all (fun c => (s.core c).swap.held && !(s.core c).swap.busy) = false then s
  else
    match s.placeable l with
    | some o => s.placeAt l o
    | none => s.endSaving l

/-- The decision of R382 for a set-aside record. -/
def State.preempt (s : State) (l : Nat) : State :=
  if s.blocked l = true ∨ s.throttledOut l = true ∨ s.jrnRoom 131 = false then s
  else
    match s.findOrigin l true with
    | none => s
    | some o =>
      let cores := s.coresToSave l o
      (cores.foldl (fun t c => (t.journal 2 0).startSave c) (s.setLaunch l { s.launch l with saving := cores })).jrnAdvance

/-- PLACEMENT_RETRY (R356, R365, R382): a set-aside record is tried again, after those of the same kind before it. -/
def execPlacementRetry (l : Nat) (s : State) : Answer :=
  let v := s.launch l
  if v.phase ≠ .ready ∨ v.asideAt.isNone = true ∨ s.pastDeadline l = true ∨ s.cpRuns = false ∨ s.jrnRoom 3 = false
      ∨ s.readyLaunches.any (fun x => s.triedBefore x l && ((s.launch x).asideAt.isNone || (s.placeable x).isSome)) = true then .next s
  else if v.saving ≠ [] then .next (s.afterSaves l).jrnAdvance
  else
    match s.placeable l with
    | some o => .next (s.placeAt l o).jrnAdvance
    | none => .next (s.preempt l)

end Sys2Proof.Machine
end

