-- ==== Sys2Proof/Machine/Launching.lean ====
section
/-! DEFINITION. The command processor: host queues and doorbells (R349 to R351), the taking of records (R352, R353, R355), crew
starts and ends (R162, R180, R359, R387), completions (R354, R365, R437), the spillway (R361, R363), the deadline (R364), and
take-over (R371, R435 to R437). -/

namespace Sys2Proof.Machine

open Sys2Proof

/-! ### Host queues (R349, R350) -/

/-- The state with a host queue changed. -/
def State.setHostQ (s : State) (q : Nat) (h : HostQ) : State := { s with sched := { s.sched with queues := tabPut s.sched.queues q h } }

/-- Records that a ring holds. -/
def HostQ.size (h : HostQ) : Nat := 2 ^ h.log2n

/-- The queue is enabled. -/
def HostQ.enabled (h : HostQ) : Bool := h.log2n != 0

/-- The queue is empty: HEAD equals TAIL modulo the ring's size. -/
def HostQ.isEmpty (h : HostQ) : Bool := h.head % h.size == h.tail % h.size

/-- The completion ring is full, or the queue disabled. -/
def HostQ.ringFull (h : HostQ) : Bool := !h.enabled || (h.crTail + 1) % h.size == h.crHead % h.size

/-- Bit q of KICK_PEND set. -/
def State.setKick (s : State) (q : Nat) : State := { s with sched := { s.sched with kick := s.sched.kick ||| 2 ^ q } }

/-- Bit q of KICK_PEND set when the queue is enabled and not empty. -/
def State.kickIfAny (s : State) (q : Nat) : State :=
  if (s.hostQ q).enabled = true ∧ (s.hostQ q).isEmpty = false then s.setKick q else s

/-- Records from HEAD up to an index of the ring. -/
def HostQ.ahead (h : HostQ) (i : Nat) : Nat := (i % h.size + h.size - h.head % h.size) % h.size

/-- The doorbells of a queue after a write of TAIL (R356): each keeps the DT at which its records were made visible, those behind the
new TAIL go, and records that the write makes visible take the DT of now. -/
def HostQ.rung (h : HostQ) (v dt : Nat) : List (Nat × Nat) :=
  let n := h.ahead v
  let kept := h.bells.filter (fun b => decide (h.ahead b.1 ≤ n) && h.ahead b.1 != 0)
  if n = 0 ∨ kept.any (fun b => h.ahead b.1 == n) = true then kept
  else
    match h.bells.find? (fun b => decide (n < h.ahead b.1)) with
    | none => kept ++ [(v, dt)]
    | some b => kept ++ [(v, b.2)]

/-- A write of CQ_TAIL. -/
def State.ringDoorbell (s : State) (q v : Nat) : State :=
  let h := s.hostQ q
  (s.setHostQ q { h with tail := v % 65536, bells := h.rung (v % 65536) s.dt }).kickIfAny q

/-- The endpoint performs the host's next write: DT is later than the GWCT of the one before (R122). -/
def State.hostSettled (s : State) : Bool := tabGet s.dev.fences 0 3 == 0 || decide (tabGet s.dev.fences 0 3 < s.dt)

/-- A doorbell of the host: every host write before it happens before the launches that it makes pending (R122). -/
def State.hostDoorbell (s : State) (q v : Nat) : State := if s.hostSettled then s.ringDoorbell q v else s

/-- A write of CQ_BASE; one that enables the queue makes its records visible, as a doorbell does (R349, R356). -/
def State.writeCqBase (s : State) (q v : Nat) : State :=
  let h := s.hostQ q
  let h1 := { h with base := v % 2 ^ 64 / 128 * 128, log2n := v % 32 }
  if h.enabled then s.setHostQ q h1
  else (s.setHostQ q { h1 with bells := { h1 with bells := [] }.rung h1.tail s.dt }).kickIfAny q

/-- DOORBELL (R350): a write of CQ_TAIL, in the order of R122. -/
def execDoorbell (q v : Nat) (s : State) : Answer := .next (if q < 16 then s.hostDoorbell q v else s)

/-- CQ_BASE_WRITE (R349). -/
def execCqBaseWrite (q v : Nat) (s : State) : Answer := .next (if q < 16 then s.writeCqBase q v else s)

/-- CR_HEAD_WRITE (R354). -/
def execCrHeadWrite (q v : Nat) (s : State) : Answer :=
  .next (if q < 16 then s.setHostQ q { s.hostQ q with crHead := v % 65536 } else s)

/-! ### Completions fall due (R354, R365) -/

/-- The number of the next completion that falls due. -/
def State.nextDue (s : State) : Nat := s.launches.foldl (fun n e => max n (e.2.dueSeq + 1)) 1

/-- The completion of a launch falls due. -/
def State.nowDue (s : State) (l : Nat) : State := s.setLaunch l { s.launch l with phase := .due, dueSeq := s.nextDue, saving := [] }

/-- A launch that is never placed ends with a status. -/
def State.fallDue (s : State) (l status : Nat) : State := (s.noteEnd l status 0).nowDue l

/-- The host queue into whose ring a launch completes (R351). -/
def Launch.ring_ (v : Launch) : Nat := if v.queue < 16 then v.queue else v.rec_.tag % 16

/-- STATUS and INFO of a completion record (R354). -/
def Launch.status (v : Launch) : Nat × Nat :=
  match v.endStatus with
  | Option.none => (if v.deadlineFell then 1 else 0, 0)
  | some x => x

/-- BEST (R354): the cell read at its home through the capability in the launch's table; a free value where it cannot be read. -/
def State.bestCell (s : State) (l : Nat) : State × Nat :=
  let v := s.launch l
  if v.rec_.bestSlot = 0xFFFFFFFF ∨ v.poolBase = [] then (s, 0)
  else
    let c := s.tableCap l v.rec_.bestSlot
    if capCheck c [0, 4, 5] permLD ≠ none ∨ c.top < c.base + v.rec_.bestOff + 8 then (s, Config.bestWord l)
    else
      match s.ctlRead v.rec_.ctx (c.base + v.rec_.bestOff) 8 with
      | none => (s, Config.bestWord l)
      | some (s1, bs) => (s1, natOfBytes bs)

/-! ### Stage slots (R436, R437) -/

/-- The place of a stage slot. -/
def stageAt (i : Nat) : Nat := devBase + 0x110000 + 64 * (i % 32)

/-- The physical address of SIGEV, translated when the record is staged; 0 where there is none. -/
def State.signalAddr (s : State) (l : Nat) : State × Nat :=
  let v := s.launch l
  if v.rec_.sigEv = 0 then (s, 0)
  else
    match s.ctlTranslate v.rec_.ctx v.rec_.sigEv .store with
    | none => (s, 0)
    | some (s1, pa) => (s1, pa)

/-- A completion record staged with WFLAG 0, then journaled as DUE. -/
def State.stage (s : State) (l : Nat) : State :=
  match (s.launch l).stageSlot, s.freeSlot 5 s.stageOpen with
  | none, some i =>
    let b := s.bestCell l
    let g := b.1.signalAddr l
    let v := g.1.launch l
    let bs := bytesOf v.rec_.tag 8 ++ bytesOf v.status.1 2 ++ bytesOf 0 2 ++ bytesOf l 4 ++ bytesOf b.2 8 ++ bytesOf v.status.2 8
      ++ bytesOf v.ring_ 1 ++ bytesOf 0 7 ++ bytesOf g.2 8
    let s1 := g.1.setStore (g.1.store.write (wholeCells (stageAt i) bs) none)
    (s1.setLaunch l { v with stageSlot := some i }).journal 5 i
  | _, _ => s

/-- The launches whose completions are due and not staged, in the order in which they fell due. -/
def State.unstaged (s : State) : List Nat :=
  (List.range s.nextDue).flatMap (fun n =>
    (s.launches.filter (fun e => e.2.phase == .due && e.2.dueSeq == n && e.2.stageSlot.isNone)).map (fun e => e.1))

/-- Every completion due is staged in that order while there is room, so that the DUE entries stand in it (R371, R438). -/
def State.stageDue (s : State) : State := s.unstaged.foldl (fun t l => if t.jrnRoom 1 then t.stage l else t) s

/-- WRITE of R437 on a stage slot: the state and the STATUS. -/
def State.assistWrite (s : State) (slot : Nat) : State × Nat :=
  let a := stageAt slot
  let q := (s.store.byte (a + 32)).toNat % 16
  let h := s.hostQ q
  let ev := s.store.readNat (a + 40) 8 % 2 ^ 48
  if (s.store.byte (a + 33)).toNat % 2 = 1 then (s, 0)
  else if h.ringFull then (s, 1)
  else
    let s1 := s.ctlWrite s.sched.primary (h.crBase + 32 * (h.crTail % h.size)) (s.store.readBytes a 32)
    let s2 := s1.setHostQ q { h with crTail := (h.crTail + 1) % h.size }
    let s3 := if ev = 0 then s2 else s2.ctlWrite s.sched.primary ev (bytesOf (s2.store.readNat ev 8 + 1) 8)
    let s4 := s3.fireMsix q
    let l := s.store.readNat (a + 12) 4
    let s5 := s4.setStore (s4.store.write [(a + 33, 255, 1)] none)
    (if (s5.launch l).phase = .due ∧ (s5.launch l).stageSlot = some (slot % 32) then
      s5.setLaunch l { s5.launch l with phase := .done } else s5, 0)

/-- WRITTEN journaled for a slot whose record has been written; the slot is free again. -/
def State.closeStage (s : State) (slot : Nat) : State :=
  (s.launches.map (fun e => e.1)).foldl (fun t l =>
    if (t.launch l).stageSlot = some slot ∧ (t.launch l).phase = .done then
      ((t.journal 6 slot).setLaunch l { t.launch l with stageSlot := none }).jrnAdvance
    else t) s

/-- A completion may be written: no earlier one of its ring, nor one that waits from a take-over, is still due (R354, R371). -/
def State.firstDue (s : State) (l : Nat) : Bool :=
  (s.launch l).phase == .due && s.launches.all (fun e => e.2.phase != .due || decide ((s.launch l).dueSeq ≤ e.2.dueSeq)
    || (e.2.ring_ != (s.launch l).ring_ && decide (s.sched.replayDue ≤ e.2.dueSeq)))

/-- The completion of a ring that may be written. -/
def State.dueOf (s : State) (q : Nat) : Option Nat :=
  (s.launches.map (fun e => e.1)).find? (fun l => (s.launch l).ring_ == q && s.firstDue l)

/-- No scheduler core acts: the primary has failed, the standby replays (R371), or the primary waits at a FENCE (R121). -/
def State.cpHeld (s : State) : Bool := s.sched.failed || s.sched.replay || s.fenced s.sched.primary

/-- OP and SLOT of SCHED_ASSIST as written (R7). -/
def State.assistFields (s : State) (op slot : Nat) : State := { s with sched := { s.sched with assistOp := op, assistSlot := slot } }

/-- An operation of SCHED_ASSIST that has acted and ended, with its STATUS. -/
def State.assistEnded (s : State) (op slot status : Nat) : State :=
  { s with sched := { s.sched with assistOp := op, assistSlot := slot, assistStatus := status } }

/-- COMPLETION_RECORD_WRITE (R354): the oldest due completion of a ring is staged, written when the ring has room, and
journaled as WRITTEN. -/
def execCompletionRecordWrite (q : Nat) (s : State) : Answer :=
  match s.dueOf q with
  | none => .next s
  | some l =>
    if s.cpHeld = true ∨ s.sched.assistBusy = true then .next s
    else
      let s1 := s.stageDue
      match (s1.launch l).stageSlot with
      | none => .next s
      | some i =>
        let r := s1.assistWrite i
        .next ((r.1.assistEnded 0 i r.2).closeStage i)

/-! ### SCHED_ASSIST (R437) -/

/-- An operation of SCHED_ASSIST that has acted and holds BUSY. -/
def State.assistStarted (s : State) (op slot status : Nat) : State :=
  { s with sched := { s.sched with
      assistBusy := true, assistOp := op, assistSlot := slot, assistStatus := status, assistGo := (op, slot) } }

/-- The launch that a stage slot belongs to may be written now, or no launch has the slot. -/
def State.slotMayWrite (s : State) (slot : Nat) : Bool :=
  s.launches.all (fun e => e.2.stageSlot != some slot || e.2.phase != .due || s.firstDue e.1)

/-- SCHED_ASSIST_WRITE (R437); none is asked for while a take-over replays (R371). -/
def execSchedAssistWrite (slot : Nat) (s : State) : Answer :=
  if s.sched.assistBusy = true ∨ s.cpHeld = true ∨ s.slotMayWrite (slot % 32) = false then .next s
  else
    let r := s.assistWrite (slot % 32)
    .next (r.1.assistStarted 0 (slot % 32) r.2)

/-- Every crew of a placement slot whose start had not been commanded. -/
def State.commandCrews (s : State) (slot : Nat) : State :=
  { s with crews := s.crews.map (fun e =>
      if (s.launch e.2.launch).placeSlot = some slot then (e.1, { e.2 with commanded := true }) else e) }

/-- SCHED_ASSIST_FINISH (R371, R437). -/
def execSchedAssistFinish (slot : Nat) (s : State) : Answer :=
  if s.sched.assistBusy = true then .next s
  else .next ((s.commandCrews (slot % 32)).assistStarted 1 (slot % 32) 0)

/-- SCHED_ASSIST_COMPLETE (R437): BUSY falls; a record that was written is journaled as WRITTEN. -/
def execSchedAssistComplete (s : State) : Answer :=
  if s.sched.assistBusy = false then .next s
  else
    let s1 := { s with sched := { s.sched with assistBusy := false } }
    .next (if s.sched.assistGo.1 = 0 then s1.closeStage s.sched.assistGo.2 else s1)

/-! ### Records taken (R351 to R353, R355) -/

/-- A record admitted as a launch: it ends at once with a status, waits for its event, or waits for placement. -/
def State.enterRecord (s : State) (l : Nat) (bs : List Byte) (readable : Bool) : State :=
  let r := parseRecord bs
  let s0 := s.setLaunch l { s.launch l with rec_ := r }
  if readable = false ∨ recordBad bs = true then s0.fallDue l 6
  else
    let s1 := s0.touchModule r
    match s1.verifyModule r with
    | .error st => s1.fallDue l st
    | .ok m =>
      match s1.readTensors l r with
      | none => s1.fallDue l 2
      | some (u, ts) =>
        let s2 := u.keepImage r.mod_ (s1.moduleTotal r.mod_) m
        match (s2.setLaunch l { s2.launch l with mod_ := m, tensors := ts }).loadLaunch l with
        | none => s2.fallDue l 2
        | some s3 => s3.setLaunch l { s3.launch l with phase := if r.waitEv = 0 then .ready else .waiting }

/-- A launch made for a record of a queue. -/
def State.newLaunch (s : State) (q at_ : Nat) : State × Nat :=
  let l := nextKey s.launches
  (s.setLaunch l { Launch.none with queue := q, at_ := at_, phase := .waiting }, l)

/-- HEAD advanced past one record; KICK_PEND clears when every record up to TAIL has been taken (R350). -/
def State.advanceHead (s : State) (q : Nat) : State :=
  let h := s.hostQ q
  let head := (h.head + 1) % h.size
  let bells := match h.bells with
    | [] => []
    | b :: rest => if b.1 % h.size = head then rest else b :: rest
  let h1 := { h with head := head, bells := bells }
  let s1 := s.setHostQ q h1
  if h1.isEmpty then { s1 with sched := { s1.sched with kick := s1.sched.kick &&& (2 ^ 17 - 1 - 2 ^ q) } } else s1

/-- A record of a host queue. -/
def State.takeHost (s : State) (q : Nat) : State :=
  let h := s.hostQ q
  let a := h.base + 128 * (h.head % h.size)
  let at_ := match h.bells with
    | [] => s.dt
    | b :: _ => b.2
  let r := ((s.advanceHead q).journal 1 0).newLaunch q at_
  (r.1.ctlTouch a 128).enterRecord r.2 (s.store.readBytes a 128) (s.ctlReadable a 128)

/-- The management core verifies and translates modules: it runs its firmware, no FENCE of its own holds it, and no translator is being
replaced (R20, R409, R412). -/
def State.translates (s : State) : Bool := s.dev.fwOk && !s.fenced 2 && !(s.dev.mboxBusy && !s.dev.mboxDone && s.dev.mboxGo.1 == 1)

/-- LAUNCH_RECORD_TAKE (R353): the next record of host queue q, or of the device launch queue as queue 16. -/
def execLaunchRecordTake (q : Nat) (s : State) : Answer :=
  if s.cpRuns = false ∨ s.jrnRoom 1 = false ∨ s.translates = false then .next s
  else if q < 16 then
    if (s.hostQ q).enabled = true ∧ (s.hostQ q).isEmpty = false then .next (s.takeHost q).jrnAdvance else .next s
  else
    match s.sched.devQ with
    | [] => .next s
    | d :: rest =>
      if q = 16 ∧ s.forkReady d.fork = true then
        let s1 := { s with sched := { s.sched with devQ := rest } }
        let r := (s1.journal 1 0).newLaunch 16 d.at_
        .next (r.1.enterRecord r.2 d.bytes true).jrnAdvance
      else .next s

/-- WAIT_EVENT_POLL (R355): an acquire at SYSTEM scope; a read that faults is RECORD_ERROR. -/
def execWaitEventPoll (l : Nat) (s : State) : Answer :=
  let v := s.launch l
  if v.phase ≠ .waiting ∨ s.cpRuns = false then .next s
  else
    match s.ctlRead v.rec_.ctx v.rec_.waitEv 8 with
    | none => .next (s.fallDue l 6)
    | some (s1, bs) =>
      .next (if v.rec_.waitVal ≤ natOfBytes bs then s1.setLaunch l { s1.launch l with phase := .ready } else s1)

/-! ### Crew start (R34, R49, R162, R200, R359) -/

/-- Every crew of a placement has started: STARTED is journaled and the slot is free again (R436). -/
def State.closePlace (s : State) (l : Nat) : State :=
  match (s.launch l).placeSlot with
  | none => s
  | some i =>
    if s.cpHeld = true ∨ (s.crewsOf l).any (fun c => !(s.crew c).started && !(s.crew c).killed) = true then s
    else ((s.journal 4 i).setLaunch l { s.launch l with placeSlot := none }).jrnAdvance

/-- The units of a partition's slice file that no group of a running crew owns, lowest first (R200). -/
def State.looseUnits (s : State) (core q : Nat) : List Nat :=
  let used := (s.groups.filter (fun e => (s.crew (e.1 / 8)).core == core && s.partitionOf e.1 == q && !e.2.retired
    && !s.isSaved (e.1 / 8))).flatMap (fun e => e.2.poolUnits)
  (List.range 128).filter (fun u => !used.contains u)

/-- The units of home wave h at its initial quota: those after the units of the home waves before it (R200). -/
def startUnits (m : Module) (pool : List Nat) (h : Nat) : List Nat := (pool.drop ((m.quota.take h).sum)).take (m.quota.getD h 0)

/-- A group at crew start: every thread of its home waves live at the entry segment (R162, R200); pool is its units. -/
def startGroup (r : LaunchRec) (m : Module) (k : Tab Capv) (pool : List Nat) : Group :=
  { Group.idle with
    threads := (List.range (32 * r.wpg)).map (fun t =>
      (t, { Thread.idle with meetSeg := m.entry, place := .formed (t / 32) }))
    k := k
    vw := (indexed (m.views.take 4) 0).map (fun e => (e.1, BitVec.ofNat 64 e.2))
    quota := (List.range r.wpg).map (fun h => (h, m.quota.getD h 0)), pool := m.poolP, poolUnits := pool
    units := (List.range r.wpg).map (fun h => (h, startUnits m pool h)), retired := false }

/-- Each home wave of a group formed of exactly its own threads (R162). -/
def State.startWaves (s : State) (g wpg entry : Nat) : State :=
  (List.range wpg).foldl (fun t h => t.formWave g h entry ((List.range 32).map (fun i => 32 * h + i))) s

/-- The crew's allocation zeroed, then the initial data of CORESP entries (R33, R49). -/
def State.zeroCrew (s : State) (crew : Nat) : State :=
  let c := s.crew crew
  let a := spKey c.core c.spStart
  (s.setStore (s.store.zero a c.spSize)).initSpace (s.launch c.launch).mod_ 1 a

/-- A crew starts. -/
def State.startCrew (s : State) (crew : Nat) : State :=
  let c := s.crew crew
  let v := s.launch c.launch
  let k := s.startK c.launch (clusterOf c.core)
  let s1 := (s.zeroCrew crew).setCrew crew { c with started := true, deadlined := v.deadlineFell }
  let s2 := (List.range v.rec_.gpc).foldl (fun t i =>
    (t.setGroup (8 * crew + i) (startGroup v.rec_ v.mod_ k
      ((t.looseUnits c.core (t.partitionOf (8 * crew + i))).take v.mod_.poolP))).startWaves (8 * crew + i) v.rec_.wpg v.mod_.entry) s1
  s2.closePlace c.launch

/-- A crew may start: its start was commanded, its core is ready, and the sequencer's preamble has ended (R298, R359, R440). -/
def State.crewReady (s : State) (crew : Nat) : Bool :=
  let c := s.crew crew
  let k := clusterOf c.core
  c.commanded && !c.started && !c.ended && !c.killed && (s.launch c.launch).phase == .placed && !s.isSaved crew
    && !(s.core c.core).swap.busy && s.clusterRuns k && !(s.power.scanBusy && s.power.scanOn.1 == c.core)
    && !((s.seqOf k).launch == some c.launch && (s.seqOf k).run && (s.seqOf k).preamble)

/-- CREW_START (R162). -/
def execCrewStart (crew : Nat) (s : State) : Answer := .next (if s.crewReady crew then s.startCrew crew else s)

/-! ### Crew end (R58, R157, R180, R361, R387) -/

/-- A launch has a record in a headrace, in staging or in the spillway, or a release that waits. -/
def State.hasRecords (s : State) (l : Nat) : Bool :=
  s.cores.any (fun e => e.2.headrace.any (fun r => r.launch == l))
    || s.clusters.any (fun e => (tabGet e.2.staging [] l).any Spilled.isTask) || (s.launch l).ring.any Spilled.isTask
    || s.groups.any (fun e => (s.crew (e.1 / 8)).launch == l && !e.2.waitingRel.isEmpty)
    || s.waves.any (fun e => s.waveLaunch e.1 == l && !e.2.succRel.isEmpty)

/-- A task-mode launch is drained (R361). -/
def State.drained (s : State) (l : Nat) : Bool :=
  (s.launch l).rec_.task && (s.crewsOf l).all (fun c => (s.crew c).started || (s.crew c).killed)
    && s.groups.all (fun e => (s.crew (e.1 / 8)).launch != l || !s.groupLive e.1) && !s.hasRecords l

/-- No chain and no engine request of a crew is left (R157). -/
def State.enginesDone (s : State) (crew : Nat) : Bool :=
  let k := s.cluster (clusterOf (s.crew crew).core)
  s.chainsSettled crew (2 ^ 64) && (k.roe ++ k.cbe).all (fun r => r.crew != crew)

/-- A crew may end. -/
def State.crewOver (s : State) (crew : Nat) : Bool :=
  let c := s.crew crew
  (tabFind s.crews crew).isSome && !c.ended && s.enginesDone crew
    && (c.killed || (c.started && ((s.groupsOf crew).all (fun g => (s.group g).retired) || s.drained c.launch)))

/-- The tensor slots of a launch in a cluster are free again (R58). -/
def State.freeTensors (s : State) (l k : Nat) : State :=
  s.setCluster k { s.cluster k with tensors := (s.cluster k).tensors.filter (fun e => e.2.launch != l) }

/-- The banks of a launch in a cluster are free again (R52, R362). -/
def State.freeBanks (s : State) (l k : Nat) : State :=
  s.setCluster k { s.cluster k with bankOwner := (s.cluster k).bankOwner.filter (fun e => e.2 != l) }

/-- The tensor slots of a launch in a cluster return when its last crew there has exited (R58), its banks when its sequencer has
ended too (R52). -/
def State.leaveCluster (s : State) (l k : Nat) : State :=
  if (s.clusterCrews k).any (fun c => (s.crew c).launch == l) = true then s
  else if (s.seqOf k).launch = some l ∧ (s.seqOf k).run = true then s.freeTensors l k
  else (s.freeTensors l k).freeBanks l k

/-- The shadow of a core without one crew: HELD clears when none is left (R387). -/
def State.unsave (s : State) (core crew : Nat) : State :=
  let sw := (s.core core).swap
  if sw.saved.contains crew then
    let rest := memberDel sw.saved crew
    s.setCore core { s.core core with
      swap := { sw with saved := rest, held := sw.held && rest != [], lost := if rest = [] then [] else sw.lost } }
  else s

/-- A crew ends: its groups, waves and allocation return, its demands leave RESV, and it leaves its grid instances; the changes are
journaled (R370). -/
def State.endCrew (s : State) (crew : Nat) : State :=
  let c := s.crew crew
  let v := s.launch c.launch
  let s1 := s.gridLeave crew
  let s2 := (s1.wavesOf crew).foldl State.dropWave s1
  let s3 := { s2 with groups := s2.groups.filter (fun e => e.1 / 8 != crew) }
  let s4 := s3.setCrew crew { s3.crew crew with ended := true }
  let s5 := (((s4.reserve v.rec_ c.core 1 true).journal 7 0).journalGrid).unsave c.core crew
  ((s5.leaveCluster c.launch (clusterOf c.core)).closePlace c.launch).jrnAdvance.restoreDecision c.core

/-- CREW_END (R180); it waits for room in the journal (R436). -/
def execCrewEnd (crew : Nat) (s : State) : Answer := .next (if s.crewOver crew = true ∧ s.jrnRoom 3 = true then s.endCrew crew else s)

/-! ### Completion (R122, R301, R354, R365, R381) -/

/-- A sequencer of the launch still runs, or an operation that it issued has not ended (R301). -/
def State.seqsOver (s : State) (l : Nat) : Bool :=
  s.clusters.all (fun e => e.2.seq.launch != some l
    || (!e.2.seq.run && e.2.seq.drained && decide (e.2.seq.maxw < s.dt)))

/-- The writes that a launch's waves left in flight have been performed and acknowledged, and DT is later than their GWCTs. -/
def State.accountsOver (s : State) (l : Nat) : Bool :=
  s.mem.accounts.all (fun e => e.2.launch != l || (e.2.out.isEmpty && e.2.peerOut.isEmpty && decide (e.2.maxw < s.dt)))

/-- A placed launch is over. -/
def State.launchOver (s : State) (l : Nat) : Bool :=
  (s.launch l).phase == .placed && (s.crewsOf l).isEmpty && s.seqsOver l && s.accountsOver l
    && s.clusters.all (fun e => (e.2.roe ++ e.2.cbe).all (fun r => r.launch != l)) && decide ((s.launch l).maxw < s.dt)

/-- What a launch leaves behind is gone: banks, staging, pool caches, accounts. -/
def State.clearLaunch (s : State) (l : Nat) : State :=
  let s1 := (s.clusters.map (fun e => e.1)).foldl (fun t k =>
    let u := (t.freeTensors l k).freeBanks l k
    let c := u.cluster k
    u.setCluster k { c with
      staging := tabDel c.staging l, caches := c.caches.filter (fun e => e.1 / 16 != l)
      seq := if c.seq.launch = some l then { c.seq with launch := none } else c.seq }) s
  let s2 := { s1 with mem := { s1.mem with accounts := s1.mem.accounts.filter (fun e => e.2.launch != l) } }
  s2.setLaunch l { s2.launch l with ring := [] }

/-- LAUNCH_COMPLETION (R365): the completion falls due; a scheduler core that acts stages it at once. A launch whose deadline has
come waits for what R364 does then. The grid descriptors that it gives back are journaled (R370), and an old image that no launch uses
any more is dropped (R409). -/
def execLaunchCompletion (l : Nat) (s : State) : Answer :=
  if s.launchOver l = false ∨ (s.pastDeadline l = true ∧ (s.launch l).deadlineFell = false)
      ∨ ((s.launch l).mod_.grids ≠ 0 ∧ s.jrnRoom 1 = false) then .next s
  else
    let s0 := (s.closePlace l).clearLaunch l
    let s1 := ((if (s.launch l).mod_.grids = 0 then s0 else (s0.journal 8 0).jrnAdvance).nowDue l).dropImages
    .next (if s1.cpHeld then s1 else s1.stageDue.jrnAdvance)

/-! ### The spillway (R361, R363) -/

/-- Entries of a launch's ring. -/
def Launch.ringSize (v : Launch) : Nat := v.rec_.spillPages * 1024

/-- The virtual address of the entry that the ring writes next. -/
def Launch.ringVa (v : Launch) (i : Nat) : Nat := v.rec_.spillBase + i % v.ringSize * 64

/-- The bytes of an entry: a task record; a head has no layout. -/
def Spilled.bytes (x : Spilled) : List Byte :=
  match x with
  | .task _ r => r.words.flatMap (fun w => bytesOf w 8)
  | .head _ _ _ => []

/-- A ring page mapped to a frame, with lease class 0. -/
def State.mapSpill (s : State) (l va frame : Nat) : Option State :=
  s.mapPage s.sched.primary (s.launch l).rec_.ctx (va / 65536 * 65536) (leafWord frame 0 0 false true true)

/-- A frame of the spill reserve for a ring page. -/
def State.reserveFrame (s : State) (l va : Nat) : Option State :=
  if s.dev.reserve = 0 then none
  else
    match s.alloc 0 65536 65536 with
    | none => none
    | some (s1, f) =>
      match ({ s1 with dev := { s1.dev with reserve := s1.dev.reserve - 1 } }).mapSpill l va f with
      | none => none
      | some s2 => some ((s2.setLaunch l { s2.launch l with ringMapped := (s2.launch l).ringMapped + 1 }).journal 9 0)

/-- The frame of a ring page whose entries have all been consumed, moved to another page of the ring. -/
def State.reuseFrame (s : State) (l va : Nat) : Option State :=
  let v := s.launch l
  let gone := (List.range (min (v.ringHead / 1024) v.rec_.spillPages)).map (fun i => (v.ringHead / 1024 - 1 - i) % v.rec_.spillPages)
  let used := (List.range (v.ring.length / 1024 + 2)).map (fun i => (v.ringHead / 1024 + i) % v.rec_.spillPages)
  match (gone.filter (fun p => !used.contains p)).findSome? (fun p =>
    (s.walkOf v.rec_.ctx (v.rec_.spillBase + 65536 * p)).2.toOption) with
  | some (a, leaf, false) =>
    ((s.ctlWrite s.sched.primary a (bytesOf 0 8)).mapSpill l va (bits leaf 47 16 * 65536)).map (fun t => t.journal 9 0)
  | _ => none

/-- The next ring page is mapped by the primary scheduler core (R363). -/
def State.ringPage (s : State) (l va : Nat) : Option (State × Nat) :=
  let ctx := (s.launch l).rec_.ctx
  match s.ctlTranslate ctx va .store with
  | some x => some x
  | none =>
    if s.cpRuns = false ∨ s.jrnRoom 1 = false then none
    else
      match s.reserveFrame l va with
      | some s1 => s1.ctlTranslate ctx va .store
      | none =>
        match s.reuseFrame l va with
        | some s1 => s1.ctlTranslate ctx va .store
        | none => none

/-- SPILL_STAGING_DRAIN (R363): the oldest entry of a launch's staging buffer in a cluster moves into the ring. -/
def execSpillStagingDrain (k l : Nat) (s : State) : Answer :=
  match s.stagingOf k l with
  | [] => .next s
  | x :: rest =>
    let v := s.launch l
    if s.ringFull l then .next s
    else
      match s.ringPage l (v.ringVa (v.ringHead + v.ring.length)) with
      | none => .next s
      | some (s1, pa) =>
        let s2 := (s1.ctlWrite s.sched.primary pa x.bytes).setStaging k l rest
        .next (s2.setLaunch l { s2.launch l with ring := (s2.launch l).ring ++ [x] }).jrnAdvance

/-- The cores of a launch in a cluster with room in their headrace, ascending. -/
def State.refillCores (s : State) (l k : Nat) : List Nat :=
  ((s.crewsOf l).filter (fun c => clusterOf (s.crew c).core == k && s.headraceRoom (s.crew c).core)).foldl
    (fun t c => memberAdd t (s.crew c).core) []

/-- The one that holds the fewest queued records of the launch, ties to the lowest. -/
def State.refillCore (s : State) (l k : Nat) : Option Nat :=
  let count := fun (c : Nat) => ((s.core c).headrace.filter (fun r => r.launch == l)).length
  match s.refillCores l k with
  | [] => none
  | c :: rest => some (rest.foldl (fun b x => if count x < count b then x else b) c)

/-- A spilled task record that a headrace of its cluster takes: the record and the core. -/
def State.refillOne (s : State) (l : Nat) (x : Spilled) : Option (TaskRec × Nat) :=
  match x with
  | .task c r =>
    match s.refillCore l (clusterOf c) with
    | none => none
    | some core => some (r, core)
  | .head _ _ _ => none

/-- A cluster whose staging buffer of a launch gives a record back: no record of the cluster lies in the ring. -/
def State.refillStaged (s : State) (l k : Nat) : Option (TaskRec × Nat) :=
  if (s.launch l).ring.any (fun x => match x with
    | .task c _ => clusterOf c == k
    | .head _ _ _ => false) then none
  else (s.stagingOf k l).findSome? (s.refillOne l)

/-- SPILL_REFILL (R361): the oldest spilled record of a launch moves back into a headrace of its cluster. -/
def execSpillRefill (l : Nat) (s : State) : Answer :=
  match (s.launch l).ring.findSome? (s.refillOne l) with
  | some (r, core) =>
    let v := s.launch l
    let s1 := s.setLaunch l { v with
      ring := firstDrop v.ring (fun x => (s.refillOne l x).isSome), ringHead := v.ringHead + 1 }
    .next (s1.pushHeadrace core r)
  | none =>
    match (s.clusters.map (fun e => e.1)).find? (fun k => (s.refillStaged l k).isSome) with
    | none => .next s
    | some k =>
      match s.refillStaged l k with
      | none => .next s
      | some (r, core) =>
        .next ((s.setStaging k l (firstDrop (s.stagingOf k l) (fun x => (s.refillOne l x).isSome))).pushHeadrace core r)

/-! ### The deadline (R182, R301, R364, R365) -/

/-- A bucketed or held thread moves to the bucket of the salvage segment, or exits where there is none (R182). -/
def Thread.cutOver (t : Thread) (salvage now : Nat) : Thread :=
  let moved := if salvage = 4095 then { t.salvaged with place := .dead }
    else { t.salvaged with place := .bucket salvage now 0, meetSeg := salvage }
  match t.place with
  | .bucket _ _ _ => moved
  | .held _ => moved
  | _ => t

/-- The regrouper acts on a group (R182). -/
def State.cutGroup (s : State) (g : Nat) : State :=
  let now := s.groupNow g
  let sv := (s.groupMod g).salvage
  let gr := s.group g
  if gr.threads.any (fun e => e.2.cutOver sv now != e.2) then
    (s.setGroup g { gr with threads := gr.threads.map (fun e => (e.1, e.2.cutOver sv now)) }).afterDeaths g
  else s

/-- A wave's watchdog count restarts, that of the segment it left for a handler too, and a parked BWAIT returns DEADLINE (R135, R364). -/
def State.cutWave (s : State) (w : Nat) : State :=
  let v := s.wave w
  let s1 := s.setWave w { v with
    wdBase := 0, wdSince := s.coreCycles (s.waveCore w), frame := v.frame.map (fun f => { f with wd := 0 }) }
  match v.park with
  | .bwait _ _ _ m => s1.wakeWave w 2 m
  | _ => s1

/-- Steps 2 to 4 of R364 for a crew. -/
def State.cutCrew (s : State) (crew : Nat) : State :=
  let s1 := s.setCrew crew { s.crew crew with deadlined := true }
  let s2 := (s1.groupsOf crew).foldl State.cutGroup s1
  (s2.wavesOf crew).foldl State.cutWave s2

/-- Step 5 of R364 (R301). -/
def State.cutSeq (s : State) (k : Nat) : State :=
  let s1 := s.setSeq k { s.seqOf k with deadline := true }
  match (s.seqOf k).park with
  | .bwait _ _ _ _ => s1.seqReturn k 2
  | _ => s1

/-- The deadline takes effect in a cluster for the crews and the sequencer on which it has not acted; saved ones, and all of a
cluster whose clock is stopped, wait (R365, R401). -/
def State.cutCluster (s : State) (k : Nat) : State :=
  if s.clusterRuns k = false then s
  else
    let crews := (s.clusterCrews k).filter (fun c => (s.launch (s.crew c).launch).deadlineFell && (s.crew c).started
      && !(s.crew c).deadlined && !(s.crew c).killed && !s.isSaved c)
    let s1 := crews.foldl State.cutCrew s
    let q := s1.seqOf k
    match q.launch with
    | none => s1
    | some l => if (s1.launch l).deadlineFell = true ∧ q.run = true ∧ q.stop = false ∧ q.deadline = false then s1.cutSeq k else s1

/-- The deadline of a launch falls (R364, R365). -/
def State.fallDeadline (s : State) (l : Nat) : State :=
  let v := s.launch l
  if v.rec_.deadline = 0 ∨ s.dt < v.rec_.deadline ∨ v.deadlineFell = true ∨ v.phase = .due ∨ v.phase = .done then s
  else
    let s1 := (s.setLaunch l { v with deadlineFell := true }).noteEnd l 1 0
    if v.phase = .placed then
      let s2 := s1.dropRecords l
      (s2.clusters.map (fun e => e.1)).foldl State.cutCluster s2
    else (s1.endSaving l).nowDue l

/-- LAUNCH_DEADLINE (R364, R365). -/
def execLaunchDeadline (l : Nat) (s : State) : Answer := .next (s.fallDeadline l)

/-! ### Take-over (R371, R435, R436) -/

/-- PRIMARY_FAILURE (R371, R435): FAILED rises; where no standby is left the command processor stops, and the management core reports
it to the host. -/
def execPrimaryFailure (s : State) : Answer :=
  .next { s with
    sched := { s.sched with failed := true }
    dev := { s.dev with reports := if s.sched.standbyOk then s.dev.reports else s.dev.reports ++ [.commandStopped] } }

/-- TAKE of SCHED_CTL (R435): only from the standby, while FAILED is 1. -/
def State.take (s : State) (who : Nat) : State :=
  if s.sched.failed = false ∨ s.sched.standbyOk = false ∨ who ≠ 1 - s.sched.primary ∨ 1 < who then s
  else
    let s1 := { s with sched := { s.sched with
      primary := who, replay := true, standbyOk := false, failed := false, tookAt := s.dt + 1, takeovers := min (s.sched.takeovers + 1) (2 ^ 32 - 1) } }
    (s1.cores.map (fun e => e.1)).foldl State.restoreDecision (s1.fireMsix 16)

/-- SCHED_CTL_TAKE (R435). -/
def execSchedCtlTake (who : Nat) (s : State) : Answer := .next (s.take who)

/-- The decision of scantest when a test has ended (R442), put off while REPLAY is 1: 2 where the hold bit is clear; else 0 for the
golden signature and 1 for another, with which the core leaves the core map; then the hold is released. -/
def State.scanDecide (s : State) : State :=
  let p := s.power
  let c := p.scanOn.1
  if p.scanDue = false ∨ s.sched.replay = true then s
  else if p.holds.contains c = false then { s with power := { p with scanDue := false, scanResult := 2 } }
  else
    let bad := p.scanSig != Config.goldenSignature c p.scanOn.2
    { s with
      power := { p with scanDue := false, scanResult := if bad then 1 else 0, holds := memberDel p.holds c }
      dev := if bad = false then s.dev
        else if c < 64 then { s.dev with coreLo := s.dev.coreLo - (if bit s.dev.coreLo c then 2 ^ c else 0) }
        else { s.dev with coreHi := s.dev.coreHi - (if bit s.dev.coreHi (c - 64) then 2 ^ (c - 64) else 0) } }

/-- DONE of SCHED_CTL (R435): the replay ends; completions that fell due before go first, in their order (R371). -/
def State.doneReplay (s : State) (who : Nat) : State :=
  if s.sched.replay = false ∨ who ≠ s.sched.primary then s
  else
    let s1 := { s with sched := { s.sched with replay := false, replayDue := s.nextDue } }
    ((s1.launches.map (fun e => e.1)).foldl State.closePlace s1).scanDecide

/-- The snapshot that the take-over routine leaves in the queue-state table before DONE (R437, R438): KICK_PEND in entry 16 and each
CQ_TAIL in its queue's entry. -/
def State.snapshot (s : State) : State :=
  let put := fun (t : State) (i v : Nat) => t.setStore (t.store.write (wholeCells (devBase + 0x111000 + 64 * i) (bytesOf v 4)) none)
  (List.range 16).foldl (fun t q => put t q (s.hostQ q).tail) (put s 16 s.kickPend)

/-- SCHED_CTL_DONE (R435): the standby has re-read KICK_PEND and every CQ_TAIL, and ends its replay. -/
def execSchedCtlDone (who : Nat) (s : State) : Answer :=
  .next (if s.sched.replay = true ∧ who = s.sched.primary then s.snapshot.doneReplay who else s)

/-- JRN_PTR_WRITE (R436): CKPT and TAIL; a write of the standby is ignored. -/
def execJrnPtrWrite (who v : Nat) (s : State) : Answer :=
  .next (if who = s.sched.primary then
    { s with sched := { s.sched with ckpt := bits v 27 16, jtail := bits v 11 0 } } else s)

end Sys2Proof.Machine
end

