-- ==== Sys2Proof/Machine/Preempt.lean ====
section
/-! DEFINITION. Saves and restores of cores (R120, R135, R315, R383 to R387) and damaged state: partitions (R388, R389, R393)
and queue entries (R390, R393). -/

namespace Sys2Proof.Machine

open Sys2Proof

/-! ### Saves and restores (R384 to R387) -/

/-- SWAP_SAVE (R385): GO of SWAP_CTL with DIR 0. -/
def execSwapSave (c : Nat) (s : State) : Answer := .next (s.startSave c)

/-- Every result and access of a core's waves has returned (R385), and a sequencer that stops is ready (R315). -/
def State.halted (s : State) (c : Nat) : Bool :=
  (s.coreWaves c).all (fun w =>
    let v := s.wave w
    v.pend == [] && v.out == [] && v.peerOut == []
      && v.accts.all (fun a => (s.account a).out == [] && (s.account a).peerOut == []))
  && (!s.matrixOn c || ((s.seqOf (clusterOf c)).mmas == [] && (s.seqOf (clusterOf c)).mldbs == [] && !(s.seqOf (clusterOf c)).copying))

/-- SWAP_SAVE_HALT_END (R384, R385): the copy begins. -/
def execSwapSaveHaltEnd (c : Nat) (s : State) : Answer :=
  let sw := (s.core c).swap
  if sw.busy = false ∨ sw.dir = true ∨ sw.copying = true ∨ s.halted c = false then .next s
  else .next (s.setCore c { s.core c with
    swap := { sw with haltNs := min (s.dt - sw.goAt) (2 ^ 32 - 1), copying := true, copyAt := s.cycles (clusterOf c) } })

/-- The 560 cycles of a copy have passed (R385). -/
def State.copied (s : State) (c : Nat) : Bool :=
  let sw := (s.core c).swap
  sw.busy && sw.copying && s.clusterRuns (clusterOf c) && decide (sw.copyAt + 560 ≤ s.cycles (clusterOf c))

/-- A wave that goes into the shadow from the release queue waits in BWAIT again (R135, R385), and a load that has performed in
part begins anew. -/
def State.unqueue (s : State) (w : Nat) : State :=
  match (s.wave w).park with
  | .queued a q _ since m =>
    let k := s.waveCluster w
    let s1 := s.setWave w { s.wave w with park := .bwait a q since m }
    s1.setCluster k { s1.cluster k with relQ := (s1.cluster k).relQ.filter (fun x => x != w) }
  | _ => s.unsend w

/-- SWAP_SAVE_COMPLETE (R385): the crews of the core are in the shadow. -/
def execSwapSaveComplete (c : Nat) (s : State) : Answer :=
  if s.copied c = false ∨ (s.core c).swap.dir = true then .next s
  else
    let crews := (s.coreCrews c).filter (fun x => (s.core c).swap.going.contains x)
    let s1 := (s.coreWaves c).foldl State.unqueue s
    let x := s1.core c
    .next (s1.setCore c { x with
      savedAt := s1.cycles (clusterOf c)
      swap := { x.swap with busy := false, held := true, status := 0, halted := false, copying := false, saved := crews, lost := [], going := [] } })

/-- SWAP_RESTORE (R385, R387): GO of SWAP_CTL with DIR 1, of a core on which no other crew runs. -/
def execSwapRestore (c : Nat) (s : State) : Answer := .next (s.askRestore c)

/-- A crew has a group in partition q of its core (R389): one that has not retired, which gives its state back (R180). -/
def State.crewIn (s : State) (crew q : Nat) : Bool :=
  (s.groupsOf crew).any (fun g => s.partitionOf g == q && !(s.group g).retired)

/-- A crew has a wave in partition q (R66): a group there whose threads have not all ended. -/
def State.waveIn (s : State) (crew q : Nat) : Bool :=
  (s.groupsOf crew).any (fun g => s.partitionOf g == q && s.groupLive g)

/-- What stands at a place of a slot of the context shadow (R65): a thread's part of a file row, the predicates of a wave slot, registers
and the rest of a group record, or the scheduling state. -/
inductive ShadowPart where
  | slices (row lane : Nat)
  | preds (slot p : Nat)
  | sReg (record n : Nat)
  | kReg (record n half : Nat)
  | groupState (record : Nat)
  | schedState
deriving DecidableEq, Repr

/-- The layout of a slot (R65): 128 KiB of slice file, 8 KiB of predicates, 16 group records of 3 KiB, and 8 KiB of scheduling state. -/
def shadowPart (x : Nat) : ShadowPart :=
  if x < 0x20000 then .slices (x / 256) (x / 8 % 32)
  else if x < 0x22000 then .preds ((x - 0x20000) / 512) (x / 4 % 128)
  else if x < 0x2E000 then
    let y := x - 0x22000
    if y % 3072 < 2048 then .sReg (y / 3072) (y % 3072 / 8)
    else if y % 3072 < 2560 then .kReg (y / 3072) ((y % 3072 - 2048) / 16) (y % 3072 / 8 % 2)
    else .groupState (y / 3072)
  else .schedState

/-- The saved groups of a slot; their records follow each other in this order (log entry 83). -/
def State.shadowGroups (s : State) (c q : Nat) : List Nat :=
  (s.core c).swap.saved.flatMap (fun x => (s.groupsOf x).filter (fun g => s.partitionOf g == q && !(s.group g).retired))

/-- Row r of a thread's slices as one word. -/
def Thread.rowWord (t : Thread) (r : Nat) : Nat :=
  (List.range 16).foldl (fun x i => x + (tabGet t.slices 0 (16 * r + i)).toNat * 16 ^ i) 0

/-- The word of a file row that the threads of a group have in a lane. -/
def Group.rowAt (g : Group) (row lane : Nat) : Option Nat :=
  g.threads.findSome? (fun e =>
    if e.1 % 32 = lane then
      ((List.range (4 * (tabGet g.units [] (e.1 / 32)).length)).find? (fun r => g.fileRow e.1 r == row)).map e.2.rowWord
    else none)

/-- The 8-byte word of a cluster's context shadow at a byte offset (R65), where a saved crew has put one there and the rule gives its
layout. What it shows is held in the saved threads and groups, which nothing else reaches meanwhile (R386). -/
def State.shadowWord (s : State) (k off : Nat) : Option Nat :=
  let x := shadowOwner k off
  let gs := s.shadowGroups x.1 x.2
  match shadowPart (off % 196608) with
  | .slices row lane => gs.findSome? (fun g => (s.group g).rowAt row lane)
  | .sReg i n => gs[i]?.map (fun g => (tabGet (s.group g).s 0 n).toNat)
  | .kReg i n half => gs[i]?.map (fun g => (tabGet (s.group g).k Capv.null n).bits.toNat / 2 ^ (64 * half) % 2 ^ 64)
  | .preds _ _ => none
  | .groupState _ => none
  | .schedState => none

/-- The restored waves of a core test the objects of their BWAITs again (R135, R385), and join the release queue in the order in
which they began to wait (R145). -/
def State.retestWaits (s : State) (c : Nat) : State :=
  (s.metWaits (fun w _ => (s.coreWaves c).contains w)).foldl State.joinQueue s

/-- A stopped sequencer goes on when no core of its launch in the cluster is saved or being saved (R315). -/
def State.resumeSeq (s : State) (k : Nat) : State :=
  let q := s.seqOf k
  let away := (s.clusterCrews k).any (fun c => some (s.crew c).launch == q.launch
    && (s.isSaved c || (s.core (s.crew c).core).swap.busy))
  if q.stop = false ∨ away = true then s
  else
    let s1 := s.setSeq k { q with stop := false }
    match q.park with
    | .bwait a _ _ _ => s1.wakeSeq (a / 16) k
    | _ => s1

/-- SWAP_RESTORE_COMPLETE (R66, R365, R385, R387): crews whose slots have lost data end with CTX_LOST; the others go on. -/
def execSwapRestoreComplete (c : Nat) (s : State) : Answer :=
  if s.copied c = false ∨ (s.core c).swap.dir = false then .next s
  else
    let k := clusterOf c
    let x := s.core c
    let gone := x.swap.saved.filter (fun w => x.swap.lost.any (s.waveIn w))
    let s1 := s.setCore c { x with
      lostCycles := x.lostCycles + (s.cycles k - x.savedAt)
      swap := { x.swap with
        busy := false, held := false, copying := false, halted := false, saved := [], lost := []
        status := if x.swap.lost = [] then 0 else 2 } }
    let s2 := gone.foldl (fun t w => t.endCrewWith w 11 0) s1
    .next (((s2.retestWaits c).resumeSeq k).cutCluster k)

/-! ### Damaged partitions (R388, R389, R393) -/

/-- An error of a partition logged (R393). -/
def State.logPartition (s : State) (c q unit off : Nat) : State := s.logNear (clusterOf c) 1 unit (placeOf c) q off

/-- SLICE_ROW_POISON (R388, R393): row r of a thread's slices is poisoned; the log names the row of the partition's file. -/
def execSliceRowPoison (g t row : Nat) (s : State) : Answer :=
  if (tabFind (s.group g).threads t).isNone then .next s
  else
    let th := s.thread g t
    let s1 := s.setThread g t { th with poisonRows := memberAdd th.poisonRows (row % 64) }
    .next (s1.logPartition (s.crew (g / 8)).core (s.partitionOf g) 14 ((s.group g).fileRow t (row % 64) * 32 + t % 32))

/-- The crews that own the state of partition q of a core that an error has hit: of a wave by its key, of a group by its key, or
every crew with a group there (R389). -/
def State.hitCrews (s : State) (c q kind i : Nat) : List Nat :=
  match kind with
  | 0 => if (tabFind s.waves i).isSome = true ∧ s.waveCore i = c then [crewOf i] else []
  | 1 => if (tabFind s.groups i).isSome = true ∧ (s.crew (i / 8)).core = c then [i / 8] else []
  | _ => (s.liveCrews c).filter (fun x => s.crewIn x q)

/-- PARTITION_STATE_ERROR (R389): kind 0 for predicates, CC or LC, 1 for group registers, 2 for the scheduling state. -/
def execPartitionStateError (c q kind i : Nat) (s : State) : Answer :=
  let s1 := s.logPartition c q 15 0
  .next ((s.hitCrews c q kind i).foldl (fun t x => t.endCrewWith x 11 0) s1)

/-! ### Damaged queue entries (R390, R393) -/

/-- An error of bank 31 logged as pool FIFO (R393), but where a scrub has logged it (R69); OFFSET is the byte offset in the bank
(R360). -/
def State.logFifo (s : State) (scrub : Bool) (k off : Nat) : State := if scrub then s else s.logNear k 1 5 0 31 off

/-- The launch of a lost record ends with TASK_LOST (R380, R390). -/
def State.taskLost (s : State) (l slot core : Nat) : State := s.endLaunch l 7 (slot % 256 + core % 128 * 256)

/-- INFO of a launch that ends with a lost head: the chain offset, all ones where the head's offset was lost too (R380, R390). -/
def headInfo (h : Head) (known : Bool) : Nat := if known then h.off else infoLost

/-- A damaged entry of staging or the spillway: a record or a head is dropped, and its launch ends. -/
def State.spilledLost (s : State) (l slot : Nat) (x : Spilled) (known : Bool) : State :=
  match x with
  | .task core _ => s.taskLost l slot core
  | .head _ _ h => s.endLaunch l 9 (headInfo h known)

/-- A damaged record of a headrace (slot i of core c). -/
def State.headraceLost (s : State) (c i : Nat) (scrub : Bool) : State :=
  match (s.core c).headrace[i]? with
  | none => s
  | some r =>
    let s1 := (s.setCore c { s.core c with headrace := listDel (s.core c).headrace i }).logFifo scrub (clusterOf c)
      (placeOf c * 16384 + i * 64)
    s1.taskLost r.launch i c

/-- The offset in bank 31 of a launch's staging buffer in a cluster (R360): the buffers follow each other in the order of the
launches (log entry 83). -/
def State.stagingOff (s : State) (k l : Nat) : Nat := 81920 + 1024 * ((s.clusterLaunches k).idxOf l)

/-- A damaged entry of the staging buffer of a launch in a cluster. -/
def State.stagedLost (s : State) (k l i : Nat) (known scrub : Bool) : State :=
  match (s.stagingOf k l)[i]? with
  | none => s
  | some x =>
    ((s.setStaging k l (listDel (s.stagingOf k l) i)).logFifo scrub k (s.stagingOff k l + i * 64)).spilledLost l i x known

/-- A damaged entry of the spillway of a launch; it lies in memory. -/
def State.ringLost (s : State) (l i : Nat) (known : Bool) : State :=
  match (s.launch l).ring[i]? with
  | none => s
  | some x =>
    let v := s.launch l
    let va := v.ringVa (v.ringHead + i)
    let s1 := s.setLaunch l { v with ring := listDel v.ring i }
    let s2 := match s1.ctlTranslate v.rec_.ctx va .load with
      | none => s1
      | some (t, pa) => t.logHome 1 pa
    s2.spilledLost l i x known

/-- A damaged entry of a flume kick queue: head i of a channel of a core. -/
def State.kickLost (s : State) (c ch i : Nat) (known scrub : Bool) : State :=
  let x := s.channel c ch
  match x.heads[i]? with
  | none => s
  | some h =>
    let s1 := (s.setChannel c ch { x with heads := listDel x.heads i }).logFifo scrub (clusterOf c)
      (65536 + placeOf c * 4096 + ch * 1024 + i * 64)
    s1.endLaunch (s1.crew h.crew).launch 9 (headInfo h known)

/-- Row i of a cistern changed, the oldest first: the ready rows tile by tile, then the open ones. -/
def setRow (ready : List (List CisRow)) (openRows : List CisRow) (i : Nat) (f : CisRow → CisRow) : List (List CisRow) × List CisRow :=
  match ready with
  | [] => ([], listSet openRows i f)
  | tile :: rest =>
    if i < tile.length then (listSet tile i f :: rest, openRows)
    else
      let r := setRow rest openRows (i - tile.length) f
      (tile :: r.1, r.2)

/-- An error of a byte of a row of a cistern logged as pool FIFO (R362, R393). -/
def State.logRow (s : State) (scrub : Bool) (k n row off : Nat) (r : CisRow) : State :=
  let l := (s.crew r.crew).launch
  let m := (s.launch l).mod_
  let x := s.cisternPlace k l (m.cisternStart n + row * m.cisternRow n + off)
  if scrub then s else s.logNear k 1 5 0 x.1 x.2

/-- Word i of a row of cistern n of a cluster is poisoned (R390); CTAKE copies the poison. Rows count from the oldest. -/
def State.cisternPoison (s : State) (k n row i : Nat) (scrub : Bool) : State :=
  let x := s.cistern k n
  match (x.ready.flatten ++ x.openRows)[row]? with
  | none => s
  | some r =>
    let y := setRow x.ready x.openRows row (fun r => { r with poison := memberAdd r.poison i })
    (s.setCistern k n { x with ready := y.1, openRows := y.2 }).logRow scrub k n row (8 * i) r

/-- The future address of a row of a cistern is lost: the launch ends with TASK_LOST, slot 0xFF (R390). -/
def State.cisternLost (s : State) (k n row : Nat) : State :=
  let x := s.cistern k n
  match (x.ready.flatten ++ x.openRows)[row]? with
  | none => s
  | some r =>
    let c := s.crew r.crew
    (s.logRow false k n row 0 r).taskLost c.launch 255 c.core

/-- A damaged entry of the device launch queue is dropped; a completion with RECORD_ERROR and TAG all ones goes into the ring of
host queue 0 (R390). The offset logged is the model's choice (log entry 83). -/
def State.devLost (s : State) (i : Nat) : State :=
  match s.sched.devQ[i]? with
  | none => s
  | some _ =>
    let s1 := { s with sched := { s.sched with devQ := listDel s.sched.devQ i } }.logFar 0 1 15 0 (0x112000 + i * 128)
    let r := s1.newLaunch 0 s1.dt
    (r.1.setLaunch r.2 { r.1.launch r.2 with rec_ := { LaunchRec.zero with tag := 2 ^ 64 - 1 } }).fallDue r.2 6

/-- An error of the journal logged (R393); OFFSET is the byte offset of its entry (R433). -/
def State.journalError (s : State) (i : Nat) : State := s.logFar 0 1 15 0 (0x100000 + i % 4096 * 16)

/-- QUEUE_ENTRY_ERROR (R390, R393): kind 0 headrace (core c, slot i), 1 staging (cluster c, 64 times the launch plus the entry),
2 spillway (launch c, entry i), 3 flume kick (core c, 16 times the channel plus the head), 4 cistern row data (cluster c, 8,192 times
the row plus 512 times the cistern plus the word), 5 cistern future (cluster c, 16 times the row plus the cistern), 6 device launch
queue (entry i), 7 to 9 as 1 to 3 where a head's offset is known still, 10 journal (entry i). -/
def execQueueEntryError (kind c i : Nat) (s : State) : Answer :=
  match kind with
  | 0 => .next (s.headraceLost c i false)
  | 1 => .next (s.stagedLost c (i / 64) (i % 64) false false)
  | 2 => .next (s.ringLost c i false)
  | 3 => .next (s.kickLost c (i / 16 % 4) (i % 16) false false)
  | 4 => .next (s.cisternPoison c (i / 512 % 16) (i / 8192) (i % 512) false)
  | 5 => .next (s.cisternLost c (i % 16) (i / 16))
  | 6 => .next (s.devLost i)
  | 7 => .next (s.stagedLost c (i / 64) (i % 64) true false)
  | 8 => .next (s.ringLost c i true)
  | 9 => .next (s.kickLost c (i / 16 % 4) (i % 16) true false)
  | 10 => .next (s.journalError i)
  | _ => .next s

/-! ### The scrub of near memories (R66, R69) -/

/-- An uncorrectable error in bank 31 (R360, R390): the entry that holds the byte. -/
def State.scrubBank31 (s : State) (k off : Nat) : State :=
  if off < 65536 then s.headraceLost (coreAt k (off / 16384)) (off % 16384 / 64) true
  else if off < 81920 then
    let x := off - 65536
    s.kickLost (coreAt k (x / 4096)) (x / 1024 % 4) (x / 64 % 16) false true
  else
    let ls := s.clusterLaunches k
    match ls[(off - 81920) / 1024]? with
    | none => s
    | some l => s.stagedLost k l ((off - 81920) / 64 % 16) false true

/-- The cisterns of a cluster with a row at a byte of a FIFO bank: the cistern, the row and the offset in it (R362). -/
def State.rowAt (s : State) (k bank off : Nat) : Option (Nat × Nat × Nat) :=
  (s.cluster k).cisterns.findSome? (fun e =>
    ((e.2.ready.flatten ++ e.2.openRows).zipIdx).findSome? (fun x =>
      let l := (s.crew x.1.crew).launch
      let m := (s.launch l).mod_
      (List.range (m.cisternRow e.1 / 8)).findSome? (fun w =>
        if s.cisternPlace k l (m.cisternStart e.1 + x.2 * m.cisternRow e.1 + 8 * w) = (bank, off / 8 * 8) then some (e.1, x.2, w)
        else none)))

/-- An uncorrectable error that a scrub finds in a FIFO bank (R66, R390). -/
def State.scrubFifo (s : State) (k bank off : Nat) : State :=
  if bank = 31 then s.scrubBank31 k off
  else
    match s.rowAt k bank off with
    | none => s
    | some (n, row, w) => s.cisternPoison k n row w true

/-- NEAR_SCRUB_STEP (R66 to R69): UNIT of R68 with a core place or a pool bank and a byte offset; err is 0 for none, 1 for a corrected
error, 2 for one that parity finds or that cannot be corrected, and 3 and above for the same two where an access finds them. A parity
error of a cache drops the line and counts as corrected; any other is poisoned, or handled as its queue entry, and logged as latent, or
as uncorrectable where an access finds it. -/
def execNearScrubStep (k unit place off err : Nat) (s : State) : Answer :=
  let pl := if unit = 0 ∨ unit = 1 ∨ unit = 2 then place else 0
  let bank := if unit = 3 ∨ unit = 4 ∨ unit = 5 then place % 32 else 0
  if err = 0 then .next s
  else if errCorrected err then .next (s.logNear k 0 unit pl bank off)
  else
    match unit with
    | 0 | 1 | 4 => .next ((s.dropLine k unit place off).logNear k 0 unit pl bank off)
    | 5 => .next ((s.logNear k (errKind err) unit pl bank off).scrubFifo k bank off)
    | _ => .next ((s.scrubLoss k unit place off).logNear k (errKind err) unit pl bank off)

end Sys2Proof.Machine
end

