-- ==== Sys2Proof/Machine/Power.lean ====
section
/-! DEFINITION. Power and test: rails (R395, R396), alarms, fast throttle and the kill sequence (R397 to R399), droop, brownout
and retention (R400 to R402), energy (R403), vault and DRAM sensors and refresh (R81, R86), vault scrub (R85), and scan tests
with holds (R439 to R442). -/

namespace Sys2Proof.Machine

open Sys2Proof

/-! ### Rails (R395, R396) -/

/-- RAIL_SWITCH (R395): GO of RAIL_CTL; bit 0 of the last number is TARGET. -/
def execRailSwitch (k v : Nat) (s : State) : Answer := .next (if k < 32 then s.railGo k (v % 2) else s)

/-- RAIL_SWITCH_DONE (R396): the clock resumes at the rate of the new rail; a switch that a scheduler core waits to make follows
(R359). -/
def execRailSwitchDone (k : Nat) (s : State) : Answer :=
  let c := s.cluster k
  if c.rail.busy = false then .next s
  else
    let s1 := (s.setCluster k { c with rail := { c.rail with busy := false, status := 0, rail := c.rail.going, next := none } }).retime k
    .next ((match c.rail.next with
      | none => s1
      | some t => s1.railGo k t).cutCluster k)

/-! ### Alarms and fast throttle (R397 to R399) -/

/-- Every cluster clock brought to its rate. -/
def State.retimeAll (s : State) : State := (List.range 32).foldl State.retime s

/-- A source asserts (R397, R398): STICKY, the throttle, and MSI-X vector 16 (R405). -/
def State.assertSource (s : State) (i : Nat) : State :=
  let p := s.power
  if bit p.sources i then s
  else
    let s1 := ({ s with power := { p with
      sources := p.sources + 2 ^ i, sticky := p.sticky ||| 2 ^ i, throttled := true
      alarmAt := if p.sources = 0 then s.dt else p.alarmAt } }).fireMsix 16
    if p.throttled then s1 else s1.retimeAll

/-- The ALERT_N output, low exactly while THROTTLED is 1 (R398). -/
def State.alertN (s : State) : Bool := !s.power.throttled

/-- A source clears (R398, R399): with the last one HOLD starts, and the kill sequence stops. -/
def State.clearSource (s : State) (i : Nat) : State :=
  let p := s.power
  if bit p.sources i = false then s
  else
    let rest := p.sources - 2 ^ i
    { s with power := { p with
      sources := rest, holdUntil := if rest = 0 then s.dt + p.hold * 1000 else p.holdUntil
      killing := p.killing && rest != 0 } }

/-- Any vault reads 115 degrees or more, or a logic-die sensor 110 or more (R397). -/
def State.critical (s : State) : Bool :=
  s.mem.vaults.any (fun e => decide (115 ≤ e.2.temp)) || s.clusters.any (fun e => decide (110 ≤ sInt 8 e.2.temp))

/-- Source 3 follows the sensors. -/
def State.updateCritical (s : State) : State := if s.critical then s.assertSource 3 else s.clearSource 3

/-- The stretches of the last 10 µs (R397). -/
def State.recentDroops (s : State) : List Nat := s.power.droops.filter (fun t => decide (s.dt < t + 10000))

/-- Source 2 is asserted: DROOP_LIMIT stretches in 10 µs; 0 counts as 1. -/
def State.drooping (s : State) : Bool := decide (max 1 s.power.droopLimit ≤ s.recentDroops.length)

/-- ALARM_SOURCE_ASSERT (R398): sources 0 and 1 are the pin and the rail monitors; 2 and 3 follow what they count and read. -/
def execAlarmSourceAssert (i : Nat) (s : State) : Answer :=
  match i with
  | 0 => .next (s.assertSource 0)
  | 1 => .next (s.assertSource 1)
  | 2 => .next (if s.drooping then s.assertSource 2 else s)
  | 3 => .next (if s.critical then s.assertSource 3 else s)
  | _ => .next s

/-- ALARM_SOURCE_CLEAR (R398). -/
def execAlarmSourceClear (i : Nat) (s : State) : Answer :=
  match i with
  | 0 => .next (s.clearSource 0)
  | 1 => .next (s.clearSource 1)
  | 2 => .next (if s.drooping then s else s.clearSource 2)
  | 3 => .next (if s.critical then s else s.clearSource 3)
  | _ => .next s

/-- THROTTLE_RELEASE (R398, R399): HOLD has passed since the last source cleared; KLEVEL returns to 0. -/
def execThrottleRelease (s : State) : Answer :=
  let p := s.power
  if p.throttled = false ∨ p.sources ≠ 0 ∨ s.dt < p.holdUntil then .next s
  else .next ({ s with power := { p with throttled := false, klevel := 0, killing := false } }).retimeAll

/-- The placed launches of a priority. -/
def State.placedAt (s : State) (prio : Nat) : List Nat :=
  (s.launches.filter (fun e => e.2.phase == .placed && e.2.rec_.prio == prio)).map (fun e => e.1)

/-- Steps of R399 up to the next wait: empty levels are skipped, and the first level that holds a launch is ended. -/
def State.killLevels (s : State) : Nat → State
  | 0 => s
  | n + 1 =>
    let k := s.power.klevel
    if 7 < k then { s with power := { s.power with killing := false } }
    else
      let ls := s.placedAt k
      let s1 := { s with power := { s.power with klevel := k + 1 } }
      if ls = [] then s1.killLevels n
      else
        let s2 := ls.foldl (fun t l => t.endLaunch l 14 0) s1
        { s2 with power := { s2.power with killing := true, killAt := s2.dt + 20000 } }

/-- KILL_SEQUENCE (R399): sources have been asserted without a break for KILL_WINDOW since the throttle came on. -/
def execKillSequence (s : State) : Answer :=
  let p := s.power
  let window := (if p.killWindow = 0 then 100 else p.killWindow) * 1000
  if p.throttled = false ∨ p.sources = 0 ∨ p.killing = true ∨ s.dt < p.alarmAt + window then .next s
  else .next (s.killLevels 9)

/-- KILL_LEVEL_STEP (R399): 20 µs later the next level. -/
def execKillLevelStep (s : State) : Answer :=
  let p := s.power
  if p.killing = false ∨ p.sources = 0 ∨ s.dt < p.killAt then .next s else .next (s.killLevels 9)

/-! ### Droop, brownout, retention (R400 to R402) -/

/-- DROOP_STRETCH (R400): the clock slows, and each stretch counts toward source 2. -/
def execDroopStretch (k : Nat) (s : State) : Answer :=
  let s1 := (s.setCluster k { s.cluster k with droop := true }).retime k
  let s2 := { s1 with power := { s1.power with droops := s1.recentDroops ++ [s1.dt] } }
  .next (if s2.drooping then s2.assertSource 2 else s2)

/-- DROOP_END (R400). -/
def execDroopEnd (k : Nat) (s : State) : Answer := .next ((s.setCluster k { s.cluster k with droop := false }).retime k)

/-- BROWNOUT_STOP (R401): the clock stops; every bit of state stays. -/
def execBrownoutStop (k : Nat) (s : State) : Answer := .next ((s.setCluster k { s.cluster k with brownout := true }).retime k)

/-- BROWNOUT_RESUME (R401): the clock resumes, and a deadline that fell meanwhile takes effect. -/
def execBrownoutResume (k : Nat) (s : State) : Answer :=
  .next (((s.setCluster k { s.cluster k with brownout := false }).retime k).cutCluster k)

/-- Launches that end with a cluster that loses its state: its matrix launch, and those with records in its bank 31 or in its
cisterns (R402). -/
def State.lostLaunches (s : State) (k : Nat) : List Nat :=
  let c := s.cluster k
  let seq := (match c.seq.launch with
    | none => []
    | some l => if c.seq.run then [l] else [])
    ++ ((s.clusterCrews k).map (fun x => (s.crew x).launch)).filter (fun l => (s.launch l).mod_.isMatrix)
  let heads := (List.range 4).flatMap (fun p => (s.core (coreAt k p)).headrace.map (fun r => r.launch))
  let kicks := (List.range 4).flatMap (fun p => (s.core (coreAt k p)).channels.flatMap (fun e =>
    e.2.heads.map (fun h => (s.crew h.crew).launch)))
  let staged := (c.staging.filter (fun e => e.2 != [])).map (fun e => e.1)
  let rows := c.cisterns.flatMap (fun e => (e.2.ready.flatten ++ e.2.openRows ++ e.2.taken.getD []).map (fun r => (s.crew r.crew).launch))
  (seq ++ heads ++ kicks ++ staged ++ rows).foldl memberAdd []

/-- A core whose cluster has lost its state. -/
def CoreSt.lost (c : CoreSt) : CoreSt :=
  { CoreSt.reset with split := c.split, lostCycles := c.lostCycles, savedAt := c.savedAt }

/-- The cluster's own state is gone: buffers zeroed, unit tags NONE. -/
def State.loseCluster (s : State) (k : Nat) : State :=
  let s1 := s.setStore (((s.store.zero (poolKey k 0) 4194304).zero (opKey k 0) 1048576).zero (accKey k 0) 524288)
  let s2 := (List.range 4).foldl (fun t p =>
    let c := coreAt k p
    (t.setStore (t.store.zero (spKey c 0) 262144)).setCore c (t.core c).lost) s1
  let c := s2.cluster k
  (s2.setCluster k { c with
    tiles := [], fills := [], tlb := [], wtags := [], roe := [], cbe := [], cisterns := [], relQ := [], sluiceAt := none
    staging := [], caches := [], misses := [], lost := true
    seq := { Seq.idle with launch := c.seq.launch } }).retime k

/-- RETENTION_LOSS (R402). -/
def execRetentionLoss (k : Nat) (s : State) : Answer :=
  let ls := s.lostLaunches k
  let s1 := (s.clusterCrews k).foldl (fun t c => t.endCrewWith c 15 0) s
  let s2 := ls.foldl (fun t l => t.endLaunch l 15 0) s1
  .next (s2.loseCluster k)

/-- CLUSTER_RECOVERY (R402): the cluster returns to service, and FAULT_N goes low. -/
def execClusterRecovery (k : Nat) (s : State) : Answer :=
  if (s.cluster k).lost = false then .next s
  else
    let s1 := (s.setCluster k { s.cluster k with lost := false, brownout := false }).retime k
    .next { s1 with dev := { s1.dev with faultN := false } }

/-- FAULT_N_PULSE_END (R402). -/
def execFaultNPulseEnd (s : State) : Answer := .next { s with dev := { s.dev with faultN := true } }

/-! ### Energy (R403) -/

/-- The largest value of an accumulator. -/
def energyMax : Nat := 2 ^ 64 - 1

/-- An accumulator with a count added; it stays at its largest value. -/
def addEnergy (x d : Nat) : Nat := min (x + d) energyMax

/-- One cluster's count of one update. -/
def State.countEnergy (s : State) (k : Nat) : State :=
  let d := Config.energyStep k s.free
  let c := s.cluster k
  let s1 := s.setCluster k { c with energy := addEnergy c.energy d }
  let p := s1.power
  { s1 with power := if c.rail.rail = 0 then { p with energyHigh := addEnergy p.energyHigh d }
                     else { p with energyLow := addEnergy p.energyLow d } }

/-- ENERGY_UPDATE (R403): what each cluster drew enters its accumulator and its rail's; the units fed ahead of the clusters draw
on the high rail; ENERGY_DEV is the sum. -/
def execEnergyUpdate (s : State) : Answer :=
  let s1 := (List.range 32).foldl State.countEnergy s
  let p := s1.power
  let high := addEnergy p.energyHigh (Config.energyStep 32 s.free)
  .next ({ s1 with power := { p with energyHigh := high, energyDev := addEnergy high p.energyLow } }).bumpFree

/-! ### Vaults and DRAM (R80 to R82, R85, R86) -/

/-- The state with a vault changed. -/
def State.setVault (s : State) (v : Nat) (x : Vault) : State := { s with mem := { s.mem with vaults := tabPut s.mem.vaults v x } }

/-- The refresh class of a reading (R81). -/
def readingClass (z : Int) : Nat := if z ≤ 85 then 0 else if z ≤ 95 then 1 else if z ≤ 105 then 2 else 3

/-- The reading at which a class is left downward (R81). -/
def leaveReading (cls : Nat) : Int :=
  match cls with
  | 1 => 82
  | 2 => 92
  | _ => 102

/-- The class after a reading: it rises at once, and falls by one. -/
def nextClass (cls : Nat) (z : Int) : Nat :=
  if cls < readingClass z then readingClass z else if 0 < cls ∧ z ≤ leaveReading cls then cls - 1 else cls

/-- VAULT_TEMP_SAMPLE (R81). -/
def execVaultTempSample (v : Nat) (z : Int) (s : State) : Answer :=
  if 32 ≤ v then .next s
  else
    let x := s.vault v
    .next (s.setVault v { x with temp := z, cls := nextClass x.cls z }).updateCritical

/-- VAULT_REFRESH (R81). -/
def execVaultRefresh (v : Nat) (s : State) : Answer :=
  .next (if v < 32 then s.setVault v { s.vault v with refreshes := (s.vault v).refreshes + 1 } else s)

/-- DRAM_TEMP_POLL (R86). -/
def execDramTempPoll (z : Int) (s : State) : Answer := .next { s with mem := { s.mem with dramTemp := z } }

/-- PER_BANK_REFRESH (R86): by the controller of a subchannel. -/
def execPerBankRefresh (sc : Nat) (s : State) : Answer :=
  let n := tabGet s.mem.dramRefreshes 0 (sc % 16)
  .next { s with mem := { s.mem with dramRefreshes := tabPut s.mem.dramRefreshes (sc % 16) (n + 1) } }

/-- The physical address of a vault byte offset (R80). -/
def State.vaultAddr (s : State) (v off : Nat) : Nat :=
  if off < s.dev.intlv * 1048576 then
    let page := off / 128 * 4096
    page + ((List.range 32).find? (fun j => l2Slice (page + 128 * j) == v)).getD 0 * 128 + off % 128
  else 0x000400000000 + v * 0x20000000 + (off - s.dev.intlv * 1048576)

/-- Bytes of a vault row for the repair map. -/
def vaultRow : Nat := 2048

/-- An uncorrectable error of a granule of a vault or of external DRAM (R85, R87): both its words are poisoned, and its tag clears. -/
def State.loseGranule (s : State) (pa : Nat) : State := s.spoil [2 * (pa / 16), 2 * (pa / 16) + 1] [pa / 16]

/-- The line of an address is in the L2. -/
def State.inL2 (s : State) (pa : Nat) : Bool := s.mem.l2.any (fun t => t.line == pa / 128)

/-- An error of vault v at a byte offset (R85): a corrected one counts for its row. Damage behind a line that the L2 holds poisons nothing
until the line is filled again, when the fill finds it, or a write back has written over it (log entry 46). -/
def State.vaultError (s : State) (v off err : Nat) : State :=
  let pa := s.vaultAddr v off
  let x := s.vault v
  let row := off / vaultRow
  let s1 := if errCorrected err then s.setVault v { x with rowErrs := tabPut x.rowErrs row (tabGet x.rowErrs 0 row + 1) }
    else if s.inL2 pa then s else s.loseGranule pa
  s1.logFar v (errKind err) 12 0 (pa / 8 * 8)

/-- An error of the external DRAM at an offset of its window (R87). -/
def State.dramError (s : State) (sub x err : Nat) : State :=
  let pa := 0x001000000000 + x
  let s1 := if errCorrected err then
      { s with mem := { s.mem with dramCe := tabPut s.mem.dramCe sub (tabGet s.mem.dramCe 0 sub + 1) } }
    else if s.inL2 pa then s else s.loseGranule pa
  s1.logFar (2 * sub) (errKind err) 13 sub (pa / 8 * 8)

/-- The sixteen words of a line. -/
def lineWordNos (line : Nat) : List Nat := (List.range 16).map (fun i => 16 * line + i)

/-- The eight granules of a line. -/
def lineGranules (line : Nat) : List Nat := (List.range 8).map (fun i => 8 * line + i)

/-- A corrected error of a slice counted (R78). -/
def State.countL2 (s : State) (slice : Nat) : State :=
  { s with mem := { s.mem with l2Ce := tabPut s.mem.l2Ce slice (tabGet s.mem.l2Ce 0 slice + 1) } }

/-- An error of the stored bytes of the word at an address of a line in the L2 (R78): all words of a compressed line are lost. A zero
line has no stored bytes (R73). -/
def State.frameError (s : State) (slice pa err : Nat) : State :=
  if footprint s.store (pa / 128) = 0 then s
  else
  let words := if footprint s.store (pa / 128) = 128 then [pa / 8] else lineWordNos (pa / 128)
  (if errCorrected err then s.countL2 slice else s.spoil words []).logFar slice (errKind err) 10 0 (pa / 8 * 8)

/-- A line whose tag entry cannot be read back leaves its frame (R78): a dirty one is lost, and memory still holds
what it held: bytes, tags and poison that the model leaves free. -/
def State.loseLine (s : State) (t : L2Tag) : State :=
  let s1 := { s with mem := evictTag s.mem s.dt t }
  if t.dirty then
    let m := s1.store.putCells (wholeCells (128 * t.line) ((List.range 128).map (Config.staleByte s.free)))
    (s1.setStore { m with
      tags := (lineGranules t.line).foldl (fun l g => if Config.staleMark s.free (2 * g) then memberAdd l g else memberDel l g) m.tags
      poison := (lineWordNos t.line).foldl (fun l x => if Config.staleMark s.free (2 * x + 1) then memberAdd l x else memberDel l x)
        m.poison }).bumpFree
  else s1

/-- An error of the tag entry of a frame, by set and way (R78): the words of its lines are poisoned and their tags clear, or, where an
address cannot be read back (5), the lines are gone. -/
def State.tagError (s : State) (slice at_ err : Nat) : State :=
  let tags := s.mem.l2.filter (fun t => l2SetOf t.line == slice * 1024 + at_ / 16 && t.frame == at_ % 16)
  let s1 := if errCorrected err then s.countL2 slice
    else if err = 5 then tags.foldl State.loseLine s
    else s.spoil (tags.flatMap (fun t => lineWordNos t.line)) (tags.flatMap (fun t => lineGranules t.line))
  s1.logFar slice (errKind err) 11 0 at_

/-- VAULT_SCRUB_STEP (R78, R85, R87): the scrub of a vault, and the errors of the memories behind the caches that it or an access finds
(log entry 46). err is 0 for none; v below 32 is a vault with a byte offset in it, 32 + k a frame of L2 slice k with the address of a
word of a line there, 64 + k a tag entry of slice k as set × 16 + way, 96 + c subchannel c with an offset in the external window. -/
def execVaultScrubStep (v off err : Nat) (s : State) : Answer :=
  if err = 0 then .next s
  else if v < 32 then .next (if off < 384 * 1048576 then s.vaultError v off err else s)
  else if v < 64 then
    .next (if s.mem.l2.any (fun t => t.line == off / 128) = true ∧ l2Slice off = v - 32 then s.frameError (v - 32) off err else s)
  else if v < 96 then .next (if off < 16384 then s.tagError (v - 64) off err else s)
  else if v < 112 then
    .next (if off < usableDram ∧ extSub (0x001000000000 + off) = v - 96 ∧ s.mem.dramOut = false then s.dramError (v - 96) off err else s)
  else .next s

/-- CL_TEMP_REFRESH (R443): signed degrees in 8 bits. -/
def execClTempRefresh (k : Nat) (z : Int) (s : State) : Answer :=
  .next (if k < 32 then (s.setCluster k { s.cluster k with temp := lowBits z 8 }).updateCritical else s)

/-! ### Holds and scan tests (R439 to R442) -/

/-- HOLD_SET (R439). -/
def execHoldSet (c : Nat) (s : State) : Answer := .next { s with power := { s.power with holds := memberAdd s.power.holds (c % 128) } }

/-- CORE_HOLD_CLEAR (R440): clearing the hold of the core under test aborts the test. -/
def execCoreHoldClear (c : Nat) (s : State) : Answer := .next (s.clearHold (c % 128))

/-- A GO of SCAN_CTL (R440). -/
def State.scanGo (s : State) (c pat prio : Nat) : State :=
  let p := s.power
  if p.scanBusy then s
  else
    let p1 := { p with scanCore := c, scanPattern := pat, scanPrio := prio }
    if p.holds.contains c = false ∨ s.coreCrews c ≠ [] ∨ (s.core c).swap.held = true ∨ s.present c = false then
      { s with power := { p1 with scanStatus := 2 } }
    else { s with power := { p1 with scanBusy := true, scanAbort := false, scanOn := (c, pat), scanStart := s.cycles (clusterOf c) } }

/-- SCAN_TEST_START (R440). -/
def execScanTestStart (c pat prio : Nat) (s : State) : Answer := .next (s.scanGo (c % 128) (pat % 65536) (prio % 8))

/-- What a test leaves of its core: caches, fetch buffers and TLB invalid, the scratchpad zero. -/
def State.scanWipe (s : State) (c : Nat) : State :=
  (s.setStore (s.store.zero (spKey c 0) 262144)).setCore c { s.core c with l1d := [], l1i := [], fbufs := [], tlb := [] }

/-- SCAN_TEST_COMPLETE (R440): after 280,000 cycles DONE with its signature, or ABORTED; then the decision of scantest (R442). -/
def execScanTestComplete (s : State) : Answer :=
  let p := s.power
  if p.scanBusy = false ∨ (p.scanAbort = false ∧ s.cycles (clusterOf p.scanOn.1) < p.scanStart + 280000) then .next s
  else
    let s1 := s.scanWipe p.scanOn.1
    .next { s1 with power := { s1.power with
      scanBusy := false, scanAbort := false, scanStatus := if p.scanAbort then 1 else 0, scanDue := true
      scanSig := if p.scanAbort then p.scanSig else Config.scanSignature p.scanOn.1 p.scanOn.2 } }.scanDecide

end Sys2Proof.Machine
end

