-- ==== Sys2Proof/Machine/Device.lean ====
section
/-! DEFINITION. Device registers (R7, R405, R433, R434), translation and memory set-up (R31, R35, R41, R42), the host and the
peers (R122, R124, R125, R405 to R408), the mailbox and the code contract (R409 to R412), and cold and warm start (R413,
R414). -/

namespace Sys2Proof.Machine

open Sys2Proof

/-! ### Effects of writes (R7, R31, R35, R41, R42, R144, R369, R408, R412) -/

/-- A record register after a write of VALID and OVER (R68, R79). -/
def clearErr (reg v : Nat) : Nat := reg - (if bit reg 63 && bit v 63 then 2 ^ 63 else 0) - (if bit reg 62 && bit v 62 then 2 ^ 62 else 0)

/-- A write of 1s to a W1C field of n bits. -/
def w1c (n x v : Nat) : Nat := x &&& (2 ^ n - 1 - v % 2 ^ n)

/-- CSLR written (R144): zero leaves ESTIMATE or LIMIT. -/
def State.writeCslr (s : State) (k v : Nat) : State :=
  let c := s.cluster k
  let e := bits v 23 16
  let l := bits v 7 0
  s.setCluster k { c with
    cslrEstimate := if e = 0 then c.cslrEstimate else e, cslrStep := bits v 11 8, cslrLimit := if l = 0 then c.cslrLimit else l }

/-- VAULT_SPLIT written (R42): clamped down to an even number up to 384, before the first placement alone. -/
def State.writeSplitMiB (s : State) (v : Nat) : State :=
  if s.dev.placedOnce then s else { s with dev := { s.dev with intlv := min (v % 512) 384 / 2 * 2 } }

/-- CAP_MINT written (R31): the tag of a granule of a memory that keeps tags. -/
def State.mint (s : State) (a : Nat) (set : Bool) : State :=
  let g := a % 2 ^ 48 / 16
  let m := s.store
  if set then
    (if keepsTags (16 * g) = true ∧ (s.physPlace (16 * g)).isSome = true then s.setStore { m with tags := memberAdd m.tags g } else s)
  else s.setStore { m with tags := memberDel m.tags g }

/-- The fields of RWIN_k_BASE (R408): a reserved OP clears ENABLE. -/
def rwinFields (v : Nat) : Nat :=
  (if bits v 62 59 ≤ 6 then bits v 63 63 * 2 ^ 63 else 0) + bits v 62 59 * 2 ^ 59 + bits v 57 56 * 2 ^ 56 + bits v 47 12 * 4096

/-- RWIN_k_BASE written. -/
def State.writeRwin (s : State) (r v : Nat) : State := { s with dev := { s.dev with rwinBase := tabPut s.dev.rwinBase r (rwinFields v) } }

/-- MBOX written by the host (R412): CMD and ADDR, and with GO a command; a GO while one runs is ignored. A management core that
cannot run its firmware gives no answer to any other command than LOAD_FIRMWARE (log entry 83). -/
def State.writeMbox (s : State) (v : Nat) : State :=
  let d := s.dev
  if d.mboxBusy = true ∧ bit v 63 = true then s
  else
    let d1 := { d with mboxCmd := bits v 57 54, mboxAddr := bits v 47 0 }
    if bit v 63 = false ∨ (d.fwOk = false ∧ bits v 57 54 ≠ 4) then { s with dev := d1 }
    else if 4 < bits v 57 54 then { s with dev := { d1 with mboxStatus := 3 } }
    else { s with dev := { d1 with mboxBusy := true, mboxDone := false, mboxGo := (bits v 57 54, bits v 47 0) } }

/-- TLB_INV written (R41). -/
def State.writeTlbInv (s : State) (v : Nat) : State :=
  if s.dev.tlbBusy then s
  else if bit v 60 then s.tlbInv (bits v 62 61) (bits v 47 36) (bits v 35 0)
  else { s with dev := { s.dev with tlbMode := bits v 62 61, tlbCtx := bits v 47 36, tlbVpn := bits v 35 0 } }

/-- SCHED_CTL written (R435). -/
def State.writeSchedCtl (s : State) (who v : Nat) : State :=
  let s1 := if bit v 62 then s.take who else s
  if bit v 61 then s1.doneReplay who else s1

/-- SCHED_ASSIST written (R437): OP and SLOT, and with GO the operation. While a take-over is under way a WRITE writes nothing (R371) and
reports RINGFULL, by which it is asked again (log entry 83). -/
def State.writeAssist (s : State) (v : Nat) : State :=
  if s.sched.assistBusy = true ∧ bit v 63 = true then s
  else
    let slot := bits v 4 0
    let s0 := s.assistFields (bits v 56 56) slot
    if bit v 63 = false then s0
    else if bit v 56 then (s.commandCrews slot).assistStarted 1 slot 0
    else if s.cpHeld then s.assistStarted 0 slot 1
    else (s.assistWrite slot).1.assistStarted 0 slot (s.assistWrite slot).2

/-- SCAN_CTL written (R439, R440). -/
def State.writeScan (s : State) (v : Nat) : State :=
  if bit v 63 then s.scanGo (bits v 6 0) (bits v 23 8) (bits v 50 48)
  else { s with power := { s.power with scanCore := bits v 6 0, scanPattern := bits v 23 8, scanPrio := bits v 50 48 } }

/-- The hold bits of a word cleared (R439, R440). -/
def State.writeHold (s : State) (base v : Nat) : State :=
  (List.range 64).foldl (fun t i => if bit v i then t.clearHold (base + i) else t) s

/-- SWAP_CTL written by a scheduler core (R384). -/
def State.writeSwap (s : State) (c v : Nat) : State :=
  if bit v 63 then
    (if bit v 61 then s.askRestore c else s.startSave c)
  else s.setCore c { s.core c with swap := { (s.core c).swap with ask := bit v 61 } }

/-- RAIL_CTL written (R395). -/
def State.writeRail (s : State) (k v : Nat) : State :=
  if bit v 63 then s.railGo k (bits v 1 1)
  else s.setCluster k { s.cluster k with rail := { (s.cluster k).rail with target := bits v 1 1 } }

/-- POOL_CMD written (R54). -/
def State.writePoolCmd (s : State) (k v : Nat) : State :=
  if bit v 63 then s.poolGo k (bits v 4 0) (bits v 9 8)
  else s.setCluster k { s.cluster k with cmd := { (s.cluster k).cmd with newMode := bits v 9 8, bank := bits v 4 0 } }

/-- A write of a register that the host reaches (R405). -/
def State.hostReg (s : State) (r : Reg) (v : Nat) : State :=
  match r with
  | .cqBase q => s.writeCqBase q v
  | .cqTail q => s.hostDoorbell q v
  | .crBase q => s.setHostQ q { s.hostQ q with crBase := v / 32 * 32 }
  | .crHead q => s.setHostQ q { s.hostQ q with crHead := v % 65536 }
  | .aperBase => { s with dev := { s.dev with aper := bits v 47 34 } }
  | .mbox => s.writeMbox v
  | _ => s

/-- The core map waits for a replay to end while a scan test, or its decision, is open (R20). -/
def State.mapHeld (s : State) : Bool := s.sched.replay && (s.power.scanBusy || s.power.scanDue)

/-- A write of a register that only the management core writes. -/
def State.mgmtReg (s : State) (r : Reg) (v : Nat) : State :=
  match r with
  | .cqBase _ => s.hostReg r v
  | .cqTail q => s.ringDoorbell q v
  | .crBase _ => s.hostReg r v
  | .crHead _ => s.hostReg r v
  | .coreMapLo => if s.mapHeld then s else { s with dev := { s.dev with coreLo := v } }
  | .coreMapHi => if s.mapHeld then s else { s with dev := { s.dev with coreHi := v } }
  | .pwrAlarm => { s with power := { s.power with sticky := w1c 4 s.power.sticky (bits v 11 8) } }
  | .pwrCfg => { s with power := { s.power with killWindow := bits v 47 32, hold := bits v 31 16, droopLimit := bits v 15 0 } }
  | .cslr k => s.writeCslr k v
  | .issueThr k => s.setCluster k { s.cluster k with allow := v % 16 }
  | .poolCmd k => s.writePoolCmd k v
  | .nearErr k => s.setCluster k { s.cluster k with nearErr := clearErr (s.cluster k).nearErr v }
  | .nearCe k => s.setCluster k { s.cluster k with nearCe := w1c 32 (s.cluster k).nearCe v }
  | .farErr k => { s with mem := { s.mem with farErr := tabPut s.mem.farErr k (clearErr (tabGet s.mem.farErr 0 k) v) } }
  | .ctxTable => { s with dev := { s.dev with ctxBase := bits v 47 15 } }
  | .tlbInv => s.writeTlbInv v
  | .vaultSplit => s.writeSplitMiB v
  | .capMint => s.mint v (bit v 63)
  | .rwinBase k => s.writeRwin k v
  | .rwinSize k => { s with dev := { s.dev with rwinSize := tabPut s.dev.rwinSize k (v % 2 ^ 32) } }
  | .seqStat k => s.seqStatWrite k 0 v
  | .seqDerr k => s.seqStatWrite k 1 v
  | _ => s

/-- A write of a register that only a scheduler core writes. -/
def State.schedReg (s : State) (who : Nat) (r : Reg) (v : Nat) : State :=
  match r with
  | .jrnPtr => if who = s.sched.primary then { s with sched := { s.sched with ckpt := bits v 27 16, jtail := bits v 11 0 } } else s
  | .vaultStat k =>
    if who = s.sched.primary then s.setVault k { s.vault k with resv := bits v 47 24 } else s
  | .coreSram c => s.writeSplit c v
  | .swapCtl c => s.writeSwap c v
  | _ => s

/-- A write of a register that every control processor writes. -/
def State.cpReg (s : State) (who : Nat) (r : Reg) (v : Nat) : State :=
  match r with
  | .schedCtl => s.writeSchedCtl who v
  | .schedAssist => s.writeAssist v
  | .tickCmp => { s with power := { s.power with tickCmp := v, tickPend := false } }
  | .kickPend => { s with sched := { s.sched with kick := w1c 17 s.sched.kick v } }
  | .coreHoldLo => s.writeHold 0 v
  | .coreHoldHi => s.writeHold 64 v
  | .scanCtl => s.writeScan v
  | .holdSet => { s with power := { s.power with holds := memberAdd s.power.holds (v % 128) } }
  | .railCtl k => s.writeRail k v
  | _ => s

/-- A write of a whole register by a scheduler core, the management core or the host (R7, R349, R405). -/
def State.writeReg (s : State) (who : Nat) (r : Reg) (v : Nat) : State :=
  match who with
  | 0 => (s.schedReg 0 r v).cpReg 0 r v
  | 1 => (s.schedReg 1 r v).cpReg 1 r v
  | 2 => (s.mgmtReg r v).cpReg 2 r v
  | _ => s.hostReg r v

/-- A store of a control processor into one of its memories (R433). -/
def State.windowStore (s : State) (who off v n : Nat) : State :=
  s.setStore (s.store.write (wholeCells (windowPlace who off) (bytesOf v n)) none)

/-- An access that reaches neither a register nor a memory: nothing is performed; at a scheduler core's own addresses it raises the
access-fault exception on that core (R433). -/
def State.offWindow (s : State) (who off : Nat) : State :=
  if who < 2 ∧ 2 ^ 41 ≤ off then { s with dev := { s.dev with cpFaults := s.dev.cpFaults ++ [who] } } else s

/-- REGISTER_WRITE (R7, R433): a 64-bit write; an offset that is not listed ignores it. -/
def execRegisterWrite (who off v : Nat) (s : State) : Answer :=
  if s.fenced who then .next s
  else
    match regOf who off with
    | some r => .next (s.writeReg who r (v % 2 ^ 64))
    | none => .next (if windowMemory who off 8 then s.windowStore who off v 8 else s.offWindow who off)

/-! ### Narrow accesses (R403, R405, R434) -/

/-- The offset that an access of the rows for half accesses names; bits 45:44 of the operand give the width (log entry 44). -/
def accessOff (off : Nat) : Nat := off % 2 ^ 44

/-- The bytes of such an access: 4, or 1, 2 or 8 where bits 45:44 are 1, 2 or 3. -/
def accessBytes (off : Nat) : Nat :=
  match off / 2 ^ 44 % 4 with
  | 0 => 4
  | 1 => 1
  | 2 => 2
  | _ => 8

/-- The key of an agent's latch for the register at an offset. -/
def latchKey (who off : Nat) : Nat := who * 2 ^ 48 + off

/-- A register of which the host's write of the low half acts at once (R405). -/
def Reg.lowActs (r : Reg) : Bool :=
  match r with
  | .cqTail _ => true
  | .crHead _ => true
  | _ => false

/-- WINDOW_LOW_HALF_WRITE (R434): into the writer's latch; the host's writes of CQ_TAIL and CR_HEAD act at once (R405). A memory takes a
store of any width, and a register ignores one of 8 or 16 bits. -/
def execWindowLowHalfWrite (who off v : Nat) (s : State) : Answer :=
  let o := accessOff off
  let n := accessBytes off
  if s.fenced who then .next s
  else
    match regOf who o with
    | none => .next (if windowMemory who o n then s.windowStore who o v n else s.offWindow who o)
    | some r =>
      if n = 8 then .next (s.writeReg who r (v % 2 ^ 64))
      else if n < 4 then .next s
      else if who = 3 ∧ r.lowActs = true then .next (s.writeReg 3 r (v % 2 ^ 32))
      else .next { s with dev := { s.dev with writeLatch := tabPut s.dev.writeLatch (latchKey who o) (v % 2 ^ 32) } }

/-- WINDOW_HIGH_HALF_WRITE (R434): the 64-bit value made with the latch is written, and the latch is zero again. -/
def execWindowHighHalfWrite (who off v : Nat) (s : State) : Answer :=
  if s.fenced who then .next s
  else
    match regOf who off with
    | none => .next (if windowMemory who (off + 4) 4 then s.windowStore who (off + 4) v 4 else s.offWindow who (off + 4))
    | some r =>
      let low := tabGet s.dev.writeLatch 0 (latchKey who off)
      let s1 := { s with dev := { s.dev with writeLatch := tabDel s.dev.writeLatch (latchKey who off) } }
      .next (s1.writeReg who r (v % 2 ^ 32 * 2 ^ 32 + low))

/-- The high half of a register placed in the reader's latch. -/
def State.latchHigh (s : State) (who off : Nat) (r : Reg) : State :=
  { s with dev := { s.dev with readLatch := tabPut s.dev.readLatch (latchKey who off) (s.regValue r / 2 ^ 32 % 2 ^ 32) } }

/-- A read by a control processor or the host (R405, R434): the state and the value. A low half latches the high one, which a read of
the high half returns; narrower reads return their bytes of the register, and a memory takes a load of any width. -/
def State.windowRead (s : State) (who off n : Nat) : State × Nat :=
  if windowMemory who off n then (s, s.store.readNat (windowPlace who off) n)
  else
    match regOf who (off / 8 * 8) with
    | none => (s.offWindow who off, 0)
    | some r =>
      if n = 4 ∧ off % 8 = 0 then (s.latchHigh who off r, s.regValue r % 2 ^ 32)
      else if n = 4 ∧ off % 8 = 4 then (s, tabGet s.dev.readLatch 0 (latchKey who (off / 8 * 8)))
      else (s, s.regValue r / 2 ^ (8 * (off % 8)) % 2 ^ (8 * n))

/-- WINDOW_LOW_HALF_READ (R434): the value is what the reader's last read returned. -/
def execWindowLowHalfRead (who off : Nat) (s : State) : Answer :=
  if s.fenced who then .next s
  else
    let r := s.windowRead who (accessOff off) (accessBytes off)
    .next { r.1 with dev := { r.1.dev with lastRead := tabPut r.1.dev.lastRead who r.2 } }

/-- The offset at which an agent reads accumulator i: 0 ENERGY_DEV, 1 ENERGY_HIGH, 2 ENERGY_LOW, 3 + k ENERGY_CL_k. -/
def energyOff (who i : Nat) : Nat :=
  if who = 3 then (if i < 3 then 0x440 + 8 * i else 0x500 + 8 * (i - 3)) else 2 ^ 40 + 8 * (if i < 3 then 5 + i else 64 + (i - 3))

/-- ENERGY_LO_READ (R403). -/
def execEnergyLoRead (who i : Nat) (s : State) : Answer := execWindowLowHalfRead who (energyOff who i) s

/-! ### Registers with a row of their own -/

/-- VAULT_SPLIT_WRITE (R42). -/
def execVaultSplitWrite (v : Nat) (s : State) : Answer := .next (s.writeSplitMiB v)

/-- CSLR_WRITE (R144). -/
def execCslrWrite (k v : Nat) (s : State) : Answer := .next (if k < 32 then s.writeCslr k v else s)

/-- POOL_LIMIT_WRITE (R340): LIMIT of pool n of a launch. -/
def execPoolLimitWrite (l n v : Nat) (s : State) : Answer :=
  .next (if (tabFind s.launches l).isSome then s.setPoolLimit l (n % 16) (v % 2 ^ 32) else s)

/-- CAP_MINT_SET (R31). -/
def execCapMintSet (a : Nat) (s : State) : Answer := .next (s.mint a true)

/-- CAP_MINT_CLEAR (R31). -/
def execCapMintClear (a : Nat) (s : State) : Answer := .next (s.mint a false)

/-- RWIN_BASE_WRITE (R408). -/
def execRwinBaseWrite (r v : Nat) (s : State) : Answer := .next (if r < 8 then s.writeRwin r v else s)

/-- The byte of management RAM that counts a cluster's cool ticks (R443). -/
def coolAt (k : Nat) : Nat := devBase + 0x40000 + k

/-- The thermal handler for one cluster (R443, R444): at 100 °C or more ALLOW falls by 2, down to 2; the tenth tick in a row at 92 °C or
less raises it by 2, up to 8; a reading between them restarts the count. -/
def State.therm (s : State) (k : Nat) : State :=
  let c := s.cluster k
  let temp := sInt 8 (c.temp % 256)
  let n := (s.store.byte (coolAt k)).toNat + 1
  let put := fun (t : State) (x : Nat) => t.setStore (t.store.write (wholeCells (coolAt k) (bytesOf x 1)) none)
  if 100 ≤ temp then put (if c.allow ≤ 2 then s else s.setCluster k { c with allow := c.allow - 2 }) 0
  else if 92 < temp then put s 0
  else if n < 10 then put s n
  else put (if 8 ≤ c.allow then s else s.setCluster k { c with allow := c.allow + 2 }) 0

/-- TICK_INTERRUPT (R443, R444): the interrupt becomes pending while DT is at least CMP; once it is, the handler sets the next tick
100 µs after the last one's CMP and steps ISSUE_THR of every cluster. -/
def execTickInterrupt (s : State) : Answer :=
  if s.power.tickPend = true ∧ s.dev.fwOk = true then
    .next ((List.range 32).foldl State.therm
      { s with power := { s.power with tickCmp := (s.power.tickCmp + 100000) % 2 ^ 64, tickPend := false } })
  else .next (if s.power.tickCmp ≤ s.dt then { s with power := { s.power with tickPend := true } } else s)

/-- TICK_CMP_WRITE (R443). -/
def execTickCmpWrite (v : Nat) (s : State) : Answer :=
  .next { s with power := { s.power with tickCmp := v % 2 ^ 64, tickPend := false } }

/-! ### The host (R122, R405) -/

/-- Every byte of a range is listed by R43 and lies outside the device registers. -/
def State.hostReaches (s : State) (a n : Nat) : Bool :=
  n == 0 || ((List.range ((a + n - 1) / 128 - a / 128 + 1)).all (fun i =>
    let x := max a (128 * (a / 128 + i))
    (s.physPlace x).isSome && !(decide (devBase ≤ x) && decide (x < 0x002100000000))))

/-- The device physical address of an offset of BAR2 (R405). -/
def State.barAddr (s : State) (b : Nat) : Nat := s.dev.aper * 2 ^ 34 + b % 2 ^ 34

/-- The endpoint reports an error under AER (R405). -/
def State.aerReport (s : State) (r : AerReport) : State := { s with dev := { s.dev with aer := s.dev.aer ++ [r] } }

/-- HOST_WRITE (R122): bytes written through BAR2, in order: only once DT is later than the GWCT of the write before. One that reaches no
address that it may reach is dropped and reported (R405). -/
def execHostWrite (a : Nat) (bs : List Nat) (s : State) : Answer :=
  let pa := s.barAddr a
  let cells := wholeCells pa (bs.map (BitVec.ofNat 8))
  if s.hostReaches pa bs.length = false then .next (s.aerReport .unsupportedRequest)
  else if s.hostSettled = false then .next s
  else
    let g := gwctOf s.mem s.dt cells
    let s1 := s.writeAtHome none cells none
    .next { s1 with dev := { s1.dev with fences := tabPut s1.dev.fences 3 g } }

/-- Lines of memory read at their homes, with no lease. -/
def State.touchLines (s : State) (a n : Nat) : State :=
  { s with mem := (linesOf (wholeCells a (s.store.readBytes a n))).foldl (fun ms l => l2Touch ms s.dt l false) s.mem }

/-- A read completion for the host: its data, and whether EP is set. -/
def State.hostAnswer (s : State) (bs : List Nat) (ep : Bool) : State := { s with dev := { s.dev with hostReply := (bs, ep) } }

/-- HOST_READ (R405): the bytes go to the host, with EP set and a report where a word is poisoned; the word stays poisoned. A read that
reaches no address that it may reach completes with ones. -/
def execHostRead (a n : Nat) (s : State) : Answer :=
  let pa := s.barAddr a
  if s.hostReaches pa n = false then
    .next ((s.hostAnswer (List.replicate n 255) false).aerReport .unsupportedRequest)
  else
    let ep := s.store.poisoned pa n
    let s1 := (s.touchLines pa n).hostAnswer ((s.store.readBytes pa n).map BitVec.toNat) ep
    .next (if ep then s1.aerReport .poisonedTlp else s1)

/-- CP_FENCE (R121): the wait of a FENCE whose predecessor set holds W ends once DT is later than the latest GWCT of the processor's
stores, and every one to a peer is acknowledged, as a release at SYSTEM scope asks (R111, R124). Until then the processor's later
accesses are held. -/
def execCpFence (who : Nat) (s : State) : Answer :=
  let d := s.dev
  .next (if tabGet d.fences 0 who < s.dt ∧ d.cpPeer.all (fun x => x.1 != who) = true then
      { s with dev := { d with fences := tabDel d.fences who, fencing := memberDel d.fencing who } }
    else { s with dev := { d with fencing := memberAdd d.fencing who } })

/-! ### Peers and reduction windows (R124, R125, R406 to R408) -/

/-- Memory of this device that a peer reaches at an offset of its window (R43). -/
def State.peerReaches (s : State) (a n : Nat) : Bool := decide (a + n ≤ devBase) && s.hostReaches a n

/-- One RMW at a home for another agent: a poisoned word is read and left as it is. -/
def State.homeRmw (s : State) (a n : Nat) (f : Nat → Nat) : State :=
  if s.store.poisoned a n then s.touchLines a n else s.writeAtHome none (wholeCells a (bytesOf (f (s.store.readNat a n)) n)) none

/-- GWCT of a write of n bytes at a place (R108). -/
def State.gwctAt (s : State) (a n : Nat) : Nat := gwctOf s.mem s.dt (wholeCells a (List.replicate n 0))

/-- A peer's write or RMW performed here is acknowledged once DT is later than its GWCT (R124): those still owed. -/
def State.owePeer (s : State) (g : Nat) : State :=
  { s with dev := { s.dev with peerOwed := s.dev.peerOwed.filter (fun x => decide (s.dt ≤ x)) ++ [g] } }

/-- PEER_ACCESS (R124): op 0 is a load of n bytes, 1 a store, 2 + i an RMW with operation i of R287 on 4 or 8 bytes, and 14 a
compare and swap whose compare value stands above the new one. -/
def execPeerAccess (op a n v : Nat) (s : State) : Answer :=
  if s.peerReaches a n = false then .next s
  else
    match op with
    | 0 => .next (s.touchLines a n)
    | 1 => .next ((s.writeAtHome none (wholeCells a (bytesOf v n)) none).owePeer (s.gwctAt a n))
    | 14 =>
      let cmp := v / 2 ^ (8 * n) % 2 ^ (8 * n)
      let s1 := if s.store.readNat a n = cmp then s.homeRmw a n (fun _ => v % 2 ^ (8 * n))
        else (s.touchLines a n).markConflicts none (linesOf (wholeCells a (List.replicate n 0)))
      .next (s1.owePeer (s.gwctAt a n))
    | _ =>
      .next (if op < 14 then
        (s.homeRmw a n (fun m => atomOp (op - 2) (8 * n) m (v % 2 ^ (8 * n)))).owePeer (s.gwctAt a n) else s)

/-- The operation and bytes of an OP of R408. -/
def rwinOp (op : Nat) : Nat × Nat :=
  match op with
  | 0 => (1, 4)
  | 1 => (1, 8)
  | 2 => (9, 4)
  | 3 => (5, 8)
  | 4 => (7, 8)
  | 5 => (8, 8)
  | _ => (3, 8)

/-- A location after contributions that a switch has merged, rounding after each addition (R125). -/
def merged (op n : Nat) (vs : List Nat) (m : Nat) : Nat :=
  match vs with
  | [] => m
  | v :: rest => atomOp op n m (rest.foldl (fun x y => atomOp op n x (y % 2 ^ n)) (v % 2 ^ n))

/-- REDUCTION_MERGED_WRITE (R125): the contributions reach the home of window r at an offset as one write, merged in the
switch in the order in which they met; then the result is applied once, and each contributor is acknowledged under R124. -/
def execReductionMergedWrite (r off : Nat) (vs : List Nat) (s : State) : Answer :=
  let w := tabGet s.dev.rwinBase 0 r
  let o := rwinOp (bits w 62 59)
  let a := bits w 47 12 * 4096 + off
  if bit w 63 = false ∨ bits w 57 56 ≠ s.dev.galSelf ∨ tabGet s.dev.rwinSize 0 r * 4096 < off + o.2 ∨ off % o.2 ≠ 0
      ∨ s.peerReaches a o.2 = false then .next s
  else .next (vs.foldl (fun t _ => t.owePeer (s.gwctAt a o.2)) (s.homeRmw a o.2 (merged o.1 (8 * o.2) vs)))

/-- The peer of an address of a window. -/
def peerOf (a : Nat) : Nat := (a - 2 ^ 47) / 2 ^ 43

/-- An access to a lost peer logged (R79, R407): unit 14, the peer, and the address in the peer's own map. -/
def State.logPeer (s : State) (d a : Nat) : State := s.logFar 0 1 14 (d % 4) ((a - 2 ^ 47) % 2 ^ 43)

/-- A write on its way goes to a peer. -/
def PWrite.toPeer (p : PWrite) (d : Nat) : Option Nat :=
  match p.cells with
  | [] => none
  | c :: _ => if isPeer c.1 = true ∧ peerOf c.1 = d then some c.1 else none

/-- The addresses of the writes of a list that go to a peer. -/
def lostWrites (out : List PWrite) (acks : List Nat) (d : Nat) : List Nat :=
  out.filterMap (fun p => p.toPeer d) ++ acks.filter (fun a => peerOf a == d)

/-- The bytes that a load has asked of a lost peer return marked poisoned (R407). -/
def Sent.loseTo (x : Sent) (d : Nat) : Sent :=
  { x with got := x.got ++ x.accs.flatMap (fun a => (a.keys.filter (fun k => isPeer k.1 && peerOf k.1 == d
      && (gotAt x.got a.lane k.1).isNone)).map (fun k => (a.lane, k.1, (0, true)))) }

/-- A wave's accesses to a lost peer: writes are dropped and count as acknowledged, and loads return poison (R407). -/
def State.settleWave (s : State) (d w : Nat) : State :=
  let v := s.wave w
  let lost := lostWrites v.out v.peerOut d
  let s1 := s.setWave w { v with
    out := v.out.filter (fun p => (p.toPeer d).isNone), peerOut := v.peerOut.filter (fun a => peerOf a != d)
    held := v.held.map (fun h => { h with load := h.load.map (fun x => x.loseTo d) }) }
  lost.foldl (fun t a => t.logPeer d a) s1

/-- An account's accesses to a lost peer. -/
def State.settleAccount (s : State) (d a : Nat) : State :=
  let v := s.account a
  let lost := lostWrites v.out v.peerOut d
  let s1 := s.setAccount a { v with
    out := v.out.filter (fun p => (p.toPeer d).isNone), peerOut := v.peerOut.filter (fun x => peerOf x != d) }
  lost.foldl (fun t x => t.logPeer d x) s1

/-- PEER_UNREACHABLE (R406, R407): peer d, for d below 4; a larger d is peer d mod 4 of which port d / 4 - 1 is no longer trained, and a
port numbered 4 or more is none. -/
def execPeerUnreachable (n : Nat) (s0 : State) : Answer :=
  let d := n % 4
  let port := n / 4 - 1
  let s := if 4 ≤ n ∧ bit s0.dev.galLinkup port = true ∧ port < 4 then
    { s0 with dev := { s0.dev with galLinkup := s0.dev.galLinkup - 2 ^ port } } else s0
  if bit s.dev.galPresent d = false then .next s
  else
    let s1 := { s with dev := { s.dev with galPresent := s.dev.galPresent - 2 ^ d } }
    let s2 := (s1.waves.map (fun e => e.1)).foldl (fun t w => t.settleWave d w) s1
    let s3 := { s2 with dev := { s2.dev with cpPeer := s2.dev.cpPeer.filter (fun x => peerOf x.2 != d) } }
    let s4 := (s2.dev.cpPeer.filter (fun x => peerOf x.2 == d)).foldl (fun t x => t.logPeer d x.2) s3
    .next ((s4.mem.accounts.map (fun e => e.1)).foldl (fun t a => t.settleAccount d a) s4)

/-- PEER_REACHABLE (R406): a port trains, and another device becomes reachable. -/
def execPeerReachable (d port : Nat) (s : State) : Answer :=
  let g := s.dev
  .next { s with dev := { g with
    galLinkup := g.galLinkup ||| 2 ^ (port % 4), galPresent := if d < 4 ∧ d ≠ g.galSelf then g.galPresent ||| 2 ^ d else g.galPresent } }

/-! ### Starts (R413, R414) -/

/-- A vault after a cold start (R85): the rows that the built-in test finds failing, and those that showed four corrected errors, join
the repair map, each once, the row at place i on spare i; with more rows than spares it is out of service. -/
def coldVault (x : Vault) (failing : List Nat) : Vault :=
  let rows := (((x.rowErrs.filter (fun e => decide (4 ≤ e.2))).map (fun e => e.1)) ++ failing).foldl
    (fun l r => if l.contains r then l else l ++ [r]) x.repair
  { Vault.reset with repair := rows, out := x.out || decide (128 < rows.length) }

/-- Vaults out of service are logged (R85; the record's fields are the model's choice, log entry 46). -/
def State.logVaultsOut (s : State) : State :=
  ((List.range 32).filter (fun v => (s.vault v).out)).foldl (fun t v => t.logFar v 1 12 0 (t.vaultAddr v 0)) s

/-- A cold start (R413): DT restarts at 0; what lies outside the machine's registers stays, the stored firmware, the enrolled keys and
the repair map. The signature of the stored firmware is checked. A subchannel that fails its training puts the external window out of service, and the host is told (R87). -/
def State.coldStart (s : State) : State :=
  let out := !(List.range 16).all (Config.trains s.free)
  State.logVaultsOut { State.reset with
    agenda := s.agenda, free := s.free + 1
    mem := { MemSys.reset with
      vaults := (List.range 32).map (fun v => (v, coldVault (s.vault v) (Config.failingRows s.free v))), dramOut := out }
    dev := { DevRegs.reset with
      ownerKeys := s.dev.ownerKeys, firmware := s.dev.firmware, fwOk := Config.firmwareStands s.free s.dev.firmware
      reports := if out then [.externalOut] else [] } }

/-- A cluster after a warm start: its error logs and its energy are kept (R414). -/
def ClusterSt.warm (c : ClusterSt) : ClusterSt :=
  { ClusterSt.reset with nearErr := c.nearErr, nearCe := c.nearCe, energy := c.energy }

/-- A vault after a warm start: the repair map is kept. -/
def Vault.warm (x : Vault) : Vault := { Vault.reset with repair := x.repair, rowErrs := x.rowErrs, out := x.out }

/-- A warm start (R413, R414): every launch ends and every queue is empty with no record; memory stays, the weight store is
cleared, DT counts on; a cached image stays while its module verifies (R249). The signature of the stored firmware is checked. -/
def State.warmStart (s : State) : State :=
  let store := s.store.zero (2 ^ 52) (2 ^ 52)
  { State.reset with
    dt := s.dt, agenda := s.agenda, free := s.free + 1
    clusters := s.clusters.map (fun e => (e.1, e.2.warm))
    mem := { MemSys.reset with
      store := { store with armed := [] }, farErr := s.mem.farErr, dramOut := s.mem.dramOut
      vaults := s.mem.vaults.map (fun e => (e.1, e.2.warm)) }
    sched := { SchedRegs.reset with takeovers := s.sched.takeovers, standbyOk := s.sched.standbyOk }
    power := { PowerRegs.reset with
      killWindow := s.power.killWindow, hold := s.power.hold, droopLimit := s.power.droopLimit
      energyDev := s.power.energyDev, energyHigh := s.power.energyHigh, energyLow := s.power.energyLow }
    dev := { DevRegs.reset with
      coreLo := s.dev.coreLo, coreHi := s.dev.coreHi, intlv := s.dev.intlv, placedOnce := s.dev.placedOnce
      rwinBase := s.dev.rwinBase, rwinSize := s.dev.rwinSize, ownerKeys := s.dev.ownerKeys, translator := s.dev.translator
      firmware := s.dev.firmware, fwOk := Config.firmwareStands s.free s.dev.firmware, warm := true, loader := s.dev.loader, reserve := s.dev.reserve, reports := s.dev.reports
      images := s.dev.images.filter s.imageStands } }

/-- COLD_START (R413). -/
def execColdStart (s : State) : Answer := .next s.coldStart

/-- MGMT_WATCHDOG_WARM_START (R413). -/
def execMgmtWatchdogWarmStart (s : State) : Answer := .next s.warmStart

/-! ### The mailbox (R409 to R412) -/

/-- A command of MBOX runs and has not acted; a management core without its firmware answers only LOAD_FIRMWARE. -/
def State.mboxRuns (s : State) (cmd : Nat) : Bool :=
  s.dev.mboxBusy && !s.dev.mboxDone && !s.fenced 2 && s.dev.mboxGo.1 == cmd && (cmd == 4 || s.dev.fwOk)

/-- A command has acted with a status. -/
def State.mboxStatus (s : State) (st : Nat) : State := { s with dev := { s.dev with mboxDone := true, mboxStatus := st } }

/-- The bytes over which ATTEST signs (R411). -/
def State.report (s : State) (nonce : List Byte) : List Byte :=
  nonce ++ bytesOf s.dev.firmware 64 ++ bytesOf s.dev.translator 64
    ++ bytesOf (shake256 ((s.dev.ownerKeys.flatMap (fun k => bytesOf k 32)).map BitVec.toNat)) 64
    ++ bytesOf s.dev.coreLo 8 ++ bytesOf s.dev.coreHi 8 ++ bytesOf s.dt 8 ++ bytesOf (if s.dev.warm then 1 else 0) 4 ++ bytesOf 0 4

/-- ATTEST (R411): the report replaces the nonce in the command buffer. -/
def execAttest (s0 : State) : Answer :=
  if s0.mboxRuns 0 = false then .next s0
  else
    let a := s0.dev.mboxGo.2
    let s := if a % 64 = 0 then s0.ctlTouch a 32 else s0
    if a % 64 ≠ 0 ∨ s.ctlReadable a 3568 = false then .next (s.mboxStatus 2)
    else
      let r := s.report (s.store.readBytes a 32)
      let sig := (Config.deviceSignature (r.map BitVec.toNat) ++ List.replicate 3309 0).take 3309
      .next ((s.ctlWrite 2 a (r ++ sig.map (BitVec.ofNat 8) ++ bytesOf 0 3)).mboxStatus 0)

/-- A signed image in a command buffer: its length in bytes 0 to 7, the image from byte 64 on, then its signature block (R248).
The image and its status: 1 SIG_ERROR unless an Onwegar root key signed it, 2 FORM_ERROR. -/
def State.signedImage (s : State) (a : Nat) : Except Nat (List Byte) :=
  if a % 64 ≠ 0 ∨ s.ctlReadable a 64 = false then .error 2
  else
    let n := s.store.readNat a 8
    if n = 0 ∨ s.ctlReadable (a + 64) (n + 3344) = false then .error 2
    else
      let img := s.store.readBytes (a + 64) n
      if sigOk [] img (s.store.readBytes (a + 64 + n) 3344) then .ok img else .error 1

/-- The L2 notes that the management core reads a command buffer with a signed image (R72). -/
def State.touchImage (s : State) (a : Nat) : State :=
  if a % 64 ≠ 0 then s
  else if s.ctlReadable a 64 = false then s.ctlTouch a 64
  else (s.ctlTouch a 64).ctlTouch (a + 64) (s.store.readNat a 8 + 3344)

/-- LOAD_TRANSLATOR (R409, R410). -/
def execLoadTranslator (s0 : State) : Answer :=
  if s0.mboxRuns 1 = false then .next s0
  else
    let s := s0.touchImage s0.dev.mboxGo.2
    match s.signedImage s.dev.mboxGo.2 with
    | .error st => .next (s.mboxStatus st)
    | .ok img =>
      .next ({ s with dev := { s.dev with translator := shake256 (img.map BitVec.toNat) } }.mboxStatus 0)

/-- ENROLL (R410): a record signed with a root key enrols (byte 32 is 0) or revokes the owner key of bytes 0 to 31; a ninth key is
FORM_ERROR. -/
def execEnroll (s0 : State) : Answer :=
  if s0.mboxRuns 2 = false then .next s0
  else
    let s := s0.touchImage s0.dev.mboxGo.2
    match s.signedImage s.dev.mboxGo.2 with
    | .error st => .next (s.mboxStatus st)
    | .ok img =>
      let key := fld img 0 32
      let ks := s.dev.ownerKeys
      if img.length ≠ 64 ∨ 1 < fld img 32 1 then .next (s.mboxStatus 2)
      else if fld img 32 1 = 1 then .next ({ s with dev := { s.dev with ownerKeys := memberDel ks key } }.mboxStatus 0)
      else if ks.contains key = false ∧ 8 ≤ ks.length then .next (s.mboxStatus 2)
      else .next ({ s with dev := { s.dev with ownerKeys := memberAdd ks key } }.mboxStatus 0)

/-- WARM_START (R412, R413). -/
def execWarmStart (s : State) : Answer := .next (if s.mboxRuns 3 then s.warmStart else s)

/-- LOAD_FIRMWARE (R412): an image that verifies is stored, and the device starts cold, with firmware that passes. -/
def execLoadFirmware (s0 : State) : Answer :=
  if s0.mboxRuns 4 = false then .next s0
  else
    let s := s0.touchImage s0.dev.mboxGo.2
    match s.signedImage s.dev.mboxGo.2 with
    | .error st => .next (s.mboxStatus st)
    | .ok img =>
      let t := { s with dev := { s.dev with firmware := shake256 (img.map BitVec.toNat) } }.coldStart
      .next { t with dev := { t.dev with fwOk := true } }

/-- MBOX_COMMAND_COMPLETE (R412). -/
def execMboxCommandComplete (s : State) : Answer :=
  .next (if s.dev.mboxBusy = true ∧ s.dev.mboxDone = true then { s with dev := { s.dev with mboxBusy := false, mboxDone := false } } else s)

end Sys2Proof.Machine
end

