-- ==== Sys2Proof/Machine/Predicate.lean ====
section
/-! DEFINITION. Predicates, compares and cross-lane instructions (class 4; R267 to R273). -/

namespace Sys2Proof.Machine

open Sys2Proof

/-- PAND (R267). -/
def execPand (o : Sys2Proof.P3) (s : State) : Answer :=
  s.prdWord { mark := o.mark, g := o.g, legal := true, reads := [], writes := [] } o.d
    (fun w _ t => s.readPrdN w t o.a o.an 1 && s.readPrdN w t o.b o.bn 2)

/-- POR (R267). -/
def execPor (o : Sys2Proof.P3) (s : State) : Answer :=
  s.prdWord { mark := o.mark, g := o.g, legal := true, reads := [], writes := [] } o.d
    (fun w _ t => s.readPrdN w t o.a o.an 1 || s.readPrdN w t o.b o.bn 2)

/-- PXOR (R267). -/
def execPxor (o : Sys2Proof.P3) (s : State) : Answer :=
  s.prdWord { mark := o.mark, g := o.g, legal := true, reads := [], writes := [] } o.d
    (fun w _ t => s.readPrdN w t o.a o.an 1 != s.readPrdN w t o.b o.bn 2)

/-- PANDN (R267). -/
def execPandn (o : Sys2Proof.P3) (s : State) : Answer :=
  s.prdWord { mark := o.mark, g := o.g, legal := true, reads := [], writes := [] } o.d
    (fun w _ t => s.readPrdN w t o.a o.an 1 && !s.readPrdN w t o.b o.bn 2)

/-- PNOT (R267). -/
def execPnot (o : Sys2Proof.P2) (s : State) : Answer :=
  s.prdWord { mark := o.mark, g := o.g, legal := true, reads := [], writes := [] } o.d
    (fun w _ t => !s.readPrdN w t o.a o.an 1)

/-- PSET (R267). -/
def execPset (o : Sys2Proof.Pset) (s : State) : Answer :=
  s.prdWord { mark := o.mark, g := o.g, legal := true, reads := [], writes := [] } o.d
    (fun _ _ _ => o.v)

/-- PBIT (R267). -/
def execPbit (o : Sys2Proof.Pbit) (s : State) : Answer :=
  s.prdWord { mark := o.mark, g := o.g, legal := decide (o.b < 4 * o.a.width), reads := [o.a], writes := [] } o.d
    (fun w _ t => bit (s.opnd w t o.a) o.b)

/-- PTON (R267); CC is unchanged. -/
def execPton (o : Sys2Proof.Pton) (s : State) : Answer :=
  s.shortWord { mark := o.mark, g := o.g, legal := true, reads := [], writes := [o.d] }
    (fun w _ t => [(o.d, if s.readPrdN w t o.a o.an 1 then 1 else 0)])

/-- The elements of a comparison, combined by RED (R268). -/
def cmpElems (red e wd : Nat) (f : Nat → Nat → Bool) (a b : Nat) : Bool :=
  if red = 1 then (List.range (wd / e)).any (fun j => f (elem e a j) (elem e b j))
  else (List.range (wd / e)).all (fun j => f (elem e a j) (elem e b j))

/-- CMP_VV (R268). -/
def execCmpVV (o : Sys2Proof.CmpVV) (s : State) : Answer :=
  s.prdWord
    { mark := o.mark, g := o.g, legal := decide (o.cond < 6) && decide (o.red < 2) && decide (o.a.width % intE o.nib = 0)
      reads := [o.a, ({ start := o.b, width := o.a.width } : Slc)], writes := [] } o.d
    (fun w _ t => cmpElems o.red (intE o.nib) o.a.width (cmpInt o.cond (4 * intE o.nib) o.uns) (s.opnd w t o.a) (s.opnd w t ({ start := o.b, width := o.a.width } : Slc) 1))

/-- CMP_VS (R268). -/
def execCmpVS (o : Sys2Proof.CmpVS) (s : State) : Answer :=
  s.prdWord
    { mark := o.mark, g := o.g, legal := decide (o.cond < 6) && decide (o.red < 2) && decide (o.a.width % intE o.nib = 0)
        && widenOk o.ext (intE o.nib) o.a.width
      reads := [o.a], writes := [] } o.d
    (fun w _ t => cmpElems o.red (intE o.nib) o.a.width (cmpInt o.cond (4 * intE o.nib) o.uns) (s.opnd w t o.a) (s.srcS o.s (intE o.nib) o.ext o.a.width))

/-- CMP_VI (R268). -/
def execCmpVI (o : Sys2Proof.CmpVI) (s : State) : Answer :=
  s.prdWord
    { mark := o.mark, g := o.g, legal := decide (o.cond < 6) && decide (o.red = 0) && immOk o.ext (intE o.nib)
      reads := [({ start := o.a, width := intE o.nib } : Slc)], writes := [] } o.d
    (fun w _ t => cmpElems o.red (intE o.nib) (intE o.nib) (cmpInt o.cond (4 * intE o.nib) o.uns) (s.opnd w t ({ start := o.a, width := intE o.nib } : Slc)) (widenImm o.ext o.imm (intE o.nib)))

/-- FCMP_VV (R268). -/
def execFcmpVV (o : Sys2Proof.CmpVV) (s : State) : Answer :=
  s.prdWord
    { mark := o.mark, g := o.g, legal := decide (o.red < 2) && !o.uns && floatOk o.nib && o.nib % 4 == 0 && decide (o.a.width % floatE o.nib = 0)
      reads := [o.a, ({ start := o.b, width := o.a.width } : Slc)], writes := [] } o.d
    (fun w _ t => cmpElems o.red (floatE o.nib) o.a.width (cmpFloat o.cond (fmtOf (o.nib / 4))) (s.opnd w t o.a) (s.opnd w t ({ start := o.b, width := o.a.width } : Slc) 1))

/-- FCMP_VS (R268). -/
def execFcmpVS (o : Sys2Proof.CmpVS) (s : State) : Answer :=
  s.prdWord
    { mark := o.mark, g := o.g, legal := decide (o.red < 2) && !o.uns && floatOk o.nib && o.nib % 4 == 0 && decide (o.a.width % floatE o.nib = 0)
        && widenOk o.ext (floatE o.nib) o.a.width
      reads := [o.a], writes := [] } o.d
    (fun w _ t => cmpElems o.red (floatE o.nib) o.a.width (cmpFloat o.cond (fmtOf (o.nib / 4))) (s.opnd w t o.a) (s.srcS o.s (floatE o.nib) o.ext o.a.width))

/-- The operand A of another lane; a lane that is not active gives zero (R269, R270). -/
def State.laneOpnd (s : State) (w : Nat) (g : Guard) (a : Slc) (src : Nat) : Nat :=
  match (s.activeLanes w g).find? (fun e => e.1 == src) with
  | none => 0
  | some e => s.opnd w e.2 a

/-- SHFL (R270). -/
def execShfl (o : Sys2Proof.Shfl) (s : State) : Answer :=
  s.longWord
    { mark := o.mark, g := o.g, legal := decide (o.d.width = o.a.width), reads := [o.a, o.b], writes := [o.d] }
    (fun w _ t => [(o.d, s.laneOpnd w o.g o.a (s.opnd w t o.b 1))])

/-- SHFLX (R270). -/
def execShflx (o : Sys2Proof.ShflI) (s : State) : Answer :=
  s.longWord
    { mark := o.mark, g := o.g, legal := decide (o.d.width = o.a.width), reads := [o.a], writes := [o.d] }
    (fun w l _ => [(o.d, s.laneOpnd w o.g o.a (l ^^^ o.imm))])

/-- BCAST (R270). -/
def execBcast (o : Sys2Proof.ShflI) (s : State) : Answer :=
  s.longWord
    { mark := o.mark, g := o.g, legal := decide (o.d.width = o.a.width), reads := [o.a], writes := [o.d] }
    (fun w _ _ => [(o.d, s.laneOpnd w o.g o.a o.imm)])

/-- The element width of a reduction descriptor (R271). -/
def redE (o : Sys2Proof.Red) : Nat := if o.flt then floatE o.nib else intE o.nib

/-- The limits of REDUCE and SCAN (R271). -/
def redOk (o : Sys2Proof.Red) : Bool :=
  decide (o.d.width = o.a.width) && decide (o.d.width % redE o = 0)
    && (if o.flt then floatOk o.nib && decide (o.op < 3) && !o.uns else decide (o.op < 6))

/-- The operands of the active lanes, combined in ascending order: what each lane of an inclusive SCAN gets (R271). -/
def State.scanList (s : State) (w : Nat) (o : Sys2Proof.Red) : List Nat :=
  runCombine (combine o.flt o.uns o.op o.nib (4 * redE o)) (redE o) (o.d.width / redE o) none
    ((s.activeLanes w o.g).map (fun e => s.opnd w e.2 o.a))

/-- The position of a lane among the active ones. -/
def lanePos (act : List (Nat × Nat)) (l : Nat) : Nat := (act.filter (fun e => decide (e.1 < l))).length

/-- REDUCE (R271). -/
def execReduce (o : Sys2Proof.Red) (s : State) : Answer :=
  s.longWord { mark := o.mark, g := o.g, legal := redOk o && !o.excl, reads := [o.a], writes := [o.d] }
    (fun w _ _ => [(o.d, (s.scanList w o).getLastD 0)])

/-- SCAN (R271). -/
def execScan (o : Sys2Proof.Red) (s : State) : Answer :=
  s.longWord { mark := o.mark, g := o.g, legal := redOk o, reads := [o.a], writes := [o.d] }
    (fun w l _ =>
      let i := lanePos (s.activeLanes w o.g) l
      let ident := joinElems (redE o) (List.replicate (o.d.width / redE o)
        (scanIdentity o.flt o.uns o.op o.nib (4 * redE o)))
      [(o.d, if o.excl then (if i = 0 then ident else (s.scanList w o).getD (i - 1) 0) else (s.scanList w o).getD i 0)])

/-- The result of VOTE over the active lanes (R272). -/
def State.voteVal (s : State) (w : Nat) (act : List (Nat × Nat)) (a : Nat) (an : Bool) (mode : Nat) : Bool :=
  let xs := act.map (fun e => s.readPrdN w e.2 a an 1)
  match mode with
  | 0 => xs.all (fun x => x)
  | 1 => xs.any (fun x => x)
  | _ => xs.all (fun x => x) || xs.all (fun x => !x)

/-- VOTE (R272): long-class; with no active lane it writes nothing (R269). MZ is the one that the result's write leaves, since
every read of CC waits for that write (R195, R276): an earlier VOTE, with the same latency (R252), has been written by then. -/
def execVote (o : Sys2Proof.Vote) (s : State) : Answer :=
  s.onWave (fun w =>
    s.issueLanes w { mark := o.mark, g := o.g, legal := decide (o.mode < 3), reads := [], writes := [] } (fun act =>
      if act = [] then s.finish w o.mark
      else
      let v := s.voteVal w act o.a o.an o.mode
      let mz := o.d != 0 && (s.occupied w).all (fun e => if act.contains e then !v else !s.lastPrd w e.2 o.d)
      let s1 := s.setCc w { (s.wave w).cc with mz := mz }
      let s2 := if o.d = 0 then s1 else s1.addLong w { cells := [], prds := act.map (fun e => (e.2, o.d, v)) }
      s2.finish w o.mark))

/-- The active lanes in which a predicate is true (R273). -/
def State.trueLanes (s : State) (w : Nat) (o : Sys2Proof.Pgat) : List (Nat × Nat) :=
  (s.activeLanes w o.g).filter (fun e => s.readPrdN w e.2 o.a o.an 1)

/-- BALLOT (R273). -/
def execBallot (o : Sys2Proof.Pgat) (s : State) : Answer :=
  s.onWave (fun w => s.unlessSpec w ((s.setSReg o.d (laneMask (s.trueLanes w o))).finish w o.mark))

/-- PFIRST (R273). -/
def execPfirst (o : Sys2Proof.Pgat) (s : State) : Answer :=
  s.onWave (fun w => s.unlessSpec w ((s.setSReg o.d ((s.trueLanes w o).headD (32, 0)).1).finish w o.mark))

/-- PCOUNT (R273). -/
def execPcount (o : Sys2Proof.Pgat) (s : State) : Answer :=
  s.onWave (fun w => s.unlessSpec w ((s.setSReg o.d (s.trueLanes w o).length).finish w o.mark))


end Sys2Proof.Machine
end

