-- ==== Sys2Proof/Machine/Scalar.lean ====
section
/-! DEFINITION. The scalar instructions (class 0; R254, R255): one meaning each over the shared scalar form. -/

namespace Sys2Proof.Machine

open Sys2Proof

/-- SADD_REG (R254). -/
def execSaddReg (o : Sys2Proof.SReg) (s : State) : Answer :=
  s.scalarWord o.mark (some o.d) (saddRes (s.sReg o.a) (s.sReg o.b))

/-- SADD_IMM (R254). -/
def execSaddImm (o : Sys2Proof.SImm) (s : State) : Answer :=
  s.scalarWord o.mark (some o.d) (saddRes (s.sReg o.a) (scalarImm o.imm))

/-- SSUB_REG (R254). -/
def execSsubReg (o : Sys2Proof.SReg) (s : State) : Answer :=
  s.scalarWord o.mark (some o.d) (ssubRes (s.sReg o.a) (s.sReg o.b))

/-- SSUB_IMM (R254). -/
def execSsubImm (o : Sys2Proof.SImm) (s : State) : Answer :=
  s.scalarWord o.mark (some o.d) (ssubRes (s.sReg o.a) (scalarImm o.imm))

/-- SMUL_REG (R254). -/
def execSmulReg (o : Sys2Proof.SReg) (s : State) : Answer :=
  s.scalarWord o.mark (some o.d) (smulRes (s.sReg o.a) (s.sReg o.b))

/-- SMUL_IMM (R254). -/
def execSmulImm (o : Sys2Proof.SImm) (s : State) : Answer :=
  s.scalarWord o.mark (some o.d) (smulRes (s.sReg o.a) (scalarImm o.imm))

/-- SMULH_REG (R254). -/
def execSmulhReg (o : Sys2Proof.SReg) (s : State) : Answer :=
  s.scalarWord o.mark (some o.d) (ScalarRes.plain (mulhElem 64 false (s.sReg o.a) (s.sReg o.b)))

/-- SMULH_IMM (R254). -/
def execSmulhImm (o : Sys2Proof.SImm) (s : State) : Answer :=
  s.scalarWord o.mark (some o.d) (ScalarRes.plain (mulhElem 64 false (s.sReg o.a) (scalarImm o.imm)))

/-- SMULHU_REG (R254). -/
def execSmulhuReg (o : Sys2Proof.SReg) (s : State) : Answer :=
  s.scalarWord o.mark (some o.d) (ScalarRes.plain (mulhElem 64 true (s.sReg o.a) (s.sReg o.b)))

/-- SMULHU_IMM (R254). -/
def execSmulhuImm (o : Sys2Proof.SImm) (s : State) : Answer :=
  s.scalarWord o.mark (some o.d) (ScalarRes.plain (mulhElem 64 true (s.sReg o.a) (scalarImm o.imm)))

/-- SDIV_REG (R254). -/
def execSdivReg (o : Sys2Proof.SReg) (s : State) : Answer :=
  s.scalarWord o.mark (some o.d) (ScalarRes.plain (divElem 64 false (s.sReg o.a) (s.sReg o.b)))

/-- SDIV_IMM (R254). -/
def execSdivImm (o : Sys2Proof.SImm) (s : State) : Answer :=
  s.scalarWord o.mark (some o.d) (ScalarRes.plain (divElem 64 false (s.sReg o.a) (scalarImm o.imm)))

/-- SDIVU_REG (R254). -/
def execSdivuReg (o : Sys2Proof.SReg) (s : State) : Answer :=
  s.scalarWord o.mark (some o.d) (ScalarRes.plain (divElem 64 true (s.sReg o.a) (s.sReg o.b)))

/-- SDIVU_IMM (R254). -/
def execSdivuImm (o : Sys2Proof.SImm) (s : State) : Answer :=
  s.scalarWord o.mark (some o.d) (ScalarRes.plain (divElem 64 true (s.sReg o.a) (scalarImm o.imm)))

/-- SREM_REG (R254). -/
def execSremReg (o : Sys2Proof.SReg) (s : State) : Answer :=
  s.scalarWord o.mark (some o.d) (ScalarRes.plain (remElem 64 false (s.sReg o.a) (s.sReg o.b)))

/-- SREM_IMM (R254). -/
def execSremImm (o : Sys2Proof.SImm) (s : State) : Answer :=
  s.scalarWord o.mark (some o.d) (ScalarRes.plain (remElem 64 false (s.sReg o.a) (scalarImm o.imm)))

/-- SREMU_REG (R254). -/
def execSremuReg (o : Sys2Proof.SReg) (s : State) : Answer :=
  s.scalarWord o.mark (some o.d) (ScalarRes.plain (remElem 64 true (s.sReg o.a) (s.sReg o.b)))

/-- SREMU_IMM (R254). -/
def execSremuImm (o : Sys2Proof.SImm) (s : State) : Answer :=
  s.scalarWord o.mark (some o.d) (ScalarRes.plain (remElem 64 true (s.sReg o.a) (scalarImm o.imm)))

/-- SAND_REG (R254). -/
def execSandReg (o : Sys2Proof.SReg) (s : State) : Answer :=
  s.scalarWord o.mark (some o.d) (ScalarRes.plain ((s.sReg o.a) &&& (s.sReg o.b)))

/-- SAND_IMM (R254). -/
def execSandImm (o : Sys2Proof.SImm) (s : State) : Answer :=
  s.scalarWord o.mark (some o.d) (ScalarRes.plain ((s.sReg o.a) &&& (scalarImm o.imm)))

/-- SOR_REG (R254). -/
def execSorReg (o : Sys2Proof.SReg) (s : State) : Answer :=
  s.scalarWord o.mark (some o.d) (ScalarRes.plain ((s.sReg o.a) ||| (s.sReg o.b)))

/-- SOR_IMM (R254). -/
def execSorImm (o : Sys2Proof.SImm) (s : State) : Answer :=
  s.scalarWord o.mark (some o.d) (ScalarRes.plain ((s.sReg o.a) ||| (scalarImm o.imm)))

/-- SXOR_REG (R254). -/
def execSxorReg (o : Sys2Proof.SReg) (s : State) : Answer :=
  s.scalarWord o.mark (some o.d) (ScalarRes.plain ((s.sReg o.a) ^^^ (s.sReg o.b)))

/-- SXOR_IMM (R254). -/
def execSxorImm (o : Sys2Proof.SImm) (s : State) : Answer :=
  s.scalarWord o.mark (some o.d) (ScalarRes.plain ((s.sReg o.a) ^^^ (scalarImm o.imm)))

/-- SSHL_REG (R254). -/
def execSshlReg (o : Sys2Proof.SReg) (s : State) : Answer :=
  s.scalarWord o.mark (some o.d) (ScalarRes.plain (shlElem 64 (s.sReg o.a) (s.sReg o.b)))

/-- SSHL_IMM (R254). -/
def execSshlImm (o : Sys2Proof.SImm) (s : State) : Answer :=
  s.scalarWord o.mark (some o.d) (ScalarRes.plain (shlElem 64 (s.sReg o.a) (scalarImm o.imm)))

/-- SSHR_REG (R254). -/
def execSshrReg (o : Sys2Proof.SReg) (s : State) : Answer :=
  s.scalarWord o.mark (some o.d) (ScalarRes.plain (shrElem 64 (s.sReg o.a) (s.sReg o.b)))

/-- SSHR_IMM (R254). -/
def execSshrImm (o : Sys2Proof.SImm) (s : State) : Answer :=
  s.scalarWord o.mark (some o.d) (ScalarRes.plain (shrElem 64 (s.sReg o.a) (scalarImm o.imm)))

/-- SSHA_REG (R254). -/
def execSshaReg (o : Sys2Proof.SReg) (s : State) : Answer :=
  s.scalarWord o.mark (some o.d) (ScalarRes.plain (shaElem 64 (s.sReg o.a) (s.sReg o.b)))

/-- SSHA_IMM (R254). -/
def execSshaImm (o : Sys2Proof.SImm) (s : State) : Answer :=
  s.scalarWord o.mark (some o.d) (ScalarRes.plain (shaElem 64 (s.sReg o.a) (scalarImm o.imm)))

/-- SMIN_REG (R254). -/
def execSminReg (o : Sys2Proof.SReg) (s : State) : Answer :=
  s.scalarWord o.mark (some o.d) (ScalarRes.plain (minMaxElem 64 false false (s.sReg o.a) (s.sReg o.b)))

/-- SMIN_IMM (R254). -/
def execSminImm (o : Sys2Proof.SImm) (s : State) : Answer :=
  s.scalarWord o.mark (some o.d) (ScalarRes.plain (minMaxElem 64 false false (s.sReg o.a) (scalarImm o.imm)))

/-- SMINU_REG (R254). -/
def execSminuReg (o : Sys2Proof.SReg) (s : State) : Answer :=
  s.scalarWord o.mark (some o.d) (ScalarRes.plain (minMaxElem 64 true false (s.sReg o.a) (s.sReg o.b)))

/-- SMINU_IMM (R254). -/
def execSminuImm (o : Sys2Proof.SImm) (s : State) : Answer :=
  s.scalarWord o.mark (some o.d) (ScalarRes.plain (minMaxElem 64 true false (s.sReg o.a) (scalarImm o.imm)))

/-- SMAX_REG (R254). -/
def execSmaxReg (o : Sys2Proof.SReg) (s : State) : Answer :=
  s.scalarWord o.mark (some o.d) (ScalarRes.plain (minMaxElem 64 false true (s.sReg o.a) (s.sReg o.b)))

/-- SMAX_IMM (R254). -/
def execSmaxImm (o : Sys2Proof.SImm) (s : State) : Answer :=
  s.scalarWord o.mark (some o.d) (ScalarRes.plain (minMaxElem 64 false true (s.sReg o.a) (scalarImm o.imm)))

/-- SMAXU_REG (R254). -/
def execSmaxuReg (o : Sys2Proof.SReg) (s : State) : Answer :=
  s.scalarWord o.mark (some o.d) (ScalarRes.plain (minMaxElem 64 true true (s.sReg o.a) (s.sReg o.b)))

/-- SMAXU_IMM (R254). -/
def execSmaxuImm (o : Sys2Proof.SImm) (s : State) : Answer :=
  s.scalarWord o.mark (some o.d) (ScalarRes.plain (minMaxElem 64 true true (s.sReg o.a) (scalarImm o.imm)))

/-- SCMP_REG (R254). -/
def execScmpReg (o : Sys2Proof.ScmpR) (s : State) : Answer :=
  s.scalarWord o.mark none (ssubRes (s.sReg o.a) (s.sReg o.b))

/-- SCMP_IMM (R254). -/
def execScmpImm (o : Sys2Proof.ScmpI) (s : State) : Answer :=
  s.scalarWord o.mark none (ssubRes (s.sReg o.a) (scalarImm o.imm))

/-- SMOV_REG (R254). -/
def execSmovReg (o : Sys2Proof.SmovR) (s : State) : Answer :=
  s.scalarWord o.mark (some o.d) (ScalarRes.plain (s.sReg o.b))

/-- SMOV_IMM (R254). -/
def execSmovImm (o : Sys2Proof.SmovI) (s : State) : Answer :=
  s.scalarWord o.mark (some o.d) (ScalarRes.plain (scalarImm o.imm))

/-- SPOPC (R255). -/
def execSpopc (o : Sys2Proof.S2) (s : State) : Answer :=
  s.scalarWord o.mark (some o.d) (ScalarRes.plain (popCount (s.sReg o.a) 64))

/-- SCLZ (R255). -/
def execSclz (o : Sys2Proof.S2) (s : State) : Answer :=
  s.scalarWord o.mark (some o.d) (ScalarRes.plain (clzElem 64 (s.sReg o.a)))

/-- The thread that SGET reads: that of the named lane, if the lane holds one (R255). -/
def State.sgetLane (s : State) (w lane : Nat) : List (Nat × Nat) := (s.occupied w).filter (fun e => e.1 == lane)

/-- SGET (R255): it reads the lane whether or not a guard would be true there; only that lane is checked. -/
def execSget (o : Sys2Proof.Sget) (s : State) : Answer :=
  s.onWave (fun w => s.unlessSpec w (
    let act := s.sgetLane w o.lane
    let pz := s.poisonLanes w act [o.a]
    if slcInFile o.a = false ∨ s.overQuota w act [o.a] = true then s.trapWord w .illegalOperand
    else if pz ≠ [] then s.takeTrap w (s.occupiedMask w) (TrapInfo.ofLanes pz)
    else
      let r := ScalarRes.plain (match act with
        | [] => 0
        | (_, t) :: _ => s.opnd w t o.a)
      ((s.setSReg o.d r.val).setCc w (ccOf (s.wave w).cc r)).finish w o.mark))

end Sys2Proof.Machine
end

