-- ==== Sys2Proof/Machine/VectorFloat.lean ====
section
/-! DEFINITION. The vector float instructions (class 2; R258, R259): rounding and specials are those of R209 and R210. -/

namespace Sys2Proof.Machine

open Sys2Proof

/-- A float type whose mode must be RNE (R258, R259). -/
def floatRne (nib : Nat) : Bool := floatOk nib && nib % 4 == 0

/-- .f32 under RNE alone (R259). -/
def float32Rne (nib : Nat) : Bool := nib == 0

/-- FABS of R259: the sign cleared; a NaN element becomes canonical. -/
def fabsBits (F : Fmt) (x : Nat) : Nat := if isNan (valOf F x) then canonNan F else x % 2 ^ (4 * fmtSlices F - 1)

/-- FNEG of R259: the sign inverted; a NaN element becomes canonical. -/
def fnegBits (F : Fmt) (x : Nat) : Nat := if isNan (valOf F x) then canonNan F else x ^^^ 2 ^ (4 * fmtSlices F - 1)

/-- FADD_VV (R258). -/
def execFaddVV (o : Sys2Proof.VV) (s : State) : Answer :=
  s.typedVV o (floatE o.nib) (floatOk o.nib) false false
    (fun x y _ => roundVal (fmtOf (o.nib / 4)) (rmodeOf o.nib) false (addVal (rmodeOf o.nib) (valOf (fmtOf (o.nib / 4)) x) (valOf (fmtOf (o.nib / 4)) y)))

/-- FADD_VS (R258). -/
def execFaddVS (o : Sys2Proof.VS) (s : State) : Answer :=
  s.typedVS o (floatE o.nib) (floatOk o.nib) false false
    (fun x y _ => roundVal (fmtOf (o.nib / 4)) (rmodeOf o.nib) false (addVal (rmodeOf o.nib) (valOf (fmtOf (o.nib / 4)) x) (valOf (fmtOf (o.nib / 4)) y)))

/-- FSUB_VV (R258). -/
def execFsubVV (o : Sys2Proof.VV) (s : State) : Answer :=
  s.typedVV o (floatE o.nib) (floatOk o.nib) false false
    (fun x y _ => roundVal (fmtOf (o.nib / 4)) (rmodeOf o.nib) false (addVal (rmodeOf o.nib) (valOf (fmtOf (o.nib / 4)) x) (negVal (valOf (fmtOf (o.nib / 4)) y))))

/-- FSUB_VS (R258). -/
def execFsubVS (o : Sys2Proof.VS) (s : State) : Answer :=
  s.typedVS o (floatE o.nib) (floatOk o.nib) false false
    (fun x y _ => roundVal (fmtOf (o.nib / 4)) (rmodeOf o.nib) false (addVal (rmodeOf o.nib) (valOf (fmtOf (o.nib / 4)) x) (negVal (valOf (fmtOf (o.nib / 4)) y))))

/-- FMUL_VV (R258). -/
def execFmulVV (o : Sys2Proof.VV) (s : State) : Answer :=
  s.typedVV o (floatE o.nib) (floatOk o.nib) false false
    (fun x y _ => roundVal (fmtOf (o.nib / 4)) (rmodeOf o.nib) false (mulVal (valOf (fmtOf (o.nib / 4)) x) (valOf (fmtOf (o.nib / 4)) y)))

/-- FMUL_VS (R258). -/
def execFmulVS (o : Sys2Proof.VS) (s : State) : Answer :=
  s.typedVS o (floatE o.nib) (floatOk o.nib) false false
    (fun x y _ => roundVal (fmtOf (o.nib / 4)) (rmodeOf o.nib) false (mulVal (valOf (fmtOf (o.nib / 4)) x) (valOf (fmtOf (o.nib / 4)) y)))

/-- FMA_VV (R258). -/
def execFmaVV (o : Sys2Proof.VV) (s : State) : Answer :=
  s.typedVV o (floatE o.nib) (floatOk o.nib) true false
    (fun x y z => roundVal (fmtOf (o.nib / 4)) (rmodeOf o.nib) false (addVal (rmodeOf o.nib) (mulVal (valOf (fmtOf (o.nib / 4)) x) (valOf (fmtOf (o.nib / 4)) y)) (valOf (fmtOf (o.nib / 4)) z)))

/-- FMA_VS (R258). -/
def execFmaVS (o : Sys2Proof.VS) (s : State) : Answer :=
  s.typedVS o (floatE o.nib) (floatOk o.nib) true false
    (fun x y z => roundVal (fmtOf (o.nib / 4)) (rmodeOf o.nib) false (addVal (rmodeOf o.nib) (mulVal (valOf (fmtOf (o.nib / 4)) x) (valOf (fmtOf (o.nib / 4)) y)) (valOf (fmtOf (o.nib / 4)) z)))

/-- FMIN_VV (R258). -/
def execFminVV (o : Sys2Proof.VV) (s : State) : Answer :=
  s.typedVV o (floatE o.nib) (floatRne o.nib) false false
    (fun x y _ => minMaxBits (fmtOf (o.nib / 4)) false x y)

/-- FMIN_VS (R258). -/
def execFminVS (o : Sys2Proof.VS) (s : State) : Answer :=
  s.typedVS o (floatE o.nib) (floatRne o.nib) false false
    (fun x y _ => minMaxBits (fmtOf (o.nib / 4)) false x y)

/-- FMAX_VV (R258). -/
def execFmaxVV (o : Sys2Proof.VV) (s : State) : Answer :=
  s.typedVV o (floatE o.nib) (floatRne o.nib) false false
    (fun x y _ => minMaxBits (fmtOf (o.nib / 4)) true x y)

/-- FMAX_VS (R258). -/
def execFmaxVS (o : Sys2Proof.VS) (s : State) : Answer :=
  s.typedVS o (floatE o.nib) (floatRne o.nib) false false
    (fun x y _ => minMaxBits (fmtOf (o.nib / 4)) true x y)

/-- FDIV_VV (R258). -/
def execFdivVV (o : Sys2Proof.VV) (s : State) : Answer :=
  s.typedVV o (floatE o.nib) (floatOk o.nib) false true
    (fun x y _ => divBits (fmtOf (o.nib / 4)) (rmodeOf o.nib) (valOf (fmtOf (o.nib / 4)) x) (valOf (fmtOf (o.nib / 4)) y))

/-- FDIV_VS (R258). -/
def execFdivVS (o : Sys2Proof.VS) (s : State) : Answer :=
  s.typedVS o (floatE o.nib) (floatOk o.nib) false true
    (fun x y _ => divBits (fmtOf (o.nib / 4)) (rmodeOf o.nib) (valOf (fmtOf (o.nib / 4)) x) (valOf (fmtOf (o.nib / 4)) y))

/-- FRCP_VV (R259). -/
def execFrcpVV (o : Sys2Proof.U1) (s : State) : Answer :=
  s.typedU o (floatE o.nib) (float32Rne o.nib) false (fun x => recipSeed x)

/-- FRCP_VS (R259). -/
def execFrcpVS (o : Sys2Proof.US) (s : State) : Answer :=
  s.typedUS o (floatE o.nib) (float32Rne o.nib) false (fun x => recipSeed x)

/-- FRSQ_VV (R259). -/
def execFrsqVV (o : Sys2Proof.U1) (s : State) : Answer :=
  s.typedU o (floatE o.nib) (float32Rne o.nib) false (fun x => rsqrtSeed x)

/-- FRSQ_VS (R259). -/
def execFrsqVS (o : Sys2Proof.US) (s : State) : Answer :=
  s.typedUS o (floatE o.nib) (float32Rne o.nib) false (fun x => rsqrtSeed x)

/-- FEX2_VV (R259). -/
def execFex2VV (o : Sys2Proof.U1) (s : State) : Answer :=
  s.typedU o (floatE o.nib) (float32Rne o.nib) true (fun x => fex2Value x)

/-- FEX2_VS (R259). -/
def execFex2VS (o : Sys2Proof.US) (s : State) : Answer :=
  s.typedUS o (floatE o.nib) (float32Rne o.nib) true (fun x => fex2Value x)

/-- FLG2_VV (R259). -/
def execFlg2VV (o : Sys2Proof.U1) (s : State) : Answer :=
  s.typedU o (floatE o.nib) (float32Rne o.nib) true (fun x => flg2Value x)

/-- FLG2_VS (R259). -/
def execFlg2VS (o : Sys2Proof.US) (s : State) : Answer :=
  s.typedUS o (floatE o.nib) (float32Rne o.nib) true (fun x => flg2Value x)

/-- FSIN_VV (R259). -/
def execFsinVV (o : Sys2Proof.U1) (s : State) : Answer :=
  s.typedU o (floatE o.nib) (float32Rne o.nib) true (fun x => sinValue x)

/-- FSIN_VS (R259). -/
def execFsinVS (o : Sys2Proof.US) (s : State) : Answer :=
  s.typedUS o (floatE o.nib) (float32Rne o.nib) true (fun x => sinValue x)

/-- FCOS_VV (R259). -/
def execFcosVV (o : Sys2Proof.U1) (s : State) : Answer :=
  s.typedU o (floatE o.nib) (float32Rne o.nib) true (fun x => cosValue x)

/-- FCOS_VS (R259). -/
def execFcosVS (o : Sys2Proof.US) (s : State) : Answer :=
  s.typedUS o (floatE o.nib) (float32Rne o.nib) true (fun x => cosValue x)

/-- FABS_VV (R259). -/
def execFabsVV (o : Sys2Proof.U1) (s : State) : Answer :=
  s.typedU o (floatE o.nib) (floatRne o.nib) false (fun x => fabsBits (fmtOf (o.nib / 4)) x)

/-- FABS_VS (R259). -/
def execFabsVS (o : Sys2Proof.US) (s : State) : Answer :=
  s.typedUS o (floatE o.nib) (floatRne o.nib) false (fun x => fabsBits (fmtOf (o.nib / 4)) x)

/-- FNEG_VV (R259). -/
def execFnegVV (o : Sys2Proof.U1) (s : State) : Answer :=
  s.typedU o (floatE o.nib) (floatRne o.nib) false (fun x => fnegBits (fmtOf (o.nib / 4)) x)

/-- FNEG_VS (R259). -/
def execFnegVS (o : Sys2Proof.US) (s : State) : Answer :=
  s.typedUS o (floatE o.nib) (floatRne o.nib) false (fun x => fnegBits (fmtOf (o.nib / 4)) x)

/-- FRINT_VV (R259). -/
def execFrintVV (o : Sys2Proof.U1) (s : State) : Answer :=
  s.typedU o (floatE o.nib) (floatOk o.nib) false (fun x => frintBits (fmtOf (o.nib / 4)) (rmodeOf o.nib) x)

/-- FRINT_VS (R259). -/
def execFrintVS (o : Sys2Proof.US) (s : State) : Answer :=
  s.typedUS o (floatE o.nib) (floatOk o.nib) false (fun x => frintBits (fmtOf (o.nib / 4)) (rmodeOf o.nib) x)

/-- FCLASS_VV (R259). -/
def execFclassVV (o : Sys2Proof.U1) (s : State) : Answer :=
  s.typedU o (floatE o.nib) (floatRne o.nib) false (fun x => fclassMask (fmtOf (o.nib / 4)) x)

/-- FCLASS_VS (R259). -/
def execFclassVS (o : Sys2Proof.US) (s : State) : Answer :=
  s.typedUS o (floatE o.nib) (floatRne o.nib) false (fun x => fclassMask (fmtOf (o.nib / 4)) x)


end Sys2Proof.Machine
end

