-- ==== Sys2Proof/Machine/VectorInt.lean ====
section
/-! DEFINITION. The vector integer instructions (class 1; R256, R257). -/

namespace Sys2Proof.Machine

open Sys2Proof

/-- ADD_VV (R256). -/
def execAddVV (o : Sys2Proof.VV) (s : State) : Answer :=
  s.typedVV o (intE o.nib) true false false
    (fun x y _ => (x + y) % 2 ^ (4 * intE o.nib))

/-- ADD_VS (R256). -/
def execAddVS (o : Sys2Proof.VS) (s : State) : Answer :=
  s.typedVS o (intE o.nib) true false false
    (fun x y _ => (x + y) % 2 ^ (4 * intE o.nib))

/-- ADD_VI (R256). -/
def execAddVI (o : Sys2Proof.VI) (s : State) : Answer :=
  s.typedVI o false false
    (fun x y _ => (x + y) % 2 ^ (4 * intE o.nib))

/-- SUB_VV (R256). -/
def execSubVV (o : Sys2Proof.VV) (s : State) : Answer :=
  s.typedVV o (intE o.nib) true false false
    (fun x y _ => (x + (2 ^ (4 * intE o.nib) - y)) % 2 ^ (4 * intE o.nib))

/-- SUB_VS (R256). -/
def execSubVS (o : Sys2Proof.VS) (s : State) : Answer :=
  s.typedVS o (intE o.nib) true false false
    (fun x y _ => (x + (2 ^ (4 * intE o.nib) - y)) % 2 ^ (4 * intE o.nib))

/-- SUB_VI (R256). -/
def execSubVI (o : Sys2Proof.VI) (s : State) : Answer :=
  s.typedVI o false false
    (fun x y _ => (x + (2 ^ (4 * intE o.nib) - y)) % 2 ^ (4 * intE o.nib))

/-- MUL_VV (R256). -/
def execMulVV (o : Sys2Proof.VV) (s : State) : Answer :=
  s.typedVV o (intE o.nib) true false false
    (fun x y _ => x * y % 2 ^ (4 * intE o.nib))

/-- MUL_VS (R256). -/
def execMulVS (o : Sys2Proof.VS) (s : State) : Answer :=
  s.typedVS o (intE o.nib) true false false
    (fun x y _ => x * y % 2 ^ (4 * intE o.nib))

/-- MUL_VI (R256). -/
def execMulVI (o : Sys2Proof.VI) (s : State) : Answer :=
  s.typedVI o false false
    (fun x y _ => x * y % 2 ^ (4 * intE o.nib))

/-- MAD_VV (R256). -/
def execMadVV (o : Sys2Proof.VV) (s : State) : Answer :=
  s.typedVV o (intE o.nib) true true false
    (fun x y z => (x * y + z) % 2 ^ (4 * intE o.nib))

/-- MAD_VS (R256). -/
def execMadVS (o : Sys2Proof.VS) (s : State) : Answer :=
  s.typedVS o (intE o.nib) true true false
    (fun x y z => (x * y + z) % 2 ^ (4 * intE o.nib))

/-- MAD_VI (R256). -/
def execMadVI (o : Sys2Proof.VI) (s : State) : Answer :=
  s.typedVI o true false
    (fun x y z => (x * y + z) % 2 ^ (4 * intE o.nib))

/-- ADD_SAT_I_VV (R256). -/
def execAddSatIVV (o : Sys2Proof.VV) (s : State) : Answer :=
  s.typedVV o (intE o.nib) true false false
    (fun x y _ => clampTo (4 * intE o.nib) false (intOf (4 * intE o.nib) false x + intOf (4 * intE o.nib) false y))

/-- ADD_SAT_I_VS (R256). -/
def execAddSatIVS (o : Sys2Proof.VS) (s : State) : Answer :=
  s.typedVS o (intE o.nib) true false false
    (fun x y _ => clampTo (4 * intE o.nib) false (intOf (4 * intE o.nib) false x + intOf (4 * intE o.nib) false y))

/-- ADD_SAT_I_VI (R256). -/
def execAddSatIVI (o : Sys2Proof.VI) (s : State) : Answer :=
  s.typedVI o false false
    (fun x y _ => clampTo (4 * intE o.nib) false (intOf (4 * intE o.nib) false x + intOf (4 * intE o.nib) false y))

/-- ADD_SAT_B_VV (R256). -/
def execAddSatBVV (o : Sys2Proof.VV) (s : State) : Answer :=
  s.typedVV o (intE o.nib) true false false
    (fun x y _ => clampTo (4 * intE o.nib) true (intOf (4 * intE o.nib) true x + intOf (4 * intE o.nib) true y))

/-- ADD_SAT_B_VS (R256). -/
def execAddSatBVS (o : Sys2Proof.VS) (s : State) : Answer :=
  s.typedVS o (intE o.nib) true false false
    (fun x y _ => clampTo (4 * intE o.nib) true (intOf (4 * intE o.nib) true x + intOf (4 * intE o.nib) true y))

/-- ADD_SAT_B_VI (R256). -/
def execAddSatBVI (o : Sys2Proof.VI) (s : State) : Answer :=
  s.typedVI o false false
    (fun x y _ => clampTo (4 * intE o.nib) true (intOf (4 * intE o.nib) true x + intOf (4 * intE o.nib) true y))

/-- SUB_SAT_I_VV (R256). -/
def execSubSatIVV (o : Sys2Proof.VV) (s : State) : Answer :=
  s.typedVV o (intE o.nib) true false false
    (fun x y _ => clampTo (4 * intE o.nib) false (intOf (4 * intE o.nib) false x - intOf (4 * intE o.nib) false y))

/-- SUB_SAT_I_VS (R256). -/
def execSubSatIVS (o : Sys2Proof.VS) (s : State) : Answer :=
  s.typedVS o (intE o.nib) true false false
    (fun x y _ => clampTo (4 * intE o.nib) false (intOf (4 * intE o.nib) false x - intOf (4 * intE o.nib) false y))

/-- SUB_SAT_I_VI (R256). -/
def execSubSatIVI (o : Sys2Proof.VI) (s : State) : Answer :=
  s.typedVI o false false
    (fun x y _ => clampTo (4 * intE o.nib) false (intOf (4 * intE o.nib) false x - intOf (4 * intE o.nib) false y))

/-- SUB_SAT_B_VV (R256). -/
def execSubSatBVV (o : Sys2Proof.VV) (s : State) : Answer :=
  s.typedVV o (intE o.nib) true false false
    (fun x y _ => clampTo (4 * intE o.nib) true (intOf (4 * intE o.nib) true x - intOf (4 * intE o.nib) true y))

/-- SUB_SAT_B_VS (R256). -/
def execSubSatBVS (o : Sys2Proof.VS) (s : State) : Answer :=
  s.typedVS o (intE o.nib) true false false
    (fun x y _ => clampTo (4 * intE o.nib) true (intOf (4 * intE o.nib) true x - intOf (4 * intE o.nib) true y))

/-- SUB_SAT_B_VI (R256). -/
def execSubSatBVI (o : Sys2Proof.VI) (s : State) : Answer :=
  s.typedVI o false false
    (fun x y _ => clampTo (4 * intE o.nib) true (intOf (4 * intE o.nib) true x - intOf (4 * intE o.nib) true y))

/-- MULH_I_VV (R256). -/
def execMulhIVV (o : Sys2Proof.VV) (s : State) : Answer :=
  s.typedVV o (intE o.nib) true false false
    (fun x y _ => mulhElem (4 * intE o.nib) false x y)

/-- MULH_I_VS (R256). -/
def execMulhIVS (o : Sys2Proof.VS) (s : State) : Answer :=
  s.typedVS o (intE o.nib) true false false
    (fun x y _ => mulhElem (4 * intE o.nib) false x y)

/-- MULH_I_VI (R256). -/
def execMulhIVI (o : Sys2Proof.VI) (s : State) : Answer :=
  s.typedVI o false false
    (fun x y _ => mulhElem (4 * intE o.nib) false x y)

/-- MULH_B_VV (R256). -/
def execMulhBVV (o : Sys2Proof.VV) (s : State) : Answer :=
  s.typedVV o (intE o.nib) true false false
    (fun x y _ => mulhElem (4 * intE o.nib) true x y)

/-- MULH_B_VS (R256). -/
def execMulhBVS (o : Sys2Proof.VS) (s : State) : Answer :=
  s.typedVS o (intE o.nib) true false false
    (fun x y _ => mulhElem (4 * intE o.nib) true x y)

/-- MULH_B_VI (R256). -/
def execMulhBVI (o : Sys2Proof.VI) (s : State) : Answer :=
  s.typedVI o false false
    (fun x y _ => mulhElem (4 * intE o.nib) true x y)

/-- DIV_I_VV (R256). -/
def execDivIVV (o : Sys2Proof.VV) (s : State) : Answer :=
  s.typedVV o (intE o.nib) true false true
    (fun x y _ => divElem (4 * intE o.nib) false x y)

/-- DIV_I_VS (R256). -/
def execDivIVS (o : Sys2Proof.VS) (s : State) : Answer :=
  s.typedVS o (intE o.nib) true false true
    (fun x y _ => divElem (4 * intE o.nib) false x y)

/-- DIV_I_VI (R256). -/
def execDivIVI (o : Sys2Proof.VI) (s : State) : Answer :=
  s.typedVI o false true
    (fun x y _ => divElem (4 * intE o.nib) false x y)

/-- DIV_B_VV (R256). -/
def execDivBVV (o : Sys2Proof.VV) (s : State) : Answer :=
  s.typedVV o (intE o.nib) true false true
    (fun x y _ => divElem (4 * intE o.nib) true x y)

/-- DIV_B_VS (R256). -/
def execDivBVS (o : Sys2Proof.VS) (s : State) : Answer :=
  s.typedVS o (intE o.nib) true false true
    (fun x y _ => divElem (4 * intE o.nib) true x y)

/-- DIV_B_VI (R256). -/
def execDivBVI (o : Sys2Proof.VI) (s : State) : Answer :=
  s.typedVI o false true
    (fun x y _ => divElem (4 * intE o.nib) true x y)

/-- REM_I_VV (R256). -/
def execRemIVV (o : Sys2Proof.VV) (s : State) : Answer :=
  s.typedVV o (intE o.nib) true false true
    (fun x y _ => remElem (4 * intE o.nib) false x y)

/-- REM_I_VS (R256). -/
def execRemIVS (o : Sys2Proof.VS) (s : State) : Answer :=
  s.typedVS o (intE o.nib) true false true
    (fun x y _ => remElem (4 * intE o.nib) false x y)

/-- REM_I_VI (R256). -/
def execRemIVI (o : Sys2Proof.VI) (s : State) : Answer :=
  s.typedVI o false true
    (fun x y _ => remElem (4 * intE o.nib) false x y)

/-- REM_B_VV (R256). -/
def execRemBVV (o : Sys2Proof.VV) (s : State) : Answer :=
  s.typedVV o (intE o.nib) true false true
    (fun x y _ => remElem (4 * intE o.nib) true x y)

/-- REM_B_VS (R256). -/
def execRemBVS (o : Sys2Proof.VS) (s : State) : Answer :=
  s.typedVS o (intE o.nib) true false true
    (fun x y _ => remElem (4 * intE o.nib) true x y)

/-- REM_B_VI (R256). -/
def execRemBVI (o : Sys2Proof.VI) (s : State) : Answer :=
  s.typedVI o false true
    (fun x y _ => remElem (4 * intE o.nib) true x y)

/-- MIN_I_VV (R256). -/
def execMinIVV (o : Sys2Proof.VV) (s : State) : Answer :=
  s.typedVV o (intE o.nib) true false false
    (fun x y _ => minMaxElem (4 * intE o.nib) false false x y)

/-- MIN_I_VS (R256). -/
def execMinIVS (o : Sys2Proof.VS) (s : State) : Answer :=
  s.typedVS o (intE o.nib) true false false
    (fun x y _ => minMaxElem (4 * intE o.nib) false false x y)

/-- MIN_I_VI (R256). -/
def execMinIVI (o : Sys2Proof.VI) (s : State) : Answer :=
  s.typedVI o false false
    (fun x y _ => minMaxElem (4 * intE o.nib) false false x y)

/-- MIN_B_VV (R256). -/
def execMinBVV (o : Sys2Proof.VV) (s : State) : Answer :=
  s.typedVV o (intE o.nib) true false false
    (fun x y _ => minMaxElem (4 * intE o.nib) true false x y)

/-- MIN_B_VS (R256). -/
def execMinBVS (o : Sys2Proof.VS) (s : State) : Answer :=
  s.typedVS o (intE o.nib) true false false
    (fun x y _ => minMaxElem (4 * intE o.nib) true false x y)

/-- MIN_B_VI (R256). -/
def execMinBVI (o : Sys2Proof.VI) (s : State) : Answer :=
  s.typedVI o false false
    (fun x y _ => minMaxElem (4 * intE o.nib) true false x y)

/-- MAX_I_VV (R256). -/
def execMaxIVV (o : Sys2Proof.VV) (s : State) : Answer :=
  s.typedVV o (intE o.nib) true false false
    (fun x y _ => minMaxElem (4 * intE o.nib) false true x y)

/-- MAX_I_VS (R256). -/
def execMaxIVS (o : Sys2Proof.VS) (s : State) : Answer :=
  s.typedVS o (intE o.nib) true false false
    (fun x y _ => minMaxElem (4 * intE o.nib) false true x y)

/-- MAX_I_VI (R256). -/
def execMaxIVI (o : Sys2Proof.VI) (s : State) : Answer :=
  s.typedVI o false false
    (fun x y _ => minMaxElem (4 * intE o.nib) false true x y)

/-- MAX_B_VV (R256). -/
def execMaxBVV (o : Sys2Proof.VV) (s : State) : Answer :=
  s.typedVV o (intE o.nib) true false false
    (fun x y _ => minMaxElem (4 * intE o.nib) true true x y)

/-- MAX_B_VS (R256). -/
def execMaxBVS (o : Sys2Proof.VS) (s : State) : Answer :=
  s.typedVS o (intE o.nib) true false false
    (fun x y _ => minMaxElem (4 * intE o.nib) true true x y)

/-- MAX_B_VI (R256). -/
def execMaxBVI (o : Sys2Proof.VI) (s : State) : Answer :=
  s.typedVI o false false
    (fun x y _ => minMaxElem (4 * intE o.nib) true true x y)

/-- ABS (R257). -/
def execAbs (o : Sys2Proof.U1) (s : State) : Answer :=
  s.typedU o (intE o.nib) true false (fun x => absElem (4 * intE o.nib) x)

/-- NEG (R257). -/
def execNeg (o : Sys2Proof.U1) (s : State) : Answer :=
  s.typedU o (intE o.nib) true false (fun x => negElem (4 * intE o.nib) x)

/-- ABSD_I (R257). -/
def execAbsdI (o : Sys2Proof.VV) (s : State) : Answer :=
  s.typedVV o (intE o.nib) true false false
    (fun x y _ => absdElem (4 * intE o.nib) false x y)

/-- ABSD_B (R257). -/
def execAbsdB (o : Sys2Proof.VV) (s : State) : Answer :=
  s.typedVV o (intE o.nib) true false false
    (fun x y _ => absdElem (4 * intE o.nib) true x y)


end Sys2Proof.Machine
end

