-- ==== Sys2Proof/Machine/Dispatch.lean ====
section
/-! DEFINITION. The dispatch of an instruction to its meaning: one arm per constructor of Instr. -/

namespace Sys2Proof.Machine

open Sys2Proof

/-- The meaning of an instruction in a state. -/
def exec (i : Instr) (s : State) : Host.Outcome State Fault Refusal :=
  match i with
  | .saddReg o => Sys2Proof.Machine.execSaddReg o s
  | .saddImm o => Sys2Proof.Machine.execSaddImm o s
  | .ssubReg o => Sys2Proof.Machine.execSsubReg o s
  | .ssubImm o => Sys2Proof.Machine.execSsubImm o s
  | .smulReg o => Sys2Proof.Machine.execSmulReg o s
  | .smulImm o => Sys2Proof.Machine.execSmulImm o s
  | .smulhReg o => Sys2Proof.Machine.execSmulhReg o s
  | .smulhImm o => Sys2Proof.Machine.execSmulhImm o s
  | .smulhuReg o => Sys2Proof.Machine.execSmulhuReg o s
  | .smulhuImm o => Sys2Proof.Machine.execSmulhuImm o s
  | .sdivReg o => Sys2Proof.Machine.execSdivReg o s
  | .sdivImm o => Sys2Proof.Machine.execSdivImm o s
  | .sdivuReg o => Sys2Proof.Machine.execSdivuReg o s
  | .sdivuImm o => Sys2Proof.Machine.execSdivuImm o s
  | .sremReg o => Sys2Proof.Machine.execSremReg o s
  | .sremImm o => Sys2Proof.Machine.execSremImm o s
  | .sremuReg o => Sys2Proof.Machine.execSremuReg o s
  | .sremuImm o => Sys2Proof.Machine.execSremuImm o s
  | .sandReg o => Sys2Proof.Machine.execSandReg o s
  | .sandImm o => Sys2Proof.Machine.execSandImm o s
  | .sorReg o => Sys2Proof.Machine.execSorReg o s
  | .sorImm o => Sys2Proof.Machine.execSorImm o s
  | .sxorReg o => Sys2Proof.Machine.execSxorReg o s
  | .sxorImm o => Sys2Proof.Machine.execSxorImm o s
  | .sshlReg o => Sys2Proof.Machine.execSshlReg o s
  | .sshlImm o => Sys2Proof.Machine.execSshlImm o s
  | .sshrReg o => Sys2Proof.Machine.execSshrReg o s
  | .sshrImm o => Sys2Proof.Machine.execSshrImm o s
  | .sshaReg o => Sys2Proof.Machine.execSshaReg o s
  | .sshaImm o => Sys2Proof.Machine.execSshaImm o s
  | .sminReg o => Sys2Proof.Machine.execSminReg o s
  | .sminImm o => Sys2Proof.Machine.execSminImm o s
  | .sminuReg o => Sys2Proof.Machine.execSminuReg o s
  | .sminuImm o => Sys2Proof.Machine.execSminuImm o s
  | .smaxReg o => Sys2Proof.Machine.execSmaxReg o s
  | .smaxImm o => Sys2Proof.Machine.execSmaxImm o s
  | .smaxuReg o => Sys2Proof.Machine.execSmaxuReg o s
  | .smaxuImm o => Sys2Proof.Machine.execSmaxuImm o s
  | .scmpReg o => Sys2Proof.Machine.execScmpReg o s
  | .scmpImm o => Sys2Proof.Machine.execScmpImm o s
  | .smovReg o => Sys2Proof.Machine.execSmovReg o s
  | .smovImm o => Sys2Proof.Machine.execSmovImm o s
  | .spopc o => Sys2Proof.Machine.execSpopc o s
  | .sclz o => Sys2Proof.Machine.execSclz o s
  | .sget o => Sys2Proof.Machine.execSget o s
  | .addVV o => Sys2Proof.Machine.execAddVV o s
  | .addVS o => Sys2Proof.Machine.execAddVS o s
  | .addVI o => Sys2Proof.Machine.execAddVI o s
  | .subVV o => Sys2Proof.Machine.execSubVV o s
  | .subVS o => Sys2Proof.Machine.execSubVS o s
  | .subVI o => Sys2Proof.Machine.execSubVI o s
  | .mulVV o => Sys2Proof.Machine.execMulVV o s
  | .mulVS o => Sys2Proof.Machine.execMulVS o s
  | .mulVI o => Sys2Proof.Machine.execMulVI o s
  | .madVV o => Sys2Proof.Machine.execMadVV o s
  | .madVS o => Sys2Proof.Machine.execMadVS o s
  | .madVI o => Sys2Proof.Machine.execMadVI o s
  | .addSatIVV o => Sys2Proof.Machine.execAddSatIVV o s
  | .addSatIVS o => Sys2Proof.Machine.execAddSatIVS o s
  | .addSatIVI o => Sys2Proof.Machine.execAddSatIVI o s
  | .addSatBVV o => Sys2Proof.Machine.execAddSatBVV o s
  | .addSatBVS o => Sys2Proof.Machine.execAddSatBVS o s
  | .addSatBVI o => Sys2Proof.Machine.execAddSatBVI o s
  | .subSatIVV o => Sys2Proof.Machine.execSubSatIVV o s
  | .subSatIVS o => Sys2Proof.Machine.execSubSatIVS o s
  | .subSatIVI o => Sys2Proof.Machine.execSubSatIVI o s
  | .subSatBVV o => Sys2Proof.Machine.execSubSatBVV o s
  | .subSatBVS o => Sys2Proof.Machine.execSubSatBVS o s
  | .subSatBVI o => Sys2Proof.Machine.execSubSatBVI o s
  | .mulhIVV o => Sys2Proof.Machine.execMulhIVV o s
  | .mulhIVS o => Sys2Proof.Machine.execMulhIVS o s
  | .mulhIVI o => Sys2Proof.Machine.execMulhIVI o s
  | .mulhBVV o => Sys2Proof.Machine.execMulhBVV o s
  | .mulhBVS o => Sys2Proof.Machine.execMulhBVS o s
  | .mulhBVI o => Sys2Proof.Machine.execMulhBVI o s
  | .divIVV o => Sys2Proof.Machine.execDivIVV o s
  | .divIVS o => Sys2Proof.Machine.execDivIVS o s
  | .divIVI o => Sys2Proof.Machine.execDivIVI o s
  | .divBVV o => Sys2Proof.Machine.execDivBVV o s
  | .divBVS o => Sys2Proof.Machine.execDivBVS o s
  | .divBVI o => Sys2Proof.Machine.execDivBVI o s
  | .remIVV o => Sys2Proof.Machine.execRemIVV o s
  | .remIVS o => Sys2Proof.Machine.execRemIVS o s
  | .remIVI o => Sys2Proof.Machine.execRemIVI o s
  | .remBVV o => Sys2Proof.Machine.execRemBVV o s
  | .remBVS o => Sys2Proof.Machine.execRemBVS o s
  | .remBVI o => Sys2Proof.Machine.execRemBVI o s
  | .minIVV o => Sys2Proof.Machine.execMinIVV o s
  | .minIVS o => Sys2Proof.Machine.execMinIVS o s
  | .minIVI o => Sys2Proof.Machine.execMinIVI o s
  | .minBVV o => Sys2Proof.Machine.execMinBVV o s
  | .minBVS o => Sys2Proof.Machine.execMinBVS o s
  | .minBVI o => Sys2Proof.Machine.execMinBVI o s
  | .maxIVV o => Sys2Proof.Machine.execMaxIVV o s
  | .maxIVS o => Sys2Proof.Machine.execMaxIVS o s
  | .maxIVI o => Sys2Proof.Machine.execMaxIVI o s
  | .maxBVV o => Sys2Proof.Machine.execMaxBVV o s
  | .maxBVS o => Sys2Proof.Machine.execMaxBVS o s
  | .maxBVI o => Sys2Proof.Machine.execMaxBVI o s
  | .abs o => Sys2Proof.Machine.execAbs o s
  | .neg o => Sys2Proof.Machine.execNeg o s
  | .absdI o => Sys2Proof.Machine.execAbsdI o s
  | .absdB o => Sys2Proof.Machine.execAbsdB o s
  | .faddVV o => Sys2Proof.Machine.execFaddVV o s
  | .faddVS o => Sys2Proof.Machine.execFaddVS o s
  | .fsubVV o => Sys2Proof.Machine.execFsubVV o s
  | .fsubVS o => Sys2Proof.Machine.execFsubVS o s
  | .fmulVV o => Sys2Proof.Machine.execFmulVV o s
  | .fmulVS o => Sys2Proof.Machine.execFmulVS o s
  | .fmaVV o => Sys2Proof.Machine.execFmaVV o s
  | .fmaVS o => Sys2Proof.Machine.execFmaVS o s
  | .fminVV o => Sys2Proof.Machine.execFminVV o s
  | .fminVS o => Sys2Proof.Machine.execFminVS o s
  | .fmaxVV o => Sys2Proof.Machine.execFmaxVV o s
  | .fmaxVS o => Sys2Proof.Machine.execFmaxVS o s
  | .fdivVV o => Sys2Proof.Machine.execFdivVV o s
  | .fdivVS o => Sys2Proof.Machine.execFdivVS o s
  | .frcpVV o => Sys2Proof.Machine.execFrcpVV o s
  | .frcpVS o => Sys2Proof.Machine.execFrcpVS o s
  | .frsqVV o => Sys2Proof.Machine.execFrsqVV o s
  | .frsqVS o => Sys2Proof.Machine.execFrsqVS o s
  | .fex2VV o => Sys2Proof.Machine.execFex2VV o s
  | .fex2VS o => Sys2Proof.Machine.execFex2VS o s
  | .flg2VV o => Sys2Proof.Machine.execFlg2VV o s
  | .flg2VS o => Sys2Proof.Machine.execFlg2VS o s
  | .fsinVV o => Sys2Proof.Machine.execFsinVV o s
  | .fsinVS o => Sys2Proof.Machine.execFsinVS o s
  | .fcosVV o => Sys2Proof.Machine.execFcosVV o s
  | .fcosVS o => Sys2Proof.Machine.execFcosVS o s
  | .fabsVV o => Sys2Proof.Machine.execFabsVV o s
  | .fabsVS o => Sys2Proof.Machine.execFabsVS o s
  | .fnegVV o => Sys2Proof.Machine.execFnegVV o s
  | .fnegVS o => Sys2Proof.Machine.execFnegVS o s
  | .frintVV o => Sys2Proof.Machine.execFrintVV o s
  | .frintVS o => Sys2Proof.Machine.execFrintVS o s
  | .fclassVV o => Sys2Proof.Machine.execFclassVV o s
  | .fclassVS o => Sys2Proof.Machine.execFclassVS o s
  | .andVV o => Sys2Proof.Machine.execAndVV o s
  | .andVS o => Sys2Proof.Machine.execAndVS o s
  | .andVI o => Sys2Proof.Machine.execAndVI o s
  | .orVV o => Sys2Proof.Machine.execOrVV o s
  | .orVS o => Sys2Proof.Machine.execOrVS o s
  | .orVI o => Sys2Proof.Machine.execOrVI o s
  | .xorVV o => Sys2Proof.Machine.execXorVV o s
  | .xorVS o => Sys2Proof.Machine.execXorVS o s
  | .xorVI o => Sys2Proof.Machine.execXorVI o s
  | .andnVV o => Sys2Proof.Machine.execAndnVV o s
  | .andnVS o => Sys2Proof.Machine.execAndnVS o s
  | .andnVI o => Sys2Proof.Machine.execAndnVI o s
  | .shlVV o => Sys2Proof.Machine.execShlVV o s
  | .shlVS o => Sys2Proof.Machine.execShlVS o s
  | .shlVI o => Sys2Proof.Machine.execShlVI o s
  | .shrVV o => Sys2Proof.Machine.execShrVV o s
  | .shrVS o => Sys2Proof.Machine.execShrVS o s
  | .shrVI o => Sys2Proof.Machine.execShrVI o s
  | .shaVV o => Sys2Proof.Machine.execShaVV o s
  | .shaVS o => Sys2Proof.Machine.execShaVS o s
  | .shaVI o => Sys2Proof.Machine.execShaVI o s
  | .rotVV o => Sys2Proof.Machine.execRotVV o s
  | .rotVS o => Sys2Proof.Machine.execRotVS o s
  | .rotVI o => Sys2Proof.Machine.execRotVI o s
  | .movVV o => Sys2Proof.Machine.execMovVV o s
  | .movVS o => Sys2Proof.Machine.execMovVS o s
  | .movVI o => Sys2Proof.Machine.execMovVI o s
  | .notB o => Sys2Proof.Machine.execNotB o s
  | .popc o => Sys2Proof.Machine.execPopc o s
  | .clz o => Sys2Proof.Machine.execClz o s
  | .brev o => Sys2Proof.Machine.execBrev o s
  | .bfe o => Sys2Proof.Machine.execBfe o s
  | .bfi o => Sys2Proof.Machine.execBfi o s
  | .zip o => Sys2Proof.Machine.execZip o s
  | .unzip o => Sys2Proof.Machine.execUnzip o s
  | .cvt o => Sys2Proof.Machine.execCvt o s
  | .cvtfi o => Sys2Proof.Machine.execCvtfi o s
  | .cvtif o => Sys2Proof.Machine.execCvtif o s
  | .cvtef o => Sys2Proof.Machine.execCvtef o s
  | .cvte8 o => Sys2Proof.Machine.execCvte8 o s
  | .pand o => Sys2Proof.Machine.execPand o s
  | .por o => Sys2Proof.Machine.execPor o s
  | .pxor o => Sys2Proof.Machine.execPxor o s
  | .pandn o => Sys2Proof.Machine.execPandn o s
  | .pnot o => Sys2Proof.Machine.execPnot o s
  | .pset o => Sys2Proof.Machine.execPset o s
  | .pbit o => Sys2Proof.Machine.execPbit o s
  | .pton o => Sys2Proof.Machine.execPton o s
  | .cmpVV o => Sys2Proof.Machine.execCmpVV o s
  | .cmpVS o => Sys2Proof.Machine.execCmpVS o s
  | .cmpVI o => Sys2Proof.Machine.execCmpVI o s
  | .fcmpVV o => Sys2Proof.Machine.execFcmpVV o s
  | .fcmpVS o => Sys2Proof.Machine.execFcmpVS o s
  | .shfl o => Sys2Proof.Machine.execShfl o s
  | .shflx o => Sys2Proof.Machine.execShflx o s
  | .bcast o => Sys2Proof.Machine.execBcast o s
  | .reduce o => Sys2Proof.Machine.execReduce o s
  | .scan o => Sys2Proof.Machine.execScan o s
  | .vote o => Sys2Proof.Machine.execVote o s
  | .ballot o => Sys2Proof.Machine.execBallot o s
  | .pfirst o => Sys2Proof.Machine.execPfirst o s
  | .pcount o => Sys2Proof.Machine.execPcount o s
  | .next o => Sys2Proof.Machine.execNext o s
  | .nextu o => Sys2Proof.Machine.execNextu o s
  | .exit o => Sys2Proof.Machine.execExit o s
  | .meet o => Sys2Proof.Machine.execMeet o s
  | .jmp o => Sys2Proof.Machine.execJmp o s
  | .jmz o => Sys2Proof.Machine.execJmz o s
  | .jmnz o => Sys2Proof.Machine.execJmnz o s
  | .lcset o => Sys2Proof.Machine.execLcset o s
  | .loop o => Sys2Proof.Machine.execLoop o s
  | .nop o => Sys2Proof.Machine.execNop o s
  | .ld o => Sys2Proof.Machine.execLd o s
  | .st o => Sys2Proof.Machine.execSt o s
  | .ldt o => Sys2Proof.Machine.execLdt o s
  | .pref o => Sys2Proof.Machine.execPref o s
  | .spill o => Sys2Proof.Machine.execSpill o s
  | .fill o => Sys2Proof.Machine.execFill o s
  | .ldc o => Sys2Proof.Machine.execLdc o s
  | .stc o => Sys2Proof.Machine.execStc o s
  | .adrn o => Sys2Proof.Machine.execAdrn o s
  | .atom o => Sys2Proof.Machine.execAtom o s
  | .red o => Sys2Proof.Machine.execRed o s
  | .cas o => Sys2Proof.Machine.execCas o s
  | .fence o => Sys2Proof.Machine.execFence o s
  | .fenceS o => Sys2Proof.Machine.execFenceS o s
  | .iinv o => Sys2Proof.Machine.execIinv o s
  | .cder o => Sys2Proof.Machine.execCder o s
  | .cres o => Sys2Proof.Machine.execCres o s
  | .cseal o => Sys2Proof.Machine.execCseal o s
  | .cunseal o => Sys2Proof.Machine.execCunseal o s
  | .cmov o => Sys2Proof.Machine.execCmov o s
  | .cget o => Sys2Proof.Machine.execCget o s
  | .cgetn o => Sys2Proof.Machine.execCgetn o s
  | .ctest o => Sys2Proof.Machine.execCtest o s
  | .binit o => Sys2Proof.Machine.execBinit o s
  | .barr o => Sys2Proof.Machine.execBarr o s
  | .bexp o => Sys2Proof.Machine.execBexp o s
  | .bwait o => Sys2Proof.Machine.execBwait o s
  | .btst o => Sys2Proof.Machine.execBtst o s
  | .flk o => Sys2Proof.Machine.execFlk o s
  | .flq o => Sys2Proof.Machine.execFlq o s
  | .flc o => Sys2Proof.Machine.execFlc o s
  | .spawn o => Sys2Proof.Machine.execSpawn o s
  | .succ o => Sys2Proof.Machine.execSucc o s
  | .cancel o => Sys2Proof.Machine.execCancel o s
  | .launch o => Sys2Proof.Machine.execLaunch o s
  | .palloc o => Sys2Proof.Machine.execPalloc o s
  | .pallocT o => Sys2Proof.Machine.execPallocT o s
  | .pfree o => Sys2Proof.Machine.execPfree o s
  | .cput o => Sys2Proof.Machine.execCput o s
  | .cflush o => Sys2Proof.Machine.execCflush o s
  | .rcast o => Sys2Proof.Machine.execRcast o s
  | .ocap o => Sys2Proof.Machine.execOcap o s
  | .cbfk o => Sys2Proof.Machine.execCbfk o s
  | .cbstep o => Sys2Proof.Machine.execCbstep o s
  | .mresv o => Sys2Proof.Machine.execMresv o s
  | .mrels o => Sys2Proof.Machine.execMrels o s
  | .mldb o => Sys2Proof.Machine.execMldb o s
  | .mma o => Sys2Proof.Machine.execMma o s
  | .mmaz o => Sys2Proof.Machine.execMmaz o s
  | .mmap o => Sys2Proof.Machine.execMmap o s
  | .mmazp o => Sys2Proof.Machine.execMmazp o s
  | .lnset o => Sys2Proof.Machine.execLnset o s
  | .lncoef o => Sys2Proof.Machine.execLncoef o s
  | .lnstep o => Sys2Proof.Machine.execLnstep o s
  | .ctake o => Sys2Proof.Machine.execCtake o s
  | .ctakeArm o => Sys2Proof.Machine.execCtakeArm o s
  | .cgive o => Sys2Proof.Machine.execCgive o s
  | .idemb o => Sys2Proof.Machine.execIdemb o s
  | .ideme o => Sys2Proof.Machine.execIdeme o s
  | .srdScalar o => Sys2Proof.Machine.execSrdScalar o s
  | .srdSlice o => Sys2Proof.Machine.execSrdSlice o s
  | .swr o => Sys2Proof.Machine.execSwr o s
  | .trap o => Sys2Proof.Machine.execTrap o s
  | .brk o => Sys2Proof.Machine.execBrk o s
  | .ecall o => Sys2Proof.Machine.execEcall o s
  | .tretRetry o => Sys2Proof.Machine.execTretRetry o s
  | .tretSkip o => Sys2Proof.Machine.execTretSkip o s
  | .tretKilltask o => Sys2Proof.Machine.execTretKilltask o s
  | .tretKillcrew o => Sys2Proof.Machine.execTretKillcrew o s
  | .rquota o => Sys2Proof.Machine.execRquota o s
  | .lit o => Sys2Proof.Machine.execLit o s
  | .pairedWord o => Sys2Proof.Machine.execPairedWord o s
  | .longResultWrite w j => Sys2Proof.Machine.execLongResultWrite w j s
  | .writePerformAtHome w j => Sys2Proof.Machine.execWritePerformAtHome w j s
  | .l1LineFill c => Sys2Proof.Machine.execL1LineFill c s
  | .leaseExpiry c => Sys2Proof.Machine.execLeaseExpiry c s
  | .tileFillComplete k j => Sys2Proof.Machine.execTileFillComplete k j s
  | .pageWalkComplete j => Sys2Proof.Machine.execPageWalkComplete j s
  | .specFenceComplete w => Sys2Proof.Machine.execSpecFenceComplete w s
  | .specConflictRollback w => Sys2Proof.Machine.execSpecConflictRollback w s
  | .iinvComplete w => Sys2Proof.Machine.execIinvComplete w s
  | .waveFormation g => Sys2Proof.Machine.execWaveFormation g s
  | .bucketAgeMax g seg => Sys2Proof.Machine.execBucketAgeMax g seg s
  | .segmentWatchdogExpiry w => Sys2Proof.Machine.execSegmentWatchdogExpiry w s
  | .sluiceReleaseStep k => Sys2Proof.Machine.execSluiceReleaseStep k s
  | .pendingWaveExchange c q => Sys2Proof.Machine.execPendingWaveExchange c q s
  | .waveParkExchange c q => Sys2Proof.Machine.execWaveParkExchange c q s
  | .flumeHeadForward c ch => Sys2Proof.Machine.execFlumeHeadForward c ch s
  | .flumeChainStart c ch => Sys2Proof.Machine.execFlumeChainStart c ch s
  | .flumeRecordProcess c ch => Sys2Proof.Machine.execFlumeRecordProcess c ch s
  | .flumeCancelWalk c ch => Sys2Proof.Machine.execFlumeCancelWalk c ch s
  | .gridCrewArrivalSend crew gid => Sys2Proof.Machine.execGridCrewArrivalSend crew gid s
  | .gridPortArrival => Sys2Proof.Machine.execGridPortArrival s
  | .gridReleaseDelivery => Sys2Proof.Machine.execGridReleaseDelivery s
  | .roeRcastService k => Sys2Proof.Machine.execRoeRcastService k s
  | .roeOcapService k => Sys2Proof.Machine.execRoeOcapService k s
  | .cbeCbfkService k => Sys2Proof.Machine.execCbeCbfkService k s
  | .cbeCbstepService k => Sys2Proof.Machine.execCbeCbstepService k s
  | .successorReleasePlace c => Sys2Proof.Machine.execSuccessorReleasePlace c s
  | .taskStart g => Sys2Proof.Machine.execTaskStart g s
  | .cisternFlushTimeout k j => Sys2Proof.Machine.execCisternFlushTimeout k j s
  | .mldbComplete k => Sys2Proof.Machine.execMldbComplete k s
  | .mmaComplete k => Sys2Proof.Machine.execMmaComplete k s
  | .ctakeCopyComplete k => Sys2Proof.Machine.execCtakeCopyComplete k s
  | .doorbell q v => Sys2Proof.Machine.execDoorbell q v s
  | .cqBaseWrite q v => Sys2Proof.Machine.execCqBaseWrite q v s
  | .crHeadWrite q v => Sys2Proof.Machine.execCrHeadWrite q v s
  | .launchRecordTake q => Sys2Proof.Machine.execLaunchRecordTake q s
  | .waitEventPoll l => Sys2Proof.Machine.execWaitEventPoll l s
  | .placementRetry l => Sys2Proof.Machine.execPlacementRetry l s
  | .launchPlacement l => Sys2Proof.Machine.execLaunchPlacement l s
  | .crewStart crew => Sys2Proof.Machine.execCrewStart crew s
  | .crewEnd crew => Sys2Proof.Machine.execCrewEnd crew s
  | .launchCompletion l => Sys2Proof.Machine.execLaunchCompletion l s
  | .completionRecordWrite q => Sys2Proof.Machine.execCompletionRecordWrite q s
  | .spillStagingDrain k l => Sys2Proof.Machine.execSpillStagingDrain k l s
  | .spillRefill l => Sys2Proof.Machine.execSpillRefill l s
  | .launchDeadline l => Sys2Proof.Machine.execLaunchDeadline l s
  | .primaryFailure => Sys2Proof.Machine.execPrimaryFailure s
  | .schedCtlTake who => Sys2Proof.Machine.execSchedCtlTake who s
  | .schedCtlDone who => Sys2Proof.Machine.execSchedCtlDone who s
  | .schedAssistWrite slot => Sys2Proof.Machine.execSchedAssistWrite slot s
  | .schedAssistFinish slot => Sys2Proof.Machine.execSchedAssistFinish slot s
  | .jrnPtrWrite who v => Sys2Proof.Machine.execJrnPtrWrite who v s
  | .swapSave c => Sys2Proof.Machine.execSwapSave c s
  | .swapSaveHaltEnd c => Sys2Proof.Machine.execSwapSaveHaltEnd c s
  | .swapSaveComplete c => Sys2Proof.Machine.execSwapSaveComplete c s
  | .swapRestore c => Sys2Proof.Machine.execSwapRestore c s
  | .swapRestoreComplete c => Sys2Proof.Machine.execSwapRestoreComplete c s
  | .partitionStateError c q kind j => Sys2Proof.Machine.execPartitionStateError c q kind j s
  | .sliceRowPoison g t row => Sys2Proof.Machine.execSliceRowPoison g t row s
  | .queueEntryError kind c j => Sys2Proof.Machine.execQueueEntryError kind c j s
  | .nearScrubStep k unit place off err => Sys2Proof.Machine.execNearScrubStep k unit place off err s
  | .vaultScrubStep v off err => Sys2Proof.Machine.execVaultScrubStep v off err s
  | .vaultTempSample v z => Sys2Proof.Machine.execVaultTempSample v z s
  | .vaultRefresh v => Sys2Proof.Machine.execVaultRefresh v s
  | .dramTempPoll z => Sys2Proof.Machine.execDramTempPoll z s
  | .capMintSet a => Sys2Proof.Machine.execCapMintSet a s
  | .capMintClear a => Sys2Proof.Machine.execCapMintClear a s
  | .tlbInvAll => Sys2Proof.Machine.execTlbInvAll s
  | .tlbInvContext ctx => Sys2Proof.Machine.execTlbInvContext ctx s
  | .tlbInvPage ctx vpn => Sys2Proof.Machine.execTlbInvPage ctx vpn s
  | .tlbInvComplete => Sys2Proof.Machine.execTlbInvComplete s
  | .vaultSplitWrite v => Sys2Proof.Machine.execVaultSplitWrite v s
  | .coreSramWrite c v => Sys2Proof.Machine.execCoreSramWrite c v s
  | .poolModeChange k b m => Sys2Proof.Machine.execPoolModeChange k b m s
  | .poolDrainComplete k => Sys2Proof.Machine.execPoolDrainComplete k s
  | .cslrWrite k v => Sys2Proof.Machine.execCslrWrite k v s
  | .poolLimitWrite l n v => Sys2Proof.Machine.execPoolLimitWrite l n v s
  | .railSwitch k v => Sys2Proof.Machine.execRailSwitch k v s
  | .railSwitchDone k => Sys2Proof.Machine.execRailSwitchDone k s
  | .alarmSourceAssert j => Sys2Proof.Machine.execAlarmSourceAssert j s
  | .throttleRelease => Sys2Proof.Machine.execThrottleRelease s
  | .killSequence => Sys2Proof.Machine.execKillSequence s
  | .killLevelStep => Sys2Proof.Machine.execKillLevelStep s
  | .droopStretch k => Sys2Proof.Machine.execDroopStretch k s
  | .brownoutStop k => Sys2Proof.Machine.execBrownoutStop k s
  | .brownoutResume k => Sys2Proof.Machine.execBrownoutResume k s
  | .retentionLoss k => Sys2Proof.Machine.execRetentionLoss k s
  | .clusterRecovery k => Sys2Proof.Machine.execClusterRecovery k s
  | .energyUpdate => Sys2Proof.Machine.execEnergyUpdate s
  | .energyLoRead who j => Sys2Proof.Machine.execEnergyLoRead who j s
  | .windowLowHalfWrite who off v => Sys2Proof.Machine.execWindowLowHalfWrite who off v s
  | .windowHighHalfWrite who off v => Sys2Proof.Machine.execWindowHighHalfWrite who off v s
  | .windowLowHalfRead who off => Sys2Proof.Machine.execWindowLowHalfRead who off s
  | .hostWrite a bs => Sys2Proof.Machine.execHostWrite a bs s
  | .hostRead a n => Sys2Proof.Machine.execHostRead a n s
  | .peerAccess op a n v => Sys2Proof.Machine.execPeerAccess op a n v s
  | .peerWriteAck w => Sys2Proof.Machine.execPeerWriteAck w s
  | .reductionMergedWrite r off vs => Sys2Proof.Machine.execReductionMergedWrite r off vs s
  | .peerUnreachable d => Sys2Proof.Machine.execPeerUnreachable d s
  | .rwinBaseWrite r v => Sys2Proof.Machine.execRwinBaseWrite r v s
  | .cpFence who => Sys2Proof.Machine.execCpFence who s
  | .attest => Sys2Proof.Machine.execAttest s
  | .loadTranslator => Sys2Proof.Machine.execLoadTranslator s
  | .enroll => Sys2Proof.Machine.execEnroll s
  | .warmStart => Sys2Proof.Machine.execWarmStart s
  | .loadFirmware => Sys2Proof.Machine.execLoadFirmware s
  | .mboxCommandComplete => Sys2Proof.Machine.execMboxCommandComplete s
  | .coldStart => Sys2Proof.Machine.execColdStart s
  | .mgmtWatchdogWarmStart => Sys2Proof.Machine.execMgmtWatchdogWarmStart s
  | .holdSet c => Sys2Proof.Machine.execHoldSet c s
  | .coreHoldClear c => Sys2Proof.Machine.execCoreHoldClear c s
  | .scanTestStart c pat prio => Sys2Proof.Machine.execScanTestStart c pat prio s
  | .scanTestComplete => Sys2Proof.Machine.execScanTestComplete s
  | .tickInterrupt => Sys2Proof.Machine.execTickInterrupt s
  | .tickCmpWrite v => Sys2Proof.Machine.execTickCmpWrite v s
  | .registerWrite who off v => Sys2Proof.Machine.execRegisterWrite who off v s
  | .alarmSourceClear j => Sys2Proof.Machine.execAlarmSourceClear j s
  | .releaseWaitEnd w => Sys2Proof.Machine.execReleaseWaitEnd w s
  | .mmaAccept k => Sys2Proof.Machine.execMmaAccept k s
  | .peerReachable d port => Sys2Proof.Machine.execPeerReachable d port s
  | .perBankRefresh sc => Sys2Proof.Machine.execPerBankRefresh sc s
  | .droopEnd k => Sys2Proof.Machine.execDroopEnd k s
  | .clTempRefresh k z => Sys2Proof.Machine.execClTempRefresh k z s
  | .schedAssistComplete => Sys2Proof.Machine.execSchedAssistComplete s
  | .cancelDropComplete w => Sys2Proof.Machine.execCancelDropComplete w s
  | .faultNPulseEnd => Sys2Proof.Machine.execFaultNPulseEnd s

end Sys2Proof.Machine
end

