-- ==== Sys2Proof/WellFormed.lean ====
section
/-! DEFINITION. Well-formed instructions: every operand of a program word lies within the field that holds it (R224 to R231),
and every unit that a step of the device names is one that the device has (R12, R14, R16). -/

namespace Sys2Proof

/-- A slice operand that a field holds: R225 gives ten bits to the start and four to the width. -/
def Slc.wf (x : Slc) : Bool := decide (x.start < 1024) && decide (1 ≤ x.width) && decide (x.width ≤ 16)

/-- A guard that its field holds (R224). -/
def Guard.wf (x : Guard) : Bool := decide (x.pred < 128)

/-- An access descriptor: CAP, ATTR and SCOPE in their fields, SCOPE zero with RLX (R279). -/
def accWf (cap attr scope : Nat) : Bool :=
  decide (cap < 32) && decide (attr < 4) && decide (scope < 8) && (decide (attr ≠ 0) || decide (scope = 0))

/-- The operands of shape SReg lie within their fields. -/
def SReg.wf (o : SReg) : Bool := decide (o.d < 256) && decide (o.a < 256) && decide (o.b < 256)

/-- The operands of shape SImm lie within their fields. -/
def SImm.wf (o : SImm) : Bool := decide (o.d < 256) && decide (o.a < 256) && decide (o.imm < 16384)

/-- The operands of shape ScmpR lie within their fields. -/
def ScmpR.wf (o : ScmpR) : Bool := decide (o.a < 256) && decide (o.b < 256)

/-- The operands of shape ScmpI lie within their fields. -/
def ScmpI.wf (o : ScmpI) : Bool := decide (o.a < 256) && decide (o.imm < 16384)

/-- The operands of shape SmovR lie within their fields. -/
def SmovR.wf (o : SmovR) : Bool := decide (o.d < 256) && decide (o.b < 256)

/-- The operands of shape SmovI lie within their fields. -/
def SmovI.wf (o : SmovI) : Bool := decide (o.d < 256) && decide (o.imm < 16384)

/-- The operands of shape S2 lie within their fields. -/
def S2.wf (o : S2) : Bool := decide (o.d < 256) && decide (o.a < 256)

/-- The operands of shape Sget lie within their fields. -/
def Sget.wf (o : Sget) : Bool := decide (o.d < 256) && o.a.wf && decide (o.lane < 32)

/-- The operands of shape VV lie within their fields. -/
def VV.wf (o : VV) : Bool := o.g.wf && o.d.wf && o.a.wf && decide (o.b < 1024) && decide (o.nib < 16) && decide (o.ext < 4)

/-- The operands of shape VS lie within their fields. -/
def VS.wf (o : VS) : Bool := o.g.wf && o.d.wf && o.a.wf && decide (o.s < 256) && decide (o.nib < 16) && decide (o.ext < 4)

/-- The operands of shape VI lie within their fields. -/
def VI.wf (o : VI) : Bool :=
  o.g.wf && o.d.wf && decide (o.a < 1024)
    && decide (o.nib < 16) && decide (o.imm < 16384) && decide (o.ext < 4)

/-- The operands of shape U1 lie within their fields. -/
def U1.wf (o : U1) : Bool := o.g.wf && o.d.wf && o.a.wf && decide (o.nib < 16) && decide (o.ext < 4)

/-- The operands of shape US lie within their fields. -/
def US.wf (o : US) : Bool := o.g.wf && o.d.wf && decide (o.s < 256) && decide (o.nib < 16) && decide (o.ext < 4)

/-- The operands of shape MI lie within their fields. -/
def MI.wf (o : MI) : Bool := o.g.wf && o.d.wf && decide (o.nib < 16) && decide (o.imm < 16384) && decide (o.ext < 4)

/-- The operands of shape Bfld lie within their fields. -/
def Bfld.wf (o : Bfld) : Bool := o.g.wf && o.d.wf && o.a.wf && decide (o.pos < 64) && decide (1 ≤ o.len) && decide (o.len ≤ 64)

/-- The operands of shape Zip lie within their fields. -/
def Zip.wf (o : Zip) : Bool := o.g.wf && o.d.wf && o.a.wf && o.b.wf && decide (o.gc < 4)

/-- The operands of shape Unzip lie within their fields. -/
def Unzip.wf (o : Unzip) : Bool := o.g.wf && o.d.wf && o.a.wf && decide (o.gc < 4)

/-- The operands of shape Cvt lie within their fields. -/
def Cvt.wf (o : Cvt) : Bool := o.g.wf && o.d.wf && o.a.wf && decide (o.src < 8) && decide (o.dst < 8) && decide (o.mode < 4)

/-- The operands of shape CvtFI lie within their fields. -/
def CvtFI.wf (o : CvtFI) : Bool :=
  o.g.wf && o.d.wf && o.a.wf
    && decide (o.src < 8) && decide (1 ≤ o.e) && decide (o.e ≤ 16) && decide (o.mode < 4)

/-- The operands of shape CvtIF lie within their fields. -/
def CvtIF.wf (o : CvtIF) : Bool :=
  o.g.wf && o.d.wf && o.a.wf
    && decide (1 ≤ o.e) && decide (o.e ≤ 16) && decide (o.dst < 8) && decide (o.mode < 4)

/-- The operands of shape CvtEF lie within their fields. -/
def CvtEF.wf (o : CvtEF) : Bool := o.g.wf && o.d.wf && o.a.wf && o.r.wf && decide (o.f < 4)

/-- The operands of shape CvtE8 lie within their fields. -/
def CvtE8.wf (o : CvtE8) : Bool := o.g.wf && o.d.wf && o.a.wf && o.s.wf && decide (o.f < 2)

/-- The operands of shape P3 lie within their fields. -/
def P3.wf (o : P3) : Bool := o.g.wf && decide (o.d < 128) && decide (o.a < 128) && decide (o.b < 128)

/-- The operands of shape P2 lie within their fields. -/
def P2.wf (o : P2) : Bool := o.g.wf && decide (o.d < 128) && decide (o.a < 128)

/-- The operands of shape Pset lie within their fields. -/
def Pset.wf (o : Pset) : Bool := o.g.wf && decide (o.d < 128)

/-- The operands of shape Pbit lie within their fields. -/
def Pbit.wf (o : Pbit) : Bool := o.g.wf && decide (o.d < 128) && o.a.wf && decide (o.b < 16384)

/-- The operands of shape Pton lie within their fields. -/
def Pton.wf (o : Pton) : Bool := o.g.wf && o.d.wf && decide (o.a < 128)

/-- The operands of shape CmpVV lie within their fields. -/
def CmpVV.wf (o : CmpVV) : Bool :=
  o.g.wf && decide (o.cond < 8) && decide (o.red < 4)
    && decide (o.d < 128) && o.a.wf && decide (o.b < 1024) && decide (o.nib < 16)

/-- The operands of shape CmpVS lie within their fields. -/
def CmpVS.wf (o : CmpVS) : Bool :=
  o.g.wf && decide (o.cond < 8) && decide (o.red < 4) && decide (o.d < 128)
    && o.a.wf && decide (o.s < 256) && decide (o.nib < 16) && decide (o.ext < 4)

/-- The operands of shape CmpVI lie within their fields. -/
def CmpVI.wf (o : CmpVI) : Bool :=
  o.g.wf && decide (o.cond < 8) && decide (o.red < 4) && decide (o.d < 128)
    && decide (o.a < 1024) && decide (o.nib < 16) && decide (o.imm < 16384) && decide (o.ext < 4)

/-- The operands of shape Shfl lie within their fields. -/
def Shfl.wf (o : Shfl) : Bool := o.g.wf && o.d.wf && o.a.wf && o.b.wf

/-- The operands of shape ShflI lie within their fields. -/
def ShflI.wf (o : ShflI) : Bool := o.g.wf && o.d.wf && o.a.wf && decide (o.imm < 32)

/-- The operands of shape Red lie within their fields. -/
def Red.wf (o : Red) : Bool := o.g.wf && o.d.wf && o.a.wf && decide (o.nib < 16) && decide (o.op < 8)

/-- The operands of shape Vote lie within their fields. -/
def Vote.wf (o : Vote) : Bool := o.g.wf && decide (o.d < 128) && decide (o.a < 128) && decide (o.mode < 4)

/-- The operands of shape Pgat lie within their fields. -/
def Pgat.wf (o : Pgat) : Bool := o.g.wf && decide (o.d < 256) && decide (o.a < 128)

/-- The operands of shape Next lie within their fields. -/
def Next.wf (o : Next) : Bool := o.a.wf

/-- The operands of shape S1 lie within their fields. -/
def S1.wf (o : S1) : Bool := decide (o.a < 256)

/-- Shape Nul has no operand field. -/
def Nul.wf (_o : Nul) : Bool := true

/-- The operands of shape Meet lie within their fields. -/
def Meet.wf (o : Meet) : Bool := decide (o.m < 4096)

/-- The operands of shape Jmp lie within their fields. -/
def Jmp.wf (o : Jmp) : Bool := decide (o.disp < 16384)

/-- The operands of shape JmpS lie within their fields. -/
def JmpS.wf (o : JmpS) : Bool := decide (o.sel < 8) && decide (o.disp < 16384)

/-- The operands of shape Lcset lie within their fields. -/
def Lcset.wf (o : Lcset) : Bool := decide (o.n < 4) && (if o.imm then decide (o.v < 16384) else decide (o.v < 256))

/-- The operands of shape Loop lie within their fields. -/
def Loop.wf (o : Loop) : Bool := decide (o.n < 4) && decide (o.disp < 16384)

/-- The operands of shape Mem lie within their fields. -/
def Mem.wf (o : Mem) : Bool := o.g.wf && o.d.wf && o.a.wf && accWf o.cap o.attr o.scope && decide (o.sh < 8)

/-- The operands of shape Cas lie within their fields. -/
def Cas.wf (o : Cas) : Bool := o.g.wf && o.d.wf && o.a.wf && accWf o.cap o.attr o.scope

/-- The operands of shape Pref lie within their fields. -/
def Pref.wf (o : Pref) : Bool := o.g.wf && decide (o.lvl < 2) && o.a.wf && decide (o.cap < 32) && decide (o.sh < 8)

/-- The operands of shape Spill lie within their fields. -/
def Spill.wf (o : Spill) : Bool :=
  o.g.wf && decide (o.a < 1024) && decide (1 ≤ o.c)
    && decide (o.c ≤ 1024) && decide (o.cap < 32) && decide (o.s < 256)

/-- The operands of shape Ldc lie within their fields. -/
def Ldc.wf (o : Ldc) : Bool := decide (o.d < 256) && decide (o.a < 256) && accWf o.cap o.attr o.scope

/-- The operands of shape Adrn lie within their fields. -/
def Adrn.wf (o : Adrn) : Bool := o.g.wf && decide (o.vw < 4) && o.a.wf && decide (o.f < 8) && decide (o.s < 256)

/-- The operands of shape Atm lie within their fields. -/
def Atm.wf (o : Atm) : Bool := o.g.wf && o.d.wf && o.a.wf && accWf o.cap o.attr o.scope && decide (o.op < 16)

/-- The operands of shape Fence lie within their fields. -/
def Fence.wf (o : Fence) : Bool := accWf 0 o.attr o.scope

/-- The operands of shape FenceS lie within their fields. -/
def FenceS.wf (o : FenceS) : Bool := decide (o.scope < 8)

/-- The operands of shape Iinv lie within their fields. -/
def Iinv.wf (o : Iinv) : Bool := decide (o.reach < 2)

/-- The operands of shape Cder lie within their fields. -/
def Cder.wf (o : Cder) : Bool := decide (o.d < 256) && decide (o.a < 256) && decide (o.b < 256)

/-- The operands of shape Cres lie within their fields. -/
def Cres.wf (o : Cres) : Bool := decide (o.d < 256) && decide (o.a < 256) && decide (o.perms < 4096)

/-- The operands of shape Cseal lie within their fields. -/
def Cseal.wf (o : Cseal) : Bool := decide (o.d < 256) && decide (o.a < 256) && decide (o.k < 256)

/-- The operands of shape Cmov lie within their fields. -/
def Cmov.wf (o : Cmov) : Bool := decide (o.d < 256) && decide (o.a < 256)

/-- The operands of shape Cget lie within their fields. -/
def Cget.wf (o : Cget) : Bool := decide (o.d < 256) && decide (o.a < 256) && decide (o.f < 16)

/-- The operands of shape CgetN lie within their fields. -/
def CgetN.wf (o : CgetN) : Bool := o.d.wf && decide (o.a < 256) && decide (o.f < 16)

/-- The operands of shape Ctest lie within their fields. -/
def Ctest.wf (o : Ctest) : Bool := decide (o.perms < 4096) && decide (o.a < 256) && decide (o.b < 256)

/-- The operands of shape Bar lie within their fields. -/
def Bar.wf (o : Bar) : Bool := decide (o.cap < 32) && decide (o.a < 256) && decide (o.d < 256)

/-- The operands of shape Barr lie within their fields. -/
def Barr.wf (o : Barr) : Bool := o.g.wf && decide (o.cap < 32) && decide (o.a < 256)

/-- The operands of shape Flk lie within their fields. -/
def Flk.wf (o : Flk) : Bool := decide (o.ch < 4) && decide (o.cap < 32) && decide (o.a < 256)

/-- The operands of shape Flq lie within their fields. -/
def Flq.wf (o : Flq) : Bool := decide (o.d < 256) && decide (o.ch < 4)

/-- The operands of shape Flc lie within their fields. -/
def Flc.wf (o : Flc) : Bool := decide (o.ch < 4)

/-- The operands of shape Spawn lie within their fields. -/
def Spawn.wf (o : Spawn) : Bool := o.g.wf && o.d.wf && decide (o.a < 1024)

/-- The operands of shape Succ lie within their fields. -/
def Succ.wf (o : Succ) : Bool := o.g.wf && decide (o.cap < 32) && o.a.wf && o.v.wf

/-- The operands of shape Launch lie within their fields. -/
def Launch.wf (o : Launch) : Bool := decide (o.cap < 32) && decide (o.a < 256)

/-- The operands of shape Palloc lie within their fields. -/
def Palloc.wf (o : Palloc) : Bool := o.g.wf && o.d.wf && decide (o.n < 16)

/-- The operands of shape Pfree lie within their fields. -/
def Pfree.wf (o : Pfree) : Bool := o.g.wf && o.a.wf && decide (o.n < 16)

/-- The operands of shape Cput lie within their fields. -/
def Cput.wf (o : Cput) : Bool := o.g.wf && decide (o.c < 8) && decide (o.a < 1024) && decide (o.cap < 32) && o.f.wf

/-- The operands of shape Cflush lie within their fields. -/
def Cflush.wf (o : Cflush) : Bool := decide (o.c < 8)

/-- The operands of shape Eng lie within their fields. -/
def Eng.wf (o : Eng) : Bool := o.g.wf && decide (o.d < 256) && decide (o.q < 32) && decide (o.o < 32) && decide (o.f < 32)

/-- The operands of shape Mresv lie within their fields. -/
def Mresv.wf (o : Mresv) : Bool := decide (o.slot < 16) && decide (o.cap < 32) && decide (o.b < 256)

/-- The operands of shape Mrels lie within their fields. -/
def Mrels.wf (o : Mrels) : Bool := decide (o.slot < 16)

/-- The operands of shape Mldb lie within their fields. -/
def Mldb.wf (o : Mldb) : Bool := decide (o.d < 256) && decide (o.a < 256) && decide (o.cap < 32) && decide (o.fmt < 3)

/-- The operands of shape Mma lie within their fields. -/
def Mma.wf (o : Mma) : Bool := decide (o.a < 256)

/-- The operands of shape Lnset lie within their fields. -/
def Lnset.wf (o : Lnset) : Bool := decide (o.lvl < 4) && decide (o.a < 256)

/-- The operands of shape Lncoef lie within their fields. -/
def Lncoef.wf (o : Lncoef) : Bool := decide (o.c < 4) && decide (o.lvl < 4) && decide (o.a < 256)

/-- The operands of shape Ctake lie within their fields. -/
def Ctake.wf (o : Ctake) : Bool := decide (o.d < 256) && decide (o.c < 8) && decide (o.slot < 16) && decide (o.a < 256)

/-- The operands of shape CtakeArm lie within their fields. -/
def CtakeArm.wf (o : CtakeArm) : Bool := decide (o.c < 8) && decide (o.cap < 32) && decide (o.a < 256)

/-- The operands of shape Cgive lie within their fields. -/
def Cgive.wf (o : Cgive) : Bool := decide (o.c < 8) && decide (o.a < 256)

/-- The operands of shape SrdS lie within their fields. -/
def SrdS.wf (o : SrdS) : Bool := decide (o.d < 256) && decide (o.reg < 4096)

/-- The operands of shape SrdN lie within their fields. -/
def SrdN.wf (o : SrdN) : Bool := o.d.wf && decide (o.reg < 4096)

/-- The operands of shape Swr lie within their fields. -/
def Swr.wf (o : Swr) : Bool := decide (o.reg < 4096) && decide (o.a < 256)

/-- The operands of shape Trap lie within their fields. -/
def Trap.wf (o : Trap) : Bool := decide (o.sel < 8) && decide (o.code < 16384)

/-- The operands of shape Code lie within their fields. -/
def Code.wf (o : Code) : Bool := decide (o.code < 16384)

/-- The operands of shape Rquota lie within their fields. -/
def Rquota.wf (o : Rquota) : Bool := decide (o.d < 256) && decide (o.a < 256) && decide (o.q < 32)

/-- The operands of shape Lit lie within their fields. -/
def Lit.wf (o : Lit) : Bool := decide (o.d < 256) && decide (o.v < 2 ^ 64)

/-- A half of a paired word within its fields (R230). -/
def Half.wf (h : Half) : Bool :=
  decide (h.op < 16) && decide (h.ty < 8) && decide (h.s1 < 256) && decide (h.w1 < 8) && decide (h.s2 < 256)
    && decide (h.w2 < 8) && decide (h.pg < 4)

/-- Both halves within their fields and assigned (R230 to R232). -/
def Pair.wf (o : Pair) : Bool := o.h1.wf && o.h2.wf && halfAssigned false o.h1 && halfAssigned true o.h2

/-- A core number (R12). -/
def coreNo (c : Nat) : Bool := decide (c < 128)

/-- A cluster, vault or slice number (R12, R16). -/
def clusterNo (k : Nat) : Bool := decide (k < 32)

/-- A well-formed instruction. -/
def Instr.wf (i : Instr) : Bool :=
  match i with
  | .saddReg o => o.wf
  | .saddImm o => o.wf
  | .ssubReg o => o.wf
  | .ssubImm o => o.wf
  | .smulReg o => o.wf
  | .smulImm o => o.wf
  | .smulhReg o => o.wf
  | .smulhImm o => o.wf
  | .smulhuReg o => o.wf
  | .smulhuImm o => o.wf
  | .sdivReg o => o.wf
  | .sdivImm o => o.wf
  | .sdivuReg o => o.wf
  | .sdivuImm o => o.wf
  | .sremReg o => o.wf
  | .sremImm o => o.wf
  | .sremuReg o => o.wf
  | .sremuImm o => o.wf
  | .sandReg o => o.wf
  | .sandImm o => o.wf
  | .sorReg o => o.wf
  | .sorImm o => o.wf
  | .sxorReg o => o.wf
  | .sxorImm o => o.wf
  | .sshlReg o => o.wf
  | .sshlImm o => o.wf
  | .sshrReg o => o.wf
  | .sshrImm o => o.wf
  | .sshaReg o => o.wf
  | .sshaImm o => o.wf
  | .sminReg o => o.wf
  | .sminImm o => o.wf
  | .sminuReg o => o.wf
  | .sminuImm o => o.wf
  | .smaxReg o => o.wf
  | .smaxImm o => o.wf
  | .smaxuReg o => o.wf
  | .smaxuImm o => o.wf
  | .scmpReg o => o.wf
  | .scmpImm o => o.wf
  | .smovReg o => o.wf
  | .smovImm o => o.wf
  | .spopc o => o.wf
  | .sclz o => o.wf
  | .sget o => o.wf
  | .addVV o => o.wf
  | .addVS o => o.wf
  | .addVI o => o.wf
  | .subVV o => o.wf
  | .subVS o => o.wf
  | .subVI o => o.wf
  | .mulVV o => o.wf
  | .mulVS o => o.wf
  | .mulVI o => o.wf
  | .madVV o => o.wf
  | .madVS o => o.wf
  | .madVI o => o.wf
  | .addSatIVV o => o.wf
  | .addSatIVS o => o.wf
  | .addSatIVI o => o.wf
  | .addSatBVV o => o.wf
  | .addSatBVS o => o.wf
  | .addSatBVI o => o.wf
  | .subSatIVV o => o.wf
  | .subSatIVS o => o.wf
  | .subSatIVI o => o.wf
  | .subSatBVV o => o.wf
  | .subSatBVS o => o.wf
  | .subSatBVI o => o.wf
  | .mulhIVV o => o.wf
  | .mulhIVS o => o.wf
  | .mulhIVI o => o.wf
  | .mulhBVV o => o.wf
  | .mulhBVS o => o.wf
  | .mulhBVI o => o.wf
  | .divIVV o => o.wf
  | .divIVS o => o.wf
  | .divIVI o => o.wf
  | .divBVV o => o.wf
  | .divBVS o => o.wf
  | .divBVI o => o.wf
  | .remIVV o => o.wf
  | .remIVS o => o.wf
  | .remIVI o => o.wf
  | .remBVV o => o.wf
  | .remBVS o => o.wf
  | .remBVI o => o.wf
  | .minIVV o => o.wf
  | .minIVS o => o.wf
  | .minIVI o => o.wf
  | .minBVV o => o.wf
  | .minBVS o => o.wf
  | .minBVI o => o.wf
  | .maxIVV o => o.wf
  | .maxIVS o => o.wf
  | .maxIVI o => o.wf
  | .maxBVV o => o.wf
  | .maxBVS o => o.wf
  | .maxBVI o => o.wf
  | .abs o => o.wf
  | .neg o => o.wf
  | .absdI o => o.wf
  | .absdB o => o.wf
  | .faddVV o => o.wf
  | .faddVS o => o.wf
  | .fsubVV o => o.wf
  | .fsubVS o => o.wf
  | .fmulVV o => o.wf
  | .fmulVS o => o.wf
  | .fmaVV o => o.wf
  | .fmaVS o => o.wf
  | .fminVV o => o.wf
  | .fminVS o => o.wf
  | .fmaxVV o => o.wf
  | .fmaxVS o => o.wf
  | .fdivVV o => o.wf
  | .fdivVS o => o.wf
  | .frcpVV o => o.wf
  | .frcpVS o => o.wf
  | .frsqVV o => o.wf
  | .frsqVS o => o.wf
  | .fex2VV o => o.wf
  | .fex2VS o => o.wf
  | .flg2VV o => o.wf
  | .flg2VS o => o.wf
  | .fsinVV o => o.wf
  | .fsinVS o => o.wf
  | .fcosVV o => o.wf
  | .fcosVS o => o.wf
  | .fabsVV o => o.wf
  | .fabsVS o => o.wf
  | .fnegVV o => o.wf
  | .fnegVS o => o.wf
  | .frintVV o => o.wf
  | .frintVS o => o.wf
  | .fclassVV o => o.wf
  | .fclassVS o => o.wf
  | .andVV o => o.wf
  | .andVS o => o.wf
  | .andVI o => o.wf
  | .orVV o => o.wf
  | .orVS o => o.wf
  | .orVI o => o.wf
  | .xorVV o => o.wf
  | .xorVS o => o.wf
  | .xorVI o => o.wf
  | .andnVV o => o.wf
  | .andnVS o => o.wf
  | .andnVI o => o.wf
  | .shlVV o => o.wf
  | .shlVS o => o.wf
  | .shlVI o => o.wf
  | .shrVV o => o.wf
  | .shrVS o => o.wf
  | .shrVI o => o.wf
  | .shaVV o => o.wf
  | .shaVS o => o.wf
  | .shaVI o => o.wf
  | .rotVV o => o.wf
  | .rotVS o => o.wf
  | .rotVI o => o.wf
  | .movVV o => o.wf
  | .movVS o => o.wf
  | .movVI o => o.wf
  | .notB o => o.wf
  | .popc o => o.wf
  | .clz o => o.wf
  | .brev o => o.wf
  | .bfe o => o.wf
  | .bfi o => o.wf
  | .zip o => o.wf
  | .unzip o => o.wf
  | .cvt o => o.wf
  | .cvtfi o => o.wf
  | .cvtif o => o.wf
  | .cvtef o => o.wf
  | .cvte8 o => o.wf
  | .pand o => o.wf
  | .por o => o.wf
  | .pxor o => o.wf
  | .pandn o => o.wf
  | .pnot o => o.wf
  | .pset o => o.wf
  | .pbit o => o.wf
  | .pton o => o.wf
  | .cmpVV o => o.wf
  | .cmpVS o => o.wf
  | .cmpVI o => o.wf
  | .fcmpVV o => o.wf
  | .fcmpVS o => o.wf
  | .shfl o => o.wf
  | .shflx o => o.wf
  | .bcast o => o.wf
  | .reduce o => o.wf
  | .scan o => o.wf
  | .vote o => o.wf
  | .ballot o => o.wf
  | .pfirst o => o.wf
  | .pcount o => o.wf
  | .next o => o.wf
  | .nextu o => o.wf
  | .exit o => o.wf
  | .meet o => o.wf
  | .jmp o => o.wf
  | .jmz o => o.wf
  | .jmnz o => o.wf
  | .lcset o => o.wf
  | .loop o => o.wf
  | .nop o => o.wf
  | .ld o => o.wf
  | .st o => o.wf
  | .ldt o => o.wf
  | .pref o => o.wf
  | .spill o => o.wf
  | .fill o => o.wf
  | .ldc o => o.wf
  | .stc o => o.wf
  | .adrn o => o.wf
  | .atom o => o.wf
  | .red o => o.wf
  | .cas o => o.wf
  | .fence o => o.wf
  | .fenceS o => o.wf
  | .iinv o => o.wf
  | .cder o => o.wf
  | .cres o => o.wf
  | .cseal o => o.wf
  | .cunseal o => o.wf
  | .cmov o => o.wf
  | .cget o => o.wf
  | .cgetn o => o.wf
  | .ctest o => o.wf
  | .binit o => o.wf
  | .barr o => o.wf
  | .bexp o => o.wf
  | .bwait o => o.wf
  | .btst o => o.wf
  | .flk o => o.wf
  | .flq o => o.wf
  | .flc o => o.wf
  | .spawn o => o.wf
  | .succ o => o.wf
  | .cancel o => o.wf
  | .launch o => o.wf
  | .palloc o => o.wf
  | .pallocT o => o.wf
  | .pfree o => o.wf
  | .cput o => o.wf
  | .cflush o => o.wf
  | .rcast o => o.wf
  | .ocap o => o.wf
  | .cbfk o => o.wf
  | .cbstep o => o.wf
  | .mresv o => o.wf
  | .mrels o => o.wf
  | .mldb o => o.wf
  | .mma o => o.wf
  | .mmaz o => o.wf
  | .mmap o => o.wf
  | .mmazp o => o.wf
  | .lnset o => o.wf
  | .lncoef o => o.wf
  | .lnstep o => o.wf
  | .ctake o => o.wf
  | .ctakeArm o => o.wf
  | .cgive o => o.wf
  | .idemb o => o.wf
  | .ideme o => o.wf
  | .srdScalar o => o.wf
  | .srdSlice o => o.wf
  | .swr o => o.wf
  | .trap o => o.wf
  | .brk o => o.wf
  | .ecall o => o.wf
  | .tretRetry o => o.wf
  | .tretSkip o => o.wf
  | .tretKilltask o => o.wf
  | .tretKillcrew o => o.wf
  | .rquota o => o.wf
  | .lit o => o.wf
  | .pairedWord o => o.wf
  | .longResultWrite _ _ => true
  | .writePerformAtHome _ _ => true
  | .l1LineFill c => coreNo c
  | .leaseExpiry c => coreNo c
  | .tileFillComplete k _ => clusterNo k
  | .pageWalkComplete _ => true
  | .specFenceComplete _ => true
  | .specConflictRollback _ => true
  | .iinvComplete _ => true
  | .waveFormation _ => true
  | .bucketAgeMax _ _ => true
  | .segmentWatchdogExpiry _ => true
  | .sluiceReleaseStep k => clusterNo k
  | .pendingWaveExchange c q => coreNo c && decide (q < 8)
  | .waveParkExchange c q => coreNo c && decide (q < 8)
  | .flumeHeadForward c ch => coreNo c && decide (ch < 4)
  | .flumeChainStart c ch => coreNo c && decide (ch < 4)
  | .flumeRecordProcess c ch => coreNo c && decide (ch < 4)
  | .flumeCancelWalk c ch => coreNo c && decide (ch < 4)
  | .gridCrewArrivalSend _ _ => true
  | .gridPortArrival => true
  | .gridReleaseDelivery => true
  | .roeRcastService k => clusterNo k
  | .roeOcapService k => clusterNo k
  | .cbeCbfkService k => clusterNo k
  | .cbeCbstepService k => clusterNo k
  | .successorReleasePlace c => coreNo c
  | .taskStart _ => true
  | .cisternFlushTimeout k _ => clusterNo k
  | .mldbComplete k => clusterNo k
  | .mmaComplete k => clusterNo k
  | .ctakeCopyComplete k => clusterNo k
  | .doorbell q _ => decide (q < 16)
  | .cqBaseWrite q _ => decide (q < 16)
  | .crHeadWrite q _ => decide (q < 16)
  | .launchRecordTake q => decide (q ≤ 16)
  | .waitEventPoll _ => true
  | .placementRetry _ => true
  | .launchPlacement _ => true
  | .crewStart _ => true
  | .crewEnd _ => true
  | .launchCompletion _ => true
  | .completionRecordWrite q => decide (q ≤ 16)
  | .spillStagingDrain k _ => clusterNo k
  | .spillRefill _ => true
  | .launchDeadline _ => true
  | .primaryFailure => true
  | .schedCtlTake who => decide (who < 2)
  | .schedCtlDone who => decide (who < 2)
  | .schedAssistWrite _ => true
  | .schedAssistFinish _ => true
  | .jrnPtrWrite _ _ => true
  | .swapSave c => coreNo c
  | .swapSaveHaltEnd c => coreNo c
  | .swapSaveComplete c => coreNo c
  | .swapRestore c => coreNo c
  | .swapRestoreComplete c => coreNo c
  | .partitionStateError c q _ _ => coreNo c && decide (q < 8)
  | .sliceRowPoison _ _ _ => true
  | .queueEntryError _ _ _ => true
  | .nearScrubStep k _ _ _ _ => clusterNo k
  | .vaultScrubStep v _ _ => decide (v < 112)
  | .vaultTempSample v _ => clusterNo v
  | .vaultRefresh v => clusterNo v
  | .dramTempPoll _ => true
  | .capMintSet _ => true
  | .capMintClear _ => true
  | .tlbInvAll => true
  | .tlbInvContext _ => true
  | .tlbInvPage _ _ => true
  | .tlbInvComplete => true
  | .vaultSplitWrite _ => true
  | .coreSramWrite c _ => coreNo c
  | .poolModeChange k _ _ => clusterNo k
  | .poolDrainComplete k => clusterNo k
  | .cslrWrite k _ => clusterNo k
  | .poolLimitWrite _ n _ => decide (n < 16)
  | .railSwitch k _ => clusterNo k
  | .railSwitchDone k => clusterNo k
  | .alarmSourceAssert i => decide (i < 4)
  | .throttleRelease => true
  | .killSequence => true
  | .killLevelStep => true
  | .droopStretch k => clusterNo k
  | .brownoutStop k => clusterNo k
  | .brownoutResume k => clusterNo k
  | .retentionLoss k => clusterNo k
  | .clusterRecovery k => clusterNo k
  | .energyUpdate => true
  | .energyLoRead _ _ => true
  | .windowLowHalfWrite _ _ _ => true
  | .windowHighHalfWrite _ _ _ => true
  | .windowLowHalfRead _ _ => true
  | .hostWrite _ _ => true
  | .hostRead _ _ => true
  | .peerAccess _ _ _ _ => true
  | .peerWriteAck _ => true
  | .reductionMergedWrite r _ _ => decide (r < 8)
  | .peerUnreachable d => decide (d < 4)
  | .rwinBaseWrite r _ => decide (r < 8)
  | .cpFence _ => true
  | .attest => true
  | .loadTranslator => true
  | .enroll => true
  | .warmStart => true
  | .loadFirmware => true
  | .mboxCommandComplete => true
  | .coldStart => true
  | .mgmtWatchdogWarmStart => true
  | .holdSet c => coreNo c
  | .coreHoldClear c => coreNo c
  | .scanTestStart c _ _ => coreNo c
  | .scanTestComplete => true
  | .tickInterrupt => true
  | .tickCmpWrite _ => true
  | .registerWrite _ _ _ => true
  | .alarmSourceClear i => decide (i < 4)
  | .releaseWaitEnd _ => true
  | .mmaAccept k => clusterNo k
  | .peerReachable d _ => decide (d < 4)
  | .perBankRefresh sc => decide (sc < 16)
  | .droopEnd k => clusterNo k
  | .clTempRefresh k _ => clusterNo k
  | .schedAssistComplete => true
  | .cancelDropComplete _ => true
  | .faultNPulseEnd => true

end Sys2Proof
end

