-- ==== Sys2Proof/Machine/Fetch.lean ====
section
/-! DEFINITION. The decoding of a fetched word by the agent that fetched it (R234, R235), what precedes the issue (R376), and
the choice whether an agent issues at all (R366, R367). -/

namespace Sys2Proof.Machine

open Sys2Proof

/-! ### A wave -/

/-- Step 3 of R234 holds for a word: its own meaning would raise ILLEGAL_OPERAND. It is asked of a copy of the state in
which the wave stands at THREAD level, not speculative, with a handler for every cause. -/
def State.badOperand (s : State) (w : Nat) (i : Instr) : Bool :=
  let l := s.waveLaunch w
  let s1 := s.setWave w { s.wave w with level := .thread, spec := none, frame := none }
  let s2 := s1.setLaunch l { s1.launch l with mod_ := { (s1.launch l).mod_ with traps := [0, 0, 0, 0, 0, 0] } }
  match exec i s2 with
  | .next t => match (t.wave w).frame with
    | some f => decide (f.cause = .illegalOperand)
    | none => false
  | _ => false

/-- A word whose access orders what follows it after the releases that it reads (R92, R93, R97, R113, R337, R341): an access with
ACQ or AR, a fence that acquires, SUCC and PALLOC; not at WAVE scope, which holds no other wave. -/
def isAcquire (i : Instr) : Bool :=
  match i with
  | .ld o => o.attr % 2 == 1 && o.scope != 0
  | .ldt o => o.attr % 2 == 1 && o.scope != 0
  | .ldc o => o.attr % 2 == 1 && o.scope != 0
  | .atom o => o.attr % 2 == 1 && o.scope != 0
  | .cas o => o.attr % 2 == 1 && o.scope != 0
  | .fence o => o.attr % 2 == 1 && o.scope != 0
  | .fenceS o => o.scope != 0
  | .succ _ => true
  | .palloc _ => true
  | .pallocT _ => true
  | _ => false

/-- A word that another agent's acquire may meet as a release (R97, R103 to R106, R337, R341): an access with REL or AR, a fence that
releases, an arrival, what starts an engine, a task or a launch, and what ends a segment. -/
def isRelease (i : Instr) : Bool :=
  match i with
  | .st o => decide (2 ≤ o.attr) && o.scope != 0
  | .stc o => decide (2 ≤ o.attr) && o.scope != 0
  | .atom o => decide (2 ≤ o.attr) && o.scope != 0
  | .red o => decide (2 ≤ o.attr) && o.scope != 0
  | .cas o => decide (2 ≤ o.attr) && o.scope != 0
  | .fence o => decide (2 ≤ o.attr) && o.scope != 0
  | .fenceS o => o.scope != 0
  | .barr _ => true
  | .bexp _ => true
  | .flk _ => true
  | .rcast _ => true
  | .ocap _ => true
  | .cbfk _ => true
  | .cbstep _ => true
  | .cput _ => true
  | .spawn _ => true
  | .succ _ => true
  | .launch _ => true
  | .pfree _ => true
  | .next _ => true
  | .nextu _ => true
  | .exit _ => true
  | .meet _ => true
  | .tretKilltask _ => true
  | _ => false

/-- A wait or a test of a barrier object finds its phase complete, and passes (R295). -/
def State.passes (s : State) (w : Nat) (i : Instr) : Bool :=
  match exec i s with
  | .next t => (t.wave w).word == (s.wave w).word + 1 && (t.wave w).level == (s.wave w).level && (t.wave w).cc.status != 8
  | _ => false

/-- The word is an acquire where the wave stands: BWAIT and BTST only where the phase is complete (R295). -/
def State.acquiring (s : State) (w : Nat) (i : Instr) : Bool :=
  match i with
  | .bwait _ => s.passes w i
  | .btst _ => s.passes w i
  | _ => isAcquire i

/-- What the issue of a word orders among the writes of its group's registers: an acquire puts released ones before the wave's reads,
a release adds the wave's own (R192). -/
def State.ordered (s : State) (w : Nat) (i : Instr) : State :=
  let s1 := if s.acquiring w i then s.orderRegs w else s
  if isRelease i then s1.releaseRegs w else s1

/-- The wave is in the active set, or enters it (R367): an active set below eight waves takes the oldest ready pending wave. -/
def State.activate (s : State) (w : Nat) : Option State :=
  if (s.wave w).active then some s
  else
    let c := s.waveCore w
    let q := s.partitionOf (groupOf w)
    match s.oldestPending c q with
    | none => none
    | some e =>
      if e.1 = w ∧ ((s.partWaves c q).filter (fun x => x.2.active)).length < 8 then
        some (s.setWave w { s.wave w with active := true })
      else none

/-- The wave that a wave's turn finds able to issue: formed, not frozen, ready and in the active set. -/
def State.waveTurn (s : State) (w : Nat) : Option State :=
  if (tabFind s.waves w).isSome = true ∧ s.crewFrozen (crewOf w) = false ∧ (s.wave w).ready = true then s.activate w else none

/-- No agent is selected any more. -/
def State.rest (s : State) : State := { s with cur := .idle }

/-- The load of which a wave has performed a part. -/
def Wave.sentLoad (v : Wave) : Option Instr :=
  match v.held with
  | none => none
  | some h => h.load.map (fun x => x.instr)

/-- The issue of a wave (R234, R368, R376): the state with the word fetched, and the instruction to be executed. A trap of the
fetch, of decoding or of the watchdog leaves no instruction; so does a wave that does not issue. A load that has performed in part
goes on (R91). -/
noncomputable def State.issueWave (s : State) (w : Nat) : State × Option Instr :=
  match s.waveTurn w with
  | none => (s.rest, none)
  | some s1 =>
    match (s1.wave w).sentLoad with
    | some i => (s1.ordered w i, some i)
    | none =>
    match s1.fetchWave w with
    | (s2, .outside) => (s2.trapWord w .illegalOpcode, none)
    | (s2, .bad c va k) => (if s2.wdExpired w then s2.wdTrap w k else s2.fetchTrap w c va k, none)
    | (s2, .words x lit) =>
      match decodeThread x lit with
      | .error c => (s2.plainTrap w c (wordSkip x), none)
      | .ok i =>
        if s2.wdExpired w = true ∧ s2.badOperand w i = false then (s2.wdTrap w (wordSkip x), none) else (s2.ordered w i, some i)

/-! ### A sequencer -/

/-- A sequencer issues (R298, R311, R315, R316, R398, R401): it runs, is neither stopped, parked nor stalled, waits for no copy,
and its clock runs. -/
def State.seqTurn (s : State) (k : Nat) : Bool :=
  let c := s.cluster k
  let q := c.seq
  q.run && q.launch.isSome && !q.stop && decide (q.park = .run) && q.stalled.isNone && !q.copying
    && !(c.brownout || c.lost || c.rail.busy)

/-- The issue of a sequencer (R235, R300, R322). -/
noncomputable def State.issueSeq (s : State) (k : Nat) : State × Option Instr :=
  if s.seqTurn k = false then (s.rest, none)
  else
    match s.fetchAt (s.seqEnv k) 0 (s.seqOf k).seg (s.seqOf k).word with
    | (s2, .outside) => (s2.seqFault k .illegalOpcode, none)
    | (s2, .bad c _ _) => (s2.seqFault k c, none)
    | (s2, .words x lit) =>
      match decodeSequencer x lit with
      | .error c => (s2.seqFault k c, none)
      | .ok i => (s2, some i)

/-- The issue of the selected agent. -/
noncomputable def State.issue (s : State) : State × Option Instr :=
  match s.cur with
  | .idle => (s, none)
  | .wave w => s.issueWave w
  | .seq k => s.issueSeq k

/-! ### What else may happen -/

/-- The deadlines that DT has passed fall, each in one action, where no step of the schedule has made them fall in their own cycle
(R364). -/
def State.fallDeadlines (s : State) : State :=
  (s.launches.filter (fun e => e.2.rec_.deadline != 0 && decide (e.2.rec_.deadline < s.dt) && !e.2.deadlineFell)).foldl
    (fun t e => t.fallDeadline e.1) s

/-- Time passes (R2): operations that waited for a DT make their first reads (R103), arrivals that waited for one are made (R104,
R316), and deadlines fall (R364). -/
def State.tick (s : State) (ns : Nat) : State := { s with dt := s.dt + ns }.openReads.arriveDue.reportTiles.fallDeadlines

/-- A watchdog expiry would come before a cause that the decoding of the wave's next word raises (R376). -/
noncomputable def State.trapsFirst (s : State) (i : Instr) : Bool :=
  match i with
  | .segmentWatchdogExpiry w =>
    match s.fetchWave w with
    | (s1, .words x lit) => match decodeThread x lit with
      | .error _ => true
      | .ok j => s1.badOperand w j
    | _ => false
  | _ => false

/-- The cluster whose clock a step of the device needs: that of the unit that makes it, and for a write to a near memory that of the
memory (R396, R401). -/
def State.clockOf (s : State) (i : Instr) : Option Nat :=
  let ofGroup := fun (g : Nat) => some (clusterOf (s.crew (g / 8)).core)
  let ofWave := fun (w : Nat) => some (s.waveCluster w)
  match i with
  | .longResultWrite w _ => ofWave w
  | .writePerformAtHome w n => match (s.wave w).out[n]? with
    | none => none
    | some p => if p.cells.any (fun c => decide (2 ^ 48 ≤ c.1)) then ofWave w else none
  | .l1LineFill c => some (clusterOf c)
  | .tileFillComplete k _ => some k
  | .specFenceComplete w => ofWave w
  | .specConflictRollback w => ofWave w
  | .iinvComplete w => ofWave w
  | .waveFormation g => ofGroup g
  | .bucketAgeMax g _ => ofGroup g
  | .segmentWatchdogExpiry w => ofWave w
  | .sluiceReleaseStep k => some k
  | .pendingWaveExchange c _ => some (clusterOf c)
  | .waveParkExchange c _ => some (clusterOf c)
  | .flumeHeadForward c _ => some (clusterOf c)
  | .flumeChainStart c _ => some (clusterOf c)
  | .flumeRecordProcess c _ => some (clusterOf c)
  | .flumeCancelWalk c _ => some (clusterOf c)
  | .gridCrewArrivalSend crew _ => some (clusterOf (s.crew crew).core)
  | .roeRcastService k => some k
  | .roeOcapService k => some k
  | .cbeCbfkService k => some k
  | .cbeCbstepService k => some k
  | .successorReleasePlace c => some (clusterOf c)
  | .taskStart g => ofGroup g
  | .cisternFlushTimeout k _ => some k
  | .mldbComplete k => some k
  | .mmaAccept k => some k
  | .mmaComplete k => some k
  | .ctakeCopyComplete k => some k
  | .spillStagingDrain k _ => some k
  | .swapSaveHaltEnd c => some (clusterOf c)
  | .swapSaveComplete c => some (clusterOf c)
  | .swapRestoreComplete c => some (clusterOf c)
  | .poolDrainComplete k => some k
  | .nearScrubStep k _ _ _ _ => some k
  | .releaseWaitEnd w => ofWave w
  | .cancelDropComplete w => ofWave w
  | _ => none

/-- No clock that a step of the device needs is held by a rail switch or stopped by a brownout: none of that cluster's registers,
slices and memories changes then (R396, R401). -/
def State.clocked (s : State) (i : Instr) : Bool :=
  match s.clockOf i with
  | none => true
  | some k => !((s.cluster k).brownout || (s.cluster k).rail.busy)

/-- A step of the device, on a unit that the device has and whose clock runs; anything else has no effect. -/
noncomputable def State.runEvent (s : State) (i : Instr) : Answer :=
  if isEvent i = true ∧ i.wf = true ∧ s.trapsFirst i = false ∧ s.clocked i = true then exec i s else .next s

/-- The instruction that an issue gave is executed. -/
def runIssued (r : State × Option Instr) : Answer :=
  match r.2 with
  | none => .next r.1
  | some i => exec i r.1

/-- One entry of the schedule. -/
noncomputable def State.runChoice (s : State) (c : Choice) : Answer :=
  match c with
  | .tick ns => .next (s.tick ns)
  | .wave w => runIssued { s with cur := .wave w }.issue
  | .seq k => runIssued { s with cur := .seq k }.issue
  | .event i => s.runEvent i
  | .part w n => .next (match { s with cur := .wave w }.issue with
      | (t, none) => t
      | (t, some i) => t.loadPart w i n)

/-- With nothing scheduled the selected agent issues; with none selected a nanosecond passes. -/
noncomputable def State.runCurrent (s : State) : Answer :=
  match s.cur with
  | .idle => .next (s.tick 1)
  | _ => runIssued s.issue

end Sys2Proof.Machine
end

