-- ==== Sys2Proof/Machine/Step.lean ====
section
/-! DEFINITION. One step of the machine, and the placing of one instruction where the next step fetches it. -/

namespace Sys2Proof.Machine

open Sys2Proof

/-- One step: the head of the schedule, or, when nothing is scheduled, the selected agent's next word. -/
noncomputable def step (s : State) : Host.Outcome State Fault Refusal :=
  match s.agenda with
  | [] => s.runCurrent
  | c :: rest => { s with agenda := rest }.runChoice c

/-! ### One instruction placed (log entry 14) -/

/-- Where withFetchWord puts the code: the first byte of the second 64 KiB page. -/
def placedCode : Nat := 0x10000

/-- Physical bytes written as a number of 8 bytes. -/
def Store.put8 (m : Store) (a v : Nat) : Store := m.write (wholeCells a (bytesOf v 8)) none

/-- Memory with a context entry, one table of each level and the leaf that map the code's page onto itself, and the
instruction's bits as 64-bit words (R6, R35 to R37). -/
def placedStore (m : Store) (w : Nat) : Store :=
  ((((((((m.put8 0 (0x1000 + 1)).put8 0x1000 (0x2000 + 1)).put8 0x2000 (0x3000 + 1)).put8 0x3000 (0x4000 + 1)).put8 0x4008
    (leafWord placedCode 0 2 true false true ||| 64)).put8 placedCode (w % 2 ^ 64)).put8 (placedCode + 8)
    (w / 2 ^ 64 % 2 ^ 64)).put8 (placedCode + 16) 0)

/-- A module of one segment of three words, with no handler. -/
def placedModule (seq : Bool) : Module :=
  { Module.none with segs := [{ first := 0, len := 3, meetSeg := false, seq := seq }], traps := [] }

/-- The launch of the placed instruction. -/
def placedLaunch (seq : Bool) : Launch :=
  { Launch.none with mod_ := placedModule seq, phase := .placed, codeBase := placedCode }

/-- The crew of the placed instruction. -/
def placedCrew : Crew := { Crew.none with commanded := true, started := true }

/-- A group of one home wave of which one thread is live. -/
def placedGroup : Group :=
  { Group.idle with threads := [(0, { Thread.idle with place := .formed 0 })], quota := [(0, 16)], retired := false }

/-- The formed wave of that thread. -/
def placedWave : Wave := { Wave.empty with lanes := [(0, 0)], active := true }

/-- A word of class 13, which only a sequencer executes (R234). -/
def isSeqWord (w : Nat) : Bool := bit w 62 == false && bits w 61 58 == 13

/-- The state in which the next step fetches and runs the instruction whose bits are w: launch 0 with one thread on core 0, or
with the sequencer of cluster 0 for a word of class 13, stands at that word. -/
def State.withFetchWord (s : State) (nbits w : Nat) : State :=
  let v := w % 2 ^ nbits
  let q := isSeqWord v
  { s with
    agenda := [], cur := if q then .seq 0 else .wave 0
    waves := tabPut s.waves 0 placedWave
    groups := tabPut s.groups 0 placedGroup
    crews := tabPut s.crews 0 placedCrew
    cores := tabPut s.cores 0 { s.core 0 with l1i := [], fbufs := [], tlb := [], swap := Swap.zero }
    clusters := tabPut s.clusters 0 { s.cluster 0 with
      tlb := [], brownout := false, lost := false, rail := { (s.cluster 0).rail with busy := false }
      seq := if q then { Seq.idle with launch := some 0, run := true } else (s.cluster 0).seq }
    launches := tabPut s.launches 0 (placedLaunch q)
    mem := { s.mem with store := placedStore s.store v, vaults := [], ptrs := [] }
    dev := { s.dev with ctxBase := 0, intlv := 128 } }

end Sys2Proof.Machine
end

