-- ==== Sys2Proof/Safety.lean ====
section
/-! DEFINITION. The terms in which claims are made: when an answer is a next state, what a word leaves unchanged, the value
that the latest writer of a slice gives, and the invariant of memory. -/

namespace Sys2Proof.Machine

open Sys2Proof

/-! ### Answers -/

/-- The answer is a next state of which P holds. -/
def Answer.gives (r : Answer) (P : State → Prop) : Prop := ∃ t, r = .next t ∧ P t

/-! ### Frames -/

/-- Everything but formed waves, groups and the model's free-value counter is as it was: memory with every byte of it, the
clusters with their sequencers and pools, cores, crews, launches, and the registers of the device. -/
def State.sameMachine (s t : State) : Prop :=
  t = { s with waves := t.waves, groups := t.groups, free := t.free } ∧ ∀ a, t.store.byte a = s.store.byte a

/-- No other wave and no other group has changed. -/
def State.sameOthers (s t : State) (w : Nat) : Prop :=
  (∀ x, x ≠ w → t.wave x = s.wave x) ∧ (∀ g, g ≠ groupOf w → t.group g = s.group g)

/-- The wave has passed a word of n positions: of its registers only those that the word counts in, the outstanding results and
the condition code may have changed. -/
def Wave.passed (v u : Wave) (n : Nat) : Prop :=
  u = { v with word := v.word + n, retry := none, held := none, park := u.park, lastPark := u.lastPark, pend := u.pend, cc := u.cc, spec := u.spec }

/-- A word that reaches neither memory nor another wave: the frame of register words of a wave. -/
def State.registerFrame (s t : State) (w n : Nat) : Prop :=
  s.sameMachine t ∧ s.sameOthers t w ∧ (s.wave w).passed (t.wave w) n

/-- The group's registers other than the threads' own are as they were. -/
def State.sameGroupRegs (s t : State) (g : Nat) : Prop := t.group g = { s.group g with threads := (t.group g).threads }

/-- The shared registers of a group but one s, one k and one view register hold what they held, and every wave of the group
reads of them what it read (R192). -/
def State.sameShared (s t : State) (g : Nat) (ds dk dv : Option Nat) : Prop :=
  (∀ r, some r ≠ ds → t.groupS g r = s.groupS g r ∧ ∀ x, groupOf x = g → t.waveS x r = s.waveS x r)
    ∧ (∀ r, some r ≠ dk → t.groupK g r = s.groupK g r ∧ ∀ x, groupOf x = g → t.waveK x r = s.waveK x r)
    ∧ ∀ r, some r ≠ dv → t.groupVw g r = s.groupVw g r ∧ ∀ x, groupOf x = g → t.waveVw x r = s.waveVw x r

/-- Of the group only the s registers may have changed, and of these only one. -/
def State.onlyS (s t : State) (g d : Nat) : Prop :=
  t.group g = { s.group g with s := (t.group g).s, hist := (t.group g).hist } ∧ s.sameShared t g (some d) none none

/-! ### Values in program order (R195 to R198, R237) -/

/-- The value of a slice that its latest writer in program order gives: the last outstanding result's, else the file's. -/
def State.progNib (s : State) (w t n : Nat) : Nib :=
  (pendingCells (s.wave w).pend t n).getLast?.getD (tabGet (s.thread (groupOf w) t).slices 0 n)

/-- The slices from n on in program order, as one number. -/
def State.progSlices (s : State) (w t n : Nat) : Nat → Nat
  | 0 => 0
  | k + 1 => (s.progNib w t n).toNat + 16 * s.progSlices w t (n + 1) k

/-- A slice operand in program order. -/
def State.progOpnd (s : State) (w t : Nat) (o : Slc) : Nat := s.progSlices w t o.start o.width

/-- The value of a predicate that its latest writer in program order gives; p0 is true. -/
def State.progPrd (s : State) (w t p : Nat) : Bool :=
  if p = 0 then true else (pendingPrds (s.wave w).pend t p).getLast?.getD (tabGet (s.thread (groupOf w) t).preds false p)

/-- A thread is active under a guard. -/
def State.threadActive (s : State) (w : Nat) (g : Guard) (t : Nat) : Prop := ∃ l, (l, t) ∈ s.activeLanes w g

/-- Every slice that no active thread's operand holds keeps its value in program order, and every predicate does. -/
def State.onlySlices (s t : State) (w : Nat) (g : Guard) (d : Slc) : Prop :=
  (∀ x n, ¬(s.threadActive w g x ∧ d.start ≤ n ∧ n < d.start + d.width) → t.progNib w x n = s.progNib w x n)
    ∧ ∀ x p, t.progPrd w x p = s.progPrd w x p

/-- Every predicate but one of the active threads keeps its value in program order, and every slice does. -/
def State.onlyPred (s t : State) (w : Nat) (g : Guard) (d : Nat) : Prop :=
  (∀ x p, ¬(s.threadActive w g x ∧ p = d) → t.progPrd w x p = s.progPrd w x p)
    ∧ ∀ x n, t.progNib w x n = s.progNib w x n

/-- A thread's place, MEET registers and accounts are as they were. -/
def Thread.sameRest (a b : Thread) : Prop :=
  b = { a with slices := b.slices, preds := b.preds, poisonRows := b.poisonRows }

/-- The frame of a per-lane word whose results are slices: the wave passes it, CC stays, and of the group only the operand d of
the active threads changes in program order. -/
def State.laneFrame (s t : State) (w : Nat) (g : Guard) (d : Slc) : Prop :=
  s.registerFrame t w 1 ∧ (t.wave w).cc = (s.wave w).cc ∧ s.sameGroupRegs t (groupOf w) ∧ s.onlySlices t w g d
    ∧ ∀ x, (s.thread (groupOf w) x).sameRest (t.thread (groupOf w) x)

/-- The frame of a per-lane word whose result is a predicate: CC changes in MZ alone (R267). -/
def State.prdFrame (s t : State) (w : Nat) (g : Guard) (d : Nat) : Prop :=
  s.registerFrame t w 1 ∧ (t.wave w).cc = { (s.wave w).cc with mz := (t.wave w).cc.mz } ∧ s.sameGroupRegs t (groupOf w)
    ∧ s.onlyPred t w g d ∧ ∀ x, (s.thread (groupOf w) x).sameRest (t.thread (groupOf w) x)

/-! ### When a per-lane word executes (R185, R234, R388) -/

/-- The selected wave may issue a per-lane word with these slice operands: they end in the file (R185), they lie in the quota of
every active thread (R200), no active thread reads a poisoned row (R388), and a speculative wave's undo log has room (R116). -/
def State.lanesOk (s : State) (w : Nat) (g : Guard) (reads writes : List Slc) : Prop :=
  s.cur = .wave w ∧ (∀ o ∈ reads ++ writes, o.start + o.width ≤ 1024)
    ∧ (∀ e ∈ s.activeLanes w g, ∀ o ∈ reads ++ writes, o.start + o.width ≤ 64 * s.quota (groupOf w) (e.2 / 32))
    ∧ (∀ e ∈ s.activeLanes w g, (s.thread (groupOf w) e.2).poisonedSlice reads = none)
    ∧ s.specOverflow w (s.activeLanes w g) writes = false

/-! ### The invariant of memory -/

/-- Memory is in its canonical form: byte addresses strictly rising, and no byte listed that an unlisted one reads as. -/
def State.memoryCanonical (s : State) : Prop := s.store.wf = true

end Sys2Proof.Machine
end

