-- ==== Sys2Proof/Claims.lean ====
section
/-! DEFINITION. Words of the claims: the results of the forms as the tables of the spec give them, form by form, and frames
that several claims share. -/

namespace Sys2Proof.Machine

open Sys2Proof

/-! ### Scalar forms (R254, R255) -/

/-- A scalar form with a register source B: its constructor, and on the operands (numbers below 2^64) the result, the carry and
the overflow. -/
structure ScalarRow where
  reg : SReg → Instr
  imm : SImm → Instr
  res : Nat → Nat → Nat
  c : Nat → Nat → Bool
  v : Nat → Nat → Bool

/-- An integer outside the signed 64-bit range. -/
def outside64 (x : Int) : Bool := decide (x < -(2 ^ 63)) || decide (2 ^ 63 ≤ x)

/-- No carry, no overflow. -/
def noFlag (_ _ : Nat) : Bool := false

/-- The quotient of R205 on n bits, unsigned. -/
def quotU (n x y : Nat) : Nat := if y = 0 then 2 ^ n - 1 else x / y

/-- The quotient of R205 on n bits, signed: truncated toward zero, with the cases of its table. -/
def quotS (n x y : Nat) : Nat :=
  if y = 0 then (if 0 ≤ sInt n x then 2 ^ (n - 1) - 1 else 2 ^ (n - 1)) else lowBits (Int.tdiv (sInt n x) (sInt n y)) n

/-- The remainder of R205 on n bits, signed: with the sign of the dividend. -/
def remS (n x y : Nat) : Nat := if y = 0 then x else lowBits (Int.tmod (sInt n x) (sInt n y)) n

/-- The remainder of R205, unsigned. -/
def remU (x y : Nat) : Nat := if y = 0 then x else x % y

/-- The table of R254 without SCMP and SMOV. -/
def scalarRows : List ScalarRow :=
  [ ⟨.saddReg, .saddImm, fun a b => lowBits (sInt 64 a + sInt 64 b) 64, fun a b => decide (2 ^ 64 ≤ a + b),
      fun a b => outside64 (sInt 64 a + sInt 64 b)⟩,
    ⟨.ssubReg, .ssubImm, fun a b => lowBits (sInt 64 a - sInt 64 b) 64, fun a b => decide (a < b),
      fun a b => outside64 (sInt 64 a - sInt 64 b)⟩,
    ⟨.smulReg, .smulImm, fun a b => lowBits (sInt 64 a * sInt 64 b) 64, fun a b => decide (2 ^ 64 ≤ a * b),
      fun a b => outside64 (sInt 64 a * sInt 64 b)⟩,
    ⟨.smulhReg, .smulhImm, fun a b => lowBits (sInt 64 a * sInt 64 b / 2 ^ 64) 64, noFlag, noFlag⟩,
    ⟨.smulhuReg, .smulhuImm, fun a b => a * b / 2 ^ 64, noFlag, noFlag⟩,
    ⟨.sdivReg, .sdivImm, quotS 64, noFlag, noFlag⟩,
    ⟨.sdivuReg, .sdivuImm, quotU 64, noFlag, noFlag⟩,
    ⟨.sremReg, .sremImm, remS 64, noFlag, noFlag⟩,
    ⟨.sremuReg, .sremuImm, remU, noFlag, noFlag⟩,
    ⟨.sandReg, .sandImm, fun a b => a &&& b, noFlag, noFlag⟩,
    ⟨.sorReg, .sorImm, fun a b => a ||| b, noFlag, noFlag⟩,
    ⟨.sxorReg, .sxorImm, fun a b => a ^^^ b, noFlag, noFlag⟩,
    ⟨.sshlReg, .sshlImm, fun a b => if 64 ≤ b then 0 else a * 2 ^ b % 2 ^ 64, noFlag, noFlag⟩,
    ⟨.sshrReg, .sshrImm, fun a b => if 64 ≤ b then 0 else a / 2 ^ b, noFlag, noFlag⟩,
    ⟨.sshaReg, .sshaImm, fun a b => if 64 ≤ b then (if sInt 64 a < 0 then 2 ^ 64 - 1 else 0) else lowBits (sInt 64 a / 2 ^ b) 64,
      noFlag, noFlag⟩,
    ⟨.sminReg, .sminImm, fun a b => if sInt 64 a < sInt 64 b then a else b, noFlag, noFlag⟩,
    ⟨.sminuReg, .sminuImm, fun a b => min a b, noFlag, noFlag⟩,
    ⟨.smaxReg, .smaxImm, fun a b => if sInt 64 a < sInt 64 b then b else a, noFlag, noFlag⟩,
    ⟨.smaxuReg, .smaxuImm, fun a b => max a b, noFlag, noFlag⟩ ]

/-- The selected agent is a sequencer, or a wave that is not speculative (R116 parks a speculative wave at a word that writes an
s register). -/
def State.agentReady (s : State) : Prop :=
  match s.cur with
  | .idle => False
  | .wave w => (s.wave w).spec = none
  | .seq _ => True

/-- CC after a scalar form (R254): Z and N of the result, C and V as given, MZ and STATUS as they were. -/
def flagsOf (old : Cc) (res : Nat) (c v : Bool) : Cc :=
  { old with z := res == 0, n := decide (2 ^ 63 ≤ res), c := c, v := v }

/-- The frame of a word of the selected agent that writes at most one s register and CC and passes n positions. -/
def State.scalarFrame (s t : State) (d : Option Nat) (n : Nat) : Prop :=
  t.cur = s.cur ∧ (∀ r, some r ≠ d → t.sReg r = s.sReg r) ∧
  match s.cur with
  | .idle => False
  | .wave w => s.registerFrame t w n ∧ (t.wave w).pend = (s.wave w).pend ∧ (t.wave w).spec = (s.wave w).spec
      ∧ t.group (groupOf w) = { s.group (groupOf w) with s := (t.group (groupOf w)).s, hist := (t.group (groupOf w)).hist }
      ∧ s.sameShared t (groupOf w) d none none
  | .seq k => t = { s with clusters := t.clusters, free := t.free } ∧ (∀ a, t.store.byte a = s.store.byte a)
      ∧ (∀ j, j ≠ k → t.cluster j = s.cluster j) ∧ t.cluster k = { s.cluster k with seq := t.seqOf k }
      ∧ t.seqOf k = { s.seqOf k with s := (t.seqOf k).s, cc := (t.seqOf k).cc, word := (s.seqOf k).word + n, park := .run }

/-! ### Typed forms (R256 to R261) -/

/-- An element operation on n-bit elements x, y and the destination's old element z. -/
abbrev ElemOp := Nat → Nat → Nat → Nat → Nat

/-- An integer operation of class 1 or 3 with its three variants; useD marks one that reads its destination. -/
structure IntRow where
  vv : VV → Instr
  vs : VS → Instr
  vi : VI → Instr
  useD : Bool
  f : ElemOp

/-- Clamp to the signed range of n bits (R204). -/
def satS (n : Nat) (v : Int) : Nat := lowBits (clampInt v (-(2 ^ (n - 1))) (2 ^ (n - 1) - 1)) n

/-- Clamp to the unsigned range of n bits (R204). -/
def satU (n : Nat) (v : Int) : Nat := (clampInt v 0 (2 ^ n - 1)).toNat

/-- The tables of R256 and R260. -/
def intRows : List IntRow :=
  [ ⟨.addVV, .addVS, .addVI, false, fun n x y _ => (x + y) % 2 ^ n⟩,
    ⟨.subVV, .subVS, .subVI, false, fun n x y _ => lowBits ((x : Int) - y) n⟩,
    ⟨.mulVV, .mulVS, .mulVI, false, fun n x y _ => x * y % 2 ^ n⟩,
    ⟨.madVV, .madVS, .madVI, true, fun n x y z => (x * y + z) % 2 ^ n⟩,
    ⟨.addSatIVV, .addSatIVS, .addSatIVI, false, fun n x y _ => satS n (sInt n x + sInt n y)⟩,
    ⟨.addSatBVV, .addSatBVS, .addSatBVI, false, fun n x y _ => satU n ((x : Int) + y)⟩,
    ⟨.subSatIVV, .subSatIVS, .subSatIVI, false, fun n x y _ => satS n (sInt n x - sInt n y)⟩,
    ⟨.subSatBVV, .subSatBVS, .subSatBVI, false, fun n x y _ => satU n ((x : Int) - y)⟩,
    ⟨.mulhIVV, .mulhIVS, .mulhIVI, false, fun n x y _ => lowBits (sInt n x * sInt n y / 2 ^ n) n⟩,
    ⟨.mulhBVV, .mulhBVS, .mulhBVI, false, fun n x y _ => x * y / 2 ^ n⟩,
    ⟨.divIVV, .divIVS, .divIVI, false, fun n x y _ => quotS n x y⟩,
    ⟨.divBVV, .divBVS, .divBVI, false, fun n x y _ => quotU n x y⟩,
    ⟨.remIVV, .remIVS, .remIVI, false, fun n x y _ => remS n x y⟩,
    ⟨.remBVV, .remBVS, .remBVI, false, fun _ x y _ => remU x y⟩,
    ⟨.minIVV, .minIVS, .minIVI, false, fun n x y _ => if sInt n x < sInt n y then x else y⟩,
    ⟨.minBVV, .minBVS, .minBVI, false, fun _ x y _ => min x y⟩,
    ⟨.maxIVV, .maxIVS, .maxIVI, false, fun n x y _ => if sInt n x < sInt n y then y else x⟩,
    ⟨.maxBVV, .maxBVS, .maxBVI, false, fun _ x y _ => max x y⟩,
    ⟨.andVV, .andVS, .andVI, false, fun _ x y _ => x &&& y⟩,
    ⟨.orVV, .orVS, .orVI, false, fun _ x y _ => x ||| y⟩,
    ⟨.xorVV, .xorVS, .xorVI, false, fun _ x y _ => x ^^^ y⟩,
    ⟨.andnVV, .andnVS, .andnVI, false, fun n x y _ => x &&& (2 ^ n - 1 - y)⟩,
    ⟨.shlVV, .shlVS, .shlVI, false, fun n x y _ => if n ≤ y then 0 else x * 2 ^ y % 2 ^ n⟩,
    ⟨.shrVV, .shrVS, .shrVI, false, fun n x y _ => if n ≤ y then 0 else x / 2 ^ y⟩,
    ⟨.shaVV, .shaVS, .shaVI, false, fun n x y _ =>
      if n ≤ y then (if sInt n x < 0 then 2 ^ n - 1 else 0) else lowBits (sInt n x / 2 ^ y) n⟩,
    ⟨.rotVV, .rotVS, .rotVI, false, fun n x y _ => x * 2 ^ (y % n) % 2 ^ n + x / 2 ^ (n - y % n)⟩ ]

/-- Widths of a typed form with a slice source (R187, R188): a multiple of e, and A as wide as D or widened by EXT. -/
def widthsOk (e wd ws ext : Nat) : Prop := wd % e = 0 ∧ (ws = wd ∨ (ws < wd ∧ ext ≠ 0))

/-- The word executes, and in every active thread each element of D is f of the elements of a, b and the old d; nothing else
changes. Results are taken to the width of an element. The sources are those read at issue (R197), D is the value in program order. -/
def State.elementResult (s : State) (r : Answer) (w : Nat) (g : Guard) (d : Slc) (e : Nat) (a b : Nat → Nat) (f : ElemOp) : Prop :=
  r.gives (fun t => s.laneFrame t w g d ∧ ∀ i, s.threadActive w g i → ∀ j, j < d.width / e →
    elem e (t.progOpnd w i d) j = f (4 * e) (elem e (a i) j) (elem e (b i) j) (elem e (s.opnd w i d 2) j) % 2 ^ (4 * e))

/-- A floating-point operation of class 2 with two sources; rounded marks one that takes every rounding mode. -/
structure FloatRow where
  vv : VV → Instr
  vs : VS → Instr
  useD : Bool
  rounded : Bool
  f : Fmt → Nat → Nat → Nat → Nat → Nat

/-- The two-source forms of R258: format, rounding-mode code of the anchor, and the elements. -/
def floatRows : List FloatRow :=
  [ ⟨.faddVV, .faddVS, false, true, fun F m x y _ =>
      roundVal F (rmodeOf m) false (addVal (rmodeOf m) (valOf F x) (valOf F y))⟩,
    ⟨.fsubVV, .fsubVS, false, true, fun F m x y _ =>
      roundVal F (rmodeOf m) false (addVal (rmodeOf m) (valOf F x) (negVal (valOf F y)))⟩,
    ⟨.fmulVV, .fmulVS, false, true, fun F m x y _ => roundVal F (rmodeOf m) false (mulVal (valOf F x) (valOf F y))⟩,
    ⟨.fmaVV, .fmaVS, true, true, fun F m x y z =>
      roundVal F (rmodeOf m) false (addVal (rmodeOf m) (mulVal (valOf F x) (valOf F y)) (valOf F z))⟩,
    ⟨.fminVV, .fminVS, false, false, fun F _ x y _ => minMaxBits F false x y⟩,
    ⟨.fmaxVV, .fmaxVS, false, false, fun F _ x y _ => minMaxBits F true x y⟩,
    ⟨.fdivVV, .fdivVS, false, true, fun F m x y _ => divBits F (rmodeOf m) (valOf F x) (valOf F y)⟩ ]

/-- A unary typed form: the anchors that it takes, its element width and its element result by type nibble. -/
structure UnaryRow where
  vv : U1 → Instr
  ok : Nat → Bool
  e : Nat → Nat
  f : Nat → Nat → Nat

/-- A unary typed form from an s register. -/
structure UnarySRow where
  vs : US → Instr
  ok : Nat → Bool
  e : Nat → Nat
  f : Nat → Nat → Nat

/-- Every integer anchor. -/
def anyNib (_ : Nat) : Bool := true

/-- The anchors of R259 that name .f32 with mode RNE. -/
def nibF32 (nib : Nat) : Bool := nib == 0

/-- The anchors that name a float format with mode RNE (R226, R259). -/
def nibRne (nib : Nat) : Bool := decide (nib / 4 < 3) && nib % 4 == 0

/-- The anchors that name a float format. -/
def nibFloat (nib : Nat) : Bool := decide (nib / 4 < 3)

/-- The element width of an integer anchor in slices. -/
def eInt (nib : Nat) : Nat := nib + 1

/-- The element width of a float anchor in slices: 8 for .f32, 4 for .f16 and .bf16. -/
def eFloat (nib : Nat) : Nat := fmtSlices (fmtOf (nib / 4))

/-- The unary forms of classes 1, 2 and 3 from slices (R257, R259, R260, R261). -/
def unaryRows : List UnaryRow :=
  [ ⟨.abs, anyNib, eInt, fun nib x => lowBits (sInt (4 * eInt nib) x).natAbs (4 * eInt nib)⟩,
    ⟨.neg, anyNib, eInt, fun nib x => lowBits (-(sInt (4 * eInt nib) x)) (4 * eInt nib)⟩,
    ⟨.frcpVV, nibF32, eFloat, fun _ x => recipSeed x⟩,
    ⟨.frsqVV, nibF32, eFloat, fun _ x => rsqrtSeed x⟩,
    ⟨.fex2VV, nibF32, eFloat, fun _ x => fex2Value x⟩,
    ⟨.flg2VV, nibF32, eFloat, fun _ x => flg2Value x⟩,
    ⟨.fsinVV, nibF32, eFloat, fun _ x => sinValue x⟩,
    ⟨.fcosVV, nibF32, eFloat, fun _ x => cosValue x⟩,
    ⟨.fabsVV, nibRne, eFloat, fun nib x => fabsBits (fmtOf (nib / 4)) x⟩,
    ⟨.fnegVV, nibRne, eFloat, fun nib x => fnegBits (fmtOf (nib / 4)) x⟩,
    ⟨.frintVV, nibFloat, eFloat, fun nib x => frintBits (fmtOf (nib / 4)) (rmodeOf nib) x⟩,
    ⟨.fclassVV, nibRne, eFloat, fun nib x => fclassMask (fmtOf (nib / 4)) x⟩,
    ⟨.movVV, anyNib, eInt, fun _ x => x⟩,
    ⟨.notB, anyNib, eInt, fun nib x => 2 ^ (4 * eInt nib) - 1 - x⟩,
    ⟨.popc, anyNib, eInt, fun nib x => ((List.range (4 * eInt nib)).filter (fun i => bit x i)).length⟩,
    ⟨.clz, anyNib, eInt, fun nib x => if x = 0 then 4 * eInt nib else 4 * eInt nib - 1 - Nat.log2 x⟩,
    ⟨.brev, anyNib, eInt, fun nib x => ((List.range (4 * eInt nib)).map
      (fun i => if bit x (4 * eInt nib - 1 - i) then 2 ^ i else 0)).sum⟩ ]

/-- The unary forms of classes 2 and 3 from an s register (R259, R260). -/
def unarySRows : List UnarySRow :=
  [ ⟨.frcpVS, nibF32, eFloat, fun _ x => recipSeed x⟩,
    ⟨.frsqVS, nibF32, eFloat, fun _ x => rsqrtSeed x⟩,
    ⟨.fex2VS, nibF32, eFloat, fun _ x => fex2Value x⟩,
    ⟨.flg2VS, nibF32, eFloat, fun _ x => flg2Value x⟩,
    ⟨.fsinVS, nibF32, eFloat, fun _ x => sinValue x⟩,
    ⟨.fcosVS, nibF32, eFloat, fun _ x => cosValue x⟩,
    ⟨.fabsVS, nibRne, eFloat, fun nib x => fabsBits (fmtOf (nib / 4)) x⟩,
    ⟨.fnegVS, nibRne, eFloat, fun nib x => fnegBits (fmtOf (nib / 4)) x⟩,
    ⟨.frintVS, nibFloat, eFloat, fun nib x => frintBits (fmtOf (nib / 4)) (rmodeOf nib) x⟩,
    ⟨.fclassVS, nibRne, eFloat, fun nib x => fclassMask (fmtOf (nib / 4)) x⟩,
    ⟨.movVS, anyNib, eInt, fun _ x => x⟩ ]

/-! ### Whole operands (R260 to R273) -/

/-- The word executes, and in every active thread the operand d takes a value, cut to its width; nothing else changes. -/
def State.laneResult (s : State) (r : Answer) (w : Nat) (g : Guard) (d : Slc) (v : Nat → Nat) : Prop :=
  r.gives (fun t => s.laneFrame t w g d ∧ ∀ i, s.threadActive w g i → t.progOpnd w i d = v i % 2 ^ (4 * d.width))

/-- The word executes, and in every active thread the n elements of d take values; nothing else changes. -/
def State.laneElements (s : State) (r : Answer) (w : Nat) (g : Guard) (d : Slc) (e n : Nat) (v : Nat → Nat → Nat) : Prop :=
  r.gives (fun t => s.laneFrame t w g d ∧ ∀ i, s.threadActive w g i → ∀ j, j < n → elem e (t.progOpnd w i d) j = v i j)

/-- The word executes, and every active thread's operand d takes the value of a lane that holds it. -/
def State.crossResult (s : State) (r : Answer) (w : Nat) (g : Guard) (d : Slc) (v : Nat → Nat → Nat) : Prop :=
  r.gives (fun t => s.laneFrame t w g d ∧ ∀ i, s.threadActive w g i →
    ∃ l, (l, i) ∈ s.activeLanes w g ∧ t.progOpnd w i d = v l i % 2 ^ (4 * d.width))

/-- The same by elements. -/
def State.crossElements (s : State) (r : Answer) (w : Nat) (g : Guard) (d : Slc) (e : Nat) (v : Nat → Nat → Nat) : Prop :=
  r.gives (fun t => s.laneFrame t w g d ∧ ∀ i, s.threadActive w g i →
    ∃ l, (l, i) ∈ s.activeLanes w g ∧ ∀ j, j < d.width / e → elem e (t.progOpnd w i d) j = v l j % 2 ^ (4 * e))

/-- The word executes, and in every active thread the predicate d takes a value, p0 staying true; MZ tells whether d is false in
every occupied lane, where no result of the wave for d is outstanding (R267). -/
def State.prdResult (s : State) (r : Answer) (w : Nat) (g : Guard) (d : Nat) (v : Nat → Bool) : Prop :=
  r.gives (fun t => s.prdFrame t w g d ∧ (∀ i, s.threadActive w g i → t.progPrd w i d = (v i || d == 0))
    ∧ ((∀ i, pendingPrds (s.wave w).pend i d = []) →
      ((t.wave w).cc.mz = true ↔ d ≠ 0 ∧ ∀ e ∈ s.occupied w, t.progPrd w e.2 d = false)))

/-- The orders of R268 on integers by COND. -/
def condInt : List (Int → Int → Bool) :=
  [ fun x y => x == y, fun x y => x != y, fun x y => decide (x < y), fun x y => decide (x ≤ y), fun x y => decide (y < x),
    fun x y => decide (y ≤ x) ]

/-- The conditions of R268 on floating-point values by COND; those of order are false on a NaN. -/
def condFloat : List (FVal → FVal → Bool) :=
  [ fun x y => eqVal x y, fun x y => !eqVal x y, fun x y => ltVal x y, fun x y => ltVal x y || eqVal x y, fun x y => ltVal y x,
    fun x y => ltVal y x || eqVal x y, fun x y => isNan x || isNan y, fun x y => !isNan x && !isNan y ]

/-- A comparison over the elements of two operands: every pair meets it, or with RED 1 one of them (R268). -/
def condMeets (red n : Nat) (f : Nat → Bool) : Bool := if red = 1 then (List.range n).any f else (List.range n).all f

/-- An element read as an integer: unsigned for .b types, else two's complement. -/
def valueOf (n : Nat) (uns : Bool) (x : Nat) : Int := if uns then (x : Int) else sInt n x

/-- What a lane gives another one: zero where it is not active (R269). -/
def State.given (s : State) (w : Nat) (g : Guard) (a : Slc) (l : Nat) : Nat :=
  ((s.activeLanes w g).lookup l).elim 0 (fun t => s.opnd w t a)

/-- The step of a reduction on n-bit elements (R271). -/
def reduceStep (o : Red) (n x y : Nat) : Nat :=
  match o.flt, o.op with
  | false, 0 => (x + y) % 2 ^ n
  | false, 1 => if valueOf n o.uns x < valueOf n o.uns y then x else y
  | false, 2 => if valueOf n o.uns x < valueOf n o.uns y then y else x
  | false, 3 => x &&& y
  | false, 4 => x ||| y
  | false, _ => x ^^^ y
  | true, 0 => roundVal (fmtOf (o.nib / 4)) (rmodeOf o.nib) false
      (addVal (rmodeOf o.nib) (valOf (fmtOf (o.nib / 4)) x) (valOf (fmtOf (o.nib / 4)) y))
  | true, 1 => minMaxBits (fmtOf (o.nib / 4)) false x y
  | true, _ => minMaxBits (fmtOf (o.nib / 4)) true x y

/-- The identity of an exclusive scan (R271). -/
def reduceIdentity (o : Red) (n : Nat) : Nat :=
  match o.flt, o.op with
  | false, 1 => if o.uns then 2 ^ n - 1 else 2 ^ (n - 1) - 1
  | false, 2 => if o.uns then 0 else 2 ^ (n - 1)
  | false, 3 => 2 ^ n - 1
  | true, 1 => infBits (fmtOf (o.nib / 4))
  | true, 2 => withSign (fmtOf (o.nib / 4)) true (infBits (fmtOf (o.nib / 4)))
  | _, _ => 0

/-- The element width of a reduction. -/
def redSlices (o : Red) : Nat := if o.flt then eFloat o.nib else eInt o.nib

/-- Element j of the lanes before place i in the ascending list of active lanes, combined in order and cut to its width; none for none (R271). -/
def State.combined (s : State) (w : Nat) (o : Red) (j : Nat) : Nat → Option Nat
  | 0 => none
  | i + 1 =>
    match (s.activeLanes w o.g)[i]? with
    | none => s.combined w o j i
    | some e =>
      let x := elem (redSlices o) (s.opnd w e.2 o.a) j
      some (match s.combined w o j i with
        | none => x
        | some acc => reduceStep o (4 * redSlices o) acc x % 2 ^ (4 * redSlices o))

/-- The limits of a reduction (R271). -/
def redLimits (o : Red) : Prop :=
  o.d.width = o.a.width ∧ o.d.width % redSlices o = 0
    ∧ (if o.flt then o.nib / 4 < 3 ∧ o.op < 3 ∧ o.uns = false else o.op < 6)

/-- The lanes in which a source predicate holds (R272, R273). -/
def State.holds (s : State) (w : Nat) (g : Guard) (a : Nat) (an : Bool) : List (Nat × Nat) :=
  (s.activeLanes w g).filter (fun e => s.readPrd w e.2 a 1 != an)

/-! ### Control (R164 to R174, R276 to R278) -/

/-- The selected agent goes on at word x, and only its loop counters may have changed with it; a marker with an outstanding
long-class result parks a wave (R196). -/
def State.jumpFrame (s t : State) (mark : Bool) (x : Nat) : Prop :=
  t.cur = s.cur ∧ (∀ a, t.store.byte a = s.store.byte a) ∧
  match s.cur with
  | .idle => False
  | .wave w => t = { s with waves := t.waves, free := t.free } ∧ (∀ v, v ≠ w → t.wave v = s.wave v)
      ∧ t.wave w = { s.wave w with word := x, retry := none, held := none, lc := (t.wave w).lc, lastPark := (t.wave w).lastPark
                                   park := if mark = true ∧ (s.wave w).pend ≠ [] then .marker else .run }
  | .seq k => t = { s with clusters := t.clusters, free := t.free } ∧ (∀ j, j ≠ k → t.cluster j = s.cluster j)
      ∧ t.cluster k = { s.cluster k with seq := { s.seqOf k with word := x, lc := (t.seqOf k).lc, park := .run } }

/-- The place of the selected agent: segment and word. -/
def State.place (s : State) : Nat × Nat :=
  match s.cur with
  | .idle => (0, 0)
  | .wave w => ((s.wave w).seg, (s.wave w).word)
  | .seq k => ((s.seqOf k).seg, (s.seqOf k).word)

/-- The words of the segment that the selected agent runs. -/
def State.segWords (s : State) : Nat :=
  match s.cur with
  | .idle => 0
  | .wave w => ((s.launch (s.waveLaunch w)).mod_.segOf (s.wave w).seg).len
  | .seq k =>
    match (s.seqOf k).launch with
    | none => 0
    | some l => ((s.launch l).mod_.segOf (s.seqOf k).seg).len

/-- A jump with this displacement leads to word x of the segment (R276). -/
def State.leadsTo (s : State) (disp x : Nat) : Prop := (x : Int) = s.place.2 + 1 + sInt 14 disp ∧ x < s.segWords

/-- The flags that a selector names (R276): MZ, Z, N, C, V, and a STATUS that is not 0. -/
def flagList (c : Cc) : List Bool := [c.mz, c.z, c.n, c.c, c.v, decide (c.status ≠ 0)]

/-- The module of a wave's launch. -/
def State.waveMod (s : State) (w : Nat) : Module := (s.launch (s.waveLaunch w)).mod_

/-- A wave may leave its segment: it runs at THREAD level, is not speculative and has no result outstanding, and the deadline of
its launch has not fallen. -/
def State.mayGoOn (s : State) (w : Nat) : Prop :=
  s.cur = .wave w ∧ (s.wave w).level = .thread ∧ (s.wave w).spec = none ∧ (s.wave w).pend = []
    ∧ (s.launch (s.waveLaunch w)).deadlineFell = false

/-- Its threads may end too: a task of its group has no successor counter, and what its completion waits for has come (R106). -/
def State.mayEnd (s : State) (w : Nat) : Prop :=
  s.mayGoOn w ∧ ∀ r, (s.group (groupOf w)).task = some r → r.succAddr = 2 ^ 64 - 1 ∧ s.taskDone w = true

/-- A thread is in exactly one lane of a wave. -/
def State.oneLane (s : State) (w x : Nat) : Prop := ((s.occupied w).filter (fun e => e.2 == x)).length = 1

/-- The threads of a wave have gone to the successors f, and the wave is gone (R165, R167, R172, R173): a thread exits, is held
at its meeting segment or released from it at once, or enters a bucket; its slices and predicates stay. Other groups, the shared
registers of this one, and memory stay. -/
def State.sorted (s t : State) (w : Nat) (f : Nat → Nat) : Prop :=
  t.waves = tabDel s.waves w ∧ (∀ g, g ≠ groupOf w → t.group g = s.group g) ∧ (∀ a, t.store.byte a = s.store.byte a)
    ∧ (∀ r, t.groupS (groupOf w) r = s.groupS (groupOf w) r) ∧ (∀ r, t.groupK (groupOf w) r = s.groupK (groupOf w) r)
    ∧ ∀ x, s.oneLane w x →
      (t.thread (groupOf w) x).slices = (s.thread (groupOf w) x).slices
      ∧ (t.thread (groupOf w) x).preds = (s.thread (groupOf w) x).preds
      ∧ (f x = 4095 → (t.thread (groupOf w) x).place = .dead)
      ∧ (f x ≠ 4095 → (t.thread (groupOf w) x).meetSeg = f x
        ∧ (f x ≠ (s.thread (groupOf w) x).meetCur → (t.thread (groupOf w) x).place = .bucket (f x) (s.groupNow (groupOf w)) 0)
        ∧ (f x = (s.thread (groupOf w) x).meetCur → (t.thread (groupOf w) x).place = .held (f x)
          ∨ ((∃ b, b ≠ 0 ∧ (t.thread (groupOf w) x).place = .bucket (f x) (s.groupNow (groupOf w)) b)
            ∧ (t.thread (groupOf w) x).meetCur = (s.thread (groupOf w) x).meetOuter)))

/-! ### Memory forms (R27, R28, R91, R107 to R113, R279 to R290) -/

/-- Steps 1 to 3 of R27 pass. -/
def Capv.grants (c : Capv) (spaces : List Nat) (mask : Nat) : Prop :=
  c.tag = true ∧ c.isSealed = false ∧ c.space ∈ spaces ∧ c.perm &&& mask = mask

/-- Every active lane passes the checks of R27 and translates: s1 is the state after the walks, as the places of each lane's
bytes, in ascending lane order. The offset of a lane is that of its thread. -/
def State.reaches (s : State) (w : Nat) (g : Guard) (r : MemReq) (off : Nat → Nat) (s1 : State) (as : List LaneAcc) : Prop :=
  (s.kUse r.ci).grants r.spaces r.mask
    ∧ s.locate (s.waveEnv w) (s.kUse r.ci) r ((s.activeLanes w g).map (fun e => (e.1, e.2, off e.2))) = (s1, [], as)

/-- A byte as a load sees it (R46, R107): at its home, or on a leased page in an unexpired copy of the core's L1. -/
def State.seen (s : State) (core : Nat) (k : Nat × Nat) : Byte :=
  if k.2 = 0 then s.store.byte k.1
  else
    match s.l1Hit core (k.1 / 64) with
    | some l => l.bytes.getD (k.1 % 64) 0
    | none => s.store.byte k.1

/-- Its poison mark (R66). -/
def State.seenBad (s : State) (core : Nat) (k : Nat × Nat) : Bool :=
  if k.2 = 0 then s.store.poisoned k.1 1
  else
    match s.l1Hit core (k.1 / 64) with
    | some l => bit l.poison (k.1 % 64 / 8)
    | none => s.store.poisoned k.1 1

/-- No line has to be filled for the leased ones of some places: none pushes another copy out of the L1. -/
def State.noFill (s : State) (core : Nat) (ks : List (Nat × Nat)) : Prop :=
  ∀ k ∈ ks, k.2 ≠ 0 → (s.l1Hit core (k.1 / 64)).isSome = true

/-- Bytes that a load of the places all may show at some of them: what each shows before the load; where lines have to be filled, a
leased copy may have been pushed out, and then the byte at the home (R44, R46, R107). -/
def State.shows (s : State) (core : Nat) (all ks : List (Nat × Nat)) (bs : List Byte) : Prop :=
  bs.length = ks.length ∧ ∀ e ∈ ks.zip bs, e.2 = s.seen core e.1 ∨ (¬s.noFill core all ∧ e.2 = s.store.byte e.1.1)

/-- The places of a load hold no poison that it could meet, nor do the lines that it may have to fill. -/
def State.soundFor (s : State) (core : Nat) (ks : List (Nat × Nat)) : Prop :=
  ∀ k ∈ ks, s.seenBad core k = false ∧ (s.noFill core ks ∨ ∀ a, a / 64 = k.1 / 64 → s.store.poisoned a 1 = false)

/-- The places of some accesses. -/
def placesOf (as : List LaneAcc) : List (Nat × Nat) := as.flatMap (fun a => a.keys)

/-- The operand d of a thread holds, little-endian, bytes that its places may show to a load (R6, R280). -/
def State.loaded (s t : State) (w : Nat) (as : List LaneAcc) (x : Nat) (d : Slc) : Prop :=
  ∃ a ∈ as, a.thread = x ∧ ∃ bs : List Byte, s.shows (s.waveCore w) (placesOf as) a.keys bs
    ∧ t.progOpnd w x d = natOfBytes bs % 2 ^ (4 * d.width)

/-- The wave is not speculative, has performed no part of a load, and has no write of its own, or of a wave its threads come from,
on the way to a home. -/
def State.noneInFlight (s : State) (w : Nat) : Prop :=
  (s.wave w).spec = none ∧ (s.wave w).sentLoad = none ∧ (s.wave w).out = [] ∧ (s.wave w).accts = []

/-- The registers that a per-lane word of some threads leaves alone: every register of other groups, the shared registers of
this one, CC, every predicate, and every slice but the operand of these threads in program order. -/
def State.operandFrame (s t : State) (w : Nat) (threads : List Nat) (d : Slc) : Prop :=
  (∀ g, g ≠ groupOf w → t.group g = s.group g) ∧ s.sameGroupRegs t (groupOf w) ∧ (t.wave w).cc = (s.wave w).cc
    ∧ (∀ x p, t.progPrd w x p = s.progPrd w x p)
    ∧ (∀ x n, ¬(x ∈ threads ∧ d.start ≤ n ∧ n < d.start + d.width) → t.progNib w x n = s.progNib w x n)
    ∧ ∀ x, (s.thread (groupOf w) x).sameRest (t.thread (groupOf w) x)

/-- The frame of a load: memory and its tags stay byte for byte, and beyond the operand only copies and tags of caches may have
changed. -/
def State.loadFrame (s t : State) (w : Nat) (threads : List Nat) (d : Slc) : Prop :=
  t = { s with waves := t.waves, groups := t.groups, free := t.free, cores := t.cores, mem := t.mem, clusters := t.clusters }
    ∧ t.mem = { s.mem with l2 := t.mem.l2, floors := t.mem.floors }
    ∧ (∀ c, t.core c = { s.core c with l1d := (t.core c).l1d })
    ∧ (∀ k, t.cluster k = { s.cluster k with tiles := (t.cluster k).tiles, fills := (t.cluster k).fills })
    ∧ (∀ x, x ≠ w → t.wave x = s.wave x) ∧ (s.wave w).passed (t.wave w) 1 ∧ (t.wave w).spec = (s.wave w).spec
    ∧ s.operandFrame t w threads d

/-- The frame of a word that a wave passes while its writes set out for their homes: no byte of memory has changed yet, no
register has, and only copies in the L1 of its core have been dropped. -/
def State.sendFrame (s t : State) (w : Nat) : Prop :=
  t = { s with waves := t.waves, free := t.free, cores := t.cores } ∧ (∀ a, t.store.byte a = s.store.byte a)
    ∧ (∀ c, t.core c = { s.core c with l1d := (t.core c).l1d }) ∧ (∀ x, x ≠ w → t.wave x = s.wave x)
    ∧ t.wave w = { s.wave w with word := (s.wave w).word + 1, retry := none, held := none, park := (t.wave w).park
                                 lastPark := (t.wave w).lastPark, out := (t.wave w).out }

/-- The writes in flight that a wave has added, in order, write these cells: one after another, each piece inside one aligned
8-byte word (R91), sent by the word that runs, with these tags (R25). -/
def State.sent (s t : State) (w : Nat) (cells : List (Nat × Byte × Byte)) (tag : Option Bool) : Prop :=
  ∃ ps : List PWrite, (t.wave w).out = (s.wave w).out ++ ps ∧ ps.flatMap (fun p => p.cells) = cells
    ∧ ∀ p ∈ ps, p.tag = tag ∧ p.ser = s.free ∧ p.cells ≠ []
      ∧ ((∀ c ∈ p.cells, ∀ c' ∈ p.cells, c.1 / 8 = c'.1 / 8) ∨ tag ≠ none)

/-- The bytes that a store of n slices writes from its places: two slices each, and of a last odd one only bits 3:0 (R280). -/
def storeCells (ks : List (Nat × Nat)) (v n : Nat) : List (Nat × Byte × Byte) :=
  (ks.take (opBytes n)).zipIdx.map (fun k =>
    (k.1.1, (if 2 * k.2 + 1 = n then 15 else 255),
      BitVec.ofNat 8 (v / 256 ^ k.2 % (if 2 * k.2 + 1 = n then 16 else 256))))

/-- A store may go ahead: no FENCE.REL holds it, and a release at its scope has nothing to wait for (R111, R113). -/
def State.mayStore (s : State) (w attr scope : Nat) : Prop :=
  (s.wave w).spec = none ∧ (s.wave w).relGate = none ∧ (attr < 2 ∨ s.releaseDone w scope = true)

/-- Memory after the RMWs of some lanes one after another at their homes, with the old value of each (R102, R287, R288). -/
def rmwRun (m : Store) (f : Nat → Nat → Option Nat) : List LaneAcc → Store × List (Nat × Nat)
  | [] => (m, [])
  | a :: rest =>
    let old := keysNat m a.keys
    let m1 := match f a.thread old with
      | none => m
      | some v => m.putCells (keyCells a.keys v)
    let r := rmwRun m1 f rest
    (r.1, (a.thread, old) :: r.2)

/-- Places that an RMW reaches as plain memory: not of PLACE 3, not poisoned, and no barrier object in their granule. -/
def State.plainPlaces (s : State) (as : List LaneAcc) : Prop :=
  ∀ a ∈ as, keysPoisoned s.store a.keys = false
    ∧ ∀ k ∈ a.keys, isPlace3 k.1 = false ∧ s.store.armed.contains (k.1 / 16) = false

/-- The frame of a word that writes memory at its home: other waves may have become ready or have noted a conflict, a sequencer
may have become ready, and caches may have changed; no register has, but operands of the wave. -/
def State.rmwFrame (s t : State) (w : Nat) : Prop :=
  t = { s with waves := t.waves, groups := t.groups, free := t.free, cores := t.cores, mem := t.mem, clusters := t.clusters }
    ∧ t.mem = { s.mem with store := t.store, l2 := t.mem.l2, floors := t.mem.floors }
    ∧ (∀ c, t.core c = { s.core c with l1d := (t.core c).l1d })
    ∧ (∀ k, t.cluster k = { s.cluster k with relQ := (t.cluster k).relQ, seq := (t.cluster k).seq })
    ∧ (∀ x, x ≠ w → t.wave x = { s.wave x with park := (t.wave x).park, spec := (t.wave x).spec })
    ∧ t.wave w = { s.wave w with word := (s.wave w).word + 1, retry := none, held := none, park := (t.wave w).park
                                 lastPark := (t.wave w).lastPark, pend := (t.wave w).pend, maxw := (t.wave w).maxw }

/-- The twelve operations of ATOM and RED by OP, on n bits, an old value m and an operand x (R287). -/
def atomTable : List (Nat → Nat → Nat → Nat) :=
  [ fun _ _ x => x, fun n m x => (m + x) % 2 ^ n, fun _ m x => m &&& x, fun _ m x => m ||| x, fun _ m x => m ^^^ x,
    fun n m x => if sInt n m < sInt n x then m else x, fun _ m x => min m x, fun n m x => if sInt n m < sInt n x then x else m,
    fun _ m x => max m x, fun _ m x => roundVal .f32 .rne false (addVal .rne (valOf .f32 m) (valOf .f32 x)),
    fun _ m x => minMaxBits .f32 false m x, fun _ m x => minMaxBits .f32 true m x ]

/-- The tag of a granule as a load sees it (R46, R107). -/
def State.seenTag (s : State) (core : Nat) (k : Nat × Nat) : Bool :=
  if k.2 = 0 then s.store.tagAt k.1
  else
    match s.l1Hit core (k.1 / 64) with
    | some l => bit l.tags (k.1 % 64 / 16)
    | none => s.store.tagAt k.1

/-- The tile that an operand of LDT names, as the lane's cluster serves it (R56, R59 to R61): zero outside the tensor, a line of
the tile cache or a fill in flight where the tile has a lease, else the bytes at their homes; with its poisoned words. -/
def State.tileSeen (s : State) (k slot : Nat) (d : Tensor) (a : TileAcc) : List Byte × List Nat :=
  let f := tileFields a.v
  if a.rows = [] then (List.replicate 1024 0, [])
  else if tileClass d a.rows = 0 ∨ s.tileBanks k = [] then (tileBytes s.store a.rows, tilePoison s.store a.rows)
  else
    match s.tileHit k slot f.1 f.2.1 f.2.2.1, s.tileJoin k slot f.1 f.2.1 f.2.2.1 with
    | some t, _ => (t.bytes, t.poison)
    | none, some x => (x.bytes, x.poison)
    | none, none => (tileBytes s.store a.rows, tilePoison s.store a.rows)

end Sys2Proof.Machine
end

