-- ==== Sys2Proof/UnitClaims.lean ====
section
/-! DEFINITION. Words of the claims about units: capabilities, barrier objects, the matrix sequencer, tasks, flumes, engines and
the device. -/

namespace Sys2Proof.Machine

open Sys2Proof

/-! ### Capabilities (R21, R291) -/

/-- The fields of a capability: tag, BASE, TOP, TID, PERM, SPACE and SEALED. -/
def Capv.fields (c : Capv) : Bool × Nat × Nat × Nat × Nat × Nat × Bool :=
  (c.tag, c.base, c.top, c.tid, c.perm, c.space, c.isSealed)

/-- A wave passes a word that reaches nothing but its group and its CC. -/
def State.wordFrame (s t : State) (w : Nat) (mark : Bool) : Prop :=
  s.sameMachine t ∧ s.sameOthers t w
    ∧ t.wave w = { s.wave w with word := (s.wave w).word + 1, retry := none, held := none, cc := (t.wave w).cc
                                 lastPark := (t.wave w).lastPark
                                 park := if mark = true ∧ (s.wave w).pend ≠ [] then .marker else .run }

/-- A word that writes one k register of a wave's group. -/
def State.capFrame (s t : State) (w : Nat) (mark : Bool) (d : Nat) : Prop :=
  s.wordFrame t w mark ∧ t.cc = s.cc
    ∧ t.group (groupOf w) = { s.group (groupOf w) with k := (t.group (groupOf w)).k, hist := (t.group (groupOf w)).hist }
    ∧ s.sameShared t (groupOf w) none (some d) none

/-- CapField of R291 by number. -/
def capFields : List (Capv → Nat) :=
  [ fun c => c.base, fun c => c.top, fun c => lowBits ((c.top : Int) - c.base) 64, fun c => c.perm, fun c => c.space, fun c => c.tid,
    fun c => if c.isSealed then 1 else 0, fun c => if c.tag then 1 else 0, fun c => c.bits.toNat % 2 ^ 64,
    fun c => c.bits.toNat / 2 ^ 64 ]

/-! ### Barrier objects (R128 to R134, R292 to R295) -/

/-- The place of a barrier object at an offset (R48, R52): in the scratchpad allocation of the agent's crew, or in its launch's pool run. -/
def State.objectPlace (s : State) (e : Env) (c : Capv) (off : Nat) : Nat :=
  if c.space = 1 then 2 ^ 48 + e.core.getD 0 * 2 ^ 18 + ((s.crew (e.crew.getD 0)).spStart + c.base + off)
  else 2 ^ 49 + e.cluster * 2 ^ 22 + (tabGet (s.launch e.launch).poolBase 0 e.cluster * 131072 + c.base + off)

/-- The environment of the selected agent. -/
def State.agentEnv (s : State) : Env :=
  match s.cur with
  | .wave w => s.waveEnv w
  | .seq k => s.seqEnv k
  | .idle => { core := none, cluster := 0, crew := none, launch := 0 }

/-- The selected agent may run a barrier word on the object at this offset, of n bytes: every check of R27 passes, its data are
sound, and no write, fence or unfinished matrix operation of the agent stands before it. -/
def State.mayBar (s : State) (ci off n : Nat) : Prop :=
  s.laneCheck s.agentEnv (s.kUse ci) off n n = none ∧
  match s.cur with
  | .idle => False
  | .wave w => (s.kUse ci).grants [1, 2] permBA ∧ s.noneInFlight w ∧ (s.wave w).relGate = none
      ∧ s.store.poisoned (s.objectPlace s.agentEnv (s.kUse ci) off) 16 = false
  | .seq k => (s.kUse ci).grants [2] permBA ∧ s.store.poisoned (s.objectPlace s.agentEnv (s.kUse ci) off) 16 = false ∧ (s.seqOf k).idem = false ∧ (s.seqOf k).drained = true
      ∧ (s.seqOf k).relGate = none ∧ (s.seqOf k).park = .run

/-- The frame of an operation on the n bytes of an object at a (R129): the agent passes the word; waiters on the object may have
become ready, a speculative wave may have noted a conflict, and a crew the state of its grid barrier. -/
def State.barFrame (s t : State) (a n : Nat) : Prop :=
  t = { s with waves := t.waves, crews := t.crews, clusters := t.clusters, mem := t.mem, free := t.free }
    ∧ t.mem = { s.mem with store := t.store, l2 := t.mem.l2 } ∧ (∀ b, b < a ∨ a + n ≤ b → t.store.byte b = s.store.byte b)
    ∧ (∀ c, t.crew c = { s.crew c with gridHeld := (t.crew c).gridHeld })
    ∧ (∀ k, t.cluster k = { s.cluster k with relQ := (t.cluster k).relQ, seq := t.seqOf k })
    ∧ (∀ x, s.cur ≠ .wave x → t.wave x = { s.wave x with park := (t.wave x).park, spec := (t.wave x).spec })
    ∧ t.cc = s.cc
    ∧ match s.cur with
      | .idle => False
      | .wave w => t.wave w = { s.wave w with word := (s.wave w).word + 1, retry := none, held := none, park := (t.wave w).park
                                              lastPark := (t.wave w).lastPark, maxw := (t.wave w).maxw }
      | .seq k => t.seqOf k = { s.seqOf k with word := (s.seqOf k).word + 1, maxw := (t.seqOf k).maxw }

/-- The selected agent passes its word with a STATUS, and nothing else changes. -/
def State.statusFrame (s t : State) (mark : Bool) (st : Nat) : Prop :=
  match s.cur with
  | .idle => False
  | .wave w => t = { s with waves := t.waves, free := t.free } ∧ (∀ x, x ≠ w → t.wave x = s.wave x)
      ∧ t.wave w = { s.wave w with word := (s.wave w).word + 1, retry := none, held := none, cc := { (s.wave w).cc with status := st }
                                   lastPark := (t.wave w).lastPark
                                   park := if mark = true ∧ (s.wave w).pend ≠ [] then .marker else .run }
  | .seq k => t = { s with clusters := t.clusters, free := t.free } ∧ (∀ j, j ≠ k → t.cluster j = s.cluster j)
      ∧ t.cluster k = { s.cluster k with seq := { s.seqOf k with
          word := (s.seqOf k).word + 1, cc := { (s.seqOf k).cc with status := st }, park := .run } }

/-- n arrivals one after another (R131). -/
def arrivals (b : BarObj) (n : Nat) : BarObj := (List.range n).foldl (fun x _ => barArrive x) b

/-! ### Flumes (R146 to R156) -/

/-- A word of a wave that also reaches its core's channels, its cluster's staging or its crew: other waves and all memory stay, and the
wave passes the word. -/
def State.unitFrame (s t : State) (w : Nat) (mark : Bool) : Prop :=
  t = { s with waves := t.waves, crews := t.crews, cores := t.cores, clusters := t.clusters, launches := t.launches, free := t.free }
    ∧ (∀ x, x ≠ w → t.wave x = s.wave x)
    ∧ t.wave w = { s.wave w with word := (s.wave w).word + 1, retry := none, held := none, cc := (t.wave w).cc
                                 lastPark := (t.wave w).lastPark
                                 park := if mark = true ∧ (s.wave w).pend ≠ [] then .marker else .run }

/-- Only one channel of a core may have changed, of all cores. -/
def State.onlyChannel (s t : State) (core ch : Nat) : Prop :=
  (∀ c, c ≠ core → t.core c = s.core c) ∧ t.core core = { s.core core with channels := (t.core core).channels }
    ∧ ∀ n, n ≠ ch → t.channel core n = s.channel core n

/-- FLS_c names a running chain, a spilled head or a queued one (R155). -/
def State.flsBusy (s : State) (crew ch : Nat) : Bool :=
  bit (s.flsReg crew ch) 63 || bit (s.flsReg crew ch) 62 || bits (s.flsReg crew ch) 59 55 != 0

/-- A chain that a head starts. -/
def chainOf (h : Head) : Chain := { crew := h.crew, cap := h.cap, off := h.off, kick := h.kick, fork := h.fork, credit := none }

/-- The step of a channel's engine may run for a chain: its cluster runs, and the writes before the kick have returned (R103). -/
def State.chainTurn (s : State) (core : Nat) (x : Chain) : Prop := s.clusterRuns (clusterOf core) = true ∧ s.forkReady x.fork = true

/-- The bytes that a walked record credits (R150, R153, R156): T, and PENDBYTES where a record that is not cancelled has no valid
count or MODE. -/
def creditBytes (r : FlumeRec) (cancel : Bool) : Option Nat :=
  if cancel = false ∧ (r.total = 0 ∨ 2 ^ 31 - 1 < r.total ∨ r.mode = 3) then none else some r.total

/-- A walked record leaves its chain at the next one, with a credit owed to its barrier (R150, R153); ERR tells of a STATUS other
than DONE. -/
def afterRecord (x : Chain) (r : FlumeRec) (place st maxw : Nat) (last cancel : Bool) : Chain :=
  { x with off := r.next * 64
           credit := some { place := place, bytes := creditBytes r cancel, err := decide (st ≠ 0), maxw := maxw, last := last, off := x.off } }

/-! ### Tasks, pools and cisterns (R181, R334 to R343) -/

/-- The registers that a word of a wave leaves alone whose per-lane result goes to an operand of some threads, with a STATUS: other
waves and groups, the shared registers, the predicates, and every other slice. -/
def State.outFrame (s t : State) (w : Nat) (threads : List Nat) (d : Slc) (st : Nat) : Prop :=
  (∀ g, g ≠ groupOf w → t.group g = s.group g) ∧ s.sameGroupRegs t (groupOf w)
    ∧ (t.wave w).cc = { (s.wave w).cc with status := st } ∧ (∀ x p, t.progPrd w x p = s.progPrd w x p)
    ∧ (∀ x n, ¬(x ∈ threads ∧ d.start ≤ n ∧ n < d.start + d.width) → t.progNib w x n = s.progNib w x n)
    ∧ (∀ x, (s.thread (groupOf w) x).sameRest (t.thread (groupOf w) x)) ∧ (∀ x, x ≠ w → t.wave x = s.wave x)
    ∧ (s.wave w).passed (t.wave w) 1 ∧ (t.wave w).spec = (s.wave w).spec

/-- The records of active lanes put into a core's queues one after another, with the STATUS of each (R335). -/
def enqueueAll (s : State) (core : Nat) : List TaskRec → State × List Nat
  | [] => (s, [])
  | r :: rest => (((enqueueAll (s.enqueue core r).1 core rest).1), (s.enqueue core r).2 :: (enqueueAll (s.enqueue core r).1 core rest).2)

/-- The STATUS of a word from those of its lanes: FULL, else SPILLED, else OK (R335). -/
def worstStatus (l : List Nat) : Nat := if 4 ∈ l then 4 else if 3 ∈ l then 3 else 0

/-- Places of a successor counter's COUNT. -/
def LaneAcc.count (a : LaneAcc) : LaneAcc := { a with keys := a.keys.take 8 }

/-- The nodes that a pool can give in a cluster, in the order in which it gives them (R340). -/
def State.nodeOrder (s : State) (k l n : Nat) : List Nat :=
  s.cacheOf k l n ++ (s.pool l n).freed
    ++ (List.range ((s.pool l n).limit - (s.pool l n).next)).map (fun i => (s.pool l n).next + i)

/-- The registers of a pool after it has given c nodes (R340). -/
def State.poolAfter (s t : State) (k l n c : Nat) : Prop :=
  let a := c - (s.cacheOf k l n).length
  let b := a - (s.pool l n).freed.length
  t.cacheOf k l n = (s.cacheOf k l n).drop c
    ∧ t.pool l n = { s.pool l n with
        freed := (s.pool l n).freed.drop a
        next := (s.pool l n).next + min b ((s.pool l n).limit - (s.pool l n).next) }

/-- The row that a lane of CPUT deposits: its bytes, its future, its crew, and the writes that it waits for (R342). -/
def State.cisRow (s1 s : State) (w : Nat) (row : Slc) (n : Nat) (a : LaneAcc) : CisRow :=
  { bytes := bytesOf (s.opnd w a.thread row 1) n, future := (a.keys.headD (0, 0)).1, crew := crewOf w, poison := []
    fork := s1.forkOf w }

/-- The open tile of a cistern has become ready with some rows, and an armed barrier has its arrival, or it is due there until every
deposit of the tile has happened (R103, R316, R342). -/
def State.tileClosed (s t : State) (k c : Nat) (rows : List CisRow) : Prop :=
  let happened := ∀ r ∈ rows, s.forkReady r.fork = true
  t.cistern k c = { s.cistern k c with
      openRows := [], ready := (s.cistern k c).ready ++ [rows], firstAt := (t.cistern k c).firstAt, due := (t.cistern k c).due }
    ∧ ((s.cistern k c).armed = none ∨ ¬happened → ∀ a, t.store.byte a = s.store.byte a)
    ∧ ((s.cistern k c).armed = none ∨ happened → (t.cistern k c).due = (s.cistern k c).due)
    ∧ ∀ b, (s.cistern k c).armed = some b →
      (happened → t.store.barrier b = barArrive (s.store.barrier b) ∧ ∀ a, a < b ∨ b + 16 ≤ a → t.store.byte a = s.store.byte a)
      ∧ (¬happened → (t.cistern k c).due = (s.cistern k c).due ++ [(b, rows.map (fun r => r.fork))])

/-! ### Engines (R324, R325) -/

/-- The four forms of class 12 by kind: constructor, service event, and bytes of a request entry and of a result entry. -/
noncomputable def engForms : List ((Eng → Instr) × (Nat → Instr) × Nat × Nat) :=
  [ (.rcast, .roeRcastService, 32, 16), (.ocap, .roeOcapService, 32, 16), (.cbfk, .cbeCbfkService, 64, 64),
    (.cbstep, .cbeCbstepService, 80, 80) ]

/-! ### The matrix sequencer (R298 to R322) -/

/-- The sequencer of cluster k may issue a word of class 13: it is selected, and neither stalled at an MMA nor waiting for a copy. -/
def State.seqReady (s : State) (k : Nat) : Prop := s.cur = .seq k ∧ (s.seqOf k).stalled = none ∧ (s.seqOf k).copying = false

/-- The sequencer k passes its word, with another register file v; nothing else changes. -/
def State.seqPass (s t : State) (k : Nat) (v : Seq) : Prop :=
  t = { s with clusters := t.clusters, free := t.free } ∧ (∀ j, j ≠ k → t.cluster j = s.cluster j)
    ∧ t.cluster k = { s.cluster k with seq := { v with word := (s.seqOf k).word + 1, park := .run } }

/-- A sequencer's registers with a STATUS. -/
def Seq.withStatus (q : Seq) (n : Nat) : Seq := { q with cc := { q.cc with status := n } }

/-- The MMA that a descriptor names (R309, R310): v and p are its operand and post-scale reservations, g the format of its unit, and
x, t and a the exact row, unit and accumulator numbers. -/
def mmaOf (d : Nat) (zero post : Bool) (v p : Resv) (g : WTag) (x t a : Nat) (region : Bool) (maxw : Nat) : MmaOp :=
  { zero := zero, post := if post then some (p.start + bits d 57 48 * 1024) else none, resv := v, slot := bits d 3 0, arow := x, unit := t
    acc := a, m := bits d 28 20 + 1, pslot := bits d 61 58, bfmt := g, region := region, notBefore := maxw, snap := [], fixed := false
    entered := none, done := [] }

/-- An MMA as the array accepts it (R103, R302, R311): while DT is not later than its NOTBEFORE it has made no access, and from then
on its last row enters after r cycles for each row, with r by the formats of A and B. -/
def State.accepted (s : State) (k : Nat) (m : MmaOp) : MmaOp :=
  if m.notBefore < s.dt then { m with
    snap := (runBytes s.store (m.ranges k)).zip (runPoison s.store (m.ranges k))
    entered := some (s.cycles k + m.m * (if m.bfmt = .e4m3 then (if m.resv.fmt = 2 then 4 else 2) else if m.resv.fmt = 2 then 2 else 1)) }
  else m

/-- The array of a cluster takes another MMA (R311, R315): fewer than two are incomplete, every row of these has entered, and it is
not stopped. -/
def State.arrayFree (s : State) (k : Nat) : Prop :=
  (s.seqOf k).mmas.length < 2 ∧ (s.seqOf k).stop = false ∧ ∀ y ∈ (s.seqOf k).mmas, ∃ n, y.entered = some n ∧ n ≤ s.cycles k

/-- The four forms of MMA: constructor, zero start, post-scale (R310). -/
noncomputable def mmaForms : List ((Mma → Instr) × Bool × Bool) :=
  [ (.mma, false, false), (.mmaz, true, false), (.mmap, false, true), (.mmazp, true, true) ]

/-- The units that an outstanding MLDB writes. -/
def ldbUnits (o : MldbOp) : List Nat := if o.fmt = 2 then [o.unit, o.unit + 1] else [o.unit]

/-- The tag of a unit after some units have been overwritten, where it is none of them: a pair loses both its halves (R307). -/
def keptTag (tags : Tab WTag) (us : List Nat) (x : Nat) : WTag :=
  if us.any (fun u => (tabGet tags .none u == .e4m3 && u + 1 == x) || (tabGet tags .none u == .e4m3b && u - 1 == x)) then .none
  else tabGet tags .none x

/-! ### System registers (R300, R344, R345) -/

/-- The system registers with one value for a wave, and their values (R344); those of the matrix launch and of TRAP level have conditions of their own. -/
def waveSysTable : List (Nat × (State → Nat → Nat)) :=
  [ (0, fun s _ => s.dt % 2 ^ 64), (1, fun s w => s.launchGeom (crewOf w)), (3, fun s w => s.execLimits (s.waveLaunch w)),
    (4, fun s w => s.coreSram (s.waveCore w)), (5, fun s w => s.vaultCharge (crewOf w)), (6, fun s _ => s.dev.coreLo),
    (7, fun s _ => s.dev.coreHi), (8, fun s w => (s.cluster (s.waveCluster w)).cslr),
    (9, fun s w => (s.launch (s.waveLaunch w)).rec_.deadline), (10, fun s w => (s.cluster (s.waveCluster w)).allow) ]
    ++ (List.range 4).map (fun n => (16 + n, fun s w => s.flsReg (crewOf w) n))
    ++ (List.range 4).map (fun n => (20 + n, fun s w => (s.waveVw w n).toNat))
    ++ (List.range 16).map (fun n => (32 + n, fun s w => s.poolReg (s.waveLaunch w) n))

/-- The registers of the cluster's sequencer. -/
def seqSysTable : List (Nat × (State → Nat → Nat)) :=
  [ (24, fun s k => s.seqStat k), (25, fun s k => (s.seqOf k).seqDerr), (26, fun s k => (s.seqOf k).seqFault) ]

/-- The registers that a sequencer reads (R300). -/
def seqReadTable : List (Nat × (State → Nat → Nat)) :=
  [ (0, fun s _ => s.dt), (6, fun s _ => s.dev.coreLo), (7, fun s _ => s.dev.coreHi), (8, fun s k => (s.cluster k).cslr),
    (9, fun s k => (s.launch (s.seqLaunch k)).rec_.deadline), (10, fun s k => (s.cluster k).allow) ]
    ++ seqSysTable ++ (List.range 16).map (fun n => (32 + n, fun s k => s.poolReg (s.seqLaunch k) n))

/-! ### Traps (R346, R372) -/

/-- A wave has entered TRAP level at word 0 of handler segment h with this frame; no other register of it or of its group, no other
wave and no byte of memory has changed. SKIP passes a number of positions at the word (R348). -/
def State.inHandler (s t : State) (w h : Nat) (c : Cause) (info active skip : Nat) : Prop :=
  t = { s with waves := t.waves, free := t.free } ∧ (∀ x, x ≠ w → t.wave x = s.wave x)
    ∧ t.wave w = { s.wave w with
        seg := h, word := 0, level := .trap, cc := Cc.zero, lc := [], wdBase := 0, wdSince := s.coreCycles (s.waveCore w), park := .run
        retry := none, held := none
        frame := some { cause := c, seg := (s.wave w).seg, word := (s.wave w).word, info := info, active := active, fault := 0, lanes := []
                        isPartial := false, rerun := (s.wave w).retry, skip := skip, cc := (s.wave w).cc, lc := (s.wave w).lc
                        wd := s.wdCount w } }

/-- A crew has been killed and its launch has its status (R354, R379): no wave of it is left, no thread of it lives, and its groups
have retired. -/
def State.crewKilled (s t : State) (crew status info : Nat) : Prop :=
  (t.crew crew).killed = true ∧ (t.launch (s.crew crew).launch).endStatus = mergeEnd (s.launch (s.crew crew).launch).endStatus status info
    ∧ (∀ x, crewOf x = crew → tabFind t.waves x = none)
    ∧ ∀ g, g / 8 = crew → (tabFind s.groups g).isSome = true →
      (t.group g).retired = true ∧ ∀ e ∈ (t.group g).threads, e.2.place = .dead

/-! ### The paired word (R230 to R232) -/

/-- The integer operations of a half by number, on n bits (R231). -/
def intHalves : List (Nat → Nat → Nat → Nat) :=
  [ fun _ _ y => y, fun n x y => (x + y) % 2 ^ n, fun n x y => lowBits ((x : Int) - y) n, fun n x y => x * y % 2 ^ n,
    fun n x y => if sInt n x < sInt n y then x else y, fun n x y => if sInt n x < sInt n y then y else x, fun _ x y => x &&& y,
    fun _ x y => x ||| y, fun _ x y => x ^^^ y, fun n x y => if n ≤ y then 0 else x * 2 ^ y % 2 ^ n,
    fun n x y => if n ≤ y then 0 else x / 2 ^ y,
    fun n x y => if n ≤ y then (if sInt n x < 0 then 2 ^ n - 1 else 0) else lowBits (sInt n x / 2 ^ y) n,
    fun n x y => satS n (sInt n x + sInt n y), fun n x y => satS n (sInt n x - sInt n y) ]

/-- The floating-point operations of a half by number (R231). -/
def floatHalves : List (Fmt → Nat → Nat → Nat) :=
  [ fun _ _ y => y, fun F x y => roundVal F .rne false (addVal .rne (valOf F x) (valOf F y)),
    fun F x y => roundVal F .rne false (addVal .rne (valOf F x) (negVal (valOf F y))),
    fun F x y => roundVal F .rne false (mulVal (valOf F x) (valOf F y)), fun F x y => minMaxBits F false x y,
    fun F x y => minMaxBits F true x y ]

/-- Bits of an element by type (R231). -/
def halfBits : List Nat := [8, 16, 32, 64, 16, 16, 32]

/-- What a half writes in a thread: every element of OP1 takes OP1 op OP2, OP2 widened to OP1's width by repetition (R230, R231). -/
def State.halfResult (s t : State) (w : Nat) (h : Half) (from_ x : Nat) : Prop :=
  let e := halfBits.getD h.ty 8 / 4
  let a := s.opnd w x (h.op1 from_) (from_ / 128)
  let b := widen 3 (s.opnd w x (h.op2 from_) (from_ / 128 + 1)) (halfWidth h.w2) (halfWidth h.w1)
  ∀ j, j < halfWidth h.w1 / e →
    (∀ f, intHalves[h.op]? = some f → h.ty < 4 →
      elem e (t.progOpnd w x (h.op1 from_)) j = f (4 * e) (elem e a j) (elem e b j) % 2 ^ (4 * e))
    ∧ (∀ f, floatHalves[h.op]? = some f → 4 ≤ h.ty → elem e (t.progOpnd w x (h.op1 from_)) j
      = f ([Fmt.f16, .bf16, .f32].getD (h.ty - 4) .f32) (elem e a j) (elem e b j) % 2 ^ (4 * e))

/-- A thread is active in a half, whose guard is an operand of its own (R197, R232). -/
def State.halfActive (s : State) (w : Nat) (h : Half) (from_ x : Nat) : Prop := ∃ l, (l, x) ∈ s.activeLanes w h.guard (from_ / 128)

/-- The operands of a half lie in the quota of each of its active threads, and it reads no poisoned row. -/
def State.halfOk (s : State) (w : Nat) (h : Half) (from_ : Nat) : Prop :=
  ∀ e ∈ s.activeLanes w h.guard (from_ / 128), (∀ o ∈ h.reads from_ ++ h.writes from_, o.start + o.width ≤ 64 * s.quota (groupOf w) (e.2 / 32))
    ∧ (s.thread (groupOf w) e.2).poisonedSlice (h.reads from_) = none

/-! ### The device (R7, R349 to R443) -/

/-- Of the machine only the registers of power and test may have changed; memory keeps every byte. -/
def State.onlyPower (s t : State) : Prop := t = { s with power := t.power } ∧ ∀ a, t.store.byte a = s.store.byte a

/-- Only the registers of translation, the host and the fabric. -/
def State.onlyDev (s t : State) : Prop := t = { s with dev := t.dev } ∧ ∀ a, t.store.byte a = s.store.byte a

/-- Only the registers of the command processor. -/
def State.onlySched (s t : State) : Prop := t = { s with sched := t.sched } ∧ ∀ a, t.store.byte a = s.store.byte a

/-- Only one cluster. -/
def State.onlyCluster (s t : State) (k : Nat) : Prop :=
  t = { s with clusters := t.clusters } ∧ (∀ j, j ≠ k → t.cluster j = s.cluster j) ∧ ∀ a, t.store.byte a = s.store.byte a

/-- Only one core. -/
def State.onlyCore (s t : State) (c : Nat) : Prop :=
  t = { s with cores := t.cores } ∧ (∀ j, j ≠ c → t.core j = s.core j) ∧ ∀ a, t.store.byte a = s.store.byte a

/-- Only one wave. -/
def State.onlyWave (s t : State) (w : Nat) : Prop :=
  t = { s with waves := t.waves } ∧ (∀ x, x ≠ w → t.wave x = s.wave x) ∧ ∀ a, t.store.byte a = s.store.byte a

/-- Only one group. -/
def State.onlyGroup (s t : State) (g : Nat) : Prop :=
  t = { s with groups := t.groups } ∧ (∀ x, x ≠ g → t.group x = s.group x) ∧ ∀ a, t.store.byte a = s.store.byte a

/-- Only one launch. -/
def State.onlyLaunch (s t : State) (l : Nat) : Prop :=
  t = { s with launches := t.launches } ∧ (∀ x, x ≠ l → t.launch x = s.launch x) ∧ ∀ a, t.store.byte a = s.store.byte a

/-- Some entries of a table are all at one value. -/
def valuesOf {α β : Type} (l : List (α × α × β)) (x y : α) (v : β) : Prop := (x, y, v) ∈ l ∧ ∀ u, (x, y, u) ∈ l → u = v

/-- A wave has entered the active set, and another may have left it (R367). -/
def State.exchanged (s t : State) (enter : Nat) (leave : Option Nat) : Prop :=
  t = { s with waves := t.waves } ∧ t.wave enter = { s.wave enter with active := true }
    ∧ (∀ x, x ≠ enter → t.wave x = if leave = some x then
        { s.wave x with active := false, readyAt := s.coreCycles (s.waveCore x) } else s.wave x)

/-- The record of an error in an empty error register (R68, R79): VALID, KIND, and what the unit adds. -/
def errRecord (kind rec_ : Nat) : Nat := 2 ^ 63 + kind * 2 ^ 60 + rec_

/-- A log register after an error (R68, R79): a free one takes the record; while VALID is 1 an uncorrectable or latent error sets OVER and
replaces a corrected record, and a corrected one leaves no trace. OVER stays until software clears it. -/
def loggedIn (old new kind rec_ : Nat) : Prop :=
  (bit old 63 = false → new = errRecord kind rec_ + if bit old 62 then 2 ^ 62 else 0)
    ∧ (bit old 63 = true → kind = 0 → new = old)
    ∧ (bit old 63 = true → kind ≠ 0 → bits old 61 60 = 0 → new = errRecord kind rec_ + 2 ^ 62)
    ∧ (bit old 63 = true → kind ≠ 0 → bits old 61 60 ≠ 0 → new = if bit old 62 then old else old + 2 ^ 62)

/-- An error of a kind has been logged in the NEAR_ERR of a cluster (R68), and a corrected one counted; of the device the interrupts may
have changed, and no byte of memory has. -/
def State.nearLogged (s t : State) (k kind rec_ : Nat) : Prop :=
  (∀ j, j ≠ k → t.cluster j = s.cluster j) ∧ loggedIn (s.cluster k).nearErr (t.cluster k).nearErr kind rec_
    ∧ (t.cluster k).nearCe = (if kind = 0 then min ((s.cluster k).nearCe + 1) (2 ^ 32 - 1) else (s.cluster k).nearCe)
    ∧ t.dev = { s.dev with msix := t.dev.msix, memIrq := s.dev.memIrq || kind != 0 } ∧ ∀ a, t.store.byte a = s.store.byte a

/-- An error of a kind has been logged in the FAR_ERR of a slice (R79): besides memory only the device's interrupts may have changed, and no
byte of memory has. -/
def State.farLogged (s t : State) (slice kind rec_ : Nat) : Prop :=
  t = { s with mem := t.mem, dev := t.dev }
    ∧ loggedIn (tabGet s.mem.farErr 0 slice) (tabGet t.mem.farErr 0 slice) kind rec_
    ∧ (∀ x, x ≠ slice → tabGet t.mem.farErr 0 x = tabGet s.mem.farErr 0 x)
    ∧ t.dev = { s.dev with msix := t.dev.msix, memIrq := s.dev.memIrq || kind != 0 } ∧ ∀ a, t.store.byte a = s.store.byte a

/-- KIND of an error by the number that a step names it with: 1 and 3 are corrected, 2 is latent, any other is uncorrectable (R68, R79). -/
def kindOf (err : Nat) : Nat := if err = 1 ∨ err = 3 then 0 else if err = 2 then 2 else 1

/-- The rate of a cluster clock in fortieths of a cycle per ns (R3, R396, R398, R401): 0 while it is stopped. -/
def clockRate (stopped : Bool) (rail : Nat) (throttled : Bool) : Nat :=
  if stopped then 0 else (if rail = 0 then 56 else 36) / (if throttled then 4 else 1)

/-- A rate of a cluster clock: that of its rail and throttle, and during a droop no less than half of it (R400). -/
def rateIs (rate : Nat) (stopped : Bool) (rail : Nat) (throttled droop : Bool) : Prop :=
  rate ≤ clockRate stopped rail throttled ∧ clockRate stopped rail throttled ≤ 2 * rate
    ∧ (droop = false → rate = clockRate stopped rail throttled)

/-- Every cluster keeps its registers but for its clock, and no clock jumps; those of the 32 clusters go on at the rate that R398 gives
under a throttle state. -/
def State.reclocked (s t : State) (throttled : Bool) : Prop :=
  ∀ k, t.cluster k = { s.cluster k with clock := (t.cluster k).clock } ∧ t.cycles k = s.cycles k
    ∧ (k < 32 → rateIs (t.cluster k).clock.rate ((s.cluster k).brownout || (s.cluster k).lost || (s.cluster k).rail.busy)
      (s.cluster k).rail.rail throttled (s.cluster k).droop)

/-- No launch's deadline has fallen, so that a clock that goes on has none to bring into effect. -/
def State.noDeadline (s : State) : Prop := ∀ l, (s.launch l).deadlineFell = false

/-- The end of a level of the kill sequence (R399): the launches of the level end with status 14, and the next one follows 20 µs later;
with no launch at this level or above, the sequence stops. -/
def State.levelKilled (s t : State) : Prop :=
  (s.placedAt s.power.klevel ≠ [] → s.power.klevel ≤ 7 →
    t.power = { s.power with klevel := s.power.klevel + 1, killing := true, killAt := s.dt + 20000 }
    ∧ ∀ l ∈ s.placedAt s.power.klevel, (t.launch l).endStatus = mergeEnd (s.launch l).endStatus 14 0 ∧ (t.launch l).ending = true)
  ∧ ((∀ k, s.power.klevel ≤ k → k ≤ 7 → s.placedAt k = []) →
    s.onlyPower t ∧ t.power = { s.power with klevel := max s.power.klevel 8, killing := false })

/-- A record has entered as launch u.2 of the state u.1 (R249, R353, R355): one that cannot be read or is malformed falls due with
RECORD_ERROR, one whose module fails a test with the status of that test, and one that loads waits for its event or for placement. -/
def State.admitted (t : State) (u : State × Nat) (bs : List Byte) (readable : Bool) : Prop :=
  let r := parseRecord bs
  let u0 := u.1.setLaunch u.2 { u.1.launch u.2 with rec_ := r }
  let u1 := u0.touchModule r
  let failed := fun st => t.launch u.2 = { u.1.launch u.2 with
    rec_ := r, phase := .due, endStatus := mergeEnd (u.1.launch u.2).endStatus st 0, saving := [], dueSeq := (t.launch u.2).dueSeq }
  (readable = false ∨ recordBad bs = true → t.mem = u0.mem ∧ t.sched = { u0.sched with ckpt := t.sched.ckpt } ∧ failed 6)
  ∧ (readable = true → recordBad bs = false →
    (∀ st, u1.verifyModule r = .error st → t.mem = u1.mem ∧ failed st)
    ∧ ∀ m, u1.verifyModule r = .ok m →
      (u1.readTensors u.2 r = none → failed 2)
      ∧ ∀ s2 ts s3, u1.readTensors u.2 r = some (s2, ts) →
        let s4 := s2.keepImage r.mod_ (u1.moduleTotal r.mod_) m
        (s4.setLaunch u.2 { s4.launch u.2 with mod_ := m, tensors := ts }).loadLaunch u.2 = some s3 →
        t.mem = s3.mem ∧ t.launch u.2 = { s3.launch u.2 with phase := if r.waitEv = 0 then .ready else .waiting })

/-- A launch has its origin (R359): no core of the rectangle is held for a test any more, and each cluster's sequencer of a matrix launch
stands at the first word of its program. -/
def State.placedAs (s t : State) (l : Nat) (o : Nat × Nat) : Prop :=
  let r := (s.launch l).rec_
  let cores := rectCores o.1 o.2 r.ex r.ey
  (t.launch l).phase = .placed ∧ (t.launch l).ox = o.1 ∧ (t.launch l).oy = o.2 ∧ (t.launch l).asideAt = none
    ∧ (t.launch l).placeSlot = s.freeSlot 3 s.placeOpen ∧ t.dev.placedOnce = true
    ∧ (∀ c ∈ cores, t.power.holds.contains c = false)
    ∧ ((s.launch l).mod_.isMatrix = true → r.ownv = false → ∀ c ∈ cores,
      (t.seqOf (clusterOf c)).launch = some l ∧ (t.seqOf (clusterOf c)).run = true ∧ (t.seqOf (clusterOf c)).preamble = true
      ∧ (t.seqOf (clusterOf c)).seg = (s.launch l).mod_.seqEntry ∧ (t.seqOf (clusterOf c)).word = 0)

/-- The record of a stage slot can be written to its ring: it has not been, the ring has room, the record's place lies in a memory below
the device registers, holds no barrier object, and no event word is named (R354, R437). -/
def State.slotWrites (s : State) (i q l : Nat) : Prop :=
  let h := s.hostQ q
  let a := h.crBase + 32 * (h.crTail % h.size)
  (s.store.byte (stageAt i + 33)).toNat % 2 = 0 ∧ (s.store.byte (stageAt i + 32)).toNat % 16 = q ∧ h.ringFull = false
    ∧ s.store.readNat (stageAt i + 40) 8 % 2 ^ 48 = 0 ∧ s.store.readNat (stageAt i + 12) 4 = l ∧ (s.physPlace a).isSome = true
    ∧ a + 32 ≤ devBase ∧ ∀ j, j < 32 → s.store.armed.contains ((a + j) / 16) = false

/-- The record of a stage slot has been written into its ring: TAIL has advanced, the vector has fired, and the launch is done. -/
def State.slotWritten (s t : State) (i q l : Nat) : Prop :=
  let h := s.hostQ q
  t.hostQ q = { h with crTail := (h.crTail + 1) % h.size } ∧ t.dev.msix = s.dev.msix ++ [q]
    ∧ (∀ j, j < 32 → t.store.byte (h.crBase + 32 * (h.crTail % h.size) + j) = s.store.byte (stageAt i + j))
    ∧ (t.store.byte (stageAt i + 33)).toNat % 2 = 1
    ∧ ((s.launch l).phase = .due → (s.launch l).stageSlot = some i → (t.launch l).phase = .done)

/-- A launch has been ended with a status (R354, R381): its crews are killed. -/
def State.launchKilled (s t : State) (l status info : Nat) : Prop :=
  (t.launch l).endStatus = mergeEnd (s.launch l).endStatus status info ∧ (t.launch l).ending = true
    ∧ ∀ c ∈ s.crewsOf l, (t.crew c).killed = true

/-- No barrier object that is tested lies in n bytes from a on. -/
def State.plainBytes (s : State) (a n : Nat) : Prop := ∀ j, j < n → s.store.armed.contains ((a + j) / 16) = false

/-- n bytes from a on hold some bytes, and no other byte of memory has changed. -/
def State.nowHolds (s t : State) (a : Nat) (bs : List Byte) : Prop :=
  (∀ j b, bs[j]? = some b → t.store.byte (a + j) = b)
    ∧ ∀ x, x < a ∨ a + bs.length ≤ x → t.store.byte x = s.store.byte x

/-- What a write of memory from outside a core reaches beside the bytes (R118, R133): waiters, watches, the L2, and the crews' grid
objects. -/
def State.homeFrame (s t : State) : Prop :=
  t = { s with waves := t.waves, clusters := t.clusters, crews := t.crews, mem := t.mem, dev := t.dev }
    ∧ (∀ w, t.wave w = { s.wave w with park := (t.wave w).park, spec := (t.wave w).spec })
    ∧ ∀ k, t.cluster k = { s.cluster k with relQ := (t.cluster k).relQ, seq := t.seqOf k }

/-- A command buffer with a signed image has been read, and the device registers may have changed: of memory only what the L2 notes. -/
def State.imageRead (s t : State) : Prop := t = { s with mem := t.mem, dev := t.dev } ∧ t.store = s.store

/-- The registers that a processor reads back as it wrote them: who (2 the management core, 3 the host), offset, and the bits that it
keeps (R405, R433, R435 to R443). -/
def writtenBack : List (Nat × Nat × (Nat → Nat)) :=
  [ (2, 0x28, fun v => v), (2, 0x30, fun v => v), (2, 0x58, fun v => v), (2, 0x68, fun v => v % 2 ^ 48),
    (3, 0x420, fun v => bits v 47 34 * 2 ^ 34) ]
    ++ (List.range 32).map (fun k => (2, 0x1000000 + k * 0x10000 + 8, fun v => v % 16))
    ++ (List.range 16).map (fun q => (3, 64 * q + 0x28, fun v => v % 2 ^ 16))
    ++ (List.range 16).map (fun q => (3, 64 * q + 0x18, fun v => v / 32 * 32))

/-- The device now owes a peer the acknowledgement of a write of n bytes at a place (R124): once DT is later than its GWCT. -/
def State.owesPeer (s t : State) (a n : Nat) : Prop :=
  t.dev = { s.dev with peerOwed := s.dev.peerOwed.filter (fun x => decide (s.dt ≤ x)) ++ [s.gwctAt a n] }

/-- Contributions that a switch merges one after another, applied once to a location (R125). -/
def mergedOnce (f : Nat → Nat → Nat → Nat) (n : Nat) (vs : List Nat) (m : Nat) : Nat :=
  match vs with
  | [] => m
  | v :: rest => f n m (rest.foldl (fun x y => f n x (y % 2 ^ n)) (v % 2 ^ n))

/-- The value of an energy accumulator by number: device, high rail, low rail, and clusters from 3 on (R403). -/
def State.energyOf (s : State) (i : Nat) : Nat :=
  match i with
  | 0 => s.power.energyDev
  | 1 => s.power.energyHigh
  | 2 => s.power.energyLow
  | k + 3 => (s.cluster k).energy

/-- The machine after a start other than by its first power: no launch, no crew and no wave is left, and the queues are empty. -/
def State.started (t : State) : Prop :=
  t.cur = .idle ∧ t.waves = [] ∧ t.groups = [] ∧ t.crews = [] ∧ t.cores = [] ∧ t.launches = [] ∧ t.sched.queues = []
    ∧ t.sched.devQ = [] ∧ t.sched.kick = 0 ∧ t.dev.mboxBusy = false ∧ t.dev.ctxBase = 0

/-- A warm start (R85, R249, R413, R414): memory but for the weight store stays, and so do the error logs, the energy counts, the device
tick, the core map, the repair map of each vault and the cached images that verify again. -/
def State.warmStarted (s t : State) : Prop :=
  t.started ∧ t.dt = s.dt ∧ t.dev.warm = true ∧ t.dev.coreLo = s.dev.coreLo ∧ t.dev.coreHi = s.dev.coreHi
    ∧ t.dev.intlv = s.dev.intlv ∧ t.dev.ownerKeys = s.dev.ownerKeys ∧ t.dev.translator = s.dev.translator
    ∧ t.dev.images = s.dev.images.filter s.imageStands ∧ t.dev.reports = s.dev.reports ∧ t.mem.dramOut = s.mem.dramOut
    ∧ (∀ v, (t.vault v).repair = (s.vault v).repair ∧ (t.vault v).rowErrs = (s.vault v).rowErrs ∧ (t.vault v).out = (s.vault v).out)
    ∧ (∀ k, t.cluster k = { ClusterSt.reset with
        nearErr := (s.cluster k).nearErr, nearCe := (s.cluster k).nearCe, energy := (s.cluster k).energy })
    ∧ t.mem.farErr = s.mem.farErr ∧ t.power.energyDev = s.power.energyDev ∧ t.sched.takeovers = s.sched.takeovers
    ∧ (∀ a, a < 2 ^ 52 → t.store.byte a = s.store.byte a) ∧ (∀ a, 2 ^ 52 ≤ a → a < 2 ^ 53 → t.store.byte a = 0)

/-- The repair map of a vault after a cold start whose built-in test finds some rows failing (R85): the rows mapped before keep their
spares, and the others that failed or had shown four corrected errors are mapped too, each once. -/
def Vault.mapped (x : Vault) (failing rows : List Nat) : Prop :=
  x.repair <+: rows ∧ (∀ r, r ∈ rows ↔ r ∈ x.repair ∨ (∃ e ∈ x.rowErrs, e.1 = r ∧ 4 ≤ e.2) ∨ r ∈ failing)
    ∧ (x.repair.Nodup → rows.Nodup)

/-- A cold start (R85, R87, R413): the device tick is 0 and every register has its reset value; the enrolled keys stay, a vault with more
rows to map than its 128 spares is out of service and logged, and a subchannel that fails its training puts the external window out of
service, with a report to the host. -/
def State.coldStarted (s t : State) : Prop :=
  t.started ∧ t.dt = 0 ∧ t.clusters = [] ∧ t.power = PowerRegs.reset ∧ t.sched = SchedRegs.reset
    ∧ t.dev = { DevRegs.reset with
        ownerKeys := s.dev.ownerKeys, firmware := t.dev.firmware, fwOk := t.dev.fwOk, msix := t.dev.msix
        memIrq := (List.range 32).any (fun v => (t.vault v).out)
        reports := if t.mem.dramOut then [.externalOut] else [] }
    ∧ t.mem.dramOut = (List.range 16).any (fun c => !Config.trains s.free c)
    ∧ (∀ v, v < 32 → (s.vault v).mapped (Config.failingRows s.free v) (t.vault v).repair
      ∧ (t.vault v).out = ((s.vault v).out || decide (128 < (t.vault v).repair.length))
      ∧ tabGet t.mem.farErr 0 v = if (t.vault v).out then errRecord 1 (12 * 2 ^ 56 + t.vaultAddr v 0 % 2 ^ 48) else 0)
    ∧ ∀ a, t.store.byte a = 0

end Sys2Proof.Machine
end

