-- ==== Sys2Proof/Certificates/Slice0/Obligations.lean ====
section
/-! DEFINITION. The statements for the provers. -/

open Sys2Proof Sys2Proof.Machine

/-- Words written out from the encoding tables (R224 to R232) decode to the instructions they stand for: the worked words of
R254, R264 and R348 among them. -/
def Obligations.DecodeWrittenWords : Prop :=
  decodeWord 0x001000024004FFF4 0 = .ok (.saddImm { mark := false, d := 9, a := 4, imm := 16381 })
    ∧ decodeWord 0x3830000000000000 0 = .ok (.tretRetry { mark := false })
    ∧ decodeWord 0x383000000000000C 0 = .ok (.tretKillcrew { mark := false })
    ∧ decodeWord 0xBC00000240000000 0x123456789ABCDEF0 = .ok (.lit { mark := true, d := 9, v := 0x123456789ABCDEF0 })
    ∧ decodeThread 0x3400000000000000 0 = .error .illegalOpcode

/-- Decoding gives back every well-formed instruction from its own words (R224 to R233). -/
def Obligations.DecodeEncode : Prop :=
  ∀ i : Instr, i.wf = true → isEvent i = false → decode (encode i) = .ok i

/-- Every word that decodes stands for a well-formed instruction whose encoding it is, bit for bit. -/
def Obligations.EncodeDecode : Prop :=
  ∀ (w lit : Nat) (i : Instr), w < 2 ^ 64 → lit < 2 ^ 64 → decodeWord w lit = .ok i →
    i.wf = true ∧ (encode i = [w] ∨ encode i = [w, lit])

/-- Scalar forms with a register or an immediate source B (R254): for a wave and for a matrix sequencer (R300), sD takes the
result and CC its flags; nothing else changes but the place of the word. -/
def Obligations.ScalarForms : Prop :=
  ∀ row ∈ scalarRows, ∀ s : State, s.agentReady →
    (∀ o : SReg, Answer.gives (exec (row.reg o) s) (fun t =>
      t.sReg o.d = row.res (s.sReg o.a) (s.sReg o.b) ∧ s.scalarFrame t (some o.d) 1
        ∧ t.cc = flagsOf s.cc (row.res (s.sReg o.a) (s.sReg o.b)) (row.c (s.sReg o.a) (s.sReg o.b))
            (row.v (s.sReg o.a) (s.sReg o.b))))
    ∧ (∀ o : SImm, Answer.gives (exec (row.imm o) s) (fun t =>
      t.sReg o.d = row.res (s.sReg o.a) (lowBits (sInt 14 o.imm) 64) ∧ s.scalarFrame t (some o.d) 1
        ∧ t.cc = flagsOf s.cc (row.res (s.sReg o.a) (lowBits (sInt 14 o.imm) 64))
            (row.c (s.sReg o.a) (lowBits (sInt 14 o.imm) 64)) (row.v (s.sReg o.a) (lowBits (sInt 14 o.imm) 64))))

/-- SCMP writes no s register and sets the flags of SSUB; SMOV copies B (R254).

SPOPC counts 1 bits, SCLZ leading zeros, 64 for zero (R255); LIT writes its literal and passes two words (R228).

What a wave writes it reads back; another wave of the group reads that value, the value before it, or an earlier one, and the value
itself once a release of the writer and then an acquire of the reader have followed (R192; what an acquire orders is the model's
reading, log entry 82). -/
def Obligations.ScalarMoves : Prop :=
  (
  ∀ s : State, s.cur ≠ .idle →
    (∀ o : ScmpR, Answer.gives (exec (.scmpReg o) s) (fun t =>
      s.scalarFrame t none 1
        ∧ t.cc = flagsOf s.cc (lowBits (sInt 64 (s.sReg o.a) - sInt 64 (s.sReg o.b)) 64) (decide (s.sReg o.a < s.sReg o.b))
            (outside64 (sInt 64 (s.sReg o.a) - sInt 64 (s.sReg o.b)))))
    ∧ (∀ o : ScmpI, Answer.gives (exec (.scmpImm o) s) (fun t =>
      s.scalarFrame t none 1
        ∧ t.cc = flagsOf s.cc (lowBits (sInt 64 (s.sReg o.a) - sInt 64 (lowBits (sInt 14 o.imm) 64)) 64)
            (decide (s.sReg o.a < lowBits (sInt 14 o.imm) 64))
            (outside64 (sInt 64 (s.sReg o.a) - sInt 64 (lowBits (sInt 14 o.imm) 64)))))
    ∧ (s.agentReady → ∀ o : SmovR, Answer.gives (exec (.smovReg o) s) (fun t =>
      s.scalarFrame t (some o.d) 1 ∧ t.sReg o.d = s.sReg o.b ∧ t.cc = flagsOf s.cc (s.sReg o.b) false false))
    ∧ (s.agentReady → ∀ o : SmovI, Answer.gives (exec (.smovImm o) s) (fun t =>
      s.scalarFrame t (some o.d) 1 ∧ t.sReg o.d = lowBits (sInt 14 o.imm) 64
        ∧ t.cc = flagsOf s.cc (lowBits (sInt 14 o.imm) 64) false false)))
  ∧ (
  ∀ s : State, s.agentReady →
    (∀ o : S2, Answer.gives (exec (.spopc o) s) (fun t =>
      s.scalarFrame t (some o.d) 1 ∧ t.sReg o.d = ((List.range 64).filter (fun i => bit (s.sReg o.a) i)).length
        ∧ t.cc = flagsOf s.cc (t.sReg o.d) false false))
    ∧ (∀ o : S2, Answer.gives (exec (.sclz o) s) (fun t =>
      s.scalarFrame t (some o.d) 1 ∧ t.sReg o.d = (if s.sReg o.a = 0 then 64 else 63 - Nat.log2 (s.sReg o.a))
        ∧ t.cc = flagsOf s.cc (t.sReg o.d) false false))
    ∧ (∀ o : Lit, Answer.gives (exec (.lit o) s) (fun t =>
      s.scalarFrame t (some o.d) 2 ∧ t.sReg o.d = o.v % 2 ^ 64 ∧ t.cc = s.cc))
    ∧ (∀ w, s.cur = .wave w → ∀ o : Lit, Answer.gives (exec (.lit o) s) (fun t =>
        t.waveS w o.d = BitVec.ofNat 64 o.v ∧ t.groupS (groupOf w) o.d = BitVec.ofNat 64 o.v
        ∧ ∀ x, groupOf x = groupOf w →
          (t.waveS x o.d = BitVec.ofNat 64 o.v ∨ t.waveS x o.d = s.groupS (groupOf w) o.d
            ∨ ∃ p ∈ (s.group (groupOf w)).hist.s, p.reg = o.d ∧ p.writer ≠ x ∧ tabGet (s.wave x).know 0 p.writer < p.serial
              ∧ t.waveS x o.d = p.old)
          ∧ ∀ i j, isRelease i = true → isAcquire j = true → ((t.ordered w i).ordered x j).waveS x o.d = BitVec.ofNat 64 o.v)))

/-- The integer and bit forms of R256 and R260 with slices for A and B: element by element, in every active thread. DIV and REM
are long-class, so their results are stated in program order (R195, R197).

The same forms with an s register for B (R226, R256, R260).

The same forms with an immediate for B (R226, R227, R256, R260).

ABSD (R257): the exact distance of two elements. -/
def Obligations.IntegerForms : Prop :=
  (
  ∀ row ∈ intRows, ∀ (o : VV) (s : State) (w : Nat), widthsOk (eInt o.nib) o.d.width o.a.width o.ext →
    s.lanesOk w o.g ([o.a, { start := o.b, width := o.d.width }] ++ if row.useD then [o.d] else []) [o.d] →
    s.elementResult (exec (row.vv o) s) w o.g o.d (eInt o.nib) (fun i => widen o.ext (s.opnd w i o.a) o.a.width o.d.width)
      (fun i => s.opnd w i { start := o.b, width := o.d.width } 1) row.f)
  ∧ (
  ∀ row ∈ intRows, ∀ (o : VS) (s : State) (w : Nat), widthsOk (eInt o.nib) o.d.width o.a.width o.ext →
    (eInt o.nib = o.d.width ∨ (eInt o.nib < o.d.width ∧ o.ext ≠ 0)) →
    s.lanesOk w o.g ([o.a] ++ if row.useD then [o.d] else []) [o.d] →
    s.elementResult (exec (row.vs o) s) w o.g o.d (eInt o.nib) (fun i => widen o.ext (s.opnd w i o.a) o.a.width o.d.width)
      (fun _ => widen o.ext (s.sReg o.s % 2 ^ (4 * eInt o.nib)) (eInt o.nib) o.d.width) row.f)
  ∧ (
  ∀ row ∈ intRows, ∀ (o : VI) (s : State) (w : Nat), o.d.width % eInt o.nib = 0 → (o.d.width ≤ 4 ∨ o.ext ≠ 0) →
    s.lanesOk w o.g ([{ start := o.a, width := o.d.width }] ++ if row.useD then [o.d] else []) [o.d] →
    s.elementResult (exec (row.vi o) s) w o.g o.d (eInt o.nib) (fun i => s.opnd w i { start := o.a, width := o.d.width })
      (fun _ => widenImm o.ext o.imm o.d.width) row.f)
  ∧ (
  ∀ (o : VV) (s : State) (w : Nat), widthsOk (eInt o.nib) o.d.width o.a.width o.ext →
    s.lanesOk w o.g [o.a, { start := o.b, width := o.d.width }] [o.d] →
    s.elementResult (exec (.absdI o) s) w o.g o.d (eInt o.nib) (fun i => widen o.ext (s.opnd w i o.a) o.a.width o.d.width)
      (fun i => s.opnd w i { start := o.b, width := o.d.width } 1) (fun n x y _ => (sInt n x - sInt n y).natAbs)
    ∧ s.elementResult (exec (.absdB o) s) w o.g o.d (eInt o.nib) (fun i => widen o.ext (s.opnd w i o.a) o.a.width o.d.width)
      (fun i => s.opnd w i { start := o.b, width := o.d.width } 1) (fun _ x y _ => ((x : Int) - y).natAbs))

/-- The floating-point forms of R258 with slices or an s register for B, in the anchor's format and rounding mode; FMIN and FMAX
take only mode RNE. -/
def Obligations.FloatForms : Prop :=
  ∀ row ∈ floatRows, ∀ (s : State) (w : Nat),
    (∀ o : VV, (if row.rounded then nibFloat o.nib else nibRne o.nib) = true →
      widthsOk (eFloat o.nib) o.d.width o.a.width o.ext →
      s.lanesOk w o.g ([o.a, { start := o.b, width := o.d.width }] ++ if row.useD then [o.d] else []) [o.d] →
      s.elementResult (exec (row.vv o) s) w o.g o.d (eFloat o.nib) (fun i => widen o.ext (s.opnd w i o.a) o.a.width o.d.width)
        (fun i => s.opnd w i { start := o.b, width := o.d.width } 1) (fun _ => row.f (fmtOf (o.nib / 4)) o.nib))
    ∧ (∀ o : VS, (if row.rounded then nibFloat o.nib else nibRne o.nib) = true →
      widthsOk (eFloat o.nib) o.d.width o.a.width o.ext →
      (eFloat o.nib = o.d.width ∨ (eFloat o.nib < o.d.width ∧ o.ext ≠ 0)) →
      s.lanesOk w o.g ([o.a] ++ if row.useD then [o.d] else []) [o.d] →
      s.elementResult (exec (row.vs o) s) w o.g o.d (eFloat o.nib) (fun i => widen o.ext (s.opnd w i o.a) o.a.width o.d.width)
        (fun _ => widen o.ext (s.sReg o.s % 2 ^ (4 * eFloat o.nib)) (eFloat o.nib) o.d.width)
        (fun _ => row.f (fmtOf (o.nib / 4)) o.nib))

/-- The unary forms from slices (R257, R259, R260, R261), and from an s register (R259, R260). -/
def Obligations.UnaryForms : Prop :=
  (∀ row ∈ unaryRows, ∀ (o : U1) (s : State) (w : Nat), row.ok o.nib = true → widthsOk (row.e o.nib) o.d.width o.a.width o.ext →
    s.lanesOk w o.g [o.a] [o.d] →
    s.elementResult (exec (row.vv o) s) w o.g o.d (row.e o.nib) (fun i => widen o.ext (s.opnd w i o.a) o.a.width o.d.width)
      (fun _ => 0) (fun _ x _ _ => row.f o.nib x))
  ∧ (∀ row ∈ unarySRows, ∀ (o : US) (s : State) (w : Nat), row.ok o.nib = true → o.d.width % row.e o.nib = 0 →
    (row.e o.nib = o.d.width ∨ (row.e o.nib < o.d.width ∧ o.ext ≠ 0)) → s.lanesOk w o.g [] [o.d] →
    s.elementResult (exec (row.vs o) s) w o.g o.d (row.e o.nib)
      (fun _ => widen o.ext (s.sReg o.s % 2 ^ (4 * row.e o.nib)) (row.e o.nib) o.d.width) (fun _ => 0)
      (fun _ x _ _ => row.f o.nib x))

/-- MOV of an immediate, BFE, BFI and PTON (R260, R262, R267): whole operands in every active thread.

ZIP and UNZIP (R263): granules of 1, 2, 4 or 8 slices interleaved and taken apart. -/
def Obligations.FieldForms : Prop :=
  (
  ∀ (s : State) (w : Nat),
    (∀ o : MI, o.d.width % eInt o.nib = 0 → (o.d.width ≤ 4 ∨ o.ext ≠ 0) → s.lanesOk w o.g [] [o.d] →
      s.laneResult (exec (.movVI o) s) w o.g o.d (fun _ => widenImm o.ext o.imm o.d.width))
    ∧ (∀ o : Bfld, o.pos + o.len ≤ 4 * o.a.width → o.len ≤ 4 * o.d.width → s.lanesOk w o.g [o.a] [o.d] →
      s.laneResult (exec (.bfe o) s) w o.g o.d (fun i => s.opnd w i o.a / 2 ^ o.pos % 2 ^ o.len))
    ∧ (∀ o : Bfld, o.pos + o.len ≤ 4 * o.d.width → o.len ≤ 4 * o.a.width → s.lanesOk w o.g [o.a, o.d] [o.d] →
      Answer.gives (exec (.bfi o) s) (fun t => s.laneFrame t w o.g o.d ∧ ∀ i, s.threadActive w o.g i → ∀ k, k < 4 * o.d.width →
        bit (t.progOpnd w i o.d) k
          = if o.pos ≤ k ∧ k < o.pos + o.len then bit (s.opnd w i o.a) (k - o.pos) else bit (s.opnd w i o.d 2) k))
    ∧ (∀ o : Pton, s.lanesOk w o.g [] [o.d] →
      s.laneResult (exec (.pton o) s) w o.g o.d (fun i => if (s.readPrd w i o.a 1 != o.an) = true then 1 else 0)))
  ∧ (
  ∀ (s : State) (w : Nat),
    (∀ o : Zip, o.a.width = o.b.width → o.d.width = 2 * o.a.width → o.a.width % 2 ^ o.gc = 0 → s.lanesOk w o.g [o.a, o.b] [o.d] →
      s.laneElements (exec (.zip o) s) w o.g o.d (2 ^ o.gc) (2 * (o.a.width / 2 ^ o.gc))
        (fun i j => elem (2 ^ o.gc) (if j % 2 = 0 then s.opnd w i o.a else s.opnd w i o.b 1) (j / 2)))
    ∧ (∀ o : Unzip, o.d.width = o.a.width → o.a.width % (2 * 2 ^ o.gc) = 0 → s.lanesOk w o.g [o.a] [o.d] →
      s.laneElements (exec (.unzip o) s) w o.g o.d (2 ^ o.gc) (o.a.width / 2 ^ o.gc)
        (fun i j => elem (2 ^ o.gc) (s.opnd w i o.a)
          (if j < o.a.width / (2 * 2 ^ o.gc) then 2 * j else 2 * (j - o.a.width / (2 * 2 ^ o.gc)) + 1))))

/-- CVT, CVTFI, CVTIF and CVTE8 (R264, R266): element by element from one type to another; the modifier of CVT acts where it does not
widen (R211).

CVTEF (R265, R212): in every active thread the narrowed elements go to D and the residues to E, both together. -/
def Obligations.Conversions : Prop :=
  (
  ∀ (s : State) (w : Nat),
    (∀ o : Cvt, o.src < 6 → o.dst < 6 → o.a.width % fmtSlices (fmtOf o.src) = 0 → o.d.width % fmtSlices (fmtOf o.dst) = 0 →
      o.a.width / fmtSlices (fmtOf o.src) = o.d.width / fmtSlices (fmtOf o.dst) → s.lanesOk w o.g [o.a] [o.d] →
      s.laneElements (exec (.cvt o) s) w o.g o.d (fmtSlices (fmtOf o.dst)) (o.d.width / fmtSlices (fmtOf o.dst)) (fun i j =>
        roundVal (fmtOf o.dst) (rmodeOf o.mode) (o.sat && !widens (fmtOf o.src) (fmtOf o.dst))
          (valOf (fmtOf o.src) (elem (fmtSlices (fmtOf o.src)) (s.opnd w i o.a) j)) % 2 ^ (4 * fmtSlices (fmtOf o.dst))))
    ∧ (∀ o : CvtFI, o.src < 6 → 0 < o.e → o.a.width % fmtSlices (fmtOf o.src) = 0 → o.d.width % o.e = 0 →
      o.a.width / fmtSlices (fmtOf o.src) = o.d.width / o.e → s.lanesOk w o.g [o.a] [o.d] →
      s.laneElements (exec (.cvtfi o) s) w o.g o.d o.e (o.d.width / o.e) (fun i j =>
        toIntClamped (rmodeOf o.mode) o.uns (4 * o.e)
          (valOf (fmtOf o.src) (elem (fmtSlices (fmtOf o.src)) (s.opnd w i o.a) j)) % 2 ^ (4 * o.e)))
    ∧ (∀ o : CvtIF, o.dst < 6 → 0 < o.e → o.a.width % o.e = 0 → o.d.width % fmtSlices (fmtOf o.dst) = 0 →
      o.a.width / o.e = o.d.width / fmtSlices (fmtOf o.dst) → s.lanesOk w o.g [o.a] [o.d] →
      s.laneElements (exec (.cvtif o) s) w o.g o.d (fmtSlices (fmtOf o.dst)) (o.d.width / fmtSlices (fmtOf o.dst)) (fun i j =>
        roundVal (fmtOf o.dst) (rmodeOf o.mode) o.sat
          (.fin (decide (valueOf (4 * o.e) o.uns (elem o.e (s.opnd w i o.a) j) < 0))
            (valueOf (4 * o.e) o.uns (elem o.e (s.opnd w i o.a) j)).natAbs 0) % 2 ^ (4 * fmtSlices (fmtOf o.dst))))
    ∧ (∀ o : CvtE8, (o.a.width = 8 ∨ o.a.width = 16) → o.d.width = o.a.width / 4 → o.s.width = 2 → s.lanesOk w o.g [o.a, o.s] [o.d] →
      s.laneElements (exec (.cvte8 o) s) w o.g o.d 2 (o.a.width / 8) (fun i j =>
        (if s.opnd w i o.s 1 = 255 then canonNan (e8Fmt o.f)
          else roundVal (e8Fmt o.f) .rne o.sat (mulVal (valOf .f32 (elem 8 (s.opnd w i o.a) j))
            (.fin false 1 (127 - (s.opnd w i o.s 1 : Int))))) % 2 ^ 8)))
  ∧ (
  ∀ (s : State) (w : Nat) (o : CvtEF), o.a.width = o.r.width → (o.a.width = 8 ∨ o.a.width = 16) →
    o.d.width = o.a.width / 8 * fmtSlices (efFmt o.f) → slcMeet o.d o.r = false → s.lanesOk w o.g [o.a, o.r] [o.d, o.r] →
    Answer.gives (exec (.cvtef o) s) (fun t =>
      s.registerFrame t w 1 ∧ (t.wave w).cc = (s.wave w).cc ∧ s.sameGroupRegs t (groupOf w)
      ∧ (∀ x n, ¬(s.threadActive w o.g x ∧ (o.d.start ≤ n ∧ n < o.d.start + o.d.width ∨ o.r.start ≤ n ∧ n < o.r.start + o.r.width)) →
        t.progNib w x n = s.progNib w x n)
      ∧ (∀ x p, t.progPrd w x p = s.progPrd w x p) ∧ (∀ x, (s.thread (groupOf w) x).sameRest (t.thread (groupOf w) x))
      ∧ ∀ i, s.threadActive w o.g i → ∀ j, j < o.a.width / 8 →
        elem (fmtSlices (efFmt o.f)) (t.progOpnd w i o.d) j
            = (errorFeedback (efFmt o.f) (elem 8 (s.opnd w i o.a) j) (elem 8 (s.opnd w i o.r 1) j)).1 % 2 ^ (4 * fmtSlices (efFmt o.f))
          ∧ elem 8 (t.progOpnd w i o.r) j
            = (errorFeedback (efFmt o.f) (elem 8 (s.opnd w i o.a) j) (elem 8 (s.opnd w i o.r 1) j)).2 % 2 ^ 32))

/-- The predicate forms of R267: one predicate of every active thread, and MZ.

CMP and FCMP in every variant (R268): every element pair meets the condition, or with .any one does. -/
def Obligations.Predicates : Prop :=
  (
  ∀ (s : State) (w : Nat),
    (∀ o : P3, s.lanesOk w o.g [] [] →
      s.prdResult (exec (.pand o) s) w o.g o.d (fun i => (s.readPrd w i o.a 1 != o.an) && (s.readPrd w i o.b 2 != o.bn))
      ∧ s.prdResult (exec (.por o) s) w o.g o.d (fun i => (s.readPrd w i o.a 1 != o.an) || (s.readPrd w i o.b 2 != o.bn))
      ∧ s.prdResult (exec (.pxor o) s) w o.g o.d (fun i => (s.readPrd w i o.a 1 != o.an) != (s.readPrd w i o.b 2 != o.bn))
      ∧ s.prdResult (exec (.pandn o) s) w o.g o.d (fun i => (s.readPrd w i o.a 1 != o.an) && !(s.readPrd w i o.b 2 != o.bn)))
    ∧ (∀ o : P2, s.lanesOk w o.g [] [] → s.prdResult (exec (.pnot o) s) w o.g o.d (fun i => !(s.readPrd w i o.a 1 != o.an)))
    ∧ (∀ o : Pset, s.lanesOk w o.g [] [] → s.prdResult (exec (.pset o) s) w o.g o.d (fun _ => o.v))
    ∧ (∀ o : Pbit, o.b < 4 * o.a.width → s.lanesOk w o.g [o.a] [] →
      s.prdResult (exec (.pbit o) s) w o.g o.d (fun i => bit (s.opnd w i o.a) o.b)))
  ∧ (
  ∀ (s : State) (w : Nat),
    (∀ c ∈ condInt.zipIdx, ∀ o : CmpVV, o.cond = c.2 → o.red < 2 → o.a.width % eInt o.nib = 0 →
      s.lanesOk w o.g [o.a, { start := o.b, width := o.a.width }] [] →
      s.prdResult (exec (.cmpVV o) s) w o.g o.d (fun i => condMeets o.red (o.a.width / eInt o.nib) (fun j =>
        c.1 (valueOf (4 * eInt o.nib) o.uns (elem (eInt o.nib) (s.opnd w i o.a) j))
          (valueOf (4 * eInt o.nib) o.uns (elem (eInt o.nib) (s.opnd w i { start := o.b, width := o.a.width } 1) j)))))
    ∧ (∀ c ∈ condInt.zipIdx, ∀ o : CmpVS, o.cond = c.2 → o.red < 2 → o.a.width % eInt o.nib = 0 →
      (eInt o.nib = o.a.width ∨ (eInt o.nib < o.a.width ∧ o.ext ≠ 0)) → s.lanesOk w o.g [o.a] [] →
      s.prdResult (exec (.cmpVS o) s) w o.g o.d (fun i => condMeets o.red (o.a.width / eInt o.nib) (fun j =>
        c.1 (valueOf (4 * eInt o.nib) o.uns (elem (eInt o.nib) (s.opnd w i o.a) j))
          (valueOf (4 * eInt o.nib) o.uns
            (elem (eInt o.nib) (widen o.ext (s.sReg o.s % 2 ^ (4 * eInt o.nib)) (eInt o.nib) o.a.width) j)))))
    ∧ (∀ c ∈ condInt.zipIdx, ∀ o : CmpVI, o.cond = c.2 → o.red = 0 → (eInt o.nib ≤ 4 ∨ o.ext ≠ 0) →
      s.lanesOk w o.g [{ start := o.a, width := eInt o.nib }] [] →
      s.prdResult (exec (.cmpVI o) s) w o.g o.d (fun i =>
        c.1 (valueOf (4 * eInt o.nib) o.uns (s.opnd w i { start := o.a, width := eInt o.nib } % 2 ^ (4 * eInt o.nib)))
          (valueOf (4 * eInt o.nib) o.uns (widenImm o.ext o.imm (eInt o.nib) % 2 ^ (4 * eInt o.nib)))))
    ∧ (∀ c ∈ condFloat.zipIdx, ∀ o : CmpVV, o.cond = c.2 → o.red < 2 → o.uns = false → nibRne o.nib = true →
      o.a.width % eFloat o.nib = 0 → s.lanesOk w o.g [o.a, { start := o.b, width := o.a.width }] [] →
      s.prdResult (exec (.fcmpVV o) s) w o.g o.d (fun i => condMeets o.red (o.a.width / eFloat o.nib) (fun j =>
        c.1 (valOf (fmtOf (o.nib / 4)) (elem (eFloat o.nib) (s.opnd w i o.a) j))
          (valOf (fmtOf (o.nib / 4)) (elem (eFloat o.nib) (s.opnd w i { start := o.b, width := o.a.width } 1) j)))))
    ∧ (∀ c ∈ condFloat.zipIdx, ∀ o : CmpVS, o.cond = c.2 → o.red < 2 → o.uns = false → nibRne o.nib = true →
      o.a.width % eFloat o.nib = 0 → (eFloat o.nib = o.a.width ∨ (eFloat o.nib < o.a.width ∧ o.ext ≠ 0)) →
      s.lanesOk w o.g [o.a] [] →
      s.prdResult (exec (.fcmpVS o) s) w o.g o.d (fun i => condMeets o.red (o.a.width / eFloat o.nib) (fun j =>
        c.1 (valOf (fmtOf (o.nib / 4)) (elem (eFloat o.nib) (s.opnd w i o.a) j))
          (valOf (fmtOf (o.nib / 4))
            (elem (eFloat o.nib) (widen o.ext (s.sReg o.s % 2 ^ (4 * eFloat o.nib)) (eFloat o.nib) o.a.width) j))))))

/-- SHFL, SHFLX and BCAST (R269, R270): what another lane gives, zero where it is not active or has no number below 32.

REDUCE and SCAN (R271): the elements of the active lanes combined one by one in ascending order. -/
def Obligations.LaneMoves : Prop :=
  (
  ∀ (s : State) (w : Nat),
    (∀ o : Shfl, o.d.width = o.a.width → s.lanesOk w o.g [o.a, o.b] [o.d] →
      s.crossResult (exec (.shfl o) s) w o.g o.d (fun _ i => s.given w o.g o.a (s.opnd w i o.b 1)))
    ∧ (∀ o : ShflI, o.d.width = o.a.width → s.lanesOk w o.g [o.a] [o.d] →
      s.crossResult (exec (.shflx o) s) w o.g o.d (fun l _ => s.given w o.g o.a (l ^^^ o.imm))
      ∧ s.crossResult (exec (.bcast o) s) w o.g o.d (fun _ _ => s.given w o.g o.a o.imm)))
  ∧ (
  ∀ (s : State) (w : Nat) (o : Red), redLimits o → s.lanesOk w o.g [o.a] [o.d] →
    (o.excl = false → s.crossElements (exec (.reduce o) s) w o.g o.d (redSlices o) (fun _ j =>
      (s.combined w o j (s.activeLanes w o.g).length).getD 0))
    ∧ s.crossElements (exec (.scan o) s) w o.g o.d (redSlices o) (fun l j =>
      if o.excl then (s.combined w o j ((s.activeLanes w o.g).filter (fun e => decide (e.1 < l))).length).getD (reduceIdentity o (4 * redSlices o))
      else (s.combined w o j (((s.activeLanes w o.g).filter (fun e => decide (e.1 < l))).length + 1)).getD 0))

/-- VOTE (R272) and BALLOT, PFIRST and PCOUNT (R273): one predicate from all active lanes, and one s register for the wave.

SGET (R255): the operand of the named lane whatever its guard, 0 where it holds no thread, with Z and N. -/
def Obligations.GathersAndScalars : Prop :=
  (
  ∀ (s : State) (w : Nat),
    (∀ o : Vote, o.mode < 3 → s.lanesOk w o.g [] [] →
      Answer.gives (exec (.vote o) s) (fun t => s.prdFrame t w o.g o.d ∧ (∀ i, s.threadActive w o.g i →
        (t.progPrd w i o.d = true ↔ o.d = 0
          ∨ (o.mode = 0 ∧ (s.holds w o.g o.a o.an).length = (s.activeLanes w o.g).length)
          ∨ (o.mode = 1 ∧ 0 < (s.holds w o.g o.a o.an).length)
          ∨ (o.mode = 2 ∧ ((s.holds w o.g o.a o.an).length = (s.activeLanes w o.g).length
            ∨ (s.holds w o.g o.a o.an).length = 0))))
        ∧ (s.activeLanes w o.g = [] → (t.wave w).cc = (s.wave w).cc)
        ∧ (s.activeLanes w o.g ≠ [] →
          ((t.wave w).cc.mz = true ↔ o.d ≠ 0 ∧ ∀ e ∈ s.occupied w, t.progPrd w e.2 o.d = false))))
    ∧ (∀ o : Pgat, s.cur = .wave w → (s.wave w).spec = none →
      Answer.gives (exec (.ballot o) s) (fun t => s.scalarFrame t (some o.d) 1 ∧ t.cc = s.cc
        ∧ t.sReg o.d = ((s.holds w o.g o.a o.an).map (fun e => 2 ^ e.1)).sum % 2 ^ 64)
      ∧ Answer.gives (exec (.pfirst o) s) (fun t => s.scalarFrame t (some o.d) 1 ∧ t.cc = s.cc
        ∧ t.sReg o.d = ((s.holds w o.g o.a o.an).map (fun e => e.1)).headD 32 % 2 ^ 64)
      ∧ Answer.gives (exec (.pcount o) s) (fun t => s.scalarFrame t (some o.d) 1 ∧ t.cc = s.cc
        ∧ t.sReg o.d = (s.holds w o.g o.a o.an).length % 2 ^ 64)))
  ∧ (
  ∀ (s : State) (w : Nat) (o : Sget), s.cur = .wave w → (s.wave w).spec = none → o.a.start + o.a.width ≤ 1024 →
    (∀ t, (o.lane, t) ∈ s.occupied w → o.a.start + o.a.width ≤ 64 * s.quota (groupOf w) (t / 32)
      ∧ (s.thread (groupOf w) t).poisonedSlice [o.a] = none) →
    Answer.gives (exec (.sget o) s) (fun t => s.scalarFrame t (some o.d) 1
      ∧ t.sReg o.d = ((s.occupied w).lookup o.lane).elim 0 (fun x => s.opnd w x o.a) % 2 ^ 64
      ∧ t.cc = flagsOf s.cc (t.sReg o.d) false false))

/-- JMP, JMZ and JMNZ (R276): a jump that is taken goes to the jump's word plus 1 plus the displacement, one that is not taken
to the next word. -/
def Obligations.Jumps : Prop :=
  ∀ s : State, s.cur ≠ .idle →
    (∀ (o : Jmp) (x : Nat), s.leadsTo o.disp x →
      Answer.gives (exec (.jmp o) s) (fun t => s.jumpFrame t o.mark x ∧ ∀ n, t.lcReg n = s.lcReg n))
    ∧ (∀ (o : JmpS) (b : Bool), (flagList s.cc)[o.sel]? = some b →
      (∀ x, s.leadsTo o.disp x →
        Answer.gives (exec (.jmz o) s) (fun t =>
          s.jumpFrame t o.mark (if b then s.place.2 + 1 else x) ∧ ∀ n, t.lcReg n = s.lcReg n)
        ∧ Answer.gives (exec (.jmnz o) s) (fun t =>
          s.jumpFrame t o.mark (if b then x else s.place.2 + 1) ∧ ∀ n, t.lcReg n = s.lcReg n))
      ∧ (b = true → Answer.gives (exec (.jmz o) s) (fun t => s.jumpFrame t o.mark (s.place.2 + 1)))
      ∧ (b = false → Answer.gives (exec (.jmnz o) s) (fun t => s.jumpFrame t o.mark (s.place.2 + 1))))

/-- LCSET, LOOP and NOP (R277, R278). -/
def Obligations.LoopForms : Prop :=
  ∀ s : State, s.cur ≠ .idle →
    (∀ o : Lcset, Answer.gives (exec (.lcset o) s) (fun t => s.jumpFrame t o.mark (s.place.2 + 1)
      ∧ ∀ n, t.lcReg n = if n = o.n then (if o.imm then o.v else s.sReg o.v) % 2 ^ 32 else s.lcReg n))
    ∧ (∀ (o : Loop) (x : Nat), s.leadsTo o.disp x →
      Answer.gives (exec (.loop o) s) (fun t => s.jumpFrame t o.mark (if 1 < s.lcReg o.n then x else s.place.2 + 1)
        ∧ ∀ n, t.lcReg n = if n = o.n then (s.lcReg n - 1) % 2 ^ 32 else s.lcReg n))
    ∧ (∀ o : Nul, Answer.gives (exec (.nop o) s) (fun t => s.jumpFrame t o.mark (s.place.2 + 1) ∧ ∀ n, t.lcReg n = s.lcReg n))

/-- NEXT, NEXTU and EXIT at a segment end (R165, R167, R172, R274): each thread goes to its own successor, to the one that the
s register names, or ends.

NEXTU to a segment at which no thread of the wave is held, while no bucket of the group has reached AGE_MAX, continues the
same wave at word 0 with CC and LC zero (R170, R189).

MEET (R171, R275): a declaration takes the place of the current meeting segment, and 4095 ends the innermost one; threads
held at a segment may be released by it (R173). -/
def Obligations.SegmentEnds : Prop :=
  (
  ∀ (s : State) (w : Nat), s.mayEnd w →
    (∀ o : Next, s.lanesOk w { pred := 0, neg := false } [o.a] [] →
      (∀ e ∈ s.occupied w, (s.waveMod w).succOk (s.opnd w e.2 o.a) = true) →
      Answer.gives (exec (.next o) s) (fun t => s.sorted t w (fun x => s.opnd w x o.a)))
    ∧ (∀ o : S1, s.sReg o.a = 4095 ∨ (∃ e ∈ s.occupied w, (s.thread (groupOf w) e.2).meetCur = s.sReg o.a)
        ∨ s.agedNow (groupOf w) ≠ [] →
      (s.waveMod w).succOk (s.sReg o.a) = true → Answer.gives (exec (.nextu o) s) (fun t => s.sorted t w (fun _ => s.sReg o.a)))
    ∧ (∀ o : Nul, Answer.gives (exec (.exit o) s) (fun t => s.sorted t w (fun _ => 4095))))
  ∧ (
  ∀ (s : State) (w : Nat) (o : S1), s.mayGoOn w → s.sReg o.a ≠ 4095 → (s.waveMod w).succOk (s.sReg o.a) = true →
    s.agedNow (groupOf w) = [] → (∀ e ∈ s.occupied w, (s.thread (groupOf w) e.2).meetCur ≠ s.sReg o.a) →
    Answer.gives (exec (.nextu o) s) (fun t =>
      s.sameMachine t ∧ s.sameOthers t w ∧ s.sameGroupRegs t (groupOf w)
      ∧ t.wave w = { s.wave w with seg := s.sReg o.a, word := 0, cc := Cc.zero, lc := [], wdBase := 0
                                   wdSince := s.coreCycles (s.waveCore w), retry := none, held := none, park := .run }
      ∧ ∀ x, t.thread (groupOf w) x = { s.thread (groupOf w) x with meetSeg := (t.thread (groupOf w) x).meetSeg }
        ∧ ((∃ l, (l, x) ∈ s.occupied w) → (t.thread (groupOf w) x).meetSeg = s.sReg o.a)))
  ∧ (
  ∀ (s : State) (w : Nat) (o : Meet), s.cur = .wave w → (s.wave w).level = .thread → (s.wave w).spec = none →
    (o.m = 4095 ∨ (o.m < (s.waveMod w).segs.length ∧ ((s.waveMod w).segOf o.m).meetSeg = true
      ∧ ∀ e ∈ s.occupied w, (s.thread (groupOf w) e.2).meetOuter = 4095)) →
    Answer.gives (exec (.meet o) s) (fun t =>
      s.registerFrame t w 1 ∧ (t.wave w).cc = (s.wave w).cc ∧ (t.wave w).pend = (s.wave w).pend
      ∧ t.group (groupOf w) = { s.group (groupOf w) with threads := (t.group (groupOf w)).threads, batches := (t.group (groupOf w)).batches }
      ∧ ∀ x, (t.thread (groupOf w) x).slices = (s.thread (groupOf w) x).slices
        ∧ (t.thread (groupOf w) x).preds = (s.thread (groupOf w) x).preds
        ∧ (s.oneLane w x → (∀ m, (s.thread (groupOf w) x).place ≠ .held m) →
          (t.thread (groupOf w) x).meetCur = (if o.m = 4095 then (s.thread (groupOf w) x).meetOuter else o.m)
          ∧ (t.thread (groupOf w) x).meetOuter = (if o.m = 4095 then 4095 else (s.thread (groupOf w) x).meetCur))))

/-- NEXTU and EXIT of a matrix sequencer (R300, R301): NEXTU enters a SEQ segment at word 0 once every earlier operation has
completed, EXIT ends the program with no reservation left and the cisterns empty.

A word that a matrix sequencer cannot execute makes a sequencer fault (R234, R300, R322), here for BREAK and ECALL: SEQ_FAULT
names it, the program ends, and the launch ends with SEQ_ERROR. -/
def Obligations.SequencerEnds : Prop :=
  (
  ∀ (s : State) (k : Nat), s.cur = .seq k → (s.seqOf k).drained = true → (s.seqOf k).idem = false →
    (∀ (o : S1) (l : Nat), (s.seqOf k).launch = some l → (s.seqOf k).deadline = false → s.sReg o.a ≠ 4095 →
      s.sReg o.a < (s.launch l).mod_.segs.length → ((s.launch l).mod_.segOf (s.sReg o.a)).seq = true →
      Answer.gives (exec (.nextu o) s) (fun t =>
        t = { s with clusters := t.clusters, free := t.free } ∧ (∀ j, j ≠ k → t.cluster j = s.cluster j)
        ∧ t.cluster k = { s.cluster k with seq := { s.seqOf k with
            seg := s.sReg o.a, word := 0, cc := Cc.zero, lc := [], preamble := false, park := .run } }))
    ∧ (∀ o : Nul, Answer.gives (exec (.exit o) s) (fun t =>
        t = { s with clusters := t.clusters, free := t.free } ∧ (∀ j, j ≠ k → t.cluster j = s.cluster j)
        ∧ (t.seqOf k).run = false ∧ (t.seqOf k).resv = [] ∧ (t.cluster k).cisterns = []
        ∧ (t.seqOf k).s = (s.seqOf k).s ∧ (t.seqOf k).k = (s.seqOf k).k)))
  ∧ (
  ∀ (s : State) (k l : Nat) (o : Code), s.cur = .seq k → (s.seqOf k).launch = some l → ∀ i ∈ [Instr.brk o, .ecall o],
    Answer.gives (exec i s) (fun t => (t.seqOf k).fault = true ∧ (t.seqOf k).run = false
      ∧ (t.seqOf k).seqFault = 2 ^ 63 + (s.seqOf k).seg % 4096 * 2 ^ 32 + (s.seqOf k).word % 65536
      ∧ (t.seqOf k).mmas = (s.seqOf k).mmas ∧ (t.seqOf k).mldbs = (s.seqOf k).mldbs
      ∧ (t.launch l).endStatus = mergeEnd (s.launch l).endStatus 10 0 ∧ (t.launch l).ending = true
      ∧ ∀ c ∈ s.crewsOf l, (t.crew c).killed = true))

/-- LD and FILL (R202, R280, R282, R285): in every active lane the operand takes, little-endian, the bytes that the lane's places
show, and where a line has to be filled, which may push a leased copy out, those at their homes; memory stays as it is. A load that
issues whole, with no part sent before, is meant (log entry 27).

LDT (R59 to R61, R283): in every active lane the operand takes n bytes of a row of the tile that its coordinates name. -/
def Obligations.Loads : Prop :=
  (
  ∀ (s s1 : State) (w : Nat) (as : List LaneAcc), (s.wave w).sentLoad = none → s1.noneInFlight w →
    s1.soundFor (s1.waveCore w) (placesOf as) →
    (∀ o : Mem, o.attr < 2 → o.scope < 6 → s.lanesOk w o.g [o.a] [o.d] →
      s.reaches w o.g { ci := o.cap, spaces := loadSpaces, mask := permLD, acc := .load, n := opBytes o.d.width, align := 1 }
        (fun i => s.opnd w i o.a * 2 ^ o.sh) s1 as →
      Answer.gives (exec (.ld o) s) (fun t => s1.loadFrame t w (as.map (fun a => a.thread)) o.d
        ∧ ∀ x ∈ as, s1.loaded t w as x.thread o.d))
    ∧ (∀ o : Spill, s.lanesOk w o.g [] [{ start := o.a, width := o.c }] →
      s.reaches w o.g { ci := o.cap, spaces := loadSpaces, mask := permLD, acc := .load, n := opBytes o.c, align := 1 }
        (fun i => s.sReg o.s + i * (16 * ((o.c + 31) / 32))) s1 as →
      Answer.gives (exec (.fill o) s) (fun t => s1.loadFrame t w (as.map (fun a => a.thread)) { start := o.a, width := o.c }
        ∧ ∀ x ∈ as, s1.loaded t w as x.thread { start := o.a, width := o.c })))
  ∧ (
  ∀ (s s1 : State) (w slot : Nat) (d : Tensor) (as : List TileAcc) (o : Cas), o.attr < 2 → o.scope < 6 → o.a.width = 16 →
    (s.wave w).spec = none → s.lanesOk w o.g [o.a] [o.d] → s.activeLanes w o.g ≠ [] →
    (s.kReg o.cap).grants [5] permLD → s.tensorSlot (s.waveCluster w) (s.waveLaunch w) (s.kReg o.cap).tid = some (slot, d) →
    s.tileLocate (s.waveEnv w) (s.kReg o.cap) o.cap (opBytes o.d.width) d
      ((s.activeLanes w o.g).map (fun e => (e.1, e.2, s.opnd w e.2 o.a))) = (s1, [], as) →
    s1.noneInFlight w →
    (∀ a ∈ as, ∀ x, x < opBytes o.d.width → (8 * bits a.v 51 48 + (bits a.v 57 52 + x) / 8)
      ∉ (s1.tileSeen (s.waveCluster w) slot d a).2) →
    (∀ a ∈ as, tilePoison s1.store a.rows = []) →
    Answer.gives (exec (.ldt o) s) (fun t => s1.loadFrame t w (as.map (fun a => a.thread)) o.d
      ∧ ∀ x ∈ as, ∃ a ∈ as, a.thread = x.thread
        ∧ t.progOpnd w x.thread o.d = natOfBytes (((s1.tileSeen (s.waveCluster w) slot d a).1.drop
            (64 * bits a.v 51 48 + bits a.v 57 52)).take (opBytes o.d.width)) % 2 ^ (4 * o.d.width)))

/-- ST and SPILL (R91, R202, R280, R282, R285): the bytes of every active lane set out for the places that the lane's offset
reaches, in ascending lane order, each piece inside one aligned 8-byte word; no byte of memory and no register changes at issue. -/
def Obligations.Stores : Prop :=
  ∀ (s s1 : State) (w : Nat) (as : List LaneAcc),
    (∀ o : Mem, (o.attr = 0 ∨ o.attr = 2) → o.scope < 6 → s.lanesOk w o.g [o.a, o.d] [] →
      s.reaches w o.g { ci := o.cap, spaces := storeSpaces, mask := permST, acc := .store, n := opBytes o.d.width, align := 1 }
        (fun i => s.opnd w i o.a * 2 ^ o.sh) s1 as → s1.mayStore w o.attr o.scope →
      Answer.gives (exec (.st o) s) (fun t => s1.sendFrame t w
        ∧ s1.sent t w (as.flatMap (fun a => storeCells a.keys (s.opnd w a.thread o.d 2) o.d.width)) none))
    ∧ (∀ o : Spill, s.lanesOk w o.g [{ start := o.a, width := o.c }] [] →
      s.reaches w o.g { ci := o.cap, spaces := storeSpaces, mask := permST, acc := .store, n := opBytes o.c, align := 1 }
        (fun i => s.sReg o.s + i * (16 * ((o.c + 31) / 32))) s1 as → s1.mayStore w 0 0 →
      Answer.gives (exec (.spill o) s) (fun t => s1.sendFrame t w
        ∧ s1.sent t w (as.flatMap (fun a => storeCells a.keys (s.opnd w a.thread { start := o.a, width := o.c }) o.c)) none))

/-- The places of an access (R23, R48, R52, R62): through CORESP, POOLSP and OPSP the bytes at BASE plus the offset in the crew's
scratchpad allocation, the launch's pool run and the operand buffer, without a walk; through the other spaces those that the
translation of BASE plus the offset gives. Where the near memories stand in the unified memory, from 2^48, 2^49 and 2^50 on, is the model's
choice (log entry 6).

A write is performed at its home (R25, R91, R108, R109): WRITE_PERFORM_AT_HOME of the oldest write of a wave to that home
puts the bits that the write names into memory, where no earlier write that it is ordered with is on its way to a home of its own, and leaves every other byte of memory alone, where no barrier object lies. -/
def Obligations.AccessAndWrites : Prop :=
  (
  ∀ (s : State) (e : Env) (c : Capv) (acc : Acc) (off n : Nat),
    (∀ core crew, c.space = 1 → e.core = some core → e.crew = some crew →
      s.capKeys e c acc off n = .ok (s, (List.range n).map (fun i => (2 ^ 48 + core * 2 ^ 18 + ((s.crew crew).spStart + c.base + off) + i, 0))))
    ∧ (c.space = 2 → s.capKeys e c acc off n
      = .ok (s, (List.range n).map (fun i => (2 ^ 49 + e.cluster * 2 ^ 22
        + (tabGet (s.launch e.launch).poolBase 0 e.cluster * 131072 + c.base + off) + i, 0))))
    ∧ (c.space = 3 → s.capKeys e c acc off n
      = .ok (s, (List.range n).map (fun i => (2 ^ 50 + e.cluster * 2 ^ 20 + (c.base + off) + i, 0))))
    ∧ (∀ s1 pa cls, c.space ∉ [1, 2, 3] → 0 < n → (c.base + off) % 65536 + n ≤ 65536 → c.base + off < 2 ^ 48 →
      s.translate e (c.base + off) acc = .ok (s1, pa, cls) →
      s.capKeys e c acc off n = .ok (s1, (List.range n).map (fun i => (pa + i, cls)))))
  ∧ (
  ∀ (s : State) (w i : Nat) (p : PWrite), w < 2 ^ 64 → (s.wave w).out[i]? = some p → heldBack (s.wave w).out i p = false →
    (s.wave w).accts = [] → (∀ c ∈ p.cells, isPeer c.1 = false) →
    Answer.gives (exec (.writePerformAtHome w i) s) (fun t =>
      (∀ a, s.store.armed.contains (a / 16) = false → t.store.byte a = (s.store.putCells p.cells).byte a)
      ∧ (∀ a, (∀ c ∈ p.cells, c.1 / 16 ≠ a / 16) → t.store.byte a = s.store.byte a)
      ∧ (t.wave w).out = listDel (s.wave w).out i ∧ t.groups = s.groups ∧ t.launches = s.launches ∧ t.dev = s.dev
      ∧ (t.wave w).cc = (s.wave w).cc ∧ (t.wave w).word = (s.wave w).word
      ∧ (∀ x, x ≠ w → t.wave x = { s.wave x with park := (t.wave x).park, spec := (t.wave x).spec })))

/-- ATOM, RED and CAS (R95, R102, R287, R288): the lanes are performed one after another in ascending order at the homes; ATOM and
CAS give each lane the old value. -/
def Obligations.Atomics : Prop :=
  ∀ (s s1 : State) (w : Nat) (as : List LaneAcc), s1.noneInFlight w → s1.plainPlaces as → (s.wave w).spec = none →
    (∀ o : Atm, ∀ f, atomTable[o.op]? = some f → o.scope < 6 → (o.d.width = 8 ∨ (o.d.width = 16 ∧ o.op < 9)) →
      s1.mayStore w o.attr o.scope →
      s.reaches w o.g { ci := o.cap, spaces := rmwSpaces, mask := permAT, acc := .store, n := o.d.width / 2, align := o.d.width / 2, host := false }
        (fun i => s.opnd w i o.a) s1 as →
      (o.attr < 4 → s.lanesOk w o.g [o.a, o.d] [o.d] →
        Answer.gives (exec (.atom o) s) (fun t => s1.rmwFrame t w ∧ s1.operandFrame t w (as.map (fun a => a.thread)) o.d
          ∧ (∀ a, t.store.byte a
            = (rmwRun s1.store (fun i m => some (f (4 * o.d.width) m (s.opnd w i o.d 2))) as).1.byte a)
          ∧ ∀ x ∈ as, ∃ v, (x.thread, v) ∈ (rmwRun s1.store (fun i m => some (f (4 * o.d.width) m (s.opnd w i o.d 2))) as).2
            ∧ t.progOpnd w x.thread o.d = v % 2 ^ (4 * o.d.width)))
      ∧ ((o.attr = 0 ∨ o.attr = 2) → s.lanesOk w o.g [o.a, o.d] [] →
        Answer.gives (exec (.red o) s) (fun t => s1.rmwFrame t w ∧ (t.wave w).pend = (s1.wave w).pend ∧ t.groups = s1.groups
          ∧ ∀ a, t.store.byte a
            = (rmwRun s1.store (fun i m => some (f (4 * o.d.width) m (s.opnd w i o.d 2))) as).1.byte a)))
    ∧ (∀ o : Cas, o.attr < 4 → o.scope < 6 → (o.d.width = 8 ∨ o.d.width = 16) → s1.mayStore w o.attr o.scope →
      s.lanesOk w o.g [o.a, o.d, { start := o.d.start + o.d.width, width := o.d.width }] [o.d] →
      s.reaches w o.g { ci := o.cap, spaces := rmwSpaces, mask := permAT, acc := .store, n := o.d.width / 2, align := o.d.width / 2, host := false }
        (fun i => s.opnd w i o.a) s1 as →
      Answer.gives (exec (.cas o) s) (fun t => s1.rmwFrame t w ∧ s1.operandFrame t w (as.map (fun a => a.thread)) o.d
        ∧ (∀ a, t.store.byte a = (rmwRun s1.store (fun i m => if m = s.opnd w i o.d 2 then
            some (s.opnd w i { start := o.d.start + o.d.width, width := o.d.width } 3) else none) as).1.byte a)
        ∧ ∀ x ∈ as, ∃ v, (x.thread, v) ∈ (rmwRun s1.store (fun i m => if m = s.opnd w i o.d 2 then
              some (s.opnd w i { start := o.d.start + o.d.width, width := o.d.width } 3) else none) as).2
          ∧ t.progOpnd w x.thread o.d = v % 2 ^ (4 * o.d.width)))

/-- The forms of class 8 (R29, R30, R291): derivation, restriction, sealing and opening write a capability of the fields that the
spec gives; CMOV, CGET, CGETN and CTEST look at a register whatever its tag.

LDC and STC (R25, R26, R286): a capability moves with its tag; LDC keeps the tag only under LC, and the sixteen bytes of STC
set out with the tag of the register. -/
def Obligations.Capabilities : Prop :=
  (
  ∀ (s : State) (w : Nat), s.cur = .wave w →
    ((s.wave w).spec = none →
      (∀ o : Cder, o.d < 32 → o.a < 32 → o.b < 254 → (s.kReg o.a).tag = true → (s.kReg o.a).isSealed = false →
        (s.kReg o.a).perm &&& permDV = permDV → s.sReg (o.b + 2) % 4096 &&& (s.kReg o.a).perm = s.sReg (o.b + 2) % 4096 →
        (s.kReg o.a).base + s.sReg o.b + s.sReg (o.b + 1) ≤ (s.kReg o.a).top →
        Answer.gives (exec (.cder o) s) (fun t => s.capFrame t w o.mark o.d
          ∧ (t.kReg o.d).fields = (true, (s.kReg o.a).base + s.sReg o.b, (s.kReg o.a).base + s.sReg o.b + s.sReg (o.b + 1),
              (s.kReg o.a).tid, s.sReg (o.b + 2) % 4096, (s.kReg o.a).space, false)))
      ∧ (∀ o : Cres, o.d < 32 → o.a < 32 → (s.kReg o.a).tag = true → (s.kReg o.a).isSealed = false →
        Answer.gives (exec (.cres o) s) (fun t => s.capFrame t w o.mark o.d
          ∧ (t.kReg o.d).fields = (true, (s.kReg o.a).base, (s.kReg o.a).top, (s.kReg o.a).tid,
              (s.kReg o.a).perm &&& (o.perms % 4096), (s.kReg o.a).space, false)))
      ∧ (∀ o : Cseal, o.d < 32 → o.a < 32 → o.k < 32 → (s.kReg o.a).tag = true → (s.kReg o.k).tag = true →
        (s.kReg o.k).isSealed = false → (s.kReg o.k).perm &&& permSU = permSU → (s.kReg o.k).base = (s.kReg o.k).top →
        (s.kReg o.k).tid = (s.kReg o.a).tid →
        ((s.kReg o.a).isSealed = false → Answer.gives (exec (.cseal o) s) (fun t => s.capFrame t w o.mark o.d
          ∧ (t.kReg o.d).fields = (true, (s.kReg o.a).base, (s.kReg o.a).top, (s.kReg o.a).tid, (s.kReg o.a).perm,
              (s.kReg o.a).space, true)))
        ∧ ((s.kReg o.a).isSealed = true → Answer.gives (exec (.cunseal o) s) (fun t => s.capFrame t w o.mark o.d
          ∧ (t.kReg o.d).fields = (true, (s.kReg o.a).base, (s.kReg o.a).top, (s.kReg o.a).tid, (s.kReg o.a).perm,
              (s.kReg o.a).space, false))))
      ∧ (∀ o : Cmov, o.d < 32 → o.a < 32 →
        Answer.gives (exec (.cmov o) s) (fun t => s.capFrame t w o.mark o.d ∧ t.kReg o.d = s.kReg o.a))
      ∧ (∀ (o : Cget) (f : Capv → Nat), capFields[o.f]? = some f → o.a < 32 →
        Answer.gives (exec (.cget o) s) (fun t => s.scalarFrame t (some o.d) 1 ∧ t.cc = s.cc ∧ t.sReg o.d = f (s.kReg o.a))))
    ∧ (∀ (o : CgetN) (f : Capv → Nat), capFields[o.f]? = some f → o.a < 32 → s.lanesOk w { pred := 0, neg := false } [] [o.d] →
      s.laneResult (exec (.cgetn o) s) w { pred := 0, neg := false } o.d (fun _ => f (s.kReg o.a)))
    ∧ (∀ o : Ctest, o.a < 32 →
      Answer.gives (exec (.ctest o) s) (fun t => s.wordFrame t w o.mark ∧ t.groups = s.groups
        ∧ t.cc = { s.cc with
            n := false, c := false, v := false
            z := (s.kReg o.a).tag && !(s.kReg o.a).isSealed && (o.perms % 4096 &&& (s.kReg o.a).perm == o.perms % 4096)
              && decide (s.sReg o.b ≤ (s.kReg o.a).top - (s.kReg o.a).base) && decide ((s.kReg o.a).base ≤ (s.kReg o.a).top) })))
  ∧ (
  ∀ (s s1 : State) (w : Nat) (o : Ldc) (ks : List (Nat × Nat)), s.cur = .wave w → o.scope < 6 → o.d < 32 →
    s.laneCheck (s.waveEnv w) (s.kUse o.cap) (s.sReg o.a) 16 16 = none →
    (o.attr < 2 → (s.wave w).spec = none → (s.kUse o.cap).grants rmwSpaces permLD →
      s.capKeys (s.waveEnv w) (s.kUse o.cap) .load (s.sReg o.a) 16 = .ok (s1, ks) → s1.noneInFlight w →
      s1.soundFor (s1.waveCore w) ks →
      Answer.gives (exec (.ldc o) s) (fun t =>
        t = { s1 with waves := t.waves, groups := t.groups, free := t.free, cores := t.cores, mem := t.mem }
        ∧ (∀ a, t.store.byte a = s1.store.byte a) ∧ (∀ x, x ≠ w → t.wave x = s1.wave x)
        ∧ t.wave w = { s1.wave w with word := (s1.wave w).word + 1, retry := none, held := none, park := (t.wave w).park, lastPark := (t.wave w).lastPark }
        ∧ (∀ g, g ≠ groupOf w → t.group g = s1.group g)
        ∧ t.group (groupOf w) = { s1.group (groupOf w) with k := (t.group (groupOf w)).k, hist := (t.group (groupOf w)).hist }
        ∧ s1.sameShared t (groupOf w) none (some o.d) none
        ∧ t.groupK (groupOf w) o.d
          = { bits := BitVec.ofNat 128 (natOfBytes (ks.map (s1.seen (s1.waveCore w))))
              tag := s1.seenTag (s1.waveCore w) (ks.headD (0, 0)) && (s.kUse o.cap).perm &&& permLC == permLC }))
    ∧ ((o.attr = 0 ∨ o.attr = 2) → (s.kUse o.cap).grants rmwSpaces (permST + permSC) →
      ((s.kUse o.d).tag = true → (s.kUse o.d).perm &&& permPV = permPV ∧ ∀ k ∈ ks, isPlace3 k.1 = false) →
      s.capKeys (s.waveEnv w) (s.kUse o.cap) .store (s.sReg o.a) 16 = .ok (s1, ks) → s1.mayStore w o.attr o.scope →
      Answer.gives (exec (.stc o) s) (fun t => s1.sendFrame t w
        ∧ s1.sent t w (storeCells ks (s.kUse o.d).bits.toNat 32) (some (s.kUse o.d).tag))))

/-- FENCE (R113, R289) on a wave and on a sequencer: AC passes; REL passes and, while the wait of R111 has not ended, holds later
writes; AR passes once that wait has ended.

FENCE.S (R114, R289) makes the wave speculative behind its word unless its target is met; IINV (R290) drops the instruction
lines of its core, or of every core, and parks the wave.

PREF (R284) writes no register and no byte of memory; it asks for lines of its core and walks of its pages alone. -/
def Obligations.FencesAndPrefetch : Prop :=
  (
  ∀ (s : State) (o : Fence), o.scope < 6 →
    (∀ w, s.cur = .wave w → (s.wave w).pend = [] → (s.wave w).spec = none →
      (o.attr = 1 → Answer.gives (exec (.fence o) s) (fun t => s.jumpFrame t true ((s.wave w).word + 1)
        ∧ ∀ n, t.lcReg n = s.lcReg n))
      ∧ (o.attr = 2 → Answer.gives (exec (.fence o) s) (fun t =>
        t = { s with waves := t.waves, free := t.free } ∧ (∀ v, v ≠ w → t.wave v = s.wave v)
        ∧ t.wave w = { s.wave w with
            word := (s.wave w).word + 1, retry := none, held := none, park := .run
            relGate := if s.releaseDone w o.scope then (s.wave w).relGate
              else some (max o.scope ((s.wave w).relGate.getD 0)) }))
      ∧ (o.attr = 3 → s.releaseDone w o.scope = true →
        Answer.gives (exec (.fence o) s) (fun t => s.jumpFrame t true ((s.wave w).word + 1) ∧ ∀ n, t.lcReg n = s.lcReg n)))
    ∧ (∀ k, s.cur = .seq k → (s.seqOf k).drained = true → (s.seqOf k).idem = false →
      (o.attr = 1 ∨ o.attr = 2 ∨ (o.attr = 3 ∧ s.seqReleaseDone k o.scope = true)) →
      Answer.gives (exec (.fence o) s) (fun t =>
        t = { s with clusters := t.clusters, free := t.free } ∧ (∀ j, j ≠ k → t.cluster j = s.cluster j)
        ∧ t.cluster k = { s.cluster k with seq := { s.seqOf k with
            word := (s.seqOf k).word + 1, park := .run
            relGate := if o.attr = 2 ∧ s.seqReleaseDone k o.scope = false then some (max o.scope ((s.seqOf k).relGate.getD 0))
              else (s.seqOf k).relGate } })))
  ∧ (
  ∀ (s : State) (w : Nat), s.cur = .wave w → (s.wave w).spec = none →
    (∀ o : FenceS, o.scope < 6 → (s.wave w).pend = [] →
      Answer.gives (exec (.fenceS o) s) (fun t =>
        t = { s with waves := t.waves, free := t.free } ∧ (∀ v, v ≠ w → t.wave v = s.wave v)
        ∧ t.wave w = { s.wave w with word := (s.wave w).word + 1, retry := none, held := none, park := .run, spec := (t.wave w).spec }
        ∧ (s.releaseDone w o.scope = true → (t.wave w).spec = none)
        ∧ (s.releaseDone w o.scope = false → ∃ p, (t.wave w).spec = some p ∧ p.scope = o.scope ∧ p.ckCc = (s.wave w).cc
          ∧ p.ckLc = (s.wave w).lc ∧ p.seg = (s.wave w).seg ∧ p.word = (s.wave w).word + 1 ∧ p.undo = [] ∧ p.watches = []
          ∧ p.stores = [] ∧ p.rollbacks = 0 ∧ p.conflict = false
          ∧ ∀ e ∈ s.occupied w, tabFind p.ckPreds e.2 = some (s.thread (groupOf w) e.2).preds)))
    ∧ (∀ o : Iinv, s.releaseDone w 0 = true →
      Answer.gives (exec (.iinv o) s) (fun t =>
        t = { s with waves := t.waves, free := t.free, cores := t.cores } ∧ (∀ v, v ≠ w → t.wave v = s.wave v)
        ∧ (t.core (s.waveCore w)).l1i = [] ∧ (t.core (s.waveCore w)).fbufs = []
        ∧ (∀ c, t.core c = { s.core c with l1i := (t.core c).l1i, fbufs := (t.core c).fbufs })
        ∧ (o.reach ≠ 0 → ∀ c, (tabFind s.cores c).isSome = true → (t.core c).l1i = [] ∧ (t.core c).fbufs = [])
        ∧ (o.reach = 0 → ∀ c, c ≠ s.waveCore w → t.core c = s.core c)
        ∧ (t.wave w).word = (s.wave w).word + 1 ∧ (t.wave w).park = .iinv o.reach o.mark)))
  ∧ (
  ∀ (s : State) (w : Nat) (o : Pref), s.lanesOk w o.g [o.a] [] →
    Answer.gives (exec (.pref o) s) (fun t =>
      t = { s with waves := t.waves, free := t.free, cores := t.cores, clusters := t.clusters, mem := t.mem }
      ∧ t.mem = { s.mem with walkTurn := t.mem.walkTurn } ∧ (∀ x, x ≠ w → t.wave x = s.wave x)
      ∧ t.wave w = { s.wave w with word := (s.wave w).word + 1, retry := none, held := none, park := (t.wave w).park, lastPark := (t.wave w).lastPark }
      ∧ (∀ c, t.core c = { s.core c with tlb := (t.core c).tlb, prefs := (t.core c).prefs })
      ∧ (∀ k, t.cluster k = { s.cluster k with misses := (t.cluster k).misses })
      ∧ ((s.wave w).spec ≠ none → t.mem = s.mem ∧ t.cores = s.cores ∧ t.clusters = s.clusters)))

/-- BINIT, BARR and BEXP (R129 to R132, R292 to R294) by a wave or by a matrix sequencer (R299): the sixteen bytes of the object
change as one operation, and no other byte but those of a future; a GRID object whose local condition holds takes none (R140).

BWAIT and BTST (R133, R134, R295): STATUS tells OK, ERROR or, for BTST, PENDING; a BWAIT whose phase has not been reached parks
its agent at the word, and changes nothing but its count of cycles. -/
def Obligations.Barriers : Prop :=
  (
  ∀ (s : State) (a : Nat),
    (∀ o : Bar, initGridOk s.agentMod (s.sReg o.d) = true → s.mayBar o.cap (s.sReg o.a) (initSize (s.sReg o.d)) →
      a = s.objectPlace s.agentEnv (s.kUse o.cap) (s.sReg o.a) →
      (initSize (s.sReg o.d) = 32 → ∀ i, i < 16 → s.store.armed.contains ((a + 16 + i) / 16) = false) →
      Answer.gives (exec (.binit o) s) (fun t => s.barFrame t a (initSize (s.sReg o.d))
        ∧ (s.gridShut a = true → t.store.barrier a = s.store.barrier a)
        ∧ (s.gridShut a = false → t.store.barrier a = barTest (initObj (s.sReg o.d))
          ∧ (initSize (s.sReg o.d) = 32 → ∀ i, i < 16 → t.store.byte (a + 16 + i) = 0))))
    ∧ (∀ o : Bar, s.mayBar o.cap (s.sReg o.a) 16 → a = s.objectPlace s.agentEnv (s.kUse o.cap) (s.sReg o.a) →
      Answer.gives (exec (.bexp o) s) (fun t => s.barFrame t a 16
        ∧ t.store.barrier a = barAddBytes (s.store.barrier a) (sInt 64 (s.sReg o.d))))
    ∧ (∀ o : Barr, s.mayBar o.cap (s.sReg o.a) 16 → a = s.objectPlace s.agentEnv (s.kUse o.cap) (s.sReg o.a) →
      (∀ w, s.cur = .wave w → s.activeLanes w o.g ≠ [] →
        s.releaseDone w (barScope (s.kUse o.cap).space (s.store.barrier a)) = true →
        Answer.gives (exec (.barr o) s) (fun t => s.barFrame t a 16
          ∧ t.store.barrier a = arrivals (s.store.barrier a) (s.activeLanes w o.g).length))
      ∧ (∀ k, s.cur = .seq k → s.seqReleaseDone k (barScope (s.kUse o.cap).space (s.store.barrier a)) = true →
        Answer.gives (exec (.barr o) s) (fun t => s.barFrame t a 16
          ∧ t.store.barrier a = arrivals (s.store.barrier a) 1))))
  ∧ (
  ∀ (s : State) (a : Nat) (o : Bar), s.mayBar o.cap (s.sReg o.a) 16 →
    a = s.objectPlace s.agentEnv (s.kUse o.cap) (s.sReg o.a) → (∀ k, s.cur = .seq k → (s.seqOf k).deadline = false) →
    let reached := ((s.store.barrier a).phase + 65536 - s.sReg o.d % 65536) % 65536 < 32768
    let st := if bit (s.store.barrier a).flags 13 then 1 else 0
    (reached → Answer.gives (exec (.bwait o) s) (fun t => s.statusFrame t o.mark st))
    ∧ (¬reached → Answer.gives (exec (.bwait o) s) (fun t =>
      (∀ w, s.cur = .wave w → t = { s with waves := t.waves } ∧ (∀ x, x ≠ w → t.wave x = s.wave x)
        ∧ t.wave w = { s.wave w with
            park := .bwait a (s.sReg o.d % 65536) (s.cycles (s.waveCluster w)) o.mark
            lastPark := (t.wave w).lastPark, wdBase := s.wdCount w })
      ∧ (∀ k, s.cur = .seq k → t = { s with clusters := t.clusters } ∧ (∀ j, j ≠ k → t.cluster j = s.cluster j)
        ∧ t.cluster k = { s.cluster k with seq := { s.seqOf k with
            park := .bwait a (s.sReg o.d % 65536) s.dt false, preamble := false } })))
    ∧ Answer.gives (exec (.btst o) s) (fun t => s.statusFrame t o.mark (if reached then st else 8)))

/-- The sluice (R144, R145) and the grid barriers (R139 to R143): a release step, a crew's arrival on its way, its count at the
instance, and a release at a crew's object, which the journal's entry for a completed phase precedes (R370). -/
def Obligations.SluiceAndGrid : Prop :=
  ∀ s : State,
    (∀ k, (s.cluster k).relQ ≠ [] →
      (∀ x, (s.cluster k).sluiceAt = some x → x + (((s.cluster k).cslrStep + 1) * (s.cluster k).cslrEstimate * 14
        + (10 * (s.cluster k).cslrLimit - 1)) / (10 * (s.cluster k).cslrLimit) ≤ s.cycles k) →
      Answer.gives (exec (.sluiceReleaseStep k) s) (fun t =>
        t = { s with waves := t.waves, clusters := t.clusters, free := t.free } ∧ (∀ j, j ≠ k → t.cluster j = s.cluster j)
        ∧ t.cluster k = { s.cluster k with
            relQ := (s.cluster k).relQ.drop ((s.cluster k).cslrStep + 1), sluiceAt := some (s.cycles k) }
        ∧ (∀ w, w ∉ (s.cluster k).relQ.take ((s.cluster k).cslrStep + 1) → t.wave w = s.wave w)
        ∧ ∀ w ∈ (s.cluster k).relQ.take ((s.cluster k).cslrStep + 1), ∀ a q st x m, (s.wave w).park = .queued a q st x m →
          t.wave w = { s.wave w with
            word := (s.wave w).word + 1, retry := none, held := none, wdSince := s.coreCycles (s.waveCore w)
            readyAt := s.coreCycles (s.waveCore w), lastPark := (t.wave w).lastPark
            cc := { (s.wave w).cc with status := st }
            know := if st = 2 then (s.wave w).know else joinKnow (s.wave w).know (s.group (groupOf w)).hist.released
            park := if m = true ∧ (s.wave w).pend ≠ [] then .marker else .run }))
    ∧ (∀ crew gid d n, s.gridDecl crew gid = some d → tabFind (s.crew crew).gridHeld gid = some n →
      (s.crew crew).ended = false → (s.crew crew).killed = false → (s.crew crew).gridSent.contains gid = false →
      gridClosed (s.store.barrier (s.gridPlace crew d)) = true →
      (bit (s.store.barrier (s.gridPlace crew d)).flags 12 = true → s.chainsSettled crew n = true) →
      Answer.gives (exec (.gridCrewArrivalSend crew gid) s) (fun t =>
        t = { s with crews := t.crews, sched := { s.sched with gridPort := s.sched.gridPort ++ [(crew, gid)] } }
        ∧ (∀ c, c ≠ crew → t.crew c = s.crew c)
        ∧ t.crew crew = { s.crew crew with gridSent := memberAdd (s.crew crew).gridSent gid }))
    ∧ (∀ crew gid rest d, s.sched.gridPort = (crew, gid) :: rest → s.sched.failed = false → s.sched.replay = false →
      s.gridDecl crew gid = some d →
      let l := (s.crew crew).launch
      let key := gridKey d (s.crew crew)
      let g := s.gridInst l key
      Answer.gives (exec .gridPortArrival s) (fun t =>
        t = { s with sched := { s.sched with gridPort := rest, gridRel := t.sched.gridRel, gridJrn := t.sched.gridJrn }, launches := t.launches }
        ∧ (∀ x, x ≠ l → t.launch x = s.launch x)
        ∧ t.launch l = { s.launch l with grids := (t.launch l).grids }
        ∧ (∀ x, x ≠ key → tabFind (t.launch l).grids x = tabFind (s.launch l).grids x)
        ∧ (1 < g.pending → t.sched = { s.sched with gridPort := rest }
          ∧ tabFind (t.launch l).grids key = some { g with pending := g.pending - 1, arrived := memberAdd g.arrived crew })
        ∧ (g.pending = 1 → g.crews ≠ [] →
          tabFind (t.launch l).grids key = some { g with pending := g.crews.length, phase := (g.phase + 1) % 65536, arrived := [] }
          ∧ t.sched.gridJrn = true
          ∧ ∃ cs : List Nat, cs.Perm g.crews ∧ cs.Pairwise (fun x y => (s.crew x).core ≤ (s.crew y).core)
            ∧ t.sched.gridRel = s.sched.gridRel ++ cs.map (fun c => (c, key / 128)))))
    ∧ (∀ crew gid rest d, s.sched.gridRel = (crew, gid) :: rest → s.gridDecl crew gid = some d →
      (s.crew crew).ended = false → (s.crew crew).killed = false → s.jrnRoom 1 = true →
      let a := s.gridPlace crew d
      Answer.gives (exec .gridReleaseDelivery s) (fun t =>
        t = { s with sched := t.sched, crews := t.crews, waves := t.waves, clusters := t.clusters, mem := { s.mem with store := t.store } }
        ∧ (s.sched.gridJrn = false → t.sched = { s.sched with gridRel := rest })
        ∧ (s.sched.gridJrn = true → t.sched = { s.sched with
              gridRel := rest, gridJrn := false, jtail := (s.sched.jtail + 1) % 4096, ckpt := t.sched.ckpt }
            ∧ t.store.readNat (jrnEntry s.sched.jtail) 2 = 8 ∧ t.store.readNat (jrnEntry s.sched.jtail + 2) 2 = 0)
        ∧ t.store.barrier a = { s.store.barrier a with
            phase := ((s.store.barrier a).phase + 1) % 65536, pendArr := (s.store.barrier a).expArr
            pendBytes := (s.store.barrier a).expBytes }
        ∧ (∀ b, b < a ∨ a + 16 ≤ b → (s.sched.gridJrn = true → b < jrnEntry s.sched.jtail ∨ jrnEntry s.sched.jtail + 4 ≤ b) →
          t.store.byte b = s.store.byte b)
        ∧ (t.crew crew).gridSent = memberDel (s.crew crew).gridSent gid
        ∧ (∀ c, t.crew c = { s.crew c with gridSent := (t.crew c).gridSent, gridHeld := (t.crew c).gridHeld })
        ∧ ∀ x, t.wave x = { s.wave x with park := (t.wave x).park }))

/-- ADRN (R193, R318): with no MMA in flight, every element of the view takes the accumulator element of its row and column,
rounded to the view's format, in every active thread. -/
def Obligations.AccumulatorReads : Prop :=
  ∀ (s : State) (w : Nat) (o : Adrn) (F : Fmt) (v : Nat), v = (s.waveVw w o.vw).toNat →
    [Fmt.f32, .f16, .bf16, .e4m3, .e5m2][o.f]? = some F → bits v 47 46 = 2 → bits v 45 42 + 1 = fmtSlices F → o.a.width ≤ 16 →
    s.sReg o.s + bits v 35 30 + 1 ≤ 256 → (s.wave w).spec = none → (s.seqOf (s.waveCluster w)).mmas = [] →
    s.lanesOk w o.g [o.a] ((viewIndex (bits v 41 36) (bits v 35 30)).map (fun e => viewSlc v e.1 e.2)) →
    (∀ e ∈ s.activeLanes w o.g, s.opnd w e.2 o.a + bits v 41 36 + 1 ≤ 512
      ∧ ∀ i j, i ≤ bits v 41 36 → j ≤ bits v 35 30 →
        s.store.poisoned (accElem (s.waveCluster w) (s.opnd w e.2 o.a + i) (s.sReg o.s + j)) 4 = false) →
    Answer.gives (exec (.adrn o) s) (fun t =>
      s.registerFrame t w 1 ∧ (t.wave w).cc = (s.wave w).cc ∧ s.sameGroupRegs t (groupOf w) ∧ t.clusters = s.clusters
      ∧ (∀ x p, t.progPrd w x p = s.progPrd w x p) ∧ (∀ x, (s.thread (groupOf w) x).sameRest (t.thread (groupOf w) x))
      ∧ (∀ x n, ¬(s.threadActive w o.g x ∧ ∃ i j, i ≤ bits v 41 36 ∧ j ≤ bits v 35 30 ∧ (viewSlc v i j).start ≤ n
          ∧ n < (viewSlc v i j).start + (viewSlc v i j).width) → t.progNib w x n = s.progNib w x n)
      ∧ ∀ x, s.threadActive w o.g x → ∀ i j, i ≤ bits v 41 36 → j ≤ bits v 35 30 →
        (∀ i' j', i' ≤ bits v 41 36 → j' ≤ bits v 35 30 → (i', j') ≠ (i, j) → slcMeet (viewSlc v i j) (viewSlc v i' j') = false) →
        t.progOpnd w x (viewSlc v i j)
          = (if o.f = 0 then id else fun y => roundVal F .rne o.sat (valOf .f32 y))
              (s.store.readNat (accElem (s.waveCluster w) (s.opnd w x o.a + i) (s.sReg o.s + j)) 4) % 16 ^ fmtSlices F)

/-- FLK, FLQ and FLC (R147, R155, R156, R296): a head is queued, spilled or turned away with its STATUS, FLS is read, and a
crew's chains of a channel are left to be walked.

The steps of a flume channel (R103, R147, R150, R153, R156): a head is forwarded, an idle channel starts a chain, a credit
is paid, a record is walked or cancelled, and a chain whose next record is not owned ends. A credit to a barrier object that has
lost its data ends the launch with FLUME_LOST (R154, R378).

A contiguous record (R151): with one row in each dimension and both sides wholly inside their capabilities, every byte of
the destination takes the byte of the source that stood there before the move, and the record's STATUS is DONE. -/
def Obligations.Flumes : Prop :=
  (
  ∀ (s : State) (w : Nat), s.cur = .wave w → (s.wave w).spec = none →
    let crew := crewOf w
    let core := (s.crew crew).core
    let l := (s.crew crew).launch
    (∀ o : Flk, (s.wave w).relGate = none → (s.kUse o.cap).grants [0, 1, 2] (permXF + permLD + permLC) →
      s.sReg o.a + 64 ≤ (s.kUse o.cap).top - (s.kUse o.cap).base →
      (∀ lim, s.spaceLimit (s.waveEnv w) (s.kUse o.cap).space = some lim → (s.kUse o.cap).base + s.sReg o.a + 64 ≤ lim) →
      ((s.kUse o.cap).base + s.sReg o.a) % 64 = 0 →
      let x := s.channel core (o.ch % 4)
      let h : Head := { crew := crew, cap := s.kUse o.cap, off := s.sReg o.a, kick := (s.crew crew).kicks, fork := s.forkOf w
                        forwarded := false }
      let onChip := x.heads.length < 16 ∧ s.crewSpilled crew = false ∧ s.channelSpilled core (o.ch % 4) = false
      Answer.gives (exec (.flk o) s) (fun t =>
        s.unitFrame t w o.mark ∧ t.launches = s.launches ∧ t.cc = { s.cc with status := t.cc.status }
        ∧ (∀ c, c ≠ crew → t.crew c = s.crew c)
        ∧ (onChip → t.cc.status = 0 ∧ t.clusters = s.clusters ∧ s.onlyChannel t core (o.ch % 4)
          ∧ t.channel core (o.ch % 4) = { x with heads := x.heads ++ [h] }
          ∧ t.crew crew = { s.crew crew with kicks := (s.crew crew).kicks + 1 })
        ∧ (¬onChip → s.stagingRoom (clusterOf core) l = true → t.cc.status = 3 ∧ t.cores = s.cores
          ∧ t.stagingOf (clusterOf core) l = s.stagingOf (clusterOf core) l ++ [.head core (o.ch % 4) h]
          ∧ t.crew crew = { s.crew crew with kicks := (s.crew crew).kicks + 1 })
        ∧ (¬onChip → s.stagingRoom (clusterOf core) l = false → t.cc.status = 4 ∧ t.cores = s.cores ∧ t.clusters = s.clusters
          ∧ t.crew crew = s.crew crew)))
    ∧ (∀ o : Flq, Answer.gives (exec (.flq o) s) (fun t => s.scalarFrame t (some o.d) 1
        ∧ t.sReg o.d = s.flsReg crew (o.ch % 4) % 2 ^ 64
        ∧ t.cc = { s.cc with status := if s.flsBusy crew (o.ch % 4) then 9 else 0 }))
    ∧ (∀ o : Flc, (s.wave w).relGate = none →
      let x := s.channel core (o.ch % 4)
      Answer.gives (exec (.flc o) s) (fun t => s.unitFrame t w o.mark ∧ t.cc = s.cc ∧ t.crews = s.crews
        ∧ s.onlyChannel t core (o.ch % 4)
        ∧ (t.channel core (o.ch % 4)).heads = x.heads.filter (fun h => h.crew != crew)
        ∧ (t.channel core (o.ch % 4)).chain = x.chain.filter (fun y => y.crew != crew)
        ∧ (t.channel core (o.ch % 4)).cancelled = x.cancelled ++ (x.chain.filter (fun y => y.crew == crew)).toList
            ++ (x.heads.filter (fun h => h.crew == crew)).map chainOf
            ++ ((s.spilledHeads l core (o.ch % 4)).filter (fun h => h.crew == crew)).map chainOf
        ∧ t.spilledHeads l core (o.ch % 4) = (s.spilledHeads l core (o.ch % 4)).filter (fun h => h.crew != crew))))
  ∧ (
  ∀ (s : State) (c ch : Nat), ch < 4 →
    (∀ pre h post, (s.channel c ch).heads = pre ++ h :: post → (∀ y ∈ pre, y.forwarded = true) → h.forwarded = false →
      s.forkReturned h.fork = true →
      Answer.gives (exec (.flumeHeadForward c ch) s) (fun t => t = { s with cores := t.cores } ∧ s.onlyChannel t c ch
        ∧ t.channel c ch = { s.channel c ch with
            heads := pre ++ { h with forwarded := true, fork := { Fork.none with maxw := s.forkMaxw h.fork } } :: post }))
    ∧ (∀ h rest, (s.channel c ch).heads = h :: rest → (s.channel c ch).chain = none → (s.channel c ch).cancelled = [] →
      h.forwarded = true → s.forkReady h.fork = true → s.clusterRuns (clusterOf c) = true → s.channelSpilled c ch = false →
      Answer.gives (exec (.flumeChainStart c ch) s) (fun t => t = { s with cores := t.cores } ∧ s.onlyChannel t c ch
        ∧ t.channel c ch = { heads := rest, chain := some (chainOf h), cancelled := [] }))
    ∧ (∀ x cr, (s.channel c ch).chain = some x → s.chainTurn c x → x.credit = some cr → (cr.maxw = 0 ∨ cr.maxw < s.dt) →
      s.store.poisoned cr.place 16 = false →
      Answer.gives (exec (.flumeRecordProcess c ch) s) (fun t =>
        t.store.barrier cr.place = creditOp cr (s.store.barrier cr.place)
        ∧ (∀ a, a < cr.place ∨ cr.place + 16 ≤ a → t.store.byte a = s.store.byte a)
        ∧ t.channel c ch = { s.channel c ch with chain := if cr.last then none else some { x with credit := none } }))
    ∧ (∀ x cr, (s.channel c ch).chain = some x → s.chainTurn c x → x.credit = some cr → (cr.maxw = 0 ∨ cr.maxw < s.dt) →
      s.store.poisoned cr.place 16 = true →
      Answer.gives (exec (.flumeRecordProcess c ch) s) (fun t =>
        let l := (s.crew x.crew).launch
        (t.launch l).ending = true ∧ (t.launch l).endStatus = mergeEnd (s.launch l).endStatus 9 cr.off ∧ (t.channel c ch).chain = none))
    ∧ (∀ x s1, (s.channel c ch).chain = some x → s.chainTurn c x → x.credit = none →
      s.readRecord (s.chainEnv x.crew) x ch = (s1, none) →
      Answer.gives (exec (.flumeRecordProcess c ch) s) (fun t => (∀ a, t.store.byte a = s1.store.byte a)
        ∧ t.channel c ch = { s1.channel c ch with chain := none }))
    ∧ (∀ x s1 r s2 place s3 st g s4 g2, (s.channel c ch).chain = some x → s.chainTurn c x → x.credit = none →
      s.readRecord (s.chainEnv x.crew) x ch = (s1, some r) → s1.recordBarrier (s.chainEnv x.crew) x r = .ok (s2, place) →
      s2.moveRecord (s.chainEnv x.crew) x ch r = (s3, st, g) →
      (if st = 0 then s3 else s3.setStopped x.crew ch).writeHdr (s.chainEnv x.crew) x r st = some (s4, g2) →
      Answer.gives (exec (.flumeRecordProcess c ch) s) (fun t => (∀ a, t.store.byte a = s4.store.byte a)
        ∧ t.channel c ch = { s4.channel c ch with
            chain := some (afterRecord x r place st (max g g2) (r.last || decide (st ≠ 0)) false) }))
    ∧ (∀ x rest cr, (s.channel c ch).cancelled = x :: rest → s.chainTurn c x → x.credit = some cr →
      (cr.maxw = 0 ∨ cr.maxw < s.dt) → s.store.poisoned cr.place 16 = false →
      Answer.gives (exec (.flumeCancelWalk c ch) s) (fun t =>
        t.store.barrier cr.place = creditOp cr (s.store.barrier cr.place)
        ∧ (t.channel c ch).cancelled = if cr.last then rest else { x with credit := none } :: rest))
    ∧ (∀ x rest s1, (s.channel c ch).cancelled = x :: rest → s.chainTurn c x → x.credit = none →
      s.readRecord (s.chainEnv x.crew) x ch = (s1, none) →
      Answer.gives (exec (.flumeCancelWalk c ch) s) (fun t => (∀ a, t.store.byte a = s1.store.byte a)
        ∧ (t.channel c ch).cancelled = rest))
    ∧ (∀ x rest s1 r s2 place s4 g2, (s.channel c ch).cancelled = x :: rest → s.chainTurn c x → x.credit = none →
      s.readRecord (s.chainEnv x.crew) x ch = (s1, some r) → s1.recordBarrier (s.chainEnv x.crew) x r = .ok (s2, place) →
      (s2.setStopped x.crew ch).writeHdr (s.chainEnv x.crew) x r 7 = some (s4, g2) →
      Answer.gives (exec (.flumeCancelWalk c ch) s) (fun t => (∀ a, t.store.byte a = s4.store.byte a)
        ∧ (t.channel c ch).cancelled = afterRecord x r place 7 g2 r.last true :: rest)))
  ∧ (
  ∀ (s s3 s4 s5 : State) (e : Env) (x : Chain) (ch : Nat) (r : FlumeRec) (j : FlumeJob) (ks kd : List (Nat × Nat)),
    r.badShape = false → r.mode = 0 → r.cnt1 = 1 → r.cnt2 = 1 → r.cnt3 = 1 → s.recordJob e x ch r = .ok (s3, j) → j.src.space ≠ 5 →
    s3.sidePrefix e j.src .load r.srcOff r.len0 = (s4, ks, none) → s4.sidePrefix e j.dst .store r.dstOff r.len0 = (s5, kd, none) →
    ks.length = kd.length → (kd.map (fun k => k.1)).Nodup →
    (∀ k ∈ kd, isPeer k.1 = false ∧ s5.store.armed.contains (k.1 / 16) = false) →
    (s.moveRecord e x ch r).2.1 = 0
      ∧ (∀ p ∈ ks.zip kd, (s.moveRecord e x ch r).1.store.byte p.2.1 = s5.store.byte p.1.1)
      ∧ ∀ a, (∀ k ∈ kd, k.1 ≠ a) → (s.moveRecord e x ch r).1.store.byte a = s5.store.byte a)

/-- SPAWN and CANCEL (R335, R338): each active lane's record enters the core's queues with a STATUS of its own, and every record of
the launch that a CANCEL selects leaves all queues, its number going to an s register at the end.

LAUNCH (R339, R351): the 128 bytes of the record as a load sees them enter the device launch queue, or STATUS tells QFULL. -/
def Obligations.SpawnCancelLaunch : Prop :=
  (
  ∀ (s : State) (w : Nat), s.cur = .wave w → (s.wave w).spec = none →
    (∀ o : Spawn, o.d.width = 2 → (s.wave w).relGate = none → s.lanesOk w o.g [{ start := o.a, width := 128 }] [o.d] →
      (∀ e ∈ s.activeLanes w o.g, (s.waveMod w).entryOk ((s.sliceWords w e.2 o.a).getD 0 0 % 4096) = true) →
      let rs := (s.activeLanes w o.g).map (fun e => taskRec (s.waveLaunch w) (s.forkOf w) (s.sliceWords w e.2 o.a))
      let x := enqueueAll s (s.waveCore w) rs
      Answer.gives (exec (.spawn o) s) (fun t =>
        t = { s with waves := t.waves, groups := t.groups, cores := t.cores, clusters := t.clusters, free := t.free }
        ∧ s.outFrame t w ((s.activeLanes w o.g).map (fun e => e.2)) o.d (worstStatus x.2)
        ∧ t.cores = x.1.cores ∧ t.clusters = x.1.clusters
        ∧ ∀ e, s.threadActive w o.g e → ∃ i l, (s.activeLanes w o.g)[i]? = some (l, e) ∧ t.progOpnd w e o.d = x.2.getD i 0 % 2 ^ 8))
    ∧ (∀ core r, (s.launch r.launch).deadlineFell = false →
      ((s.core core).headrace.length < 256 → s.spilledOn r.launch core = false →
        (s.enqueue core r).2 = 0 ∧ ((s.enqueue core r).1.core core).headrace = (s.core core).headrace ++ [r])
      ∧ (¬((s.core core).headrace.length < 256 ∧ s.spilledOn r.launch core = false) →
        s.stagingRoom (clusterOf core) r.launch = true → (s.enqueue core r).2 = 3
          ∧ (s.enqueue core r).1.stagingOf (clusterOf core) r.launch = s.stagingOf (clusterOf core) r.launch ++ [.task core r])
      ∧ (¬((s.core core).headrace.length < 256 ∧ s.spilledOn r.launch core = false) →
        s.stagingRoom (clusterOf core) r.launch = false → s.enqueue core r = (s, 4)))
    ∧ (∀ o : S2, (s.wave w).relGate = none → s.releaseDone w 4 = true → (s.launch (s.waveLaunch w)).ending = false →
      (∀ r ∈ s.cancelRecords (s.waveLaunch w) (s.sReg o.a), r.succAddr = 2 ^ 64 - 1) →
      Answer.gives (exec (.cancel o) s) (fun t =>
        t = { s with waves := t.waves, cores := t.cores, clusters := t.clusters, launches := t.launches }
        ∧ (∀ x, x ≠ w → t.wave x = s.wave x)
        ∧ t.wave w = { s.wave w with
            park := .cancel o.d (s.cancelRecords (s.waveLaunch w) (s.sReg o.a)).length o.mark, succRel := []
            lastPark := (t.wave w).lastPark }
        ∧ (∀ c, t.core c = { s.core c with
            headrace := (s.core c).headrace.filter (fun r => !cancelHits (s.waveLaunch w) (s.sReg o.a) r) })
        ∧ (∀ k, t.stagingOf k (s.waveLaunch w)
          = (s.stagingOf k (s.waveLaunch w)).filter (fun x => (Spilled.cancelled (s.waveLaunch w) (s.sReg o.a) x).isNone))
        ∧ (∀ l, l ≠ s.waveLaunch w → t.launch l = s.launch l)
        ∧ t.launch (s.waveLaunch w) = { s.launch (s.waveLaunch w) with
            ring := (s.launch (s.waveLaunch w)).ring.filter (fun x => (Spilled.cancelled (s.waveLaunch w) (s.sReg o.a) x).isNone) }))
    ∧ (∀ d n m, (s.wave w).park = .cancel d n m → (s.wave w).succRel = [] → s.isSaved (crewOf w) = false →
      Answer.gives (exec (.cancelDropComplete w) s) (fun t =>
        (s.setWave w { s.wave w with readyAt := s.coreCycles (s.waveCore w) }).wordFrame t w m
        ∧ t.groupS (groupOf w) d = BitVec.ofNat 64 n ∧ s.onlyS t (groupOf w) d ∧ t.cc = s.cc)))
  ∧ (
  ∀ (s s1 : State) (w : Nat) (o : Sys2Proof.Launch) (ks : List (Nat × Nat)), s.cur = .wave w → (s.kUse o.cap).grants [0, 1, 2, 4, 5] permLD →
    s.laneCheck (s.waveEnv w) (s.kUse o.cap) (s.sReg o.a) 128 1 = none →
    s.capKeys (s.waveEnv w) (s.kUse o.cap) .load (s.sReg o.a) 128 = .ok (s1, ks) → (s.wave w).spec = none → s1.noneInFlight w →
    (s1.wave w).relGate = none → s1.soundFor (s1.waveCore w) ks →
    Answer.gives (exec (.launch o) s) (fun t => ∃ bs : List Byte, s1.shows (s1.waveCore w) ks ks bs ∧
      t = { s1 with waves := t.waves, cores := t.cores, mem := t.mem, free := t.free
                    sched := { s1.sched with devQ := t.sched.devQ } }
      ∧ (∀ a, t.store.byte a = s1.store.byte a) ∧ (∀ x, x ≠ w → t.wave x = s1.wave x)
      ∧ t.wave w = { s1.wave w with
          word := (s1.wave w).word + 1, retry := none, held := none, lastPark := (t.wave w).lastPark
          cc := { (s1.wave w).cc with status := if s1.sched.devQ.length < 64 then 0 else 5 }
          park := if o.mark = true ∧ (s1.wave w).pend ≠ [] then .marker else .run }
      ∧ t.sched.devQ = if s1.sched.devQ.length < 64 then
          s1.sched.devQ ++ [{ bytes := bs, launch := s1.waveLaunch w, fork := s1.forkOf w, at_ := s1.dt }]
          else s1.sched.devQ))

/-- A task starts, and releases that waited for room are placed (R181, R336, R361, R363): the group takes a record of its launch
that no other record of the core's headrace precedes in priority.

SUCC (R336, R337): each lane's addition at its counter, one after another; a counter that reaches exactly 0 gives the record at
SUCC to the core's queues. -/
def Obligations.TasksAndCounters : Prop :=
  (
  ∀ (s : State) (g : Nat),
    let core := (s.crew (g / 8)).core
    let l := (s.crew (g / 8)).launch
    (s.groupIdle g = true → s.crewFrozen (g / 8) = false → (∃ r ∈ (s.core core).headrace, r.launch = l ∧ s.forkReady r.fork = true) →
      Answer.gives (exec (.taskStart g) s) (fun t => ∃ r ∈ (s.core core).headrace, r.launch = l ∧ s.forkReady r.fork = true
        ∧ (∀ y ∈ (s.core core).headrace, y.launch = l → s.forkReady y.fork = true → y.prio ≤ r.prio)
        ∧ t = { s with groups := t.groups, cores := t.cores } ∧ (∀ x, x ≠ g → t.group x = s.group x)
        ∧ (∀ c, c ≠ core → t.core c = s.core c)
        ∧ t.core core = { s.core core with headrace := firstDrop (s.core core).headrace (fun x => x == r) }
        ∧ t.group g = { s.group g with threads := (t.group g).threads, s := (t.group g).s, task := some r }
        ∧ (∀ i, i < 8 → t.groupS g i = BitVec.ofNat 64 (r.words.getD i 0)) ∧ (∀ i, 8 ≤ i → t.groupS g i = s.groupS g i)
        ∧ ∀ x, (tabFind (s.group g).threads x).isSome = true → t.thread g x = { s.thread g x with
            preds := [], meetSeg := r.entry, meetOuter := 4095, meetCur := 4095, place := .bucket r.entry (s.groupNow g) 0
            sent := false, maxw := 0, accts := [], gate := none }))
    ∧ (∀ r, (s.group g).waitingRel = [r] → (tabFind s.groups g).isSome = true → (s.crew (g / 8)).ended = false →
      (∀ x, x ≠ g → (s.group x).waitingRel = []) → (∀ x, (s.wave x).succRel = []) → (s.enqueue core r).2 ≠ 4 →
      Answer.gives (exec (.successorReleasePlace core) s) (fun t => t = { s with groups := t.groups, cores := t.cores, clusters := t.clusters }
        ∧ t.cores = (s.enqueue core r).1.cores ∧ t.clusters = (s.enqueue core r).1.clusters ∧ (∀ x, x ≠ g → t.group x = s.group x)
        ∧ t.group g = { s.group g with waitingRel := [] })))
  ∧ (
  ∀ (s s1 : State) (w : Nat) (as : List LaneAcc) (o : Succ), s.cur = .wave w → (s.wave w).spec = none → s1.noneInFlight w →
    s1.plainPlaces as → s1.mayStore w 2 4 → (s1.launch (s1.waveLaunch w)).ending = false → as ≠ [] → s.lanesOk w o.g [o.a, o.v] [] →
    s.reaches w o.g { ci := o.cap, spaces := rmwSpaces, mask := permAT, acc := .store, n := 16, align := 16, host := false }
      (fun i => s.opnd w i o.a) s1 as →
    let f := fun i m => some (lowBits (sInt 64 m + sInt (4 * o.v.width) (s.opnd w i o.v 2)) 64)
    ((∀ p ∈ (rmwRun s1.store f (as.map LaneAcc.count)).2, f p.1 p.2 ≠ some 0) →
      Answer.gives (exec (.succ o) s) (fun t => s1.rmwFrame t w ∧ t.groups = s1.groups ∧ (t.wave w).pend = (s1.wave w).pend
        ∧ ∀ a, t.store.byte a = (rmwRun s1.store f (as.map LaneAcc.count)).1.byte a))
    ∧ (∀ a s2 r, as = [a] → (s1.dropL1 (s1.waveCore w) (keyCells (a.keys.take 8) 0)).counterAdd (s1.waveEnv w) (s.kUse o.cap) a.keys
        (sInt (4 * o.v.width) (s.opnd w a.thread o.v 2)) = (s2, some r) → (s2.launch (s.waveLaunch w)).ending = false →
      (s2.enqueue (s2.waveCore w) r).2 ≠ 4 →
      Answer.gives (exec (.succ o) s) (fun t => t.store.bytes = s2.store.bytes ∧ (t.wave w).word = (s2.wave w).word + 1
        ∧ t.cores = (s2.enqueue (s2.waveCore w) r).1.cores ∧ t.clusters = (s2.enqueue (s2.waveCore w) r).1.clusters)))

/-- PALLOC, PALLOC.T and PFREE (R340, R341): the active lanes take the cluster's cached nodes, then the freed ones of memory, then
fresh ones, and all ones with STATUS EMPTY where none is left; freed nodes are cached newest first.

RQUOTA (R200, R201): a quota that the group's pool can give is set, and the slices beyond it are lost; else it stays, with
STATUS DENIED. Both answer the home wave's quota and the free units, and the word is a switch marker (R196). -/
def Obligations.PoolsAndQuotas : Prop :=
  (
  ∀ (s : State) (w : Nat), s.cur = .wave w → (s.wave w).spec = none → (s.wave w).relGate = none →
    let k := s.waveCluster w
    let l := s.waveLaunch w
    (∀ o : Palloc, ((s.groupMod (groupOf w)).poolDecl o.n).isSome = true → o.d.width = 8 → s.lanesOk w o.g [] [o.d] →
      let n := (s.activeLanes w o.g).length
      let post := fun t : State =>
        t = { s with waves := t.waves, groups := t.groups, clusters := t.clusters, launches := t.launches, free := t.free }
        ∧ s.outFrame t w ((s.activeLanes w o.g).map (fun e => e.2)) o.d (if (s.nodeOrder k l o.n).length < n then 6 else 0)
        ∧ s.poolAfter t k l o.n n
        ∧ ∀ e, s.threadActive w o.g e → ∃ i c, (s.activeLanes w o.g)[i]? = some (c, e)
          ∧ t.progOpnd w e o.d = (s.nodeOrder k l o.n).getD i 0xFFFFFFFF % 2 ^ 32
      ((∀ x ∈ s.nodeOrder k l o.n, x ≠ 0xFFFFFFFF) → Answer.gives (exec (.palloc o) s) post)
      ∧ (n ≤ (s.nodeOrder k l o.n).length → (∀ x ∈ s.nodeOrder k l o.n, x ≠ 0xFFFFFFFF) → Answer.gives (exec (.pallocT o) s) post)
      ∧ ((s.nodeOrder k l o.n).length < n → exec (.pallocT o) s
        = .next (s.takeTrap w (laneMask (s.activeLanes w o.g)) { TrapInfo.plain .poolEmpty with info := o.n })))
    ∧ (∀ o : Pfree, ((s.groupMod (groupOf w)).poolDecl o.n).isSome = true → o.a.width = 8 → s.lanesOk w o.g [o.a] [] →
      s.releaseDone w 4 = true → s.activeLanes w o.g ≠ [] →
      (∀ e ∈ s.activeLanes w o.g, s.opnd w e.2 o.a < (s.pool l o.n).next) →
      (s.cacheOf k l o.n).length + (s.activeLanes w o.g).length ≤ 64 →
      Answer.gives (exec (.pfree o) s) (fun t => t.groups = s.groups
        ∧ t.cacheOf k l o.n = ((s.activeLanes w o.g).map (fun e => s.opnd w e.2 o.a)).reverse ++ s.cacheOf k l o.n
        ∧ t.pool l o.n = s.pool l o.n ∧ (t.wave w).word = (s.wave w).word + 1 ∧ (t.wave w).cc = (s.wave w).cc)))
  ∧ (
  ∀ (s : State) (w : Nat) (o : Rquota), s.cur = .wave w → (s.wave w).spec = none → o.q ≤ 16 →
    let g := groupOf w
    let h := s.sReg o.a % 16
    h < (s.launch (s.waveLaunch w)).rec_.wpg →
    (o.q ≤ s.quota g h → s.targetsBeyond g h o.q = false) →
    let ok := o.q ≤ s.quota g h ∨ o.q - s.quota g h ≤ s.freeUnits g
    Answer.gives (exec (.rquota o) s) (fun t =>
      t = { s with waves := t.waves, groups := t.groups, free := t.free } ∧ (∀ x, x ≠ g → t.group x = s.group x)
      ∧ t.group g = { s.group g with
          quota := (t.group g).quota, units := (t.group g).units, threads := (t.group g).threads, s := (t.group g).s
          hist := (t.group g).hist }
      ∧ s.sameShared t g (some o.d) none none
      ∧ t.sReg o.d = (t.quota g h + t.freeUnits g * 256) % 2 ^ 64
      ∧ (∀ x, t.quota g x = if x = h ∧ ok then o.q else s.quota g x)
      ∧ (∀ x, x ≠ h → tabGet (t.group g).units [] x = tabGet (s.group g).units [] x)
      ∧ t.wave w = { s.wave w with
          word := (s.wave w).word + 1, retry := none, held := none, cc := { (s.wave w).cc with status := (t.wave w).cc.status }
          lastPark := (t.wave w).lastPark, park := if (s.wave w).pend ≠ [] then .marker else .run }
      ∧ (∀ x, x ≠ w → t.wave x = { s.wave x with spec := (t.wave x).spec })
      ∧ (¬ok → (t.wave w).cc.status = 7 ∧ (t.group g).threads = (s.group g).threads)
      ∧ (ok → (t.wave w).cc.status = 0 ∧ ∀ x, (tabFind (s.group g).threads x).isSome = true →
        (t.thread g x).preds = (s.thread g x).preds ∧ (t.thread g x).place = (s.thread g x).place
        ∧ ∀ n, tabGet (t.thread g x).slices 0 n = if x / 32 = h ∧ 64 * o.q ≤ n then 0 else tabGet (s.thread g x).slices 0 n)))

/-- CPUT, CFLUSH and a cistern's time-out (R342, R343): rows join the open tile in ascending lane order, which is ready at its
threshold, at a flush or at its time; a refused row completes its future with FULL, whose object has its arrival once DT is later
than the completion of the future's writes (R104, R137).

CTAKE, CTAKE.arm and CGIVE (R316, R317): a ready tile moves into a reservation, an armed barrier counts ready tiles, and the
futures of a taken tile take accumulator elements. An arrival that reports a tile waits until every deposit of it has happened
(R103), as the model reads the two rules together (log entry 83). -/
def Obligations.Cisterns : Prop :=
  (
  ∀ (s : State) (w : Nat), s.cur = .wave w → (s.wave w).spec = none → (s.wave w).relGate = none →
    (∀ (o : Cput) (d : CisternDecl) (s1 : State) (as : List LaneAcc), (s.groupMod (groupOf w)).cisternDecl o.c = some d →
      s.lanesOk w o.g [{ start := o.a, width := 2 * d.rowBytes }, o.f] [] → (s1.wave w).relGate = none →
      s.reaches w o.g { ci := o.cap, spaces := [1, 2], mask := permBA, acc := .store, n := 32, align := 32 }
        (fun i => s.opnd w i o.f) s1 as →
      let k := s1.waveCluster w
      let x := s1.cistern k d.index
      let rows := as.map (s1.cisRow s w { start := o.a, width := 2 * d.rowBytes } d.rowBytes)
      let room := x.openRows ≠ [] ∨ x.ready.length + (if x.taken.isSome then 1 else 0) < 4
      (as ≠ [] → room → x.openRows.length + as.length < d.thresh →
        Answer.gives (exec (.cput o) s) (fun t => s1.unitFrame t w o.mark ∧ t.cc = { s.cc with status := 0 }
          ∧ t.cistern k d.index = { x with
              openRows := x.openRows ++ rows, firstAt := if x.openRows = [] then s1.dt else x.firstAt }))
      ∧ (∀ a, as = [a] → room → d.thresh ≤ x.openRows.length + 1 →
        Answer.gives (exec (.cput o) s) (fun t => s1.tileClosed t k d.index (x.openRows ++ rows) ∧ (t.wave w).cc.status = 0
          ∧ (t.wave w).word = (s1.wave w).word + 1))
      ∧ (∀ a, as = [a] → ¬room → (∀ i, i < 16 → s1.store.armed.contains (((a.keys.headD (0, 0)).1 + 16 + i) / 16) = false) →
        let p := (a.keys.headD (0, 0)).1
        Answer.gives (exec (.cput o) s) (fun t => t.cistern k d.index = x ∧ (t.wave w).cc.status = 4
          ∧ (t.wave w).word = (s1.wave w).word + 1
          ∧ t.mem.arrivals = s1.mem.arrivals ++ [{ place := p, crew := crewOf w, after := s1.dt }]
          ∧ t.store.readNat (p + 16) 4 = 0 ∧ t.store.readNat (p + 20) 4 = 4
          ∧ ∀ b, b < p + 16 ∨ p + 32 ≤ b → t.store.byte b = s1.store.byte b)))
    ∧ (∀ (o : Cflush) (d : CisternDecl), (s.groupMod (groupOf w)).cisternDecl o.c = some d →
      ((s.cistern (s.waveCluster w) d.index).openRows = [] →
        Answer.gives (exec (.cflush o) s) (fun t => s.wordFrame t w o.mark ∧ t.cc = s.cc))
      ∧ ((s.cistern (s.waveCluster w) d.index).openRows ≠ [] →
        Answer.gives (exec (.cflush o) s) (fun t =>
          s.tileClosed t (s.waveCluster w) d.index (s.cistern (s.waveCluster w) d.index).openRows
          ∧ (t.wave w).word = (s.wave w).word + 1 ∧ (t.wave w).cc = (s.wave w).cc)))
    ∧ (∀ k i l d, (s.seqOf k).launch = some l → (s.launch l).mod_.cisternDecl i = some d → d.flushNs ≠ 0 →
      (s.cistern k i).openRows ≠ [] → (s.cistern k i).firstAt + d.flushNs ≤ s.dt →
      Answer.gives (exec (.cisternFlushTimeout k i) s) (fun t => s.tileClosed t k i (s.cistern k i).openRows))
    ∧ (∀ x ∈ s.mem.arrivals, x.after < s.dt → x ∉ s.arriveDue.mem.arrivals)
    ∧ (∀ x, s.mem.arrivals = [x] → x.after < s.dt → (s.crew x.crew).ended = false →
      s.arriveDue.store.barrier x.place = barArrive (s.store.barrier x.place)
      ∧ ∀ a, a < x.place ∨ x.place + 16 ≤ a → s.arriveDue.store.byte a = s.store.byte a)
    ∧ (∀ k cl i x a fs, s.clusters = [(k, cl)] → cl.cisterns = [(i, x)] → x.due = [(a, fs)] → s.clusterRuns k = true →
      (∀ f ∈ fs, s.forkReady f = true) →
      s.reportTiles.store.barrier a = barArrive (s.store.barrier a) ∧ (s.reportTiles.cistern k i).due = []
      ∧ ∀ b, b < a ∨ a + 16 ≤ b → s.reportTiles.store.byte b = s.store.byte b))
  ∧ (
  ∀ (s : State) (k : Nat), s.seqReady k → (s.seqOf k).idem = false →
    let q := s.seqOf k
    (∀ (o : Ctake) (d : CisternDecl) (r : Resv), s.agentMod.cisternDecl o.c = some d → tabFind q.resv o.slot = some r →
      s.sReg o.a + d.thresh ≤ r.rows → d.rowBytes ≤ r.rb → q.maxw < s.dt →
      let x := s.cistern k o.c
      (x.taken.isSome = true → Answer.gives (exec (.ctake o) s) (fun t =>
        s.seqPass t k { q.withStatus 8 with s := (t.seqOf k).s } ∧ ∀ n, t.sReg n = if n = o.d then 0 else s.sReg n))
      ∧ (x.taken = none → x.ready = [] → Answer.gives (exec (.ctake o) s) (fun t =>
        s.seqPass t k { q.withStatus 6 with s := (t.seqOf k).s } ∧ ∀ n, t.sReg n = if n = o.d then 0 else s.sReg n))
      ∧ (∀ tile rest, x.taken = none → x.ready = tile :: rest → (∀ y ∈ tile, s.forkReady y.fork = true) → tile.length ≤ d.thresh →
        (r.scaled = true → r.rows * r.rb ≤ r.scaleOff) →
        Answer.gives (exec (.ctake o) s) (fun t =>
          t = { s with clusters := t.clusters, mem := { s.mem with store := t.store }, free := t.free }
          ∧ (∀ j, j ≠ k → t.cluster j = s.cluster j)
          ∧ t.cluster k = { s.cluster k with
              seq := { q.withStatus 0 with word := q.word + 1, park := .run, copying := true, s := (t.seqOf k).s }
              cisterns := (t.cluster k).cisterns }
          ∧ (∀ n, t.sReg n = if n = o.d then tile.length % 2 ^ 64 else s.sReg n)
          ∧ (∀ c, t.cistern k c = if c = o.c then { x with ready := rest, taken := some tile } else s.cistern k c)
          ∧ (∀ i y b, tile[i]? = some y → b < r.rb →
            t.store.byte (opKey k (r.start + (s.sReg o.a + i) * r.rb) + b) = y.bytes.getD b 0)
          ∧ (r.scaled = true → ∀ i b, i < tile.length → b < 4 →
            t.store.byte (opKey k (r.start + r.scaleOff + 4 * (s.sReg o.a + i)) + b) = 0x7F)
          ∧ ∀ a, (a < opKey k r.start ∨ opKey k (r.start + max (r.rows * r.rb) (r.scaleOff + 4 * r.rows)) ≤ a) →
            t.store.byte a = s.store.byte a)))
    ∧ (∀ (o : CtakeArm) (d : CisternDecl), s.agentMod.cisternDecl o.c = some d → (s.kReg o.cap).grants [2] permBA →
      s.laneCheck (s.seqEnv k) (s.kReg o.cap) (s.sReg o.a) 16 16 = none → q.relGate = none → q.park = .run →
      let a := s.objectPlace (s.seqEnv k) (s.kReg o.cap) (s.sReg o.a)
      s.store.poisoned a 16 = false → (∀ tile ∈ (s.cistern k o.c).ready, ∀ y ∈ tile, s.forkReady y.fork = true) →
      Answer.gives (exec (.ctakeArm o) s) (fun t =>
        t.store.barrier a = arrivals (s.store.barrier a) (s.cistern k o.c).ready.length
        ∧ (∀ b, b < a ∨ a + 16 ≤ b → t.store.byte b = s.store.byte b)
        ∧ (∀ c, t.cistern k c = if c = o.c then { s.cistern k c with armed := some a } else s.cistern k c)
        ∧ (t.seqOf k) = { q with word := q.word + 1, maxw := if (s.cistern k o.c).ready = [] then q.maxw else max q.maxw s.dt }))
    ∧ (∀ o : Cgive, q.drained = true → q.relGate = none → q.park = .run →
      let x := s.cistern k o.c
      let row := s.sReg o.a % 512
      let col := bits (s.sReg o.a) 16 9
      (x.taken = none → Answer.gives (exec (.cgive o) s) (fun t => s.seqPass t k (q.withStatus 6)))
      ∧ (∀ tile, x.taken = some tile → row + tile.length ≤ 512 → tile.Pairwise (fun y z => y.future ≠ z.future) →
        (∀ y ∈ tile, y.future % 32 = 0 ∧ y.future < 2 ^ 50 ∧ s.store.armed.contains ((y.future + 16) / 16) = false
          ∧ (s.crew y.crew).ended = false ∧ (s.crew y.crew).killed = false) →
        (∀ i, i < tile.length → s.store.poisoned (accElem k (row + i) col) 4 = false) →
        Answer.gives (exec (.cgive o) s) (fun t =>
          (∀ c, t.cistern k c = if c = o.c then { x with taken := none } else s.cistern k c)
          ∧ (t.seqOf k) = { q.withStatus 0 with word := q.word + 1, maxw := if tile = [] then q.maxw else max q.maxw s.dt }
          ∧ t.mem.arrivals = s.mem.arrivals ++ tile.map (fun y => { place := y.future, crew := y.crew, after := s.dt })
          ∧ (∀ i y, tile[i]? = some y →
            t.store.readNat (y.future + 16) 4 = s.store.readNat (accElem k (row + i) col) 4
            ∧ t.store.readNat (y.future + 20) 4 = 0 ∧ t.store.readNat (y.future + 24) 8 = 0)
          ∧ ∀ a, (∀ y ∈ tile, a < y.future + 16 ∨ y.future + 32 ≤ a) → t.store.byte a = s.store.byte a)))
    ∧ Answer.gives (exec (.ctakeCopyComplete k) { s with clusters := (s.setSeq k { q with copying := true }).clusters })
        (fun t => t.seqOf k = q ∧ (∀ j, j ≠ k → t.cluster j = s.cluster j)))

/-- RCAST, OCAP, CBFK and CBSTEP (R324): a request with what the wave's registers held at issue joins its cluster's engine queue.

The services of the engines (R103, R137, R325): the oldest request that is not yet served reads its header and the request
entry of its lane and writes the lane's result; a served request's future takes RESULT, STATUS and RESPTR, and its arrival is due
once DT is later than those writes (R104). -/
def Obligations.Engines : Prop :=
  (
  ∀ f ∈ engForms.zipIdx, ∀ (s : State) (w : Nat) (o : Eng), o.d < 253 → s.lanesOk w o.g [] [] → (s.wave w).spec = none →
    (s.wave w).relGate = none → (s.kUse o.q).grants [0, 1, 2] (permXF + permLD + permST) →
    (s.kUse o.o).grants [0, 1, 2] (permXF + permLD) → (s.kUse o.f).grants [1, 2] permBA →
    s.laneCheck (s.waveEnv w) (s.kUse o.f) (s.sReg (o.d + 2)) 32 32 = none →
    (∀ e ∈ s.activeLanes w o.g,
      s.laneCheck (s.waveEnv w) (s.kUse o.q) (s.sReg o.d + e.1 * f.1.2.2.1) f.1.2.2.1 4 = none
      ∧ s.laneCheck (s.waveEnv w) (s.kUse o.q) (s.sReg (o.d + 1) + e.1 * f.1.2.2.2) f.1.2.2.2 4 = none) →
    let k := s.waveCluster w
    let q := if f.2 < 2 then (s.cluster k).roe else (s.cluster k).cbe
    let r : EngReq :=
      { kind := f.2, core := s.waveCore w, crew := crewOf w, launch := s.waveLaunch w, kq := s.kUse o.q, ko := s.kUse o.o
        kf := s.kUse o.f, kqIndex := o.q, req := s.sReg o.d, res := s.sReg (o.d + 1), fut := s.sReg (o.d + 2)
        obj := s.sReg (o.d + 3), mask := laneMask (s.activeLanes w o.g), fork := s.forkOf w, done := none }
    q.length < 32 →
    Answer.gives (exec (f.1.1 o) s) (fun t =>
      t = { s with waves := t.waves, clusters := t.clusters, free := t.free } ∧ (∀ x, x ≠ w → t.wave x = s.wave x)
      ∧ t.wave w = { s.wave w with word := (s.wave w).word + 1, retry := none, held := none
                                   lastPark := (t.wave w).lastPark
                                   park := if o.mark = true ∧ (s.wave w).pend ≠ [] then .marker else .run }
      ∧ (∀ j, j ≠ k → t.cluster j = s.cluster j)
      ∧ t.cluster k = if f.2 < 2 then { s.cluster k with roe := q ++ [r] } else { s.cluster k with cbe := q ++ [r] }))
  ∧ (
  ∀ f ∈ engForms.zipIdx, ∀ (s : State) (k : Nat) (r : EngReq) (rest : List EngReq), r.kind = f.2 → s.clusterRuns k = true →
    (if f.2 < 2 then (s.cluster k).roe else (s.cluster k).cbe) = r :: rest →
    (∀ l h b bs hit g s1 s2 s3 s4, r.done = none → (∀ y ∈ rest, y.done = none) → s.forkReady r.fork = true → l < 32 → r.mask = 2 ^ l →
      s.engHeader r = (s1, .ok h) → s1.engRead r.env r.kq (r.req + l * f.1.2.2.1) f.1.2.2.1 = (s2, .ok b) →
      s2.engLane r h b = (s3, .ok (bs, hit)) → s3.engWrite r.env r.kq (r.res + l * f.1.2.2.2) bs = (s4, .ok g) →
      Answer.gives (exec (f.1.2.1 k) s) (fun t => t = { s4 with clusters := t.clusters } ∧ (∀ j, j ≠ k → t.cluster j = s4.cluster j)
        ∧ (if f.2 < 2 then (t.cluster k).roe else (t.cluster k).cbe)
          = listSet (if f.2 < 2 then (s4.cluster k).roe else (s4.cluster k).cbe) 0
              (fun _ => { r with done := some (if hit then 2 ^ l else 0, 0, g) })))
    ∧ (∀ res st m, r.done = some (res, st, m) → (m = 0 ∨ m < s.dt) → r.kf.space ∈ [1, 2] →
      let p := s.objectPlace r.env r.kf r.fut
      (∀ i, i < 16 → s.store.armed.contains ((p + 16 + i) / 16) = false) →
      Answer.gives (exec (f.1.2.1 k) s) (fun t => (if f.2 < 2 then (t.cluster k).roe else (t.cluster k).cbe) = rest
        ∧ t.mem.arrivals = s.mem.arrivals ++ [{ place := p, crew := r.crew, after := s.dt }]
        ∧ t.store.readNat (p + 16) 4 = res % 2 ^ 32
        ∧ t.store.readNat (p + 20) 4 = st % 2 ^ 32
        ∧ t.store.readNat (p + 24) 8 = (r.res % 2 ^ 48 + r.kqIndex % 32 * 2 ^ 48) % 2 ^ 64
        ∧ ∀ a, a < p + 16 ∨ p + 32 ≤ a → t.store.byte a = s.store.byte a)))

/-- The sequencer's own registers (R303 to R305, R312 to R314): MRESV, MRELS, LNSET, LNCOEF, LNSTEP, IDEMB and IDEME. -/
def Obligations.SequencerRegisters : Prop :=
  ∀ (s : State) (k : Nat), s.seqReady k →
    let q := s.seqOf k
    (∀ o : Lnset, s.sReg o.a % 65536 ≠ 0 → Answer.gives (exec (.lnset o) s) (fun t =>
      s.seqPass t k { q with lb := (t.seqOf k).lb, iv := (t.seqOf k).iv }
      ∧ (∀ i, tabGet (t.seqOf k).lb 1 i = if i = o.lvl then s.sReg o.a % 65536 else tabGet q.lb 1 i)
      ∧ ∀ i, tabGet (t.seqOf k).iv 0 i = if i = o.lvl then 0 else tabGet q.iv 0 i))
    ∧ (∀ o : Lncoef, o.c < 3 → Answer.gives (exec (.lncoef o) s) (fun t => s.seqPass t k { q with cf := (t.seqOf k).cf }
      ∧ ∀ i, tabGet (t.seqOf k).cf 0 i = if i = 4 * o.c + o.lvl then sInt 16 (s.sReg o.a % 65536) else tabGet q.cf 0 i))
    ∧ (∀ o : Nul, Answer.gives (exec (.lnstep o) s) (fun t =>
      s.seqPass t k { q with
        iv := (t.seqOf k).iv, cc := { q.cc with z := (t.seqOf k).cc.z, n := false, c := false, v := false } }
      ∧ (∀ j, j < 4 → (∀ i, i < j → tabGet q.iv 0 i + 1 = tabGet q.lb 1 i) → tabGet q.iv 0 j + 1 ≠ tabGet q.lb 1 j →
        (t.seqOf k).cc.z = false
        ∧ ∀ i, tabGet (t.seqOf k).iv 0 i = if i < j then 0 else if i = j then tabGet q.iv 0 i + 1 else tabGet q.iv 0 i)
      ∧ ((∀ i, i < 4 → tabGet q.iv 0 i + 1 = tabGet q.lb 1 i) →
        (t.seqOf k).cc.z = true ∧ ∀ i, i < 4 → tabGet (t.seqOf k).iv 0 i = 0)))
    ∧ (∀ o : Nul, q.idem = false → Answer.gives (exec (.idemb o) s) (fun t =>
      s.seqPass t k { q with idem := true, idemRec := some (q.seg, q.word, q.iv, q.lc) }))
    ∧ (∀ o : Nul, q.drained = true → Answer.gives (exec (.ideme o) s) (fun t => s.seqPass t k { q with idem := false, idemRec := none }))
    ∧ (∀ o : Mrels, q.idem = false → q.drained = true → Answer.gives (exec (.mrels o) s) (fun t =>
      s.seqPass t k { q with resv := (t.seqOf k).resv }
      ∧ ∀ i, tabFind (t.seqOf k).resv i = if i = o.slot then none else tabFind q.resv i))
    ∧ (∀ o : Mresv, q.idem = false → o.b < 255 → (s.kReg o.cap).grants [3] permMX →
      let w0 := s.sReg o.b
      let w1 := s.sReg (o.b + 1)
      let r := resvOf (s.kReg o.cap).base w0 w1
      s.laneCheck (s.seqEnv k) (s.kReg o.cap) (bits w0 19 0) (bits w0 40 20) 1 = none → resvLegal r w0 w1 = true →
      let meet := ∃ e ∈ q.resv, e.2.start < r.start + r.length ∧ r.start < e.2.start + e.2.length
      ((tabFind q.resv o.slot).isSome = true → Answer.gives (exec (.mresv o) s) (fun t => s.seqPass t k (q.withStatus 8)))
      ∧ (tabFind q.resv o.slot = none → meet → Answer.gives (exec (.mresv o) s) (fun t => s.seqPass t k (q.withStatus 9)))
      ∧ (tabFind q.resv o.slot = none → ¬meet → Answer.gives (exec (.mresv o) s) (fun t =>
        s.seqPass t k { q.withStatus 0 with resv := (t.seqOf k).resv }
        ∧ ∀ i, tabFind (t.seqOf k).resv i = if i = o.slot then some r else tabFind q.resv i)))

/-- MLDB and its completion (R306 to R308): the source's places are taken at issue; the unit's columns take its bytes and the unit
its tag, with the poison of its source, and a pair that loses a half loses both tags.

The four forms of MMA (R309 to R312): the operation that the descriptor names is accepted, or, while two are incomplete, rows of
the one before have still to enter or the array is stopped, stalls the sequencer until it is.

The completion of an MMA (R215 to R217, R310), every row having entered (R311), whose operands are undamaged and unchanged since
its issue: every element of its accumulator rows takes its four group sums one after another, from +0 or from its old value, and the post-scale. -/
def Obligations.MatrixWork : Prop :=
  (
  ∀ (s : State) (k : Nat),
    (∀ (o : Mldb) (s1 : State) (ks : List (Nat × Nat)), s.seqReady k → o.fmt < 3 →
      s.sReg o.d % 1024 ≤ (if o.fmt = 2 then 600 else 601) → (s.kReg o.cap).grants [0, 5] permMX →
      s.laneCheck (s.seqEnv k) (s.kReg o.cap) (s.sReg o.a) (256 * weightBytes o.fmt) 1 = none → (s.seqOf k).mldbs.length < 2 →
      (∀ m ∈ (s.seqOf k).mmas, ∀ u ∈ m.units, u ≠ s.sReg o.d % 1024 ∧ (o.fmt = 2 → u ≠ s.sReg o.d % 1024 + 1)) →
      s.capKeys (s.seqEnv k) (s.kReg o.cap) .load (s.sReg o.a) (256 * weightBytes o.fmt) = .ok (s1, ks) →
      Answer.gives (exec (.mldb o) s) (fun t => s1.seqPass t k { s1.seqOf k with mldbs := (t.seqOf k).mldbs }
        ∧ ∃ x, (t.seqOf k).mldbs = (s1.seqOf k).mldbs ++ [x] ∧ x.unit = s.sReg o.d % 1024 ∧ x.fmt = o.fmt
          ∧ x.notBefore = (s.seqOf k).maxw ∧ x.region = (s.seqOf k).idem
          ∧ x.snap = (if (s.seqOf k).maxw < s.dt then ks.map (fun a => (s1.store.byte a.1, s1.store.poisoned a.1 1)) else [])
          ∧ x.runs.flatMap (fun a => (List.range a.2).map (fun i => a.1 + i)) = ks.map (fun a => a.1)))
    ∧ (∀ o rest, (s.seqOf k).mldbs = o :: rest → o.notBefore < s.dt → o.fmt < 3 → 68 * o.unit + weightBytes o.fmt ≤ 65536 →
      (runBytes s.store o.runs).length = 256 * weightBytes o.fmt → (o.snap = [] ∨ o.snap = (runBytes s.store o.runs).zip (runPoison s.store o.runs)) →
      Answer.gives (exec (.mldbComplete k) s) (fun t =>
        t = { s with clusters := t.clusters, mem := { s.mem with store := t.store, l2 := t.mem.l2, floors := t.mem.floors }, free := t.free }
        ∧ (∀ j, j ≠ k → t.cluster j = s.cluster j)
        ∧ t.cluster k = { s.cluster k with seq := { s.seqOf k with mldbs := rest }, wtags := (t.cluster k).wtags }
        ∧ (∀ c i, c < 256 → i < weightBytes o.fmt →
          t.store.byte (weightKey k c (68 * o.unit) + i) = (runBytes s.store o.runs).getD (c * weightBytes o.fmt + i) 0
          ∧ ((runPoison s.store o.runs).getD (c * weightBytes o.fmt + i) false = true →
            t.store.poisoned (weightKey k c (68 * o.unit) + i) 1 = true))
        ∧ (∀ a, (∀ c i, c < 256 → i < weightBytes o.fmt → a ≠ weightKey k c (68 * o.unit) + i) → t.store.byte a = s.store.byte a)
        ∧ ∀ x, tabGet (t.cluster k).wtags .none x = if x ∈ ldbUnits o then (if o.fmt = 0 then .w4g else if o.fmt = 1 then .w3g
            else if x = o.unit then .e4m3 else .e4m3b) else keptTag (s.cluster k).wtags (ldbUnits o) x)))
  ∧ (
  ∀ (s : State) (k : Nat),
    (∀ f ∈ mmaForms, ∀ (o : Mma) (v p : Resv) (x t a : Nat), s.seqReady k →
      let q := s.seqOf k
      let d := s.sReg o.a
      let g := tabGet (s.cluster k).wtags .none t
      let ln := fun i => if o.ln then q.lnSum i else 0
      let m := mmaOf d f.2.1 f.2.2 v p g x t a q.idem q.maxw
      d < 2 ^ 62 → (x : Int) = bits d 19 4 + ln 0 → (t : Int) = bits d 38 29 + ln 1 → (a : Int) = bits d 47 39 + ln 2 →
      tabFind q.resv (bits d 3 0) = some v → x + bits d 28 20 + 1 ≤ v.rows → a + bits d 28 20 + 1 ≤ 512 → t < 602 → g ≠ .none →
      g ≠ .e4m3b → (f.2.2 = true → tabFind q.resv (bits d 61 58) = some p ∧ bits d 57 48 * 1024 + 1024 ≤ p.length) →
      (∀ y ∈ q.mldbs, ∀ u ∈ ldbUnits y, u ≠ t ∧ (g = .e4m3 → u ≠ t + 1)) →
      (s.arrayFree k → Answer.gives (exec (f.1 o) s) (fun r => s.seqPass r k { q with mmas := q.mmas ++ [s.accepted k m] }))
      ∧ (¬s.arrayFree k → Answer.gives (exec (f.1 o) s) (fun r => r = { s with clusters := r.clusters }
        ∧ (∀ j, j ≠ k → r.cluster j = s.cluster j)
        ∧ r.cluster k = { s.cluster k with seq := { q with stalled := some m } })))
    ∧ (∀ m, (s.seqOf k).stalled = some m → m.snap = [] → m.entered = none → s.arrayFree k →
      Answer.gives (exec (.mmaAccept k) s) (fun r => s.seqPass r k { s.seqOf k with
        mmas := (s.seqOf k).mmas ++ [s.accepted k m], stalled := none })))
  ∧ (
  ∀ (s : State) (k : Nat) (o : MmaOp) (rest : List MmaOp), (s.seqOf k).mmas = o :: rest → o.notBefore < s.dt → o.acc + o.m ≤ 512 →
    (∃ n, o.entered = some n ∧ n ≤ s.cycles k) →
    (o.snap = (runBytes s.store (o.ranges k)).zip (runPoison s.store (o.ranges k)) ∨ (o.fixed = false ∧ o.snap = [])) →
    s.mmaDamage k o = [] →
    Answer.gives (exec (.mmaComplete k) s) (fun t =>
      t = { s with waves := t.waves, clusters := t.clusters, mem := { s.mem with store := t.store }, free := t.free }
      ∧ (∀ j, j ≠ k → t.cluster j = s.cluster j) ∧ t.cluster k = { s.cluster k with seq := { s.seqOf k with mmas := rest } }
      ∧ (∀ x, t.wave x = { s.wave x with spec := (t.wave x).spec })
      ∧ (∀ i c, i < o.m → c < 256 → ∀ v,
        v = (List.range 4).foldl (fun a g => add32 a (groupSum (o.resv.fmt == 2) (mmaProducts s.store k o (s.mmaData k o) i c g)))
          (if o.zero then 0 else s.store.readNat (accElem k (o.acc + i) c) 4) →
        t.store.readNat (accElem k (o.acc + i) c) 4 = (if o.post.isSome then
          mul32 v (natOfBytes (((s.mmaData k o).post.drop (4 * c)).take 4)) else v) % 2 ^ 32)
      ∧ ∀ a, (∀ i c j, i < o.m → c < 256 → j < 4 → a ≠ accElem k (o.acc + i) c + j) → t.store.byte a = s.store.byte a))

/-- SRD (R344, R345): an s register takes the value of a system register, for a wave and for a sequencer (R300); a slice operand
takes it in every occupied lane, each lane its own THREAD_ID and TF_LANE.

SWR (R155, R193, R320, R321, R340, R345): bits of FLS_c and of the sequencer's status are cleared by 1s, a view register takes
the bits that it holds, and the limit of a pool is kept between its next node and its size. -/
def Obligations.SystemRegisters : Prop :=
  (
  ∀ s : State,
    (∀ w, s.cur = .wave w → (s.wave w).spec = none →
      (∀ r ∈ waveSysTable, ∀ o : SrdS, o.reg = r.1 →
        Answer.gives (exec (.srdScalar o) s) (fun t => s.scalarFrame t (some o.d) 1 ∧ t.cc = s.cc ∧ t.sReg o.d = r.2 s w % 2 ^ 64))
      ∧ (s.inMatrix w = true → ∀ r ∈ seqSysTable, ∀ o : SrdS, o.reg = r.1 →
        Answer.gives (exec (.srdScalar o) s) (fun t => s.scalarFrame t (some o.d) 1 ∧ t.cc = s.cc
          ∧ t.sReg o.d = r.2 s (s.waveCluster w) % 2 ^ 64))
      ∧ (∀ f, (s.wave w).level = .trap → (s.wave w).frame = some f → ∀ o : SrdS,
        (o.reg = 48 → Answer.gives (exec (.srdScalar o) s) (fun t => s.scalarFrame t (some o.d) 1 ∧ t.cc = s.cc
          ∧ t.sReg o.d = (causeCode f.cause * 2 ^ 48 + f.seg % 4096 * 2 ^ 32 + f.info % 65536 * 2 ^ 16 + f.word % 65536) % 2 ^ 64))
        ∧ (o.reg = 49 → Answer.gives (exec (.srdScalar o) s) (fun t => s.scalarFrame t (some o.d) 1 ∧ t.cc = s.cc
          ∧ t.sReg o.d = (f.active * 2 ^ 32 + tabMask f.lanes) % 2 ^ 64))))
    ∧ (∀ k, s.cur = .seq k → ∀ r ∈ seqReadTable, ∀ o : SrdS, o.reg = r.1 →
      Answer.gives (exec (.srdScalar o) s) (fun t => s.scalarFrame t (some o.d) 1 ∧ t.cc = s.cc ∧ t.sReg o.d = r.2 s k % 2 ^ 64))
    ∧ (∀ (w : Nat) (o : SrdN), s.lanesOk w { pred := 0, neg := false } [] [o.d] →
      (∀ r ∈ waveSysTable, o.reg = r.1 → s.laneResult (exec (.srdSlice o) s) w { pred := 0, neg := false } o.d (fun _ => r.2 s w))
      ∧ (o.reg = 2 → s.laneResult (exec (.srdSlice o) s) w { pred := 0, neg := false } o.d (fun x => s.threadId (groupOf w) x))
      ∧ (∀ f, o.reg = 50 → (s.wave w).level = .trap → (s.wave w).frame = some f →
        s.crossResult (exec (.srdSlice o) s) w { pred := 0, neg := false } o.d (fun l _ => f.laneReg l))))
  ∧ (
  ∀ (s : State) (o : Swr),
    (∀ w, s.cur = .wave w → (s.wave w).spec = none →
      (∀ n, n < 4 → o.reg = 16 + n → Answer.gives (exec (.swr o) s) (fun t => s.unitFrame t w o.mark ∧ t.cc = s.cc
        ∧ t.cores = s.cores ∧ t.clusters = s.clusters ∧ t.launches = s.launches
        ∧ (∀ c, c ≠ crewOf w → t.crew c = s.crew c)
        ∧ t.crew (crewOf w) = { s.crew (crewOf w) with fls := (t.crew (crewOf w)).fls }
        ∧ (∀ m, m ≠ n → t.fls (crewOf w) m = s.fls (crewOf w) m)
        ∧ t.fls (crewOf w) n = { s.fls (crewOf w) n with
            idxErr := (s.fls (crewOf w) n).idxErr && !bit (s.sReg o.a) 61
            stopped := (s.fls (crewOf w) n).stopped && !bit (s.sReg o.a) 60 }))
      ∧ (∀ n, n < 4 → o.reg = 20 + n → Answer.gives (exec (.swr o) s) (fun t => s.wordFrame t w o.mark ∧ t.cc = s.cc
        ∧ t.group (groupOf w) = { s.group (groupOf w) with vw := (t.group (groupOf w)).vw, hist := (t.group (groupOf w)).hist }
        ∧ s.sameShared t (groupOf w) none none (some n) ∧ (t.waveVw w n).toNat = bits (s.sReg o.a) 47 10 * 1024
        ∧ ∀ m, (t.groupVw (groupOf w) m).toNat = if m = n then bits (s.sReg o.a) 47 10 * 1024 else (s.groupVw (groupOf w) m).toNat))
      ∧ (∀ n, n < 16 → o.reg = 32 + n → Answer.gives (exec (.swr o) s) (fun t => s.unitFrame t w o.mark ∧ t.cc = s.cc
        ∧ t.crews = s.crews ∧ t.cores = s.cores ∧ t.clusters = s.clusters
        ∧ (∀ l, l ≠ s.waveLaunch w → t.launch l = s.launch l)
        ∧ t.launch (s.waveLaunch w) = { s.launch (s.waveLaunch w) with pools := (t.launch (s.waveLaunch w)).pools }
        ∧ ∀ m, t.pool (s.waveLaunch w) m = if m = n then { s.pool (s.waveLaunch w) n with
            limit := min (max (s.sReg o.a / 2 ^ 32) (s.pool (s.waveLaunch w) n).next) (s.poolNodes (s.waveLaunch w) n) }
          else s.pool (s.waveLaunch w) m)))
    ∧ (∀ k, s.cur = .seq k → (s.seqOf k).idem = false →
      (o.reg = 24 → Answer.gives (exec (.swr o) s) (fun t => s.seqPass t k { s.seqOf k with
        derr := (s.seqOf k).derr && !bit (s.sReg o.a) 60
        dcount := (s.seqOf k).dcount &&& (2 ^ 32 - 1 - s.sReg o.a % 2 ^ 32) }))
      ∧ (o.reg = 25 → Answer.gives (exec (.swr o) s) (fun t => s.seqPass t k { s.seqOf k with
        seqDerr := if bit (s.sReg o.a) 63 then (s.seqOf k).seqDerr % 2 ^ 63 else (s.seqOf k).seqDerr }))
      ∧ (∀ n, n < 16 → o.reg = 32 + n → Answer.gives (exec (.swr o) s) (fun t =>
        t = { s with clusters := t.clusters, launches := t.launches, free := t.free }
        ∧ t.seqOf k = { s.seqOf k with word := (s.seqOf k).word + 1, park := .run }
        ∧ ∀ m, t.pool (s.seqLaunch k) m = if m = n then { s.pool (s.seqLaunch k) n with
            limit := min (max (s.sReg o.a / 2 ^ 32) (s.pool (s.seqLaunch k) n).next) (s.poolNodes (s.seqLaunch k) n) }
          else s.pool (s.seqLaunch k) m))))

/-- A paired word (R230 to R232): both halves read before either writes, each in the lanes of its own guard. -/
def Obligations.PairedWords : Prop :=
  ∀ (s : State) (w : Nat) (o : Pair), s.cur = .wave w → (s.wave w).spec = none → o.h1.legal 0 256 = true → o.h2.legal 256 512 = true →
    s.halfOk w o.h1 0 → s.halfOk w o.h2 256 →
    Answer.gives (exec (.pairedWord o) s) (fun t => s.registerFrame t w 1 ∧ (t.wave w).cc = (s.wave w).cc
      ∧ s.sameGroupRegs t (groupOf w) ∧ (∀ x p, t.progPrd w x p = s.progPrd w x p)
      ∧ (∀ x, (s.thread (groupOf w) x).sameRest (t.thread (groupOf w) x))
      ∧ (∀ x n, ¬(s.halfActive w o.h1 0 x ∧ ∃ a ∈ o.h1.writes 0, a.start ≤ n ∧ n < a.start + a.width) →
        ¬(s.halfActive w o.h2 256 x ∧ ∃ a ∈ o.h2.writes 256, a.start ≤ n ∧ n < a.start + a.width) →
        t.progNib w x n = s.progNib w x n)
      ∧ (∀ x, s.halfActive w o.h1 0 x → o.h1.isNop = false → s.halfResult t w o.h1 0 x)
      ∧ (∀ x, s.halfActive w o.h2 256 x → o.h2.isNop = false → s.halfResult t w o.h2 256 x))

/-- TRAP, BREAK and ECALL (R346, R372, R373, R375): at THREAD level the wave enters the handler of the cause's row with what it
saves; in a handler the crew ends with DOUBLE_FAULT, and without a handler with KILLED. TRAP with its flag 0 passes.

TRET (R348, R374, R377, R380): RETRY and SKIP give back what the trap saved, the watchdog count from 0 after WATCHDOG and DEADLINE;
KILLTASK ends the threads, and KILLCREW the crew with KILLED. -/
def Obligations.Traps : Prop :=
  (
  ∀ (s : State) (w : Nat), s.cur = .wave w → (s.wave w).spec = none →
    let h := (s.waveMod w).traps.getD 5 4095
    let act := laneMask (s.occupied w)
    let seg := (s.wave w).seg
    ((s.wave w).level = .thread → h ≠ 4095 →
      (∀ o : Code, Answer.gives (exec (.brk o) s) (fun t => s.inHandler t w h .brk o.code act 1)
        ∧ Answer.gives (exec (.ecall o) s) (fun t => s.inHandler t w h .ecall o.code act 1))
      ∧ ∀ o : Sys2Proof.Trap, (flagList (s.wave w).cc)[o.sel]? = some true →
        Answer.gives (exec (.trap o) s) (fun t => s.inHandler t w h .brk o.code act 1))
    ∧ (∀ o : Sys2Proof.Trap, (flagList (s.wave w).cc)[o.sel]? = some false →
      Answer.gives (exec (.trap o) s) (fun t => s.wordFrame t w o.mark ∧ t.groups = s.groups ∧ t.cc = s.cc))
    ∧ ((s.wave w).level = .thread → h = 4095 → ∀ o : Code,
      Answer.gives (exec (.brk o) s) (fun t => s.crewKilled t (crewOf w) 13 (12 + 256 * seg))
      ∧ Answer.gives (exec (.ecall o) s) (fun t => s.crewKilled t (crewOf w) 13 (13 + 256 * seg)))
    ∧ ((s.wave w).level = .trap → ∀ o : Code,
      Answer.gives (exec (.brk o) s) (fun t => s.crewKilled t (crewOf w) 12 0)
      ∧ Answer.gives (exec (.ecall o) s) (fun t => s.crewKilled t (crewOf w) 12 0)))
  ∧ (
  ∀ (s : State) (w : Nat) (f : TrapFrame) (o : Nul), s.cur = .wave w → (s.wave w).level = .trap → (s.wave w).frame = some f →
    (s.wave w).pend = [] →
    let back := fun (word : Nat) (retry : Option Nat) => { s.wave w with
      seg := f.seg, word := word, level := Level.thread, cc := f.cc, lc := f.lc, frame := none, park := .run, retry := retry, held := none
      wdBase := if f.cause = .watchdog ∨ f.cause = .deadline then 0 else f.wd, wdSince := s.coreCycles (s.waveCore w) }
    Answer.gives (exec (.tretRetry o) s) (fun t => t = { s with waves := t.waves, free := t.free }
      ∧ (∀ x, x ≠ w → t.wave x = s.wave x) ∧ t.wave w = back f.word f.rerun)
    ∧ Answer.gives (exec (.tretSkip o) s) (fun t => t = { s with waves := t.waves, free := t.free }
      ∧ (∀ x, x ≠ w → t.wave x = s.wave x) ∧ t.wave w = back (f.word + f.skip) none)
    ∧ ((s.launch (s.waveLaunch w)).rec_.task = false → (s.launch (s.waveLaunch w)).deadlineFell = false →
      Answer.gives (exec (.tretKilltask o) s) (fun t => s.sorted t w (fun _ => 4095)))
    ∧ Answer.gives (exec (.tretKillcrew o) s) (fun t => s.crewKilled t (crewOf w) 13 (causeCode f.cause + 256 * f.seg)))

/-- What a wave meets without a word of its own (R111, R116 to R119, R177, R195, R198, R290, R372): a result arrives without a change
of any value in program order; waits end; a speculative wave's stores leave, or it rolls back; the watchdog traps. -/
def Obligations.WaveEvents : Prop :=
  ∀ (s : State) (w : Nat),
    (∀ i r, (s.wave w).pend[i]? = some r → Answer.gives (exec (.longResultWrite w i) s) (fun t =>
      t = { s with waves := t.waves, groups := t.groups, free := t.free } ∧ (∀ g, g ≠ groupOf w → t.group g = s.group g)
      ∧ s.sameGroupRegs t (groupOf w) ∧ (∀ x, x ≠ w → t.wave x = { s.wave x with park := (t.wave x).park, readyAt := (t.wave x).readyAt })
      ∧ t.wave w = { s.wave w with pend := (t.wave w).pend, park := (t.wave w).park, readyAt := (t.wave w).readyAt }
      ∧ (t.wave w).pend.length + 1 = (s.wave w).pend.length
      ∧ (∀ x n, t.progNib w x n = s.progNib w x n) ∧ (∀ x p, t.progPrd w x p = s.progPrd w x p)
      ∧ (∀ x n v, valuesOf r.cells x n v → tabGet (t.thread (groupOf w) x).slices 0 n = v)
      ∧ (∀ x n v, valuesOf r.prds x n v → tabGet (t.thread (groupOf w) x).preds false n = v)))
    ∧ (∀ sc, (s.wave w).park = .release sc → s.isSaved (crewOf w) = false → (s.wave w).relGate = none → s.releaseDone w sc = true →
      Answer.gives (exec (.releaseWaitEnd w) s) (fun t => s.onlyWave t w ∧ t.wave w = { s.wave w with park := .run, readyAt := s.coreCycles (s.waveCore w) }))
    ∧ (∀ sc, (s.wave w).park = .run → s.isSaved (crewOf w) = false → (s.wave w).relGate = some sc → s.releaseDone w sc = true →
      Answer.gives (exec (.releaseWaitEnd w) s) (fun t => s.onlyWave t w ∧ t.wave w = { s.wave w with relGate := none }))
    ∧ (∀ n mark, (s.wave w).park = .iinv n mark → s.isSaved (crewOf w) = false → Answer.gives (exec (.iinvComplete w) s) (fun t => s.onlyWave t w
      ∧ t.wave w = { s.wave w with
          park := if mark = true ∧ (s.wave w).pend ≠ [] then .marker else .run, readyAt := s.coreCycles (s.waveCore w) }))
    ∧ (∀ p, (s.wave w).spec = some p → s.isSaved (crewOf w) = false → p.conflict = false → s.releaseDone w p.scope = true →
      (∀ sc, (s.wave w).relGate = some sc → s.releaseDone w sc = true) →
      Answer.gives (exec (.specFenceComplete w) s) (fun t =>
        t = { s with waves := t.waves, cores := t.cores, free := t.free } ∧ (∀ x, x ≠ w → t.wave x = s.wave x)
        ∧ t.wave w = { s.wave w with
            spec := none, park := if (s.wave w).park = .spec then .run else (s.wave w).park, out := (t.wave w).out
            know := joinKnow (s.wave w).know (s.group (groupOf w)).hist.released
            readyAt := if (s.wave w).park = .spec then s.coreCycles (s.waveCore w) else (s.wave w).readyAt }
        ∧ (t.wave w).out.map (fun x => x.cells) = (s.wave w).out.map (fun x => x.cells) ++ p.stores.flatten.map (fun x => x.cells)
        ∧ ∀ a, t.store.byte a = s.store.byte a))
    ∧ (∀ p, (s.wave w).spec = some p → s.isSaved (crewOf w) = false → p.conflict = true →
      Answer.gives (exec (.specConflictRollback w) s) (fun t =>
      t = { s with waves := t.waves, groups := t.groups, free := t.free } ∧ (∀ g, g ≠ groupOf w → t.group g = s.group g)
      ∧ (∀ x, x ≠ w → t.wave x = if groupOf x = groupOf w ∧ (s.wave x).park = .quota then
          { s.wave x with park := .run, readyAt := s.coreCycles (s.waveCore x) } else s.wave x)
      ∧ s.sameGroupRegs t (groupOf w)
      ∧ t.wave w = { s.wave w with
          cc := p.ckCc, lc := p.ckLc, pend := [], retry := none, held := none, seg := p.seg, word := p.word
          readyAt := s.coreCycles (s.waveCore w)
          park := if 3 ≤ p.rollbacks then .spec else .run
          spec := some { p with undo := [], watches := [], stores := [], conflict := false, rollbacks := p.rollbacks + 1 } }
      ∧ (∀ x n v, valuesOf p.undo x n v → tabGet (t.thread (groupOf w) x).slices 0 n = v)
      ∧ (∀ x n, (∀ v, (x, n, v) ∉ p.undo) →
        tabGet (t.thread (groupOf w) x).slices 0 n = tabGet (s.thread (groupOf w) x).slices 0 n)
      ∧ (∀ x ps, (x, ps) ∈ p.ckPreds → (∀ qs, (x, qs) ∈ p.ckPreds → qs = ps) → (t.thread (groupOf w) x).preds = ps)))
    ∧ (∀ s1 x lit, (tabFind s.waves w).isSome = true → (s.wave w).park = .run → s.crewFrozen (crewOf w) = false →
      s.fetchWave w = (s1, .words x lit) → (s1.wave w).level = .thread → (s1.wave w).spec = none →
      let r := (s1.launch (s1.waveLaunch w)).rec_
      let act := laneMask (s1.occupied w)
      let skip := if isLitWord x then 2 else 1
      ((s1.launch (s1.waveLaunch w)).deadlineFell = false → r.segLim ≠ 0 → r.segLim * 1024 ≤ s1.wdCount w →
        (s1.waveMod w).handlerOf .watchdog ≠ 4095 → Answer.gives (exec (.segmentWatchdogExpiry w) s) (fun t =>
          s1.inHandler t w ((s1.waveMod w).handlerOf .watchdog) .watchdog 0 act skip))
      ∧ ((s1.launch (s1.waveLaunch w)).deadlineFell = true → r.dgrace ≠ 0 → r.dgrace * 1024 ≤ s1.wdCount w →
        (s1.waveMod w).handlerOf .deadline ≠ 4095 → Answer.gives (exec (.segmentWatchdogExpiry w) s) (fun t =>
          s1.inHandler t w ((s1.waveMod w).handlerOf .deadline) .deadline 0 act skip)))

/-- A wave is formed from a bucket in a free slot (R168, R169, R174), each lane's thread the earliest of its bucket unless a batch
waits, whose threads of its lowest home wave then form; a bucket that has aged is formed first, the oldest before the others (R176);
and waves enter and leave the active set (R366, R367). That a formed wave takes the lowest free slot is the model's choice (log entry 83). -/
def Obligations.WaveSelection : Prop :=
  ∀ s : State,
    (∀ g slot rest seg, s.crewFrozen (g / 8) = false → s.freeSlots g = slot :: rest → s.formingSeg g = some seg →
      Answer.gives (exec (.waveFormation g) s) (fun t =>
        let b := (s.group g).bucket seg
        let v := t.wave (8 * g + slot)
        t = { s with waves := t.waves, groups := t.groups } ∧ (∀ x, x ≠ 8 * g + slot → t.wave x = s.wave x)
        ∧ (∀ x, x ≠ g → t.group x = s.group x)
        ∧ t.group g = { s.group g with threads := (t.group g).threads }
        ∧ v.seg = seg ∧ v.word = 0 ∧ v.level = .thread ∧ v.park = .run ∧ v.pend = [] ∧ v.cc = Cc.zero ∧ v.spec = none
        ∧ v.know = (s.group g).hist.released
        ∧ (∀ l h, (l, h) ∈ v.lanes → ∃ e ∈ b, e.1 = 32 * h + l ∧ (t.thread g e.1).place = .formed slot
          ∧ (t.thread g e.1).slices = (s.thread g e.1).slices ∧ (t.thread g e.1).preds = (s.thread g e.1).preds)
        ∧ (∀ x, (∀ e ∈ b, e.1 ≠ x) → t.thread g x = s.thread g x)
        ∧ ((∀ e ∈ b, e.2.2 = 0) → ∀ e ∈ b, ∃ h y, tabFind v.lanes (e.1 % 32) = some h ∧ y ∈ b ∧ y.1 = 32 * h + e.1 % 32
          ∧ y.2.1 ≤ e.2.1)
        ∧ ((∃ e ∈ b, e.2.2 ≠ 0) → ∃ n h, n ≠ 0 ∧ (∃ e ∈ b, e.2.2 = n ∧ e.1 / 32 = h) ∧ (∀ e ∈ b, e.2.2 ≠ 0 → n ≤ e.2.2)
          ∧ (∀ e ∈ b, e.2.2 = n → h ≤ e.1 / 32)
          ∧ ∀ l y, tabFind v.lanes l = some y ↔ y = h ∧ ∃ e ∈ b, e.2.2 = n ∧ e.1 / 32 = h ∧ e.1 % 32 = l)))
    ∧ (∀ g seg, (s.group g).bucketSegs.contains seg = true → s.ageMax g ≤ s.bucketAge g seg →
      Answer.gives (exec (.bucketAgeMax g seg) s) (fun t => exec (.waveFormation g) s = .next t)
      ∧ ∃ m, s.formingSeg g = some m ∧ (s.group g).bucketSegs.contains m = true ∧ s.ageMax g ≤ s.bucketAge g m
        ∧ ∀ x, (s.group g).bucketSegs.contains x = true → s.bucketAge g x ≤ s.bucketAge g m)
    ∧ (∀ c q e, s.oldestPending c q = some e →
      let act := (s.partWaves c q).filter (fun x => x.2.active)
      (act.length < 8 → Answer.gives (exec (.waveParkExchange c q) s) (fun t => s.exchanged t e.1 none))
      ∧ (8 ≤ act.length → (∃ x ∈ act, x.2.ready = false) → Answer.gives (exec (.waveParkExchange c q) s) (fun t =>
        ∃ x ∈ act, x.2.ready = false ∧ (∀ y ∈ act, y.2.ready = false → x.2.lastPark ≤ y.2.lastPark)
          ∧ s.exchanged t e.1 (some x.1))))
    ∧ (∀ c q,
      let late := (s.partWaves c q).filter (fun e => !e.2.active && e.2.ready && decide (e.2.waitsFrom + 1024 ≤ s.coreCycles c))
      let act := (s.partWaves c q).filter (fun x => x.2.active)
      late ≠ [] → act ≠ [] → Answer.gives (exec (.pendingWaveExchange c q) s) (fun t =>
        ∃ e ∈ late, (∀ y ∈ late, e.2.order ≤ y.2.order) ∧ ∃ x ∈ act, (∀ y ∈ act, x.2.lastPark ≤ y.2.lastPark)
          ∧ s.exchanged t e.1 (some x.1)))

/-- Caches and translations (R41, R46, R60, R107): a prefetch fills a line with a lease, leases end, a tile fill takes its way, a walk
serves its waiters, and an invalidation leaves no TLB and no pointer cache with a matching entry. How a full set gives up a line (log
entry 23) and a full TLB an entry (log entry 26) is the model's. -/
def Obligations.CacheSteps : Prop :=
  ∀ s : State,
    (∀ c r rest, (s.core c).prefs = r :: rest → Answer.gives (exec (.l1LineFill c) s) (fun t =>
      t = { s with cores := t.cores, mem := t.mem, clusters := t.clusters, dev := t.dev } ∧ t.store = s.store
      ∧ (∀ x, x ≠ c → t.core x = s.core x)
      ∧ t.core c = { s.core c with
          prefs := rest, l1d := (t.core c).l1d }
      ∧ (r.level ≠ 0 ∨ s.lineInFlight c r.line = true → (t.core c).l1d = (s.core c).l1d)
      ∧ (r.level = 0 → s.lineInFlight c r.line = false → ∃ l, (t.core c).l1d = l1Copy s.store r.line (s.dt + leaseNs r.cls) :: l
        ∧ (∀ x ∈ l, x ∈ (s.core c).l1d ∧ x.line ≠ r.line)
        ∧ (∀ x ∈ (s.core c).l1d, x.line % l1Sets (s.core c).split ≠ r.line % l1Sets (s.core c).split → x ∈ l)
        ∧ (l.filter (fun x => x.line % l1Sets (s.core c).split == r.line % l1Sets (s.core c).split)).length ≤ 7)
      ∧ (s.store.poisoned (64 * r.line) 64 = false → t.clusters = s.clusters ∧ t.dev = s.dev)))
    ∧ (∀ c, Answer.gives (exec (.leaseExpiry c) s) (fun t =>
      t = { s with cores := t.cores, clusters := t.clusters } ∧ (∀ x, x ≠ c → t.core x = s.core x)
      ∧ (∀ x, x ≠ clusterOf c → t.cluster x = s.cluster x)
      ∧ t.core c = { s.core c with l1d := (s.core c).l1d.filter (fun x => decide (s.dt < x.expiry)) }
      ∧ t.cluster (clusterOf c) = { s.cluster (clusterOf c) with
          tiles := (s.cluster (clusterOf c)).tiles.filter (fun x => decide (s.dt < x.expiry)) }
      ∧ ∀ a, t.store.byte a = s.store.byte a))
    ∧ (∀ k i f, (s.cluster k).fills[i]? = some f → Answer.gives (exec (.tileFillComplete k i) s) (fun t => s.onlyCluster t k
      ∧ t.cluster k = { s.cluster k with fills := listDel (s.cluster k).fills i, tiles := (t.cluster k).tiles }
      ∧ (f.drop = true ∨ s.bankMode k f.bank ≠ 0 → (t.cluster k).tiles = (s.cluster k).tiles)
      ∧ (f.drop = false → s.bankMode k f.bank = 0 →
        (∃ x ∈ (t.cluster k).tiles, x.slot = f.slot ∧ x.tx = f.tx ∧ x.ty = f.ty ∧ x.tz = f.tz ∧ x.bank = f.bank ∧ x.expiry = f.expiry
          ∧ x.bytes = f.bytes ∧ x.poison = f.poison)
        ∧ (t.cluster k).tiles.length ≤ (s.cluster k).tiles.length + 1
        ∧ ∀ x ∈ (s.cluster k).tiles, x ∈ (t.cluster k).tiles ∨ x.bank = f.bank)))
    ∧ (∀ k m x, s.running = [(k, m)] → (∀ j, ∀ y ∈ (s.cluster j).misses, y.walking = true) → m.waiters = [x] → s.dev.tlbBusy = false →
      let u := s.setCluster k { s.cluster k with misses := (s.cluster k).misses.filter (fun y => y != m) }
      let walk := u.walkRaw { core := none, cluster := k, crew := none, launch := 0 } m.ctx (m.page * 65536) false
      (∀ s1 c, walk = (s1, .error c) → Answer.gives (exec (.pageWalkComplete 0) s) (fun t => t = s1))
      ∧ (∀ s1 e, walk = (s1, .ok e) →
        Answer.gives (exec (.pageWalkComplete 0) s) (fun t => t = { s1 with cores := t.cores } ∧ (∀ c, c ≠ x.core → t.core c = s1.core c)
          ∧ t.core x.core = { s1.core x.core with prefs := (t.core x.core).prefs, tlb := (t.core x.core).tlb }
          ∧ (t.core x.core).tlb.head? = some e ∧ (∀ y ∈ (t.core x.core).tlb, y = e ∨ y ∈ (s1.core x.core).tlb)
          ∧ (∀ c, s1.leafPlace e x.va .load = .error c → (t.core x.core).prefs = (s1.core x.core).prefs)
          ∧ ∀ pa cls, s1.leafPlace e x.va .load = .ok (pa, cls) →
            (t.core x.core).prefs = if cls = 0 ∨ isPlace3 pa = true then (s1.core x.core).prefs
              else (s1.core x.core).prefs ++ [{ line := if x.level = 0 then pa / 64 else pa / 128, cls := cls, level := x.level }])))
    ∧ (s.dev.tlbBusy = false → ∀ ctx vpn, ctx < 4096 → vpn < 2 ^ 36 →
      Answer.gives (exec .tlbInvAll s) (fun t => s.onlyDev t
        ∧ t.dev = { s.dev with tlbMode := 0, tlbCtx := s.dev.tlbCtx % 4096, tlbVpn := s.dev.tlbVpn % 2 ^ 36, tlbBusy := true })
      ∧ Answer.gives (exec (.tlbInvContext ctx) s) (fun t => s.onlyDev t
        ∧ t.dev = { s.dev with tlbMode := 1, tlbCtx := ctx, tlbVpn := s.dev.tlbVpn % 2 ^ 36, tlbBusy := true })
      ∧ Answer.gives (exec (.tlbInvPage ctx vpn) s) (fun t => s.onlyDev t
        ∧ t.dev = { s.dev with tlbMode := 2, tlbCtx := ctx, tlbVpn := vpn, tlbBusy := true }))
    ∧ (s.dev.tlbBusy = true → s.noLateAccess = true →
      Answer.gives (exec .tlbInvComplete s) (fun t => t.dev.tlbBusy = false
      ∧ ∀ e, ((∃ c, e ∈ (t.core c).tlb) ∨ ∃ k, e ∈ (t.cluster k).tlb) → s.dev.tlbMode ≠ 0 ∧ (s.dev.tlbMode = 1 → e.ctx ≠ s.dev.tlbCtx)
        ∧ (e.ctx = s.dev.tlbCtx → e.vpn ≠ vpnOf (s.dev.tlbVpn * 4096) e.big)
      ∧ ∀ p ∈ t.mem.ptrs, s.dev.tlbMode ≠ 0 ∧ (s.dev.tlbMode = 1 → p.ctx ≠ s.dev.tlbCtx)
        ∧ (p.ctx = s.dev.tlbCtx → p.index ≠ walkPrefix (s.dev.tlbVpn * 4096) p.level)))
    ∧ (s.dev.tlbBusy = true → s.noLateAccess = false → exec .tlbInvComplete s = .next s)

/-- Errors of near memories and of vaults (R66 to R69, R79, R85): each is logged and a corrected one counted, a cache loses the line, and
what is lost elsewhere is poisoned, in a vault where no line of the L2 stands before it; vault sensors, refresh and DRAM (R81, R86). The byte offset of a vault row that enters the repair
map, and what a step finds, are the model's (a row of 2 KiB, log entry 46). -/
def Obligations.ScrubsAndSensors : Prop :=
  ∀ s : State,
    (∀ k unit place off, exec (.nearScrubStep k unit place off 0) s = .next s)
    ∧ (∀ k unit place off err, unit < 10 → 0 < err →
      let rec_ := unit * 2 ^ 56 + (if unit < 3 then place % 4 else 0) * 2 ^ 54
        + (if 3 ≤ unit ∧ unit ≤ 5 then place % 32 else 0) * 2 ^ 49 + off % 2 ^ 48
      let c := coreAt k (place % 4)
      let quiet := fun t => t = { s with clusters := t.clusters, dev := t.dev } ∧ s.nearLogged t k 0 rec_
        ∧ t.cluster k = { s.cluster k with nearErr := (t.cluster k).nearErr, nearCe := (t.cluster k).nearCe }
      let lost := fun t => t = { s with clusters := t.clusters, mem := t.mem, dev := t.dev } ∧ s.nearLogged t k (kindOf err) rec_
        ∧ t.cluster k = { s.cluster k with nearErr := (t.cluster k).nearErr }
      (kindOf err = 0 → Answer.gives (exec (.nearScrubStep k unit place off err) s) quiet)
      ∧ (kindOf err ≠ 0 → unit = 0 → Answer.gives (exec (.nearScrubStep k unit place off err) s) (fun t =>
        t = { s with cores := t.cores, clusters := t.clusters, dev := t.dev } ∧ s.nearLogged t k 0 rec_ ∧ (∀ x, x ≠ c → t.core x = s.core x)
        ∧ t.core c = { s.core c with l1i := (t.core c).l1i, fbufs := (t.core c).fbufs }
        ∧ (∀ l, l ∈ (t.core c).l1i ↔ l ∈ (s.core c).l1i ∧ (s.core c).codeLines[off / 64]? ≠ some l.line)
        ∧ ∀ q l, l ∈ tabGet (t.core c).fbufs [] q
          ↔ l ∈ tabGet (s.core c).fbufs [] q ∧ (s.core c).codeLines[off / 64]? ≠ some l.line))
      ∧ (kindOf err ≠ 0 → unit = 1 → Answer.gives (exec (.nearScrubStep k unit place off err) s) (fun t =>
        t = { s with cores := t.cores, clusters := t.clusters, dev := t.dev } ∧ s.nearLogged t k 0 rec_ ∧ (∀ x, x ≠ c → t.core x = s.core x)
        ∧ t.core c = { s.core c with l1d := listDel (s.core c).l1d (off / 64) }))
      ∧ (kindOf err ≠ 0 → unit = 4 → Answer.gives (exec (.nearScrubStep k unit place off err) s) (fun t =>
        t = { s with clusters := t.clusters, dev := t.dev } ∧ s.nearLogged t k 0 rec_
        ∧ ∀ x, x ∈ (t.cluster k).tiles ↔
          x ∈ (s.cluster k).tiles ∧ ¬(x.bank = place % 32 ∧ tileSet x.slot x.tx x.ty x.tz = off / 1024 % 128)))
      ∧ (kindOf err ≠ 0 → unit = 5 → place % 32 ≠ 31 → s.rowAt k (place % 32) off = none →
        Answer.gives (exec (.nearScrubStep k unit place off err) s) lost)
      ∧ (kindOf err ≠ 0 → unit ∈ [2, 3, 6, 7, 8, 9] → Answer.gives (exec (.nearScrubStep k unit place off err) s) (fun t =>
        (unit ≠ 9 → lost t)
        ∧ (unit = 9 → t = { s with clusters := t.clusters, cores := t.cores, dev := t.dev } ∧ s.nearLogged t k (kindOf err) rec_
          ∧ ∀ x, (s.core x).swap.saved ≠ [] → x = coreAt k (off / 196608 / 8 % 4) → off / 196608 % 8 ∈ (t.core x).swap.lost)
        ∧ (unit = 2 → t.store.poisoned (spKey c off) 1 = true ∧ t.store.tagAt (spKey c off) = false)
        ∧ (unit = 3 → t.store.poisoned (poolKey k (place % 32 * 131072 + off)) 1 = true
          ∧ t.store.tagAt (poolKey k (place % 32 * 131072 + off)) = false)
        ∧ (unit = 6 → t.store.poisoned (opKey k off) 1 = true) ∧ (unit = 7 → t.store.poisoned (accKey k off) 1 = true)
        ∧ (unit = 8 → t.store.poisoned (weightKey k (off / 40960) (off % 40960)) 1 = true))))
    ∧ (∀ v off, exec (.vaultScrubStep v off 0) s = .next s)
    ∧ (∀ v off err, v < 32 → off < 384 * 1048576 → 0 < err →
      let pa := s.vaultAddr v off
      Answer.gives (exec (.vaultScrubStep v off err) s) (fun t => s.farLogged t v (kindOf err) (12 * 2 ^ 56 + pa / 8 * 8 % 2 ^ 48)
        ∧ (kindOf err ≠ 0 → s.inL2 pa = true → t.store = s.store)
        ∧ (kindOf err ≠ 0 → s.inL2 pa = false → t.store.poisoned pa 1 = true ∧ t.store.tagAt pa = false)
        ∧ (kindOf err = 0 → t.store = s.store
          ∧ tabGet (t.vault v).rowErrs 0 (off / 2048) = tabGet (s.vault v).rowErrs 0 (off / 2048) + 1)))
    ∧ (∀ v z, v < 32 → Answer.gives (exec (.vaultTempSample v z) s) (fun t =>
      t = { s with mem := t.mem, power := t.power, dev := t.dev, clusters := t.clusters } ∧ t.store = s.store
      ∧ (∀ x, x ≠ v → t.vault x = s.vault x)
      ∧ (let up := if z ≤ 85 then 0 else if z ≤ 95 then 1 else if z ≤ 105 then 2 else 3
         let keep : Int := if (s.vault v).cls = 1 then 82 else if (s.vault v).cls = 2 then 92 else 102
         t.vault v = { s.vault v with temp := z, cls := if (s.vault v).cls < up then up
          else if 0 < (s.vault v).cls ∧ z ≤ keep then (s.vault v).cls - 1 else (s.vault v).cls })
      ∧ (115 ≤ z → bit t.power.sources 3 = true)))
    ∧ (∀ v, v < 32 → Answer.gives (exec (.vaultRefresh v) s) (fun t => t = { s with mem := t.mem } ∧ t.store = s.store
      ∧ (∀ x, x ≠ v → t.vault x = s.vault x) ∧ t.vault v = { s.vault v with refreshes := (s.vault v).refreshes + 1 }))
    ∧ (∀ z, Answer.gives (exec (.dramTempPoll z) s) (fun t => t = { s with mem := { s.mem with dramTemp := z } }))
    ∧ (∀ n, n < 16 → Answer.gives (exec (.perBankRefresh n) s) (fun t =>
      t = { s with mem := { s.mem with dramRefreshes := t.mem.dramRefreshes } }
      ∧ ∀ x, tabGet t.mem.dramRefreshes 0 x = tabGet s.mem.dramRefreshes 0 x + if x = n then 1 else 0))

/-- Errors of the L2 and of the external DRAM (R78, R79, R87): a corrected one is counted; an uncorrectable one poisons the damaged word,
or every word of a compressed line, or every word of the lines of a tag entry, whose tags clear; a line whose entry cannot be read back
leaves its frame, and a zero line has no stored bytes; a DRAM error counts in, or poisons a granule of, its subchannel, where no line
of the L2 stands before it. Which error a step finds is the model's (log entry
46). -/
def Obligations.OuterMemoryErrors : Prop :=
  ∀ s : State,
    (∀ k pa err e, k < 32 → 0 < err → e ∈ s.mem.l2 → e.line = pa / 128 → l2Slice pa = k →
      (footprint s.store (pa / 128) = 0 → exec (.vaultScrubStep (32 + k) pa err) s = .next s)
      ∧ (footprint s.store (pa / 128) ≠ 0 → Answer.gives (exec (.vaultScrubStep (32 + k) pa err) s) (fun t =>
        s.farLogged t k (kindOf err) (10 * 2 ^ 56 + pa / 8 * 8 % 2 ^ 48)
        ∧ (kindOf err = 0 → t.store = s.store ∧ tabGet t.mem.l2Ce 0 k = tabGet s.mem.l2Ce 0 k + 1)
        ∧ (kindOf err ≠ 0 → t.store.poisoned (pa / 8 * 8) 8 = true
          ∧ (footprint s.store (pa / 128) ≠ 128 → ∀ i, i < 16 → t.store.poisoned (pa / 128 * 128 + 8 * i) 8 = true)
          ∧ t.store.tags = s.store.tags))))
    ∧ (∀ k x err, k < 32 → x < 16384 → 0 < err →
      let mine := fun (e : L2Tag) => l2SetOf e.line = k * 1024 + x / 16 ∧ e.frame = x % 16
      Answer.gives (exec (.vaultScrubStep (64 + k) x err) s) (fun t =>
        (∀ y, y ≠ k → tabGet t.mem.farErr 0 y = tabGet s.mem.farErr 0 y)
        ∧ loggedIn (tabGet s.mem.farErr 0 k) (tabGet t.mem.farErr 0 k) (kindOf err) (11 * 2 ^ 56 + x)
        ∧ (kindOf err = 0 → t.store = s.store ∧ tabGet t.mem.l2Ce 0 k = tabGet s.mem.l2Ce 0 k + 1)
        ∧ (kindOf err ≠ 0 → err ≠ 5 → (∀ a, t.store.byte a = s.store.byte a) ∧ ∀ e ∈ s.mem.l2, mine e → ∀ i, i < 16 →
          t.store.poisoned (128 * e.line + 8 * i) 8 = true ∧ t.store.tagAt (128 * e.line + 8 * i) = false)
        ∧ (err = 5 → (∀ e ∈ t.mem.l2, e ∈ s.mem.l2 ∧ ¬mine e)
          ∧ ∀ a, (∀ e ∈ s.mem.l2, mine e → e.dirty = true → a / 128 ≠ e.line) → t.store.byte a = s.store.byte a)))
    ∧ (∀ c x err, c < 16 → x < usableDram → 0 < err → s.mem.dramOut = false → extSub (0x001000000000 + x) = c →
      Answer.gives (exec (.vaultScrubStep (96 + c) x err) s) (fun t =>
        s.farLogged t (2 * c) (kindOf err) (13 * 2 ^ 56 + c * 2 ^ 48 + (0x001000000000 + x) / 8 * 8 % 2 ^ 48)
        ∧ (kindOf err = 0 → t.store = s.store ∧ tabGet t.mem.dramCe 0 c = tabGet s.mem.dramCe 0 c + 1)
        ∧ (kindOf err ≠ 0 → s.inL2 (0x001000000000 + x) = true → t.store = s.store)
        ∧ (kindOf err ≠ 0 → s.inL2 (0x001000000000 + x) = false → t.store.poisoned (0x001000000000 + x) 1 = true ∧ t.store.tagAt (0x001000000000 + x) = false)))

/-- Memory set-up (R31, R42, R45, R51, R54, R55, R144, R340): tags minted, the interleave before the first placement, splits of empty
cores, bank modes, CSLR and pool limits. The model's choices here: a POOL_CMD for the mode that a bank has is answered before any refusal
(log entry 81), and the refusals are tested in the order of their list (log entry 71). -/
def Obligations.MemorySetup : Prop :=
  ∀ s : State,
    (∀ a, a < 2 ^ 48 → keepsTags (a / 16 * 16) = true → (s.physPlace (a / 16 * 16)).isSome = true →
      Answer.gives (exec (.capMintSet a) s) (fun t => t = s.setStore { s.store with tags := t.store.tags } ∧ t.store.tagAt a = true
        ∧ (∀ b, b / 16 ≠ a / 16 → t.store.tagAt b = s.store.tagAt b) ∧ ∀ b, t.store.byte b = s.store.byte b))
    ∧ (∀ a, a < 2 ^ 48 → Answer.gives (exec (.capMintClear a) s) (fun t =>
      t = s.setStore { s.store with tags := t.store.tags } ∧ t.store.tagAt a = false
        ∧ (∀ b, b / 16 ≠ a / 16 → t.store.tagAt b = s.store.tagAt b) ∧ ∀ b, t.store.byte b = s.store.byte b))
    ∧ (∀ v, Answer.gives (exec (.vaultSplitWrite v) s) (fun t => s.onlyDev t ∧ t.dev = { s.dev with
        intlv := if s.dev.placedOnce then s.dev.intlv else min (v % 512) 384 / 2 * 2 }))
    ∧ (∀ c v, c < 128 → s.liveCrews c = [] → Answer.gives (exec (.coreSramWrite c v) s) (fun t => s.onlyCore t c
      ∧ t.core c = if v % 4 = 3 then s.core c else { s.core c with split := v % 4, l1d := [] }))
    ∧ (∀ k b m, k < 32 → b < 32 → m < 4 → (s.cluster k).cmd.busy = false →
      let refuse := if s.bankOwned k b then some 1 else if m = 0 ∧ 16 ≤ (s.tileBanks k).length then some 2
        else if b = 31 ∨ m = 3 then some 3 else none
      Answer.gives (exec (.poolModeChange k b m) s) (fun t => s.onlyCluster t k
        ∧ t.cluster k = { s.cluster k with cmd := (t.cluster k).cmd, modes := (t.cluster k).modes, fills := (t.cluster k).fills }
        ∧ (t.cluster k).cmd.newMode = m ∧ (t.cluster k).cmd.bank = b ∧ (∀ x, x ≠ b → t.bankMode k x = s.bankMode k x)
        ∧ (s.bankMode k b = m → (t.cluster k).cmd.busy = false ∧ (t.cluster k).cmd.status = 0 ∧ t.bankMode k b = m
          ∧ (t.cluster k).fills = (s.cluster k).fills)
        ∧ (s.bankMode k b ≠ m → ∀ st, refuse = some st → (t.cluster k).cmd.busy = false ∧ (t.cluster k).cmd.status = st
          ∧ t.bankMode k b = s.bankMode k b ∧ (t.cluster k).fills = (s.cluster k).fills)
        ∧ (s.bankMode k b ≠ m → refuse = none → (t.cluster k).cmd.busy = true ∧ (t.cluster k).cmd.run = (b, m) ∧ t.bankMode k b = 3
          ∧ (t.cluster k).fills = (s.cluster k).fills.map (fun f => { f with drop := f.drop || f.bank == b }))))
    ∧ (∀ k, (s.cluster k).cmd.busy = true → (∀ f ∈ (s.cluster k).fills, f.bank ≠ (s.cluster k).cmd.run.1) →
      let b := (s.cluster k).cmd.run.1
      Answer.gives (exec (.poolDrainComplete k) s) (fun t => t = { s with clusters := t.clusters, mem := { s.mem with store := t.store } }
        ∧ (∀ j, j ≠ k → t.cluster j = s.cluster j) ∧ t.bankMode k b = (s.cluster k).cmd.run.2
        ∧ (∀ x, x ≠ b → t.bankMode k x = s.bankMode k x)
        ∧ t.cluster k = { s.cluster k with
            cmd := { (s.cluster k).cmd with busy := false, status := 0 }, modes := (t.cluster k).modes
            tiles := (s.cluster k).tiles.filter (fun x => x.bank != b) }
        ∧ (∀ i, i < 131072 → t.store.byte (poolKey k (b * 131072) + i) = 0)
        ∧ ∀ a, a < poolKey k (b * 131072) ∨ poolKey k (b * 131072) + 131072 ≤ a → t.store.byte a = s.store.byte a))
    ∧ (∀ k v, k < 32 → Answer.gives (exec (.cslrWrite k v) s) (fun t => s.onlyCluster t k ∧ t.cluster k = { s.cluster k with
        cslrEstimate := if bits v 23 16 = 0 then (s.cluster k).cslrEstimate else bits v 23 16, cslrStep := bits v 11 8
        cslrLimit := if bits v 7 0 = 0 then (s.cluster k).cslrLimit else bits v 7 0 }))
    ∧ (∀ l n v, (tabFind s.launches l).isSome = true → n < 16 → v < 2 ^ 32 → Answer.gives (exec (.poolLimitWrite l n v) s) (fun t =>
      s.onlyLaunch t l ∧ t.launch l = { s.launch l with pools := (t.launch l).pools } ∧ (∀ m, m ≠ n → t.pool l m = s.pool l m)
      ∧ t.pool l n = { s.pool l n with limit := min (max v (s.pool l n).next) (s.poolNodes l n) }))

/-- Rails and alarms (R395 to R399): a switch is refused or stops the clock until it is done; a source throttles every cluster and asserts
MSI-X vector 16; the throttle ends HOLD after the last source; and launches end level by level. The model's choices here: a switch that a
scheduler core needs follows the one under way (log entry 81), sources 2 and 3 follow what they count and read at each step, and an empty
level takes no time (log entry 55). -/
def Obligations.RailsAndAlarms : Prop :=
  ∀ s : State,
    (∀ k v, k < 32 → (s.cluster k).rail.busy = false → Answer.gives (exec (.railSwitch k v) s) (fun t =>
      let r := (s.cluster k).rail
      s.onlyCluster t k ∧ t.cluster k = { s.cluster k with rail := (t.cluster k).rail, clock := (t.cluster k).clock }
      ∧ t.cycles k = s.cycles k
      ∧ (r.rail = v % 2 → (t.cluster k).rail = { r with target := v % 2, status := 0 } ∧ (t.cluster k).clock = (s.cluster k).clock)
      ∧ (r.rail ≠ v % 2 → s.railPinned k (v % 2) = true → (t.cluster k).rail = { r with target := v % 2, status := 1 }
        ∧ (t.cluster k).clock = (s.cluster k).clock)
      ∧ (r.rail ≠ v % 2 → s.railPinned k (v % 2) = false → (t.cluster k).rail = { r with target := v % 2, going := v % 2, busy := true }
        ∧ (t.cluster k).clock.rate = 0)))
    ∧ (∀ k, (s.cluster k).rail.busy = true → (s.cluster k).rail.next = none → s.noDeadline →
      Answer.gives (exec (.railSwitchDone k) s) (fun t =>
      let r := (s.cluster k).rail
      s.onlyCluster t k ∧ t.cycles k = s.cycles k
      ∧ t.cluster k = { s.cluster k with
          rail := { r with busy := false, status := 0, rail := r.going }, clock := (t.cluster k).clock }
      ∧ rateIs (t.cluster k).clock.rate ((s.cluster k).brownout || (s.cluster k).lost) r.going s.power.throttled (s.cluster k).droop))
    ∧ (∀ k x, (s.cluster k).rail.busy = true → (s.cluster k).rail.next = some x → x ≠ (s.cluster k).rail.going → s.noDeadline →
      s.crews = [] → s.launches = [] → Answer.gives (exec (.railSwitchDone k) s) (fun t => s.onlyCluster t k ∧ t.cycles k = s.cycles k
        ∧ (t.cluster k).rail = { (s.cluster k).rail with
            status := 0, rail := (s.cluster k).rail.going, target := x, going := x, next := none }
        ∧ (t.cluster k).clock.rate = 0))
    ∧ (∀ i, i < 2 → bit s.power.sources i = false → Answer.gives (exec (.alarmSourceAssert i) s) (fun t =>
      t = { s with power := t.power, clusters := t.clusters, dev := { s.dev with msix := s.dev.msix ++ [16] } }
      ∧ t.power = { s.power with
          sources := s.power.sources + 2 ^ i, sticky := s.power.sticky ||| 2 ^ i, throttled := true
          alarmAt := if s.power.sources = 0 then s.dt else s.power.alarmAt }
      ∧ (s.power.throttled = true → t.clusters = s.clusters) ∧ (s.power.throttled = false → s.reclocked t true)))
    ∧ (max 1 s.power.droopLimit ≤ (s.power.droops.filter (fun x => decide (s.dt < x + 10000))).length →
      Answer.gives (exec (.alarmSourceAssert 2) s) (fun t => bit t.power.sources 2 = true))
    ∧ ((∃ e ∈ s.mem.vaults, 115 ≤ e.2.temp) ∨ (∃ e ∈ s.clusters, 110 ≤ sInt 8 e.2.temp) →
      Answer.gives (exec (.alarmSourceAssert 3) s) (fun t => bit t.power.sources 3 = true))
    ∧ (∀ i, i < 2 → bit s.power.sources i = true → Answer.gives (exec (.alarmSourceClear i) s) (fun t => s.onlyPower t
      ∧ t.power = { s.power with
          sources := s.power.sources - 2 ^ i
          holdUntil := if s.power.sources = 2 ^ i then s.dt + s.power.hold * 1000 else s.power.holdUntil
          killing := s.power.killing && decide (s.power.sources ≠ 2 ^ i) }))
    ∧ (s.power.throttled = true → s.power.sources = 0 → s.power.holdUntil ≤ s.dt →
      Answer.gives (exec .throttleRelease s) (fun t => t = { s with power := t.power, clusters := t.clusters }
        ∧ t.power = { s.power with throttled := false, klevel := 0, killing := false } ∧ s.reclocked t false))
    ∧ (s.power.throttled = true → s.power.sources ≠ 0 → s.power.killing = false →
      s.power.alarmAt + (if s.power.killWindow = 0 then 100 else s.power.killWindow) * 1000 ≤ s.dt →
      Answer.gives (exec .killSequence s) (fun t => s.levelKilled t))
    ∧ (s.power.killing = true → s.power.sources ≠ 0 → s.power.killAt ≤ s.dt →
      Answer.gives (exec .killLevelStep s) (fun t => s.levelKilled t))

/-- Droop, brownout and retention (R400 to R402): stretches count toward source 2; a brownout stops a clock and keeps every bit of state;
a cluster that loses its state ends the launches that had it, is zeroed, and returns with FAULT_N low. That the loss takes in scratchpads,
L1 lines, headraces, tiles and cisterns is the model's reading (log entry 56), and so is by how much a droop slows a clock (log entry 3). -/
def Obligations.LossOfSupply : Prop :=
  ∀ (s : State) (k : Nat),
    (let near := s.power.droops.filter (fun x => decide (s.dt < x + 10000))
     Answer.gives (exec (.droopStretch k) s) (fun t => (t.cluster k).droop = true ∧ t.power.droops = near ++ [s.dt]
      ∧ (near.length + 1 < max 1 s.power.droopLimit →
        t = { s with clusters := t.clusters, power := { s.power with droops := near ++ [s.dt] } }
        ∧ (∀ j, j ≠ k → t.cluster j = s.cluster j) ∧ t.cycles k = s.cycles k
        ∧ t.cluster k = { s.cluster k with droop := true, clock := (t.cluster k).clock }
        ∧ rateIs (t.cluster k).clock.rate ((s.cluster k).brownout || (s.cluster k).lost || (s.cluster k).rail.busy)
            (s.cluster k).rail.rail s.power.throttled true)
      ∧ (max 1 s.power.droopLimit ≤ near.length + 1 → bit t.power.sources 2 = true)))
    ∧ Answer.gives (exec (.droopEnd k) s) (fun t => s.onlyCluster t k ∧ t.cycles k = s.cycles k
      ∧ t.cluster k = { s.cluster k with droop := false, clock := (t.cluster k).clock }
      ∧ rateIs (t.cluster k).clock.rate ((s.cluster k).brownout || (s.cluster k).lost || (s.cluster k).rail.busy)
          (s.cluster k).rail.rail s.power.throttled false)
    ∧ Answer.gives (exec (.brownoutStop k) s) (fun t => s.onlyCluster t k ∧ t.cycles k = s.cycles k
      ∧ t.cluster k = { s.cluster k with brownout := true, clock := (t.cluster k).clock } ∧ (t.cluster k).clock.rate = 0)
    ∧ (s.noDeadline → Answer.gives (exec (.brownoutResume k) s) (fun t => s.onlyCluster t k ∧ t.cycles k = s.cycles k
      ∧ t.cluster k = { s.cluster k with brownout := false, clock := (t.cluster k).clock }
      ∧ rateIs (t.cluster k).clock.rate ((s.cluster k).lost || (s.cluster k).rail.busy) (s.cluster k).rail.rail s.power.throttled
          (s.cluster k).droop))
    ∧ Answer.gives (exec (.retentionLoss k) s) (fun t => (t.cluster k).lost = true ∧ (t.cluster k).clock.rate = 0
      ∧ (t.cluster k).tiles = [] ∧ (t.cluster k).wtags = [] ∧ (t.cluster k).cisterns = [] ∧ (t.seqOf k).run = false
      ∧ (∀ c ∈ s.clusterCrews k, (t.crew c).killed = true
        ∧ (t.launch (s.crew c).launch).endStatus = mergeEnd (s.launch (s.crew c).launch).endStatus 15 0)
      ∧ (∀ l ∈ s.lostLaunches k, (t.launch l).ending = true ∧ (t.launch l).endStatus = mergeEnd (s.launch l).endStatus 15 0)
      ∧ (∀ p, p < 4 → (t.core (coreAt k p)).l1d = [] ∧ (t.core (coreAt k p)).headrace = [])
      ∧ (∀ i, i < 4194304 → t.store.byte (poolKey k 0 + i) = 0) ∧ (∀ i, i < 1048576 → t.store.byte (opKey k 0 + i) = 0)
      ∧ (∀ i, i < 524288 → t.store.byte (accKey k 0 + i) = 0)
      ∧ ∀ p i, p < 4 → i < 262144 → t.store.byte (spKey (coreAt k p) 0 + i) = 0)
    ∧ ((s.cluster k).lost = true → Answer.gives (exec (.clusterRecovery k) s) (fun t =>
      t = { s with clusters := t.clusters, dev := { s.dev with faultN := false } } ∧ (∀ j, j ≠ k → t.cluster j = s.cluster j)
      ∧ t.cluster k = { s.cluster k with lost := false, brownout := false, clock := (t.cluster k).clock }
      ∧ rateIs (t.cluster k).clock.rate (s.cluster k).rail.busy (s.cluster k).rail.rail s.power.throttled (s.cluster k).droop))
    ∧ Answer.gives (exec .faultNPulseEnd s) (fun t => s.onlyDev t ∧ t.dev = { s.dev with faultN := true })

/-- Energy, temperature, holds, scan tests and the tick (R403, R439 to R444). The counts that a cluster draws, and the signature of a scan
test, are values that the spec leaves open: the statement holds for every one. That a 33rd count stands for the units outside the
clusters is the model's choice (log entry 19). -/
def Obligations.MetersAndTests : Prop :=
  ∀ s : State,
    Answer.gives (exec .energyUpdate s) (fun t =>
      let step := fun k => Config.energyStep k s.free
      t = { s with clusters := t.clusters, free := t.free, power := { s.power with
              energyDev := t.power.energyDev, energyHigh := t.power.energyHigh, energyLow := t.power.energyLow } }
      ∧ (∀ k, t.cluster k = { s.cluster k with
          energy := if k < 32 then min ((s.cluster k).energy + step k) (2 ^ 64 - 1) else (s.cluster k).energy })
      ∧ t.power.energyDev = min (t.power.energyHigh + t.power.energyLow) (2 ^ 64 - 1)
      ∧ (s.power.energyHigh + s.power.energyLow + ((List.range 33).map step).sum ≤ 2 ^ 64 - 1 →
        t.power.energyHigh + t.power.energyLow = s.power.energyHigh + s.power.energyLow + ((List.range 33).map step).sum))
    ∧ (∀ k z, k < 32 → Answer.gives (exec (.clTempRefresh k z) s) (fun t =>
      t = { s with clusters := t.clusters, power := t.power, dev := t.dev }
      ∧ (∀ j, t.cluster j = { s.cluster j with
          temp := if j = k then lowBits z 8 else (s.cluster j).temp, clock := (t.cluster j).clock })
      ∧ (110 ≤ sInt 8 (lowBits z 8) → bit t.power.sources 3 = true)))
    ∧ (∀ c, c < 128 → Answer.gives (exec (.holdSet c) s) (fun t => s.onlyPower t ∧ t.power = { s.power with holds := t.power.holds }
      ∧ ∀ x, t.power.holds.contains x = (s.power.holds.contains x || x == c)))
    ∧ (∀ c, c < 128 → s.power.holds.contains c = true → Answer.gives (exec (.coreHoldClear c) s) (fun t => s.onlyPower t
      ∧ t.power = { s.power with
          holds := t.power.holds, scanAbort := s.power.scanAbort || (s.power.scanBusy && s.power.scanOn.1 == c) }
      ∧ ∀ x, t.power.holds.contains x = (s.power.holds.contains x && x != c)))
    ∧ (∀ c pat prio, c < 128 → pat < 65536 → prio < 8 → s.power.scanBusy = false →
      let ok := s.power.holds.contains c = true ∧ s.coreCrews c = [] ∧ (s.core c).swap.held = false ∧ s.present c = true
      Answer.gives (exec (.scanTestStart c pat prio) s) (fun t => s.onlyPower t
        ∧ (ok → t.power = { s.power with
            scanCore := c, scanPattern := pat, scanPrio := prio, scanBusy := true, scanAbort := false
            scanOn := (c, pat), scanStart := s.cycles (clusterOf c) })
        ∧ (¬ok → t.power = { s.power with scanCore := c, scanPattern := pat, scanPrio := prio, scanStatus := 2 })))
    ∧ (s.power.scanBusy = true → (s.power.scanAbort = true ∨ s.power.scanStart + 280000 ≤ s.cycles (clusterOf s.power.scanOn.1)) →
      let c := s.power.scanOn.1
      let sig := if s.power.scanAbort then s.power.scanSig else Config.scanSignature c s.power.scanOn.2
      let good := sig = Config.goldenSignature c s.power.scanOn.2
      Answer.gives (exec .scanTestComplete s) (fun t =>
        t = { s with power := t.power, cores := t.cores, mem := { s.mem with store := t.store }, dev := t.dev }
        ∧ t.power = { s.power with
            scanBusy := false, scanAbort := false, scanStatus := if s.power.scanAbort then 1 else 0
            scanSig := sig, scanDue := s.sched.replay, scanResult := t.power.scanResult, holds := t.power.holds }
        ∧ (s.sched.replay = true → t.power.scanResult = s.power.scanResult)
        ∧ (s.sched.replay = true ∨ s.power.holds.contains c = false → t.power.holds = s.power.holds ∧ t.dev = s.dev)
        ∧ (s.sched.replay = false → s.power.holds.contains c = false → t.power.scanResult = 2)
        ∧ (s.sched.replay = false → s.power.holds.contains c = true →
          (∀ x, t.power.holds.contains x = (s.power.holds.contains x && x != c))
          ∧ (good → t.power.scanResult = 0 ∧ t.dev = s.dev)
          ∧ (¬good → t.power.scanResult = 1 ∧ t.dev = { s.dev with coreLo := t.dev.coreLo, coreHi := t.dev.coreHi }
            ∧ t.present c = false ∧ ∀ x, x < 128 → x ≠ c → t.present x = s.present x))
        ∧ (∀ x, x ≠ c → t.core x = s.core x) ∧ t.core c = { s.core c with l1d := [], l1i := [], fbufs := [], tlb := [] }
        ∧ (∀ i, i < 262144 → t.store.byte (spKey c 0 + i) = 0)
        ∧ ∀ a, a < spKey c 0 ∨ spKey c 0 + 262144 ≤ a → t.store.byte a = s.store.byte a))
    ∧ (s.power.tickPend = false ∨ s.dev.fwOk = false →
      (s.power.tickCmp ≤ s.dt → Answer.gives (exec .tickInterrupt s) (fun t => s.onlyPower t
        ∧ t.power = { s.power with tickPend := true }))
      ∧ (s.dt < s.power.tickCmp → exec .tickInterrupt s = .next s))
    ∧ (s.power.tickPend = true → s.dev.fwOk = true → Answer.gives (exec .tickInterrupt s) (fun t =>
      t = { s with power := t.power, clusters := t.clusters, mem := { s.mem with store := t.store } }
      ∧ t.power = { s.power with tickCmp := (s.power.tickCmp + 100000) % 2 ^ 64, tickPend := false }
      ∧ (∀ k, t.cluster k = { s.cluster k with allow := (t.cluster k).allow })
      ∧ (∀ k, k < 32 →
        let temp := sInt 8 ((s.cluster k).temp % 256)
        let n := (s.store.byte (devBase + 0x40000 + k)).toNat + 1
        let x := (s.cluster k).allow
        (100 ≤ temp → (t.cluster k).allow = (if x ≤ 2 then x else x - 2) ∧ t.store.byte (devBase + 0x40000 + k) = 0)
        ∧ (92 < temp → temp < 100 → (t.cluster k).allow = x ∧ t.store.byte (devBase + 0x40000 + k) = 0)
        ∧ (temp ≤ 92 → n < 10 → (t.cluster k).allow = x ∧ (t.store.byte (devBase + 0x40000 + k)).toNat = n)
        ∧ (temp ≤ 92 → 10 ≤ n → (t.cluster k).allow = (if 8 ≤ x then x else x + 2) ∧ t.store.byte (devBase + 0x40000 + k) = 0))
      ∧ ∀ a, a < devBase + 0x40000 ∨ devBase + 0x40020 ≤ a → t.store.byte a = s.store.byte a))
    ∧ (∀ v, v < 2 ^ 64 → Answer.gives (exec (.tickCmpWrite v) s) (fun t => s.onlyPower t
      ∧ t.power = { s.power with tickCmp := v, tickPend := false }))

/-- Host queues and launch records (R349, R350, R353 to R356): a doorbell sets KICK_PEND, a record is taken at HEAD and admitted, and a
record that waits reads its event word. That tensors which cannot be read end the launch with BIND_ERROR is the model's choice (log
entry 81). -/
def Obligations.HostQueues : Prop :=
  ∀ s : State,
    (∀ q v, q < 16 → v < 65536 → (tabGet s.dev.fences 0 3 = 0 ∨ tabGet s.dev.fences 0 3 < s.dt) →
      let h := s.hostQ q
      Answer.gives (exec (.doorbell q v) s) (fun t => s.onlySched t ∧ (∀ p, p ≠ q → t.hostQ p = s.hostQ p)
        ∧ t.hostQ q = { h with tail := v, bells := (t.hostQ q).bells }
        ∧ (∀ i, bit t.sched.kick i = (bit s.sched.kick i
          || (i == q && h.enabled && decide (h.head % h.size ≠ v % h.size))))))
    ∧ (∀ q v, q < 16 → v < 2 ^ 64 →
      let h := { s.hostQ q with base := v / 128 * 128, log2n := v % 32 }
      Answer.gives (exec (.cqBaseWrite q v) s) (fun t => s.onlySched t ∧ (∀ p, p ≠ q → t.hostQ p = s.hostQ p)
        ∧ t.hostQ q = { h with bells := (t.hostQ q).bells }
        ∧ ((s.hostQ q).enabled = true → (t.hostQ q).bells = h.bells)
        ∧ ((s.hostQ q).enabled = false →
          (t.hostQ q).bells = if h.head % h.size = h.tail % h.size then [] else [(h.tail, s.dt)])
        ∧ (∀ i, bit t.sched.kick i = (bit s.sched.kick i
          || (i == q && !(s.hostQ q).enabled && h.enabled && decide (h.head % h.size ≠ h.tail % h.size))))))
    ∧ (∀ q v, q < 16 → v < 65536 → Answer.gives (exec (.crHeadWrite q v) s) (fun t => s.onlySched t
      ∧ (∀ p, p ≠ q → t.hostQ p = s.hostQ p) ∧ t.hostQ q = { s.hostQ q with crHead := v }))
    ∧ (s.cpRuns = true → s.jrnRoom 1 = true → s.translates = true →
      (∀ q, q < 16 → (s.hostQ q).enabled = true → (s.hostQ q).isEmpty = false →
        let h := s.hostQ q
        let bs := s.store.readBytes (h.base + 128 * (h.head % h.size)) 128
        let at_ := match h.bells with
          | [] => s.dt
          | b :: _ => b.2
        let a := h.base + 128 * (h.head % h.size)
        let u0 := ((s.advanceHead q).journal 1 0).newLaunch q at_
        let u := (u0.1.ctlTouch a 128, u0.2)
        (u.1.hostQ q).head = (h.head + 1) % h.size ∧ (u.1.hostQ q).tail = h.tail
        ∧ ((h.head + 1) % h.size = h.tail % h.size → bit u.1.sched.kick q = false)
        ∧ Answer.gives (exec (.launchRecordTake q) s) (fun t =>
          t.admitted u bs (s.ctlReadable a 128)))
      ∧ (∀ d rest, s.sched.devQ = d :: rest → s.forkReady d.fork = true →
        let u := ({ s with sched := { s.sched with devQ := rest } }.journal 1 0).newLaunch 16 d.at_
        u.1.sched.devQ = rest ∧ Answer.gives (exec (.launchRecordTake 16) s) (fun t => t.admitted u d.bytes true)))
    ∧ (∀ l, (s.launch l).phase = .waiting → s.cpRuns = true →
      let r := (s.launch l).rec_
      (s.ctlRead r.ctx r.waitEv 8 = none → Answer.gives (exec (.waitEventPoll l) s) (fun t => s.onlyLaunch t l
        ∧ t.launch l = { s.launch l with
            phase := .due, endStatus := mergeEnd (s.launch l).endStatus 6 0, saving := [], dueSeq := (t.launch l).dueSeq }))
      ∧ (∀ s1 bs, s.ctlRead r.ctx r.waitEv 8 = some (s1, bs) → Answer.gives (exec (.waitEventPoll l) s) (fun t =>
        (r.waitVal ≤ natOfBytes bs → s1.onlyLaunch t l ∧ t.launch l = { s1.launch l with phase := .ready })
        ∧ (natOfBytes bs < r.waitVal → t = s1))))

/-- Placement and the life of crews (R34, R162, R180, R200, R356, R359, R364, R365): a record is placed at its first origin or set
aside, and not placed once its deadline has come; a crew's waves start, a crew that is over leaves nothing, and a deadline drops
what waits. The order of the attempts (log entry 40), the start of a crew as a step of its own (45), and the deadline's place before the
placement (53) are the model's reading. -/
def Obligations.PlacementsAndCrews : Prop :=
  ∀ s : State,
    (∀ l, (s.launch l).phase = .ready → (s.launch l).asideAt = none → s.pastDeadline l = false → s.cpRuns = true →
      s.jrnRoom 4 = true →
      (∀ x ∈ s.readyLaunches, (s.launch x).asideAt = none → s.triedBefore x l = false) →
      (∀ o, s.placeable l = some o → Answer.gives (exec (.launchPlacement l) s) (fun t => s.placedAs t l o))
      ∧ (s.placeable l = none → Answer.gives (exec (.launchPlacement l) s) (fun t =>
        t = { s with launches := t.launches, sched := t.sched, mem := { s.mem with store := t.store } }
        ∧ (∀ x, x ≠ l → t.launch x = s.launch x) ∧ t.launch l = { s.launch l with asideAt := some s.dt })))
    ∧ (∀ l x o, (s.launch l).phase = .ready → (s.launch l).asideAt = some x → (s.launch l).saving = [] →
      s.pastDeadline l = false → s.cpRuns = true → s.jrnRoom 3 = true →
      (∀ y ∈ s.readyLaunches, s.triedBefore y l = true → (s.launch y).asideAt ≠ none ∧ s.placeable y = none) →
      s.placeable l = some o → Answer.gives (exec (.placementRetry l) s) (fun t => s.placedAs t l o))
    ∧ (∀ l, s.pastDeadline l = true → exec (.launchPlacement l) s = .next s ∧ exec (.placementRetry l) s = .next s)
    ∧ (∀ crew, s.crewReady crew = true →
      let v := s.launch (s.crew crew).launch
      v.rec_.gpc ≤ 8 → v.rec_.wpg ≤ 8 → Answer.gives (exec (.crewStart crew) s) (fun t =>
        (t.crew crew).started = true ∧ (∀ x, x ≠ crew → t.crew x = s.crew x)
        ∧ (∀ w, crewOf w ≠ crew → t.wave w = s.wave w) ∧ (∀ g, g / 8 ≠ crew → t.group g = s.group g)
        ∧ ((∀ b ∈ v.mod_.binds, b.space = 1 → b.init = []) → ∀ i, i < (s.crew crew).spSize →
          t.store.byte (spKey (s.crew crew).core (s.crew crew).spStart + i) = 0)
        ∧ ∀ i, i < v.rec_.gpc →
          (t.group (8 * crew + i)).retired = false ∧ (t.group (8 * crew + i)).s = [] ∧ (t.group (8 * crew + i)).pool = v.mod_.poolP
          ∧ (t.group (8 * crew + i)).k = s.startK (s.crew crew).launch (clusterOf (s.crew crew).core)
          ∧ (∀ h, h < v.rec_.wpg → t.quota (8 * crew + i) h = v.mod_.quota.getD h 0
            ∧ (t.wave (8 * (8 * crew + i) + h)).seg = v.mod_.entry ∧ (t.wave (8 * (8 * crew + i) + h)).word = 0
            ∧ (t.wave (8 * (8 * crew + i) + h)).level = .thread ∧ (t.wave (8 * (8 * crew + i) + h)).cc = Cc.zero
            ∧ ∀ x, x < 32 → tabFind (t.wave (8 * (8 * crew + i) + h)).lanes x = some h)
          ∧ ∀ x, x < 32 * v.rec_.wpg → (t.thread (8 * crew + i) x).place = .formed (x / 32)
            ∧ (t.thread (8 * crew + i) x).slices = [] ∧ (t.thread (8 * crew + i) x).preds = []))
    ∧ (∀ crew, s.crewOver crew = true → s.jrnRoom 3 = true → Answer.gives (exec (.crewEnd crew) s) (fun t => (t.crew crew).ended = true
      ∧ (∀ w, crewOf w = crew → tabFind t.waves w = none) ∧ (∀ g, g / 8 = crew → tabFind t.groups g = none)
      ∧ (∀ x, x ≠ crew → (t.crew x).ended = (s.crew x).ended)
      ∧ (t.core (s.crew crew).core).swap.saved.contains crew = false))
    ∧ (∀ l, (s.launch l).rec_.deadline ≠ 0 → (s.launch l).rec_.deadline ≤ s.dt → (s.launch l).deadlineFell = false →
      ((s.launch l).phase = .waiting ∨ (s.launch l).phase = .ready → (s.launch l).saving = [] →
        Answer.gives (exec (.launchDeadline l) s) (fun t => s.onlyLaunch t l ∧ t.launch l = { s.launch l with
          deadlineFell := true, endStatus := mergeEnd (s.launch l).endStatus 1 0, phase := .due, saving := []
          dueSeq := (t.launch l).dueSeq }))
      ∧ ((s.launch l).phase = .placed → (∀ x, x ≠ l → (s.launch x).deadlineFell = false) →
        (∀ c ∈ s.crewsOf l, (s.crew c).started = false) → (∀ k, (s.seqOf k).launch ≠ some l) →
        Answer.gives (exec (.launchDeadline l) s) (fun t => (∀ x, x ≠ l → t.launch x = s.launch x)
          ∧ t.launch l = { s.launch l with
              deadlineFell := true, endStatus := mergeEnd (s.launch l).endStatus 1 0
              ring := (s.launch l).ring.filter (fun x => !x.isTask) }
          ∧ ∀ c, t.core c = { s.core c with headrace := (s.core c).headrace.filter (fun r => r.launch != l) })))

/-- Completions and the spillway (R354, R361, R363, R365): a launch that is over falls due with nothing left, its record is written when the
ring has room, and staged entries go to the ring of the launch and back to a headrace. That an operation of the assist acts in the step
that asks for it is the model's reading (log entry 51). -/
def Obligations.Completions : Prop :=
  ∀ s : State,
    (∀ l, s.launchOver l = true → (s.pastDeadline l = true → (s.launch l).deadlineFell = true) →
      ((s.launch l).mod_.grids = 0 ∨ s.jrnRoom 1 = true) → (∀ x, (s.launch x).phase = .due → (s.launch x).stageSlot ≠ none) →
      (s.launch l).rec_.sigEv = 0 → (s.launch l).rec_.bestSlot = 0xFFFFFFFF →
      Answer.gives (exec (.launchCompletion l) s) (fun t => (t.launch l).phase = .due
      ∧ (t.launch l).ring = [] ∧ (∀ e ∈ t.mem.accounts, e.2.launch ≠ l) ∧ (∀ k, t.stagingOf k l = [])
      ∧ (∀ k, (t.seqOf k).launch ≠ some l) ∧ (t.launch l).endStatus = (s.launch l).endStatus))
    ∧ (∀ q l i p, s.dueOf q = some l → s.cpHeld = false → s.sched.assistBusy = false →
      let u := s.stageDue
      (u.launch l).stageSlot = some i → i < 32 → (u.launch l).phase = .due → u.slotWrites i p l →
      Answer.gives (exec (.completionRecordWrite q) s) (fun t => u.slotWritten t i p l ∧ (t.launch l).stageSlot = none
        ∧ t.sched.assistBusy = false ∧ t.sched.assistOp = 0 ∧ t.sched.assistSlot = i ∧ t.sched.assistStatus = 0))
    ∧ (∀ k l x rest s1 pa, s.stagingOf k l = x :: rest → s.ringFull l = false →
      s.ringPage l ((s.launch l).ringVa ((s.launch l).ringHead + (s.launch l).ring.length)) = some (s1, pa) →
      Answer.gives (exec (.spillStagingDrain k l) s) (fun t => t.stagingOf k l = rest
        ∧ t.launch l = { s1.launch l with ring := (s1.launch l).ring ++ [x] }))
    ∧ (∀ l r core, (s.launch l).ring.findSome? (s.refillOne l) = some (r, core) → (s.launch r.launch).deadlineFell = false →
      Answer.gives (exec (.spillRefill l) s) (fun t => t = { s with launches := t.launches, cores := t.cores }
        ∧ (∀ x, x ≠ l → t.launch x = s.launch x) ∧ (∀ c, c ≠ core → t.core c = s.core c)
        ∧ t.core core = { s.core core with headrace := (s.core core).headrace ++ [r] }
        ∧ t.launch l = { s.launch l with
            ring := firstDrop (s.launch l).ring (fun x => (s.refillOne l x).isSome), ringHead := (s.launch l).ringHead + 1 }))

/-- Take-over and the assist (R371, R435 to R437): the standby takes over while the primary has failed, replays and is done; the assist
writes a stage slot or starts the crews of a placement slot. That an operation of the assist acts in the step that asks for it (log entry 51)
and that the report of a stopped command processor is a list (log entry 80) are the model's. -/
def Obligations.TakeOver : Prop :=
  ∀ s : State,
    Answer.gives (exec .primaryFailure s) (fun t => t = { s with sched := { s.sched with failed := true }, dev := t.dev }
      ∧ t.dev = { s.dev with reports := if s.sched.standbyOk then s.dev.reports else s.dev.reports ++ [.commandStopped] })
    ∧ (∀ who, s.sched.failed = true → s.sched.standbyOk = true → who < 2 → who = 1 - s.sched.primary →
      Answer.gives (exec (.schedCtlTake who) s) (fun t =>
        t.sched.primary = who ∧ t.sched.replay = true ∧ t.sched.standbyOk = false ∧ t.sched.failed = false
        ∧ t.sched.takeovers = min (s.sched.takeovers + 1) (2 ^ 32 - 1) ∧ t.dev.msix = s.dev.msix ++ [16]
        ∧ (∀ c, (s.core c).swap.held = false → t.core c = s.core c)
        ∧ ((∀ e ∈ s.cores, e.2.swap.held = false) →
          t = { s with sched := t.sched, dev := { s.dev with msix := s.dev.msix ++ [16] } }
          ∧ t.sched = { s.sched with
              primary := who, replay := true, standbyOk := false, failed := false, tookAt := s.dt + 1
              takeovers := min (s.sched.takeovers + 1) (2 ^ 32 - 1) })))
    ∧ (∀ who, s.sched.failed = false ∨ s.sched.standbyOk = false ∨ who ≠ 1 - s.sched.primary → exec (.schedCtlTake who) s = .next s)
    ∧ (∀ who, s.sched.replay = true → who = s.sched.primary → Answer.gives (exec (.schedCtlDone who) s) (fun t =>
        t = { s with sched := t.sched, launches := t.launches, mem := { s.mem with store := t.store }, power := t.power, dev := t.dev }
        ∧ t.sched.replay = false
        ∧ (s.power.scanDue = false → t.power = s.power ∧ t.dev = s.dev)
        ∧ (s.power.scanDue = true → t.power.scanDue = false ∧ t.power.holds.contains s.power.scanOn.1 = false)
        ∧ t.sched.primary = s.sched.primary ∧ t.sched.queues = s.sched.queues
        ∧ t.store.readNat (devBase + 0x111400) 4 = s.kickPend % 2 ^ 32
        ∧ (∀ q, q < 16 → t.store.readNat (devBase + 0x111000 + 64 * q) 4 = (s.hostQ q).tail % 2 ^ 32)
        ∧ ∀ l, t.launch l = { s.launch l with placeSlot := (t.launch l).placeSlot }))
    ∧ (∀ who v, Answer.gives (exec (.jrnPtrWrite who v) s) (fun t => s.onlySched t
      ∧ t.sched = if who = s.sched.primary then { s.sched with ckpt := bits v 27 16, jtail := bits v 11 0 } else s.sched))
    ∧ (∀ i, i < 32 → s.sched.assistBusy = false → s.cpHeld = false → s.slotMayWrite i = true →
      let q := (s.store.byte (stageAt i + 32)).toNat % 16
      ((s.store.byte (stageAt i + 33)).toNat % 2 = 0 → (s.hostQ q).ringFull = true →
        Answer.gives (exec (.schedAssistWrite i) s) (fun t => s.onlySched t
          ∧ t.sched = { s.sched with assistBusy := true, assistOp := 0, assistSlot := i, assistStatus := 1, assistGo := (0, i) }))
      ∧ (∀ l, s.slotWrites i q l → Answer.gives (exec (.schedAssistWrite i) s) (fun t => s.slotWritten t i q l
          ∧ t.sched.assistBusy = true ∧ t.sched.assistOp = 0 ∧ t.sched.assistSlot = i ∧ t.sched.assistStatus = 0)))
    ∧ (∀ i, i < 32 → s.sched.assistBusy = false → Answer.gives (exec (.schedAssistFinish i) s) (fun t =>
        t = { s with crews := t.crews, sched := t.sched }
        ∧ t.sched = { s.sched with assistBusy := true, assistOp := 1, assistSlot := i, assistStatus := 0, assistGo := (1, i) }
        ∧ ∀ c, (tabFind s.crews c).isSome = true → t.crew c = { s.crew c with
            commanded := (s.crew c).commanded || decide ((s.launch (s.crew c).launch).placeSlot = some i) }))
    ∧ (s.sched.assistBusy = true → Answer.gives (exec .schedAssistComplete s) (fun t => t.sched.assistBusy = false
        ∧ (s.sched.assistGo.1 ≠ 0 → t = { s with sched := { s.sched with assistBusy := false } })
        ∧ (s.sched.assistGo.1 = 0 → ∀ l, (s.launch l).phase = .done → (s.launch l).stageSlot = some s.sched.assistGo.2 →
          (t.launch l).stageSlot = none)))

/-- Saves and restores of a core (R65, R120, R315, R384 to R387). That a restore which is asked for while crews placed since the save run starts
nothing, and the order of the group records in a slot of the shadow (R65), are the model's choices (log entry 83). -/
def Obligations.SavesAndRestores : Prop :=
  ∀ (s : State) (c : Nat),
    let w := (s.core c).swap
    (c < 128 → ∀ q i g n, q < 8 → i < 16 → (s.shadowGroups c q)[i]? = some g →
      let at_ := 196608 * (placeOf c * 8 + q) + 0x22000 + 3072 * i
      (n < 256 → s.shadowWord (clusterOf c) (at_ + 8 * n) = some (tabGet (s.group g).s 0 n).toNat)
      ∧ (n < 32 → s.shadowWord (clusterOf c) (at_ + 2048 + 16 * n) = some ((tabGet (s.group g).k Capv.null n).bits.toNat % 2 ^ 64)
        ∧ s.shadowWord (clusterOf c) (at_ + 2056 + 16 * n) = some ((tabGet (s.group g).k Capv.null n).bits.toNat / 2 ^ 64 % 2 ^ 64)))
    ∧ (w.busy = false →
      (w.held = true → Answer.gives (exec (.swapSave c) s) (fun t => s.onlyCore t c
        ∧ t.core c = { s.core c with swap := { w with ask := false, status := 1 } }))
      ∧ (w.held = false → Answer.gives (exec (.swapSave c) s) (fun t =>
        t = { s with cores := t.cores, waves := t.waves, groups := t.groups, clusters := t.clusters, mem := t.mem, free := t.free }
        ∧ (∀ x, x ≠ c → t.core x = s.core x)
        ∧ t.core c = { s.core c with
            swap := { w with
              busy := true, dir := false, ask := false, goAt := s.dt, halted := true, copying := false, going := s.liveCrews c } }
        ∧ (∀ x ∈ s.coreWaves c, ∀ p, (s.wave x).spec = some p → (t.wave x).seg = p.seg ∧ (t.wave x).word = p.word
          ∧ (t.wave x).cc = p.ckCc
          ∧ (t.wave x).spec = some { p with undo := [], watches := [], stores := [], conflict := false })
        ∧ (s.matrixOn c = true → (t.seqOf (clusterOf c)).stop = true))))
    ∧ (w.busy = true → w.dir = false → w.copying = false → s.halted c = true → Answer.gives (exec (.swapSaveHaltEnd c) s) (fun t =>
      s.onlyCore t c ∧ t.core c = { s.core c with
        swap := { w with haltNs := min (s.dt - w.goAt) (2 ^ 32 - 1), copying := true, copyAt := s.cycles (clusterOf c) } }))
    ∧ (w.busy = true → w.copying = true → s.clusterRuns (clusterOf c) = true → w.copyAt + 560 ≤ s.cycles (clusterOf c) →
      (w.dir = false → Answer.gives (exec (.swapSaveComplete c) s) (fun t =>
        t = { s with cores := t.cores, waves := t.waves, clusters := t.clusters } ∧ (∀ x, x ≠ c → t.core x = s.core x)
        ∧ t.core c = { s.core c with
            savedAt := s.cycles (clusterOf c)
            swap := { w with
              busy := false, held := true, status := 0, halted := false, copying := false, lost := [], going := []
              saved := (s.coreCrews c).filter (fun x => w.going.contains x) } }
        ∧ (∀ x, t.wave x = { s.wave x with park := (t.wave x).park, held := (t.wave x).held })
        ∧ ∀ k, t.cluster k = { s.cluster k with relQ := (t.cluster k).relQ }))
      ∧ (w.dir = true → w.lost = [] → s.noDeadline → Answer.gives (exec (.swapRestoreComplete c) s) (fun t =>
        t = { s with cores := t.cores, waves := t.waves, clusters := t.clusters } ∧ (∀ x, x ≠ c → t.core x = s.core x)
        ∧ t.core c = { s.core c with
            lostCycles := (s.core c).lostCycles + (s.cycles (clusterOf c) - (s.core c).savedAt)
            swap := { w with busy := false, held := false, copying := false, halted := false, saved := [], lost := [], status := 0 } }
        ∧ ∀ x, t.wave x = { s.wave x with park := (t.wave x).park }))
      ∧ (w.dir = true → s.noDeadline → Answer.gives (exec (.swapRestoreComplete c) s) (fun t =>
        (w.lost ≠ [] → (t.core c).swap.status = 2)
        ∧ ∀ x ∈ w.saved, (∃ q ∈ w.lost, s.waveIn x q = true) → s.crewKilled t x 11 0)))
    ∧ (w.busy = false → w.held = false → Answer.gives (exec (.swapRestore c) s) (fun t => s.onlyCore t c
      ∧ t.core c = { s.core c with swap := { w with ask := true, status := 1 } }))
    ∧ (w.busy = false → w.held = true → s.liveCrews c ≠ [] → Answer.gives (exec (.swapRestore c) s) (fun t => s.onlyCore t c
      ∧ t.core c = { s.core c with swap := { w with ask := true } }))
    ∧ (w.busy = false → w.held = true → s.liveCrews c = [] → Answer.gives (exec (.swapRestore c) s) (fun t =>
      t = { s with cores := t.cores, clusters := t.clusters } ∧ (∀ x, x ≠ c → t.core x = s.core x)
      ∧ (∀ k, k ≠ clusterOf c → t.cluster k = s.cluster k)
      ∧ (∀ k, t.cycles k = s.cycles k)
      ∧ t.core c = { s.core c with
          split := (t.core c).split, l1d := (t.core c).l1d
          swap := { w with
            busy := true, dir := true, ask := true, copying := true, goAt := s.dt, copyAt := s.cycles (clusterOf c), going := [] } }
      ∧ (s.savedSplit c < 3 → (t.core c).split = s.savedSplit c)
      ∧ (s.savedSplit c = (s.core c).split → (t.core c).l1d = (s.core c).l1d)))

/-- Damaged state (R388 to R390, R393): a slice row is poisoned, a partition's error ends the crews that own the state, and a damaged queue
entry ends its launch; each is logged. The model's choices here: the slot of a record is its index in its queue (log entry 49), INFO of
what is lost (log entry 50), the completion for a damaged device launch record (log entry 77), the numbers by which a step names the kind and the
index of what it hits, and which row of the file holds a row of a thread (log entry 81). -/
def Obligations.DamagedState : Prop :=
  ∀ s : State,
    (∀ g x row, (tabFind (s.group g).threads x).isSome = true → row < 64 →
      let c := (s.crew (g / 8)).core
      Answer.gives (exec (.sliceRowPoison g x row) s) (fun t =>
        t = { s with groups := t.groups, clusters := t.clusters, dev := t.dev } ∧ (∀ y, y ≠ g → t.group y = s.group y)
        ∧ (∀ y, y ≠ x → t.thread g y = s.thread g y)
        ∧ t.thread g x = { s.thread g x with poisonRows := memberAdd (s.thread g x).poisonRows row }
        ∧ s.nearLogged t (clusterOf c) 1 (14 * 2 ^ 56 + placeOf c % 4 * 2 ^ 54 + s.partitionOf g % 32 * 2 ^ 49
          + ((s.group g).fileRow x row * 32 + x % 32) % 2 ^ 48)))
    ∧ (∀ c q kind i, Answer.gives (exec (.partitionStateError c q kind i) s) (fun t =>
      t.dev.memIrq = true ∧ loggedIn (s.cluster (clusterOf c)).nearErr (t.cluster (clusterOf c)).nearErr 1
        (15 * 2 ^ 56 + placeOf c % 4 * 2 ^ 54 + q % 32 * 2 ^ 49)
      ∧ (∀ x ∈ s.hitCrews c q kind i, s.crewKilled t x 11 0)))
    ∧ (∀ c i r, (s.core c).headrace[i]? = some r → Answer.gives (exec (.queueEntryError 0 c i) s) (fun t =>
      s.launchKilled t r.launch 7 (i % 256 + c % 128 * 256)
      ∧ (t.core c).headrace = (listDel (s.core c).headrace i).filter (fun x => x.launch != r.launch)))
    ∧ (∀ k l i core r, i < 64 → (s.stagingOf k l)[i]? = some (.task core r) → Answer.gives (exec (.queueEntryError 1 k (64 * l + i)) s) (fun t =>
      s.launchKilled t l 7 (i % 256 + core % 128 * 256)))
    ∧ (∀ l i core r, (s.launch l).ring[i]? = some (.task core r) → Answer.gives (exec (.queueEntryError 2 l i) s) (fun t =>
      s.launchKilled t l 7 (i % 256 + core % 128 * 256)))
    ∧ (∀ c ch i h, ch < 4 → i < 16 → (s.channel c ch).heads[i]? = some h → Answer.gives (exec (.queueEntryError 3 c (16 * ch + i)) s) (fun t =>
      s.launchKilled t (s.crew h.crew).launch 9 infoLost)
      ∧ Answer.gives (exec (.queueEntryError 9 c (16 * ch + i)) s) (fun t => s.launchKilled t (s.crew h.crew).launch 9 h.off))
    ∧ (∀ k l i core ch h, i < 64 → (s.stagingOf k l)[i]? = some (.head core ch h) →
      Answer.gives (exec (.queueEntryError 1 k (64 * l + i)) s) (fun t => s.launchKilled t l 9 infoLost)
      ∧ Answer.gives (exec (.queueEntryError 7 k (64 * l + i)) s) (fun t => s.launchKilled t l 9 h.off))
    ∧ (∀ l i core ch h, (s.launch l).ring[i]? = some (.head core ch h) →
      Answer.gives (exec (.queueEntryError 2 l i) s) (fun t => s.launchKilled t l 9 infoLost)
      ∧ Answer.gives (exec (.queueEntryError 8 l i) s) (fun t => s.launchKilled t l 9 h.off))
    ∧ (∀ k n i row r, n < 16 → i < 512 → ((s.cistern k n).ready.flatten ++ (s.cistern k n).openRows)[row]? = some r →
      (Answer.gives (exec (.queueEntryError 4 k (8192 * row + 512 * n + i)) s) (fun t =>
        t.cistern k n = { s.cistern k n with ready := (t.cistern k n).ready, openRows := (t.cistern k n).openRows }
        ∧ (t.cistern k n).ready.flatten ++ (t.cistern k n).openRows
          = ((s.cistern k n).ready.flatten ++ (s.cistern k n).openRows).set row { r with poison := memberAdd r.poison i }
        ∧ t.dev.memIrq = true ∧ ∀ a, t.store.byte a = s.store.byte a))
      ∧ Answer.gives (exec (.queueEntryError 5 k (16 * row + n)) s) (fun t =>
        s.launchKilled t (s.crew r.crew).launch 7 (255 + (s.crew r.crew).core % 128 * 256)))
    ∧ (∀ c i, Answer.gives (exec (.queueEntryError 10 c i) s) (fun t =>
      s.farLogged t 0 1 (15 * 2 ^ 56 + (0x100000 + i % 4096 * 16))))
    ∧ (∀ c i d, s.sched.devQ[i]? = some d → Answer.gives (exec (.queueEntryError 6 c i) s) (fun t =>
      t.sched.devQ = listDel s.sched.devQ i ∧ ∃ l, (t.launch l).phase = .due ∧ (t.launch l).endStatus = some (6, 0)
        ∧ (t.launch l).rec_.tag = 2 ^ 64 - 1 ∧ (t.launch l).queue = 0))

/-- Registers (R7, R121, R403, R405, R433, R434): a write to an offset that is not listed is ignored, memories of the window are written
at any width, listed registers take their writable bits, two halves make one write, a read of a low half latches the high one, and an
agent that waits at a FENCE makes no access. How an operand of the rows for half accesses names another width (log entry 44), and where
the private memories of a scheduler core stand among the offsets (log entry 80), are the model's choices. -/
def Obligations.RegisterAccess : Prop :=
  ∀ s : State,
    (∀ who off v, s.fenced who = true → exec (.registerWrite who off v) s = .next s)
    ∧ (∀ who off v, s.fenced who = false → regOf who off = none →
      (windowMemory who off 8 = false → Answer.gives (exec (.registerWrite who off v) s) (fun t =>
        (who < 2 ∧ 2 ^ 41 ≤ off → s.onlyDev t ∧ t.dev = { s.dev with cpFaults := s.dev.cpFaults ++ [who] })
        ∧ (¬(who < 2 ∧ 2 ^ 41 ≤ off) → t = s)))
      ∧ (windowMemory who off 8 = true → Answer.gives (exec (.registerWrite who off v) s) (fun t =>
        t = { s with mem := { s.mem with store := t.store } } ∧ s.nowHolds t (windowPlace who off) (bytesOf v 8))))
    ∧ (∀ who off v, off < 2 ^ 44 → exec (.windowLowHalfWrite who (3 * 2 ^ 44 + off) v) s = exec (.registerWrite who off v) s)
    ∧ (∀ who off v n x, off < 2 ^ 44 → s.fenced who = false → regOf who off = none → (n, x) ∈ [(1, 1), (2, 2), (4, 0)] →
      windowMemory who off n = true → Answer.gives (exec (.windowLowHalfWrite who (x * 2 ^ 44 + off) v) s) (fun t =>
        t = { s with mem := { s.mem with store := t.store } } ∧ s.nowHolds t (windowPlace who off) (bytesOf v n)))
    ∧ (∀ who off r v x, off < 2 ^ 44 → regOf who off = some r → x = 1 ∨ x = 2 →
      exec (.windowLowHalfWrite who (x * 2 ^ 44 + off) v) s = .next s)
    ∧ (∀ r ∈ writtenBack, ∀ v, v < 2 ^ 64 → s.fenced r.1 = false →
      (r.1 = 2 ∧ (r.2.1 = 0x28 ∨ r.2.1 = 0x30) → s.mapHeld = false) → ∃ g, regOf r.1 r.2.1 = some g
      ∧ Answer.gives (exec (.registerWrite r.1 r.2.1 v) s) (fun t => t.regValue g = r.2.2 v))
    ∧ (∀ who off r lo, off < 2 ^ 44 → s.fenced who = false → regOf who off = some r → ¬(who = 3 ∧ r.lowActs = true) → lo < 2 ^ 32 →
      Answer.gives (exec (.windowLowHalfWrite who off lo) s) (fun t => s.onlyDev t
        ∧ t.dev = { s.dev with writeLatch := t.dev.writeLatch }
        ∧ (∀ k, k ≠ latchKey who off → tabGet t.dev.writeLatch 0 k = tabGet s.dev.writeLatch 0 k)
        ∧ ∀ hi, hi < 2 ^ 32 → Answer.gives (exec (.windowHighHalfWrite who off hi) t) (fun u =>
          exec (.registerWrite who off (hi * 2 ^ 32 + lo))
            { s with dev := { s.dev with writeLatch := tabDel s.dev.writeLatch (latchKey who off) } } = .next u)))
    ∧ (∀ who off r, off < 2 ^ 44 → s.fenced who = false → regOf who off = some r →
      Answer.gives (exec (.windowLowHalfRead who off) s) (fun t => s.onlyDev t
        ∧ t.dev = { s.dev with readLatch := t.dev.readLatch, lastRead := t.dev.lastRead }
        ∧ (∀ k, k ≠ latchKey who off → tabGet t.dev.readLatch 0 k = tabGet s.dev.readLatch 0 k)
        ∧ tabGet t.dev.readLatch 0 (latchKey who off) = s.regValue r / 2 ^ 32 % 2 ^ 32
        ∧ tabGet t.dev.lastRead 0 who = s.regValue r % 2 ^ 32)
      ∧ Answer.gives (exec (.windowLowHalfRead who (off + 4)) s) (fun t => s.onlyDev t
        ∧ t.dev = { s.dev with lastRead := t.dev.lastRead }
        ∧ tabGet t.dev.lastRead 0 who = tabGet s.dev.readLatch 0 (latchKey who off))
      ∧ Answer.gives (exec (.windowLowHalfRead who (3 * 2 ^ 44 + off)) s) (fun t => s.onlyDev t
        ∧ t.dev = { s.dev with lastRead := t.dev.lastRead } ∧ tabGet t.dev.lastRead 0 who = s.regValue r % 2 ^ 64))
    ∧ (∀ who i, who < 4 → i < 35 → s.fenced who = false → Answer.gives (exec (.energyLoRead who i) s) (fun t => s.onlyDev t
      ∧ tabGet t.dev.readLatch 0 (latchKey who (energyOff who i)) = s.energyOf i / 2 ^ 32 % 2 ^ 32
      ∧ tabGet t.dev.lastRead 0 who = s.energyOf i % 2 ^ 32))
    ∧ (∀ r v, r < 8 → Answer.gives (exec (.rwinBaseWrite r v) s) (fun t => s.onlyDev t
      ∧ t.dev = { s.dev with rwinBase := t.dev.rwinBase } ∧ (∀ x, x ≠ r → tabGet t.dev.rwinBase 0 x = tabGet s.dev.rwinBase 0 x)
      ∧ tabGet t.dev.rwinBase 0 r = (if bits v 62 59 ≤ 6 then bits v 63 63 * 2 ^ 63 else 0) + bits v 62 59 * 2 ^ 59
        + bits v 57 56 * 2 ^ 56 + bits v 47 12 * 4096))
    ∧ (∀ who, tabGet s.dev.fences 0 who < s.dt → s.dev.cpPeer.all (fun x => x.1 != who) = true → Answer.gives (exec (.cpFence who) s) (fun t => s.onlyDev t
      ∧ t.dev = { s.dev with fences := t.dev.fences, fencing := t.dev.fencing } ∧ tabGet t.dev.fences 0 who = 0
      ∧ (∀ x, x ≠ who → tabGet t.dev.fences 0 x = tabGet s.dev.fences 0 x)
      ∧ ∀ x, t.fenced x = (s.fenced x && x != who)))
    ∧ (∀ who, s.dt ≤ tabGet s.dev.fences 0 who ∨ s.dev.cpPeer.any (fun x => x.1 == who) = true →
      Answer.gives (exec (.cpFence who) s) (fun t => s.onlyDev t ∧ t.dev = { s.dev with fencing := t.dev.fencing }
        ∧ ∀ x, t.fenced x = (s.fenced x || x == who)))

/-- The host and the peers (R122, R124, R125, R405 to R408): what reaches this device's memory from outside is performed at its home, a read
is answered, and the writes to a peer that is lost are gone and its loads poisoned. The numbers of peerAccess's operations and of a port
that a lost peer's step names (log entry 61), and the contributions that a merged write lists (log entry 78), are the model's choices. -/
def Obligations.HostAndPeers : Prop :=
  ∀ s : State,
    (∀ a (bs : List Nat), let pa := s.dev.aper * 2 ^ 34 + a % 2 ^ 34
      s.hostReaches pa bs.length = true → s.plainBytes pa bs.length → (tabGet s.dev.fences 0 3 = 0 ∨ tabGet s.dev.fences 0 3 < s.dt) →
      Answer.gives (exec (.hostWrite a bs) s) (fun t => s.homeFrame t ∧ s.nowHolds t pa (bs.map (BitVec.ofNat 8))
        ∧ t.dev = { s.dev with fences := t.dev.fences }))
    ∧ (∀ a n, let pa := s.dev.aper * 2 ^ 34 + a % 2 ^ 34
      (s.hostReaches pa n = false →
        Answer.gives (exec (.hostRead a n) s) (fun t => s.onlyDev t ∧ t.dev = { s.dev with
          hostReply := (List.replicate n 255, false), aer := s.dev.aer ++ [.unsupportedRequest] })
        ∧ ∀ bs : List Nat, bs.length = n → Answer.gives (exec (.hostWrite a bs) s) (fun t => s.onlyDev t
          ∧ t.dev = { s.dev with aer := s.dev.aer ++ [.unsupportedRequest] }))
      ∧ (s.hostReaches pa n = true → Answer.gives (exec (.hostRead a n) s) (fun t => t = { s with mem := t.mem, dev := t.dev }
        ∧ t.store = s.store
        ∧ t.dev = { s.dev with
            hostReply := ((s.store.readBytes pa n).map BitVec.toNat, s.store.poisoned pa n)
            aer := if s.store.poisoned pa n then s.dev.aer ++ [.poisonedTlp] else s.dev.aer })))
    ∧ (∀ a n v, s.peerReaches a n = true → s.plainBytes a n →
      Answer.gives (exec (.peerAccess 0 a n v) s) (fun t => t = { s with mem := t.mem } ∧ t.store = s.store)
      ∧ Answer.gives (exec (.peerAccess 1 a n v) s) (fun t => s.homeFrame t ∧ s.owesPeer t a n ∧ s.nowHolds t a (bytesOf v n))
      ∧ (s.store.poisoned a n = false → n = 4 ∨ n = 8 → v < 2 ^ (16 * n) →
        (∀ op f, atomTable[op]? = some f → op < 12 → Answer.gives (exec (.peerAccess (2 + op) a n v) s) (fun t => s.homeFrame t
          ∧ s.owesPeer t a n ∧ s.nowHolds t a (bytesOf (f (8 * n) (s.store.readNat a n) (v % 2 ^ (8 * n))) n)))
        ∧ Answer.gives (exec (.peerAccess 14 a n v) s) (fun t => s.homeFrame t ∧ s.owesPeer t a n
          ∧ s.nowHolds t a (bytesOf (if s.store.readNat a n = v / 2 ^ (8 * n) then v % 2 ^ (8 * n) else s.store.readNat a n) n))))
    ∧ (∀ w, w < 2 ^ 64 → Answer.gives (exec (.peerWriteAck w) s) (fun t => s.onlyWave t w
      ∧ t.wave w = { s.wave w with peerOut := (s.wave w).peerOut.tail }))
    ∧ (∀ who, Answer.gives (exec (.peerWriteAck (2 ^ 65 + who)) s) (fun t => s.onlyDev t
      ∧ t.dev = { s.dev with cpPeer := t.dev.cpPeer }
      ∧ (∀ x, x ≠ who → t.dev.cpPeer.filter (fun y => y.1 == x) = s.dev.cpPeer.filter (fun y => y.1 == x))
      ∧ t.dev.cpPeer.filter (fun y => y.1 == who) = (s.dev.cpPeer.filter (fun y => y.1 == who)).tail))
    ∧ (∀ r off vs, let w := tabGet s.dev.rwinBase 0 r
      let o := [(1, 4), (1, 8), (9, 4), (5, 8), (7, 8), (8, 8), (3, 8)].getD (bits w 62 59) (0, 1)
      let a := bits w 47 12 * 4096 + off
      bit w 63 = true → bits w 57 56 = s.dev.galSelf → bits w 62 59 ≤ 6 → off + o.2 ≤ tabGet s.dev.rwinSize 0 r * 4096 → off % o.2 = 0 →
      s.peerReaches a o.2 = true → s.plainBytes a o.2 → s.store.poisoned a o.2 = false → ∀ f, atomTable[o.1]? = some f →
      Answer.gives (exec (.reductionMergedWrite r off vs) s) (fun t => s.homeFrame t
        ∧ t.dev = { s.dev with peerOwed := t.dev.peerOwed }
        ∧ (vs ≠ [] → t.dev.peerOwed = s.dev.peerOwed.filter (fun x => decide (s.dt ≤ x)) ++ List.replicate vs.length (s.gwctAt a o.2))
        ∧ s.nowHolds t a (bytesOf (mergedOnce f (8 * o.2) vs (s.store.readNat a o.2)) o.2)))
    ∧ (∀ d, d < 4 → bit s.dev.galPresent d = true → Answer.gives (exec (.peerUnreachable d) s) (fun t =>
      bit t.dev.galPresent d = false ∧ (∀ e, e ≠ d → bit t.dev.galPresent e = bit s.dev.galPresent e)
      ∧ (∀ w, (∀ p ∈ (t.wave w).out, p.toPeer d = none) ∧ ∀ x ∈ (t.wave w).peerOut, peerOf x ≠ d)
      ∧ (∀ x ∈ t.dev.cpPeer, peerOf x.2 ≠ d)
      ∧ (∀ w h x a key, (s.wave w).held = some h → h.load = some x → a ∈ x.accs → key ∈ a.keys → isPeer key.1 = true →
        peerOf key.1 = d → gotAt x.got a.lane key.1 = none →
        ∃ h' x', (t.wave w).held = some h' ∧ h'.load = some x' ∧ gotAt x'.got a.lane key.1 = some (0, true))
      ∧ ∀ x, t.store.byte x = s.store.byte x))
    ∧ (∀ d port, d < 4 → port < 4 → bit s.dev.galLinkup port = true →
      ∃ x, (∀ i, bit x i = (bit s.dev.galLinkup i && i != port))
        ∧ exec (.peerUnreachable (4 * (port + 1) + d)) s = exec (.peerUnreachable d) { s with dev := { s.dev with galLinkup := x } })
    ∧ (∀ d port, port < 4 → Answer.gives (exec (.peerReachable d port) s) (fun t => s.onlyDev t
      ∧ t.dev = { s.dev with galLinkup := t.dev.galLinkup, galPresent := t.dev.galPresent }
      ∧ (∀ i, bit t.dev.galLinkup i = (bit s.dev.galLinkup i || i == port))
      ∧ ∀ i, bit t.dev.galPresent i = (bit s.dev.galPresent i || (i == d && decide (d < 4) && d != s.dev.galSelf))))

/-- Starts and the mailbox (R409 to R414): a command that verifies has its effect, and BUSY falls at its end. The model's choices here: the
layout of a signed image in a command buffer (log entry 60) and of the report of ATTEST (58), the translator after a cold start (57), the
record of a vault out of service (46, 81), the reports to the host (80), what memory reads as after a cold start (8), and that the
check of the stored firmware is a value left open (83). -/
def Obligations.StartsAndMailbox : Prop :=
  ∀ s : State,
    Answer.gives (exec .coldStart s) (fun t => s.coldStarted t ∧ t.dev.firmware = s.dev.firmware
      ∧ t.dev.fwOk = Config.firmwareStands s.free s.dev.firmware)
    ∧ Answer.gives (exec .mgmtWatchdogWarmStart s) (fun t => s.warmStarted t
      ∧ t.dev.fwOk = Config.firmwareStands s.free s.dev.firmware)
    ∧ (s.dev.mboxBusy = true → s.dev.mboxDone = true → Answer.gives (exec .mboxCommandComplete s) (fun t => s.onlyDev t
      ∧ t.dev = { s.dev with mboxBusy := false, mboxDone := false }))
    ∧ (s.dev.mboxBusy = true → s.dev.mboxDone = false → s.dev.fwOk = true → s.fenced 2 = false →
      let a := s.dev.mboxGo.2
      (s.dev.mboxGo.1 = 0 → a % 64 = 0 → s.ctlReadable a 3568 = true → s.plainBytes a 3568 →
        (∀ j, j < 3568 → s.ctlStores 2 (a + j) = true) → Answer.gives (exec .attest s) (fun t =>
        t.dev = { s.dev with mboxDone := true, mboxStatus := 0, fences := t.dev.fences, cpPeer := t.dev.cpPeer }
        ∧ (∀ j, j < 32 → t.store.byte (a + j) = s.store.byte (a + j))
        ∧ t.store.readNat (a + 32) 64 = s.dev.firmware % 2 ^ 512 ∧ t.store.readNat (a + 96) 64 = s.dev.translator % 2 ^ 512
        ∧ t.store.readNat (a + 224) 8 = s.dev.coreLo % 2 ^ 64 ∧ t.store.readNat (a + 232) 8 = s.dev.coreHi % 2 ^ 64
        ∧ t.store.readNat (a + 240) 8 = s.dt % 2 ^ 64 ∧ t.store.readNat (a + 248) 4 = (if s.dev.warm then 1 else 0)
        ∧ t.store.readNat (a + 252) 4 = 0 ∧ t.store.readNat (a + 3565) 3 = 0
        ∧ ∀ x, x < a ∨ a + 3568 ≤ x → t.store.byte x = s.store.byte x))
      ∧ (s.dev.mboxGo.1 = 3 → Answer.gives (exec .warmStart s) (fun t => s.warmStarted t))
      ∧ (∀ st, s.signedImage a = .error st →
        (s.dev.mboxGo.1 = 1 → Answer.gives (exec .loadTranslator s) (fun t => s.imageRead t
          ∧ t.dev = { s.dev with mboxDone := true, mboxStatus := st }))
        ∧ (s.dev.mboxGo.1 = 2 → Answer.gives (exec .enroll s) (fun t => s.imageRead t
          ∧ t.dev = { s.dev with mboxDone := true, mboxStatus := st }))
        ∧ (s.dev.mboxGo.1 = 4 → Answer.gives (exec .loadFirmware s) (fun t => s.imageRead t
          ∧ t.dev = { s.dev with mboxDone := true, mboxStatus := st })))
      ∧ (∀ img, s.signedImage a = .ok img →
        let digest := shake256 (img.map BitVec.toNat)
        (s.dev.mboxGo.1 = 1 → Answer.gives (exec .loadTranslator s) (fun t => s.imageRead t
          ∧ t.dev = { s.dev with translator := digest, mboxDone := true, mboxStatus := 0 }))
        ∧ (s.dev.mboxGo.1 = 4 → Answer.gives (exec .loadFirmware s) (fun t => s.coldStarted t ∧ t.dev.firmware = digest
          ∧ t.dev.fwOk = true))
        ∧ (s.dev.mboxGo.1 = 2 → img.length = 64 → fld img 32 1 ≤ 1 → Answer.gives (exec .enroll s) (fun t =>
          let key := fld img 0 32
          let ks := s.dev.ownerKeys
          let room := fld img 32 1 = 1 ∨ ks.contains key = true ∨ ks.length < 8
          s.imageRead t
          ∧ t.dev = { s.dev with mboxDone := true, mboxStatus := if room then 0 else 2, ownerKeys := t.dev.ownerKeys }
          ∧ (¬room → t.dev.ownerKeys = ks)
          ∧ (room → ∀ x, t.dev.ownerKeys.contains x = if fld img 32 1 = 1 then ks.contains x && x != key
            else ks.contains x || x == key)))))

/-- A step runs the decoded instruction (R47, R91, R127, R164, R192, R228, R234, R235, R376, R396): the selected wave or sequencer, or the head of the
schedule. The word of a fetch is the eight bytes at the translated address; one that a line held by the partition's fetch buffer served
may be the word as it was when the line was filled. The schedule and the selected agent (log entries 1, 2), time as entries of it (16), the
sequencer's read at home and the choice of the fetch buffer (23), the frame of a fetch trap (24), a load that performs in parts (27), the
lanes of a trap that decoding raises (35) and the place of the watchdog before the issue (73) are the model's choices. -/
def Obligations.StepRunsDecoded : Prop :=
  ∀ s : State,
    (∀ w u, (s.agenda = [] ∧ s.cur = .wave w ∧ u = s) ∨ (∃ rest, s.agenda = .wave w :: rest ∧ u = { s with agenda := rest, cur := .wave w }) →
      ∀ s1, u.waveTurn w = some s1 →
      (∀ i, (s1.wave w).sentLoad = some i → step s = exec i (s1.ordered w i))
      ∧ ((s1.wave w).sentLoad = none → ∀ s2,
      (∀ x lit, s1.fetchWave w = (s2, .words x lit) →
        (∀ i, decodeThread x lit = .ok i → s2.wdExpired w = false ∨ s2.badOperand w i = true → step s = exec i (s2.ordered w i))
        ∧ (∀ c, decodeThread x lit = .error c → step s = .next (s2.takeTrap w (laneMask (s2.occupied w))
            { cause := c, info := 0, lanes := [], isPartial := false, skip := if isLitWord x then 2 else 1 })))
      ∧ (∀ c va k, s1.fetchWave w = (s2, .bad c va k) → s2.wdExpired w = false → step s = .next (s2.fetchTrap w c va k))))
    ∧ (∀ w n rest s1, s.agenda = .part w n :: rest →
      let u := { s with agenda := rest, cur := .wave w }
      u.waveTurn w = some s1 →
      (∀ i, (s1.wave w).sentLoad = some i → step s = .next ((s1.ordered w i).loadPart w i n))
      ∧ ((s1.wave w).sentLoad = none → ∀ s2 x lit i, s1.fetchWave w = (s2, .words x lit) → decodeThread x lit = .ok i →
        s2.wdExpired w = false → step s = .next ((s2.ordered w i).loadPart w i n)))
    ∧ (∀ k u, (s.agenda = [] ∧ s.cur = .seq k ∧ u = s) ∨ (∃ rest, s.agenda = .seq k :: rest ∧ u = { s with agenda := rest, cur := .seq k }) →
      ∀ s2 x lit, u.seqTurn k = true → u.fetchAt (u.seqEnv k) 0 (u.seqOf k).seg (u.seqOf k).word = (s2, .words x lit) →
      (∀ i, decodeSequencer x lit = .ok i → step s = exec i s2)
      ∧ (∀ c, decodeSequencer x lit = .error c → step s = .next (s2.seqFault k c)))
    ∧ (∀ i rest u, s.agenda = .event i :: rest → u = { s with agenda := rest } → isEvent i = true → i.wf = true →
      (u.trapsFirst i = false → u.clocked i = true → step s = exec i u)
      ∧ (u.trapsFirst i = true ∨ u.clocked i = false → step s = .next u))
    ∧ (∀ n rest u, s.agenda = .tick n :: rest → u = { s with agenda := rest } → step s = .next (u.tick n)
      ∧ (s.clusters = [] → s.launches = [] → s.mem.arrivals = [] → step s = .next { u with dt := s.dt + n }))
    ∧ (∀ (e : Env) q va s1 pa cls, s.translate e va .fetch = .ok (s1, pa, cls) →
      (e.core = none → s.fetchWord e q va = .ok (s1.touchRead pa 8, s1.store.readNat pa 8, s1.store.poisoned pa 8))
      ∧ (∀ c, e.core = some c → s1.bufLine c q (pa / 64) = none → s1.iLine c (pa / 64) = none → pa % 8 = 0 →
        ∃ s2, s.fetchWord e q va = .ok (s2, s1.store.readNat pa 8, s1.store.poisoned pa 8) ∧ s2.store = s1.store
          ∧ s2.waves = s1.waves ∧ s2.groups = s1.groups)
      ∧ (∀ c l, e.core = some c → s1.bufLine c q (pa / 64) = some l →
        ∃ x, s.fetchWord e q va = .ok (s1, x) ∧ (x = l.word pa ∨ x = s1.store.codeWord pa)))
    ∧ (∀ (e : Env) q seg word,
      let g := (s.launch e.launch).mod_.segOf seg
      let va := ((s.launch e.launch).codeBase + 8 * (g.first + word)) % 2 ^ 48
      (g.len ≤ word → s.fetchAt e q seg word = (s, .outside))
      ∧ (∀ s1 x, word < g.len → s.fetchWord e q va = .ok (s1, x, false) → isLitWord x = false →
        s.fetchAt e q seg word = (s1, .words x 0))
      ∧ (∀ s1 x, word < g.len → s.fetchWord e q va = .ok (s1, x, true) → s.fetchAt e q seg word = (s1, .bad .poison va 1))
      ∧ (∀ s1 x s2 y, word + 1 < g.len → s.fetchWord e q va = .ok (s1, x, false) → isLitWord x = true →
        s1.fetchWord e q ((va + 8) % 2 ^ 48) = .ok (s2, y, false) → s.fetchAt e q seg word = (s2, .words x y)))

/-- Reset (R45, R51, R82, R144, R349, R350, R369, R370, R384, R395, R397, R405, R412, R413, R435 to R443): the registers with the values that
their rules give, no launch, no wave, and memory in canonical form. What memory reads as (log entry 8), and 0 for the energy counts, for
which R403 gives no reset value (log entry 7), are the model's choices. -/
def Obligations.ResetValues : Prop :=
  State.reset.dt = 0 ∧ State.reset.memoryCanonical
    ∧ (∀ w, tabFind State.reset.waves w = none) ∧ (∀ l, tabFind State.reset.launches l = none) ∧ (∀ a, State.reset.store.byte a = 0)
    ∧ (∀ q, State.reset.regValue (.cqBase q) = 0 ∧ State.reset.regValue (.cqTail q) = 0 ∧ State.reset.regValue (.cqHead q) = 0
      ∧ State.reset.regValue (.crBase q) = 0 ∧ State.reset.regValue (.crTail q) = 0 ∧ State.reset.regValue (.crHead q) = 0)
    ∧ (∀ k, State.reset.regValue (.cslr k) = 30 * 2 ^ 16 + 7 * 2 ^ 8 + 60 ∧ State.reset.regValue (.issueThr k) = 8
      ∧ State.reset.regValue (.railCtl k) = 0 ∧ State.reset.regValue (.poolCmd k) = 0 ∧ State.reset.regValue (.nearErr k) = 0
      ∧ State.reset.regValue (.nearCe k) = 0 ∧ State.reset.regValue (.energyCl k) = 0
      ∧ ∀ b, b < 32 → State.reset.bankMode k b = if b < 8 then 0 else if b < 30 then 1 else 2)
    ∧ (∀ v, State.reset.regValue (.vaultStat v) = 122880)
    ∧ (∀ c, State.reset.regValue (.coreSram c) = 224 * 2 ^ 8 ∧ State.reset.regValue (.swapCtl c) = 0)
    ∧ State.reset.regValue .kickPend = 0 ∧ State.reset.regValue .schedStat = 2 ^ 61 ∧ State.reset.regValue .schedCtl = 0
    ∧ State.reset.regValue .jrnPtr = 0 ∧ State.reset.regValue .schedAssist = 0 ∧ State.reset.regValue .coreHoldLo = 0
    ∧ State.reset.regValue .coreHoldHi = 0 ∧ State.reset.regValue .scanCtl = 0 ∧ State.reset.regValue .tickCmp = 0
    ∧ State.reset.regValue .pwrAlarm = 0 ∧ State.reset.regValue .pwrCfg = 100 * 2 ^ 32 + 50 * 2 ^ 16 + 64
    ∧ State.reset.regValue .aperBase = 0 ∧ State.reset.regValue .mbox = 0 ∧ State.reset.regValue .energyDev = 0
    ∧ State.reset.regValue .energyHigh = 0 ∧ State.reset.regValue .energyLow = 0 ∧ State.reset.regValue .tlbInv = 0
    ∧ State.reset.regValue .ctxTable = 0 ∧ State.reset.regValue .vaultSplit = 128 ∧ State.reset.regValue .errSum = 0

/-- Every step keeps memory in its canonical form. -/
def Obligations.MemoryCanonicalKept : Prop :=
  ∀ s t : State, s.memoryCanonical → step s = .next t → t.memoryCanonical

/-- CFLUSH (R343): the open tile of a cistern is ready at once if it holds a row, the word's encoding, and the trap of a cistern that the
module does not declare. -/
def Obligations.CisternFlush : Prop :=
  (∀ c, c < 8 → decodeWord (0x2C80000000000000 + 4 * c) 0 = .ok (.cflush { mark := false, c := c }))
    ∧ ∀ (s : State) (w : Nat) (o : Cflush), s.cur = .wave w → (s.wave w).spec = none →
      (∀ d, (s.groupMod (groupOf w)).cisternDecl o.c = some d → (s.wave w).relGate = none →
        ((s.cistern (s.waveCluster w) d.index).openRows = [] →
          Answer.gives (exec (.cflush o) s) (fun t => s.wordFrame t w o.mark ∧ t.cc = s.cc ∧ t.groups = s.groups))
        ∧ ((s.cistern (s.waveCluster w) d.index).openRows ≠ [] →
          Answer.gives (exec (.cflush o) s) (fun t =>
            s.tileClosed t (s.waveCluster w) d.index (s.cistern (s.waveCluster w) d.index).openRows
            ∧ (t.wave w).word = (s.wave w).word + 1 ∧ (t.wave w).cc = (s.wave w).cc ∧ t.groups = s.groups)))
      ∧ ((s.groupMod (groupOf w)).cisternDecl o.c = none → (s.wave w).level = .thread →
        (s.waveMod w).handlerOf .illegalOperand ≠ 4095 →
        Answer.gives (exec (.cflush o) s) (fun t =>
          s.inHandler t w ((s.waveMod w).handlerOf .illegalOperand) .illegalOperand 0 (laneMask (s.occupied w)) 1))

/-- A cause at THREAD level without a handler (R375): DEADLINE ends the crew with the launch's completion status DEADLINE, and every other
cause ends it with KILLED; a status that the launch has already stands as R354 says. -/
def Obligations.NoHandler : Prop :=
  ∀ (s : State) (w active : Nat) (x : TrapInfo), (s.wave w).spec = none → (s.wave w).level = .thread →
    (s.waveMod w).handlerOf x.cause = 4095 →
    ∃ info, s.crewKilled (s.takeTrap w active x) (crewOf w) (if x.cause = .deadline then 1 else 13) info
end

