-- ==== Sys2Proof/Laws/Elements.lean ====
section
/-! SUPPORT. The element operations of the model agree with the words of the claims. -/

namespace Sys2Proof.Machine

open Sys2Proof

theorem two_pow_four (e : Nat) : (2 : Nat) ^ (4 * e) = 16 ^ e := by rw [pow_mul]; norm_num

/-- The low bits lie in their range. -/
theorem lowBits_lt (v : Int) (n : Nat) : lowBits v n < 2 ^ n := by
  unfold lowBits
  have : (0 : Int) < (2 ^ n : Nat) := by positivity
  have h1 := Int.emod_nonneg v (ne_of_gt this)
  have h2 := Int.emod_lt_of_pos v this
  omega

@[simp] theorem lowBits_mod (v : Int) (n : Nat) : lowBits v n % 2 ^ n = lowBits v n := Nat.mod_eq_of_lt (lowBits_lt v n)

theorem lowBits_natCast (v n : Nat) : lowBits (v : Int) n = v % 2 ^ n := by
  unfold lowBits; rw [← Int.natCast_mod]; exact Int.toNat_natCast _

theorem lowBits_add_pow (v : Int) (n : Nat) : lowBits (v + (2 ^ n : Nat)) n = lowBits v n := by
  unfold lowBits; rw [Int.add_emod_right]

theorem sub_elem (n x y : Nat) (hy : y < 2 ^ n) : (x + (2 ^ n - y)) % 2 ^ n = lowBits ((x : Int) - y) n := by
  rw [← lowBits_add_pow, ← lowBits_natCast]
  congr 1
  omega

theorem sInt_lt (n x : Nat) (hn : 0 < n) (hx : x < 2 ^ n) : sInt n x < (2 ^ (n - 1) : Nat) ∧ -((2 ^ (n - 1) : Nat) : Int) ≤ sInt n x := by
  obtain ⟨m, rfl⟩ : ∃ m, n = m + 1 := ⟨n - 1, by omega⟩
  unfold sInt
  rw [Nat.add_sub_cancel]
  have hp : 2 ^ (m + 1) = 2 * 2 ^ m := by ring
  have hd : x / 2 ^ m < 2 := Nat.div_lt_of_lt_mul (by omega)
  have hp0 : 0 < 2 ^ m := by positivity
  have hm := Nat.div_add_mod x (2 ^ m)
  have hr := Nat.mod_lt x hp0
  rw [hp] at hx ⊢
  generalize 2 ^ m = P at *
  generalize x % P = r at *
  generalize x / P = q at *
  rcases (by omega : q = 0 ∨ q = 1) with h | h
  · rw [h] at hm ⊢
    simp only [Nat.zero_mod, Nat.zero_ne_one, if_false, Nat.mul_zero] at hm ⊢
    omega
  · rw [h] at hm ⊢
    simp only [Nat.one_mod, if_true, Nat.mul_one] at hm ⊢
    push_cast
    omega

theorem lowBits_sInt (n x : Nat) (hx : x < 2 ^ n) : lowBits (sInt n x) n = x := by
  unfold sInt
  split
  · rw [← lowBits_add_pow, show (x : Int) - (2 ^ n : Nat) + (2 ^ n : Nat) = x by ring, lowBits_natCast, Nat.mod_eq_of_lt hx]
  · rw [lowBits_natCast, Nat.mod_eq_of_lt hx]

theorem clampTo_uns (n : Nat) (v : Int) : clampTo n true v = satU n v := by
  unfold clampTo satU
  rw [if_pos rfl]
  have hp : (0 : Int) < 2 ^ n := by positivity
  have e : ((2 ^ n : Nat) : Int) - 1 = (2 : Int) ^ n - 1 := by push_cast; ring
  rw [e]
  have h : 0 ≤ clampInt v 0 (2 ^ n - 1) ∧ clampInt v 0 (2 ^ n - 1) < 2 ^ n := by
    unfold clampInt; split <;> [skip; split] <;> omega
  obtain ⟨k, hk⟩ := Int.eq_ofNat_of_zero_le h.1
  rw [hk, lowBits_natCast, Int.toNat_natCast]
  apply Nat.mod_eq_of_lt
  have := h.2
  rw [hk] at this
  exact_mod_cast this

theorem clampTo_sig (n : Nat) (v : Int) : clampTo n false v = satS n v := by
  unfold clampTo satS
  rw [if_neg (by simp)]
  congr 2

theorem mulh_uns (n x y : Nat) (hx : x < 2 ^ n) (hy : y < 2 ^ n) : mulhElem n true x y = x * y / 2 ^ n := by
  unfold mulhElem intOf
  rw [if_pos rfl, if_pos rfl, ← Int.natCast_mul, ← Int.natCast_div, lowBits_natCast]
  apply Nat.mod_eq_of_lt
  apply Nat.div_lt_of_lt_mul
  exact Nat.mul_lt_mul'' hx hy

theorem mulh_sig (n x y : Nat) : mulhElem n false x y = lowBits (sInt n x * sInt n y / 2 ^ n) n := by
  unfold mulhElem intOf
  simp

theorem div_sig (n x y : Nat) : divElem n false x y = quotS n x y := by
  unfold divElem quotS
  simp only [Bool.false_eq_true, if_false]
  by_cases hy : y = 0
  · simp only [hy, if_true]
    by_cases h : sInt n x < 0
    · rw [if_pos h, if_neg (by omega)]
    · rw [if_neg h, if_pos (by omega)]
  · simp [hy]

theorem div_uns (n x y : Nat) : divElem n true x y = quotU n x y := by simp [divElem, quotU]

theorem rem_sig (n x y : Nat) : remElem n false x y = remS n x y := by simp [remElem, remS]

theorem rem_uns (n x y : Nat) : remElem n true x y = remU x y := by simp [remElem, remU]

theorem min_sig (n x y : Nat) : minMaxElem n false false x y = if sInt n x < sInt n y then x else y := by
  simp [minMaxElem, intOf]

theorem max_sig (n x y : Nat) : minMaxElem n false true x y = if sInt n x < sInt n y then y else x := by
  simp only [minMaxElem, intOf, Bool.not_true, Bool.false_eq_true, if_false]
  by_cases h : sInt n x < sInt n y <;> simp [h]

theorem min_uns (n x y : Nat) : minMaxElem n true false x y = min x y := by
  simp only [minMaxElem, intOf, if_true, Bool.not_false]
  by_cases h : x < y
  · simp [h]; omega
  · simp [h]; omega

theorem max_uns (n x y : Nat) : minMaxElem n true true x y = max x y := by
  simp only [minMaxElem, intOf, if_true, Bool.not_true]
  by_cases h : x < y
  · simp [h]; omega
  · simp [h]; omega

theorem not_elem (n y : Nat) (hy : y < 2 ^ n) : notElem n y = 2 ^ n - 1 - y := by
  rw [notElem, Nat.mod_eq_of_lt hy]

theorem sha_elem (n x y : Nat) (hn : 0 < n) (hx : x < 2 ^ n) :
    shaElem n x y = if n ≤ y then (if sInt n x < 0 then 2 ^ n - 1 else 0) else lowBits (sInt n x / 2 ^ y) n := by
  unfold shaElem
  split
  · rename_i h
    rw [Nat.min_eq_right h]
    obtain ⟨h1, h2⟩ := sInt_lt n x hn hx
    have hp : (2 ^ (n - 1) : Nat) < 2 ^ n := Nat.pow_lt_pow_right (by norm_num) (by omega)
    have hpos : (0 : Int) < (2 ^ n : Nat) := by positivity
    split
    · rename_i h0
      have : sInt n x / (2 ^ n : Nat) = -1 := by
        apply Int.ediv_eq_neg_one_of_neg_of_le h0
        omega
      rw [this, show (-1 : Int) = ((2 ^ n - 1 : Nat) : Int) - (2 ^ n : Nat) by have := Nat.one_le_two_pow (n := n); omega,
        ← lowBits_add_pow, sub_add_cancel, lowBits_natCast]
      apply Nat.mod_eq_of_lt
      have := Nat.one_le_two_pow (n := n); omega
    · rename_i h0
      have : sInt n x / (2 ^ n : Nat) = 0 := Int.ediv_eq_zero_of_lt (by omega) (by omega)
      rw [this]; simp [lowBits]
  · rename_i h
    rw [Nat.min_eq_left (by omega)]; push_cast; rfl

theorem rot_elem (n x y : Nat) : rotElem n x y = (x * 2 ^ (y % n) % 2 ^ n + x / 2 ^ (n - y % n)) % 2 ^ n := by
  rw [rotElem, Nat.mod_add_mod]

theorem popCount_eq (n x : Nat) : popCount x n = ((List.range n).filter (fun i => bit x i)).length := by
  induction n generalizing x with
  | zero => simp [popCount]
  | succ n ih =>
    rw [popCount, ih, List.range_succ_eq_map, List.filter_cons, List.filter_map]
    have : ((fun i => bit x i) ∘ Nat.succ) = fun i => bit (x / 2) i := by
      funext i
      simp only [Function.comp, bit, Nat.succ_eq_add_one, pow_succ, Nat.mul_comm _ 2, Nat.div_div_eq_div_mul]
    rw [this]
    have h2 := Nat.mod_two_eq_zero_or_one x
    by_cases hb : bit x 0 = true
    · have : x % 2 = 1 := by simpa [bit] using hb
      simp [hb, this, Nat.add_comm]
    · have : x % 2 = 0 := by
        have : ¬ x % 2 = 1 := by simpa [bit] using hb
        omega
      simp [hb, this]

theorem revElem_eq (n x acc : Nat) : revElem x acc n = acc * 2 ^ n
    + ((List.range n).map (fun i => if bit x (n - 1 - i) then 2 ^ i else 0)).sum := by
  induction n generalizing x acc with
  | zero => simp [revElem]
  | succ n ih =>
    rw [revElem, ih, List.range_succ, List.map_append, List.sum_append]
    have hl : (List.range n).map (fun i => if bit x (n + 1 - 1 - i) then 2 ^ i else 0)
        = (List.range n).map (fun i => if bit (x / 2) (n - 1 - i) then 2 ^ i else 0) := by
      apply List.map_congr_left
      intro i hi
      rw [List.mem_range] at hi
      have : bit x (n + 1 - 1 - i) = bit (x / 2) (n - 1 - i) := by
        unfold bit
        rw [show n + 1 - 1 - i = (n - 1 - i) + 1 by omega, pow_succ, Nat.mul_comm _ 2, Nat.div_div_eq_div_mul]
      rw [this]
    rw [hl]
    simp only [List.map_cons, List.map_nil, List.sum_cons, List.sum_nil]
    have h2 := Nat.mod_two_eq_zero_or_one x
    have hb : (if bit x (n + 1 - 1 - n) = true then 2 ^ n else 0) = x % 2 * 2 ^ n := by
      rw [show n + 1 - 1 - n = 0 by omega]
      rcases h2 with h | h <;> simp [bit, h]
    rw [hb]; ring

end Sys2Proof.Machine
end

