-- ==== Sys2Proof/Laws/Tab.lean ====
section
/-! SUPPORT. Laws of tables: what a key reads as after a write, a removal or a canonical write, and the canonical form. -/

namespace Sys2Proof

/-- A written key is found with its value. -/
@[simp] theorem tabFind_tabPut_same {α : Type} (t : Tab α) (k : Nat) (v : α) : tabFind (tabPut t k v) k = some v := by
  induction t with
  | nil => simp [tabPut, tabFind]
  | cons e rest ih =>
    obtain ⟨j, x⟩ := e
    unfold tabPut
    split
    · simp [tabFind]
    · split
      · simp [tabFind]
      · rw [tabFind, if_neg (by omega), ih]

/-- A write leaves every other key alone. -/
theorem tabFind_tabPut_other {α : Type} (t : Tab α) (k : Nat) (v : α) (i : Nat) (h : i ≠ k) :
    tabFind (tabPut t k v) i = tabFind t i := by
  induction t with
  | nil => simp [tabPut, tabFind, Ne.symm h]
  | cons e rest ih =>
    obtain ⟨j, x⟩ := e
    unfold tabPut
    split
    · rw [tabFind, if_neg (by omega)]
    · split
      · subst_vars; simp [tabFind, Ne.symm h]
      · simp only [tabFind, ih]

/-- A written key reads its value. -/
@[simp] theorem tabGet_tabPut_same {α : Type} (t : Tab α) (d : α) (k : Nat) (v : α) : tabGet (tabPut t k v) d k = v := by
  simp [tabGet]

/-- Another key reads as before. -/
theorem tabGet_tabPut_other {α : Type} (t : Tab α) (d : α) (k : Nat) (v : α) (i : Nat) (h : i ≠ k) :
    tabGet (tabPut t k v) d i = tabGet t d i := by simp [tabGet, tabFind_tabPut_other t k v i h]

/-- What any key reads as after a write. -/
theorem tabGet_tabPut {α : Type} (t : Tab α) (d : α) (k : Nat) (v : α) (i : Nat) :
    tabGet (tabPut t k v) d i = if i = k then v else tabGet t d i := by
  split
  · subst_vars; simp
  · rename_i h; exact tabGet_tabPut_other t d k v i h

/-- In a table whose keys rise from a bound, a key below it is not found. -/
theorem tabFind_rising {α : Type} (t : Tab α) (lo k : Nat) (h : tabRising lo t = true) (hk : k < lo) : tabFind t k = none := by
  induction t generalizing lo with
  | nil => rfl
  | cons e rest ih =>
    obtain ⟨j, x⟩ := e
    simp only [tabRising, Bool.and_eq_true, decide_eq_true_eq] at h
    rw [tabFind, if_neg (by omega), ih (j + 1) h.2 (by omega)]

/-- Rising keys stay rising under a smaller bound. -/
theorem tabRising_mono {α : Type} (t : Tab α) (lo lo' : Nat) (h : tabRising lo t = true) (hl : lo' ≤ lo) :
    tabRising lo' t = true := by
  cases t with
  | nil => rfl
  | cons e rest =>
    simp only [tabRising, Bool.and_eq_true, decide_eq_true_eq] at h ⊢
    exact ⟨by omega, h.2⟩

/-- A write keeps the keys rising. -/
theorem tabRising_tabPut {α : Type} (t : Tab α) (lo k : Nat) (v : α) (h : tabRising lo t = true) (hk : lo ≤ k) :
    tabRising lo (tabPut t k v) = true := by
  induction t generalizing lo with
  | nil => simp [tabPut, tabRising, hk]
  | cons e rest ih =>
    obtain ⟨j, x⟩ := e
    simp only [tabRising, Bool.and_eq_true, decide_eq_true_eq] at h
    unfold tabPut
    split
    · simp only [tabRising, Bool.and_eq_true, decide_eq_true_eq]; exact ⟨hk, by omega, h.2⟩
    · split
      · subst_vars; simp only [tabRising, Bool.and_eq_true, decide_eq_true_eq]; exact h
      · simp only [tabRising, Bool.and_eq_true, decide_eq_true_eq]; exact ⟨h.1, ih (j + 1) h.2 (by omega)⟩

/-- A removal keeps the keys rising. -/
theorem tabRising_tabDel {α : Type} (t : Tab α) (lo k : Nat) (h : tabRising lo t = true) : tabRising lo (tabDel t k) = true := by
  induction t generalizing lo with
  | nil => rfl
  | cons e rest ih =>
    obtain ⟨j, x⟩ := e
    simp only [tabRising, Bool.and_eq_true, decide_eq_true_eq] at h
    unfold tabDel
    split
    · exact tabRising_mono _ _ _ (ih (j + 1) h.2) (by omega)
    · simp only [tabRising, Bool.and_eq_true, decide_eq_true_eq]; exact ⟨h.1, ih (j + 1) h.2⟩

/-- The members of a written table. -/
theorem mem_tabPut {α : Type} (t : Tab α) (k : Nat) (v : α) (e : Nat × α) (h : e ∈ tabPut t k v) : e = (k, v) ∨ e ∈ t := by
  induction t with
  | nil => simpa [tabPut] using h
  | cons f rest ih =>
    obtain ⟨j, x⟩ := f
    unfold tabPut at h
    split at h
    · simpa using h
    · split at h
      · rcases List.mem_cons.mp h with h | h
        · exact .inl h
        · exact .inr (List.mem_cons_of_mem _ h)
      · rcases List.mem_cons.mp h with h | h
        · exact .inr (by simp [h])
        · rcases ih h with h | h
          · exact .inl h
          · exact .inr (List.mem_cons_of_mem _ h)

/-- The members of a table after a removal were in it. -/
theorem mem_tabDel {α : Type} (t : Tab α) (k : Nat) (e : Nat × α) (h : e ∈ tabDel t k) : e ∈ t := by
  induction t with
  | nil => exact h
  | cons f rest ih =>
    obtain ⟨j, x⟩ := f
    unfold tabDel at h
    split at h
    · exact List.mem_cons_of_mem _ (ih h)
    · rcases List.mem_cons.mp h with h | h
      · simp [h]
      · exact List.mem_cons_of_mem _ (ih h)

/-- The canonical form, as a statement about its entries. -/
theorem tabCanon_iff {α : Type} [DecidableEq α] (d : α) (t : Tab α) :
    tabCanon d t = true ↔ tabRising 0 t = true ∧ ∀ e ∈ t, e.2 ≠ d := by
  simp [tabCanon, List.all_eq_true]

/-- A canonical write keeps the canonical form. -/
theorem tabCanon_tabSet {α : Type} [DecidableEq α] (t : Tab α) (d : α) (k : Nat) (v : α) (h : tabCanon d t = true) :
    tabCanon d (tabSet t d k v) = true := by
  rw [tabCanon_iff] at h ⊢
  unfold tabSet
  split
  · exact ⟨tabRising_tabDel t 0 k h.1, fun e he => h.2 e (mem_tabDel t k e he)⟩
  · rename_i hv
    refine ⟨tabRising_tabPut t 0 k v h.1 (Nat.zero_le k), fun e he => ?_⟩
    rcases mem_tabPut t k v e he with rfl | he
    · exact hv
    · exact h.2 e he

/-- Leaving entries out keeps the keys rising. -/
theorem tabRising_filter {α : Type} (t : Tab α) (lo : Nat) (p : Nat × α → Bool) (h : tabRising lo t = true) :
    tabRising lo (t.filter p) = true := by
  induction t generalizing lo with
  | nil => rfl
  | cons e rest ih =>
    simp only [tabRising, Bool.and_eq_true, decide_eq_true_eq] at h
    rw [List.filter_cons]
    split
    · simp only [tabRising, Bool.and_eq_true, decide_eq_true_eq]; exact ⟨h.1, ih _ h.2⟩
    · exact tabRising_mono _ _ _ (ih _ h.2) (by omega)

/-- Leaving entries out keeps the canonical form. -/
theorem tabCanon_filter {α : Type} [DecidableEq α] (t : Tab α) (d : α) (p : Nat × α → Bool) (h : tabCanon d t = true) :
    tabCanon d (t.filter p) = true := by
  rw [tabCanon_iff] at h ⊢
  exact ⟨tabRising_filter t 0 p h.1, fun e he => h.2 e (List.mem_of_mem_filter he)⟩

/-- A removed key is not found. -/
@[simp] theorem tabFind_tabDel_same {α : Type} (t : Tab α) (k : Nat) : tabFind (tabDel t k) k = none := by
  induction t with
  | nil => rfl
  | cons e rest ih =>
    obtain ⟨j, x⟩ := e
    unfold tabDel
    split
    · exact ih
    · rename_i hj
      rw [tabFind, if_neg hj, ih]

/-- A removal leaves every other key alone. -/
theorem tabFind_tabDel_other {α : Type} (t : Tab α) (k i : Nat) (h : i ≠ k) : tabFind (tabDel t k) i = tabFind t i := by
  induction t with
  | nil => rfl
  | cons e rest ih =>
    obtain ⟨j, x⟩ := e
    unfold tabDel
    split
    · subst_vars; rw [tabFind, if_neg (Ne.symm h), ih]
    · simp only [tabFind, ih]

/-- A read after a canonical write. -/
theorem tabGet_tabSet {α : Type} [DecidableEq α] (t : Tab α) (d : α) (k : Nat) (v : α) (i : Nat) : tabGet (tabSet t d k v) d i = if i = k then v else tabGet t d i := by
  unfold tabSet
  split
  · subst_vars
    split
    · subst_vars; simp [tabGet]
    · rename_i hi; simp [tabGet, tabFind_tabDel_other t k i hi]
  · exact tabGet_tabPut t d k v i

end Sys2Proof
end

