-- ==== Sys2Proof/Laws/State.lean ====
section
/-! SUPPORT. What each accessor of the state gives after each update: one lemma per field per update. -/

namespace Sys2Proof.Machine

open Sys2Proof

@[simp] theorem State.setWave_dt (s : State) (w : Nat) (v : Wave) : (s.setWave w v).dt = s.dt := rfl
@[simp] theorem State.setWave_cur (s : State) (w : Nat) (v : Wave) : (s.setWave w v).cur = s.cur := rfl
@[simp] theorem State.setWave_agenda (s : State) (w : Nat) (v : Wave) : (s.setWave w v).agenda = s.agenda := rfl
@[simp] theorem State.setWave_free (s : State) (w : Nat) (v : Wave) : (s.setWave w v).free = s.free := rfl
@[simp] theorem State.setWave_groups (s : State) (w : Nat) (v : Wave) : (s.setWave w v).groups = s.groups := rfl
@[simp] theorem State.setWave_crews (s : State) (w : Nat) (v : Wave) : (s.setWave w v).crews = s.crews := rfl
@[simp] theorem State.setWave_cores (s : State) (w : Nat) (v : Wave) : (s.setWave w v).cores = s.cores := rfl
@[simp] theorem State.setWave_clusters (s : State) (w : Nat) (v : Wave) : (s.setWave w v).clusters = s.clusters := rfl
@[simp] theorem State.setWave_launches (s : State) (w : Nat) (v : Wave) : (s.setWave w v).launches = s.launches := rfl
@[simp] theorem State.setWave_mem (s : State) (w : Nat) (v : Wave) : (s.setWave w v).mem = s.mem := rfl
@[simp] theorem State.setWave_sched (s : State) (w : Nat) (v : Wave) : (s.setWave w v).sched = s.sched := rfl
@[simp] theorem State.setWave_power (s : State) (w : Nat) (v : Wave) : (s.setWave w v).power = s.power := rfl
@[simp] theorem State.setWave_dev (s : State) (w : Nat) (v : Wave) : (s.setWave w v).dev = s.dev := rfl

@[simp] theorem State.setGroup_dt (s : State) (g : Nat) (v : Group) : (s.setGroup g v).dt = s.dt := rfl
@[simp] theorem State.setGroup_cur (s : State) (g : Nat) (v : Group) : (s.setGroup g v).cur = s.cur := rfl
@[simp] theorem State.setGroup_agenda (s : State) (g : Nat) (v : Group) : (s.setGroup g v).agenda = s.agenda := rfl
@[simp] theorem State.setGroup_free (s : State) (g : Nat) (v : Group) : (s.setGroup g v).free = s.free := rfl
@[simp] theorem State.setGroup_waves (s : State) (g : Nat) (v : Group) : (s.setGroup g v).waves = s.waves := rfl
@[simp] theorem State.setGroup_crews (s : State) (g : Nat) (v : Group) : (s.setGroup g v).crews = s.crews := rfl
@[simp] theorem State.setGroup_cores (s : State) (g : Nat) (v : Group) : (s.setGroup g v).cores = s.cores := rfl
@[simp] theorem State.setGroup_clusters (s : State) (g : Nat) (v : Group) : (s.setGroup g v).clusters = s.clusters := rfl
@[simp] theorem State.setGroup_launches (s : State) (g : Nat) (v : Group) : (s.setGroup g v).launches = s.launches := rfl
@[simp] theorem State.setGroup_mem (s : State) (g : Nat) (v : Group) : (s.setGroup g v).mem = s.mem := rfl
@[simp] theorem State.setGroup_sched (s : State) (g : Nat) (v : Group) : (s.setGroup g v).sched = s.sched := rfl
@[simp] theorem State.setGroup_power (s : State) (g : Nat) (v : Group) : (s.setGroup g v).power = s.power := rfl
@[simp] theorem State.setGroup_dev (s : State) (g : Nat) (v : Group) : (s.setGroup g v).dev = s.dev := rfl

@[simp] theorem State.setCrew_dt (s : State) (c : Nat) (v : Crew) : (s.setCrew c v).dt = s.dt := rfl
@[simp] theorem State.setCrew_cur (s : State) (c : Nat) (v : Crew) : (s.setCrew c v).cur = s.cur := rfl
@[simp] theorem State.setCrew_agenda (s : State) (c : Nat) (v : Crew) : (s.setCrew c v).agenda = s.agenda := rfl
@[simp] theorem State.setCrew_free (s : State) (c : Nat) (v : Crew) : (s.setCrew c v).free = s.free := rfl
@[simp] theorem State.setCrew_waves (s : State) (c : Nat) (v : Crew) : (s.setCrew c v).waves = s.waves := rfl
@[simp] theorem State.setCrew_groups (s : State) (c : Nat) (v : Crew) : (s.setCrew c v).groups = s.groups := rfl
@[simp] theorem State.setCrew_cores (s : State) (c : Nat) (v : Crew) : (s.setCrew c v).cores = s.cores := rfl
@[simp] theorem State.setCrew_clusters (s : State) (c : Nat) (v : Crew) : (s.setCrew c v).clusters = s.clusters := rfl
@[simp] theorem State.setCrew_launches (s : State) (c : Nat) (v : Crew) : (s.setCrew c v).launches = s.launches := rfl
@[simp] theorem State.setCrew_mem (s : State) (c : Nat) (v : Crew) : (s.setCrew c v).mem = s.mem := rfl
@[simp] theorem State.setCrew_sched (s : State) (c : Nat) (v : Crew) : (s.setCrew c v).sched = s.sched := rfl
@[simp] theorem State.setCrew_power (s : State) (c : Nat) (v : Crew) : (s.setCrew c v).power = s.power := rfl
@[simp] theorem State.setCrew_dev (s : State) (c : Nat) (v : Crew) : (s.setCrew c v).dev = s.dev := rfl

@[simp] theorem State.setCore_dt (s : State) (c : Nat) (v : CoreSt) : (s.setCore c v).dt = s.dt := rfl
@[simp] theorem State.setCore_cur (s : State) (c : Nat) (v : CoreSt) : (s.setCore c v).cur = s.cur := rfl
@[simp] theorem State.setCore_agenda (s : State) (c : Nat) (v : CoreSt) : (s.setCore c v).agenda = s.agenda := rfl
@[simp] theorem State.setCore_free (s : State) (c : Nat) (v : CoreSt) : (s.setCore c v).free = s.free := rfl
@[simp] theorem State.setCore_waves (s : State) (c : Nat) (v : CoreSt) : (s.setCore c v).waves = s.waves := rfl
@[simp] theorem State.setCore_groups (s : State) (c : Nat) (v : CoreSt) : (s.setCore c v).groups = s.groups := rfl
@[simp] theorem State.setCore_crews (s : State) (c : Nat) (v : CoreSt) : (s.setCore c v).crews = s.crews := rfl
@[simp] theorem State.setCore_clusters (s : State) (c : Nat) (v : CoreSt) : (s.setCore c v).clusters = s.clusters := rfl
@[simp] theorem State.setCore_launches (s : State) (c : Nat) (v : CoreSt) : (s.setCore c v).launches = s.launches := rfl
@[simp] theorem State.setCore_mem (s : State) (c : Nat) (v : CoreSt) : (s.setCore c v).mem = s.mem := rfl
@[simp] theorem State.setCore_sched (s : State) (c : Nat) (v : CoreSt) : (s.setCore c v).sched = s.sched := rfl
@[simp] theorem State.setCore_power (s : State) (c : Nat) (v : CoreSt) : (s.setCore c v).power = s.power := rfl
@[simp] theorem State.setCore_dev (s : State) (c : Nat) (v : CoreSt) : (s.setCore c v).dev = s.dev := rfl

@[simp] theorem State.setCluster_dt (s : State) (k : Nat) (v : ClusterSt) : (s.setCluster k v).dt = s.dt := rfl
@[simp] theorem State.setCluster_cur (s : State) (k : Nat) (v : ClusterSt) : (s.setCluster k v).cur = s.cur := rfl
@[simp] theorem State.setCluster_agenda (s : State) (k : Nat) (v : ClusterSt) : (s.setCluster k v).agenda = s.agenda := rfl
@[simp] theorem State.setCluster_free (s : State) (k : Nat) (v : ClusterSt) : (s.setCluster k v).free = s.free := rfl
@[simp] theorem State.setCluster_waves (s : State) (k : Nat) (v : ClusterSt) : (s.setCluster k v).waves = s.waves := rfl
@[simp] theorem State.setCluster_groups (s : State) (k : Nat) (v : ClusterSt) : (s.setCluster k v).groups = s.groups := rfl
@[simp] theorem State.setCluster_crews (s : State) (k : Nat) (v : ClusterSt) : (s.setCluster k v).crews = s.crews := rfl
@[simp] theorem State.setCluster_cores (s : State) (k : Nat) (v : ClusterSt) : (s.setCluster k v).cores = s.cores := rfl
@[simp] theorem State.setCluster_launches (s : State) (k : Nat) (v : ClusterSt) : (s.setCluster k v).launches = s.launches := rfl
@[simp] theorem State.setCluster_mem (s : State) (k : Nat) (v : ClusterSt) : (s.setCluster k v).mem = s.mem := rfl
@[simp] theorem State.setCluster_sched (s : State) (k : Nat) (v : ClusterSt) : (s.setCluster k v).sched = s.sched := rfl
@[simp] theorem State.setCluster_power (s : State) (k : Nat) (v : ClusterSt) : (s.setCluster k v).power = s.power := rfl
@[simp] theorem State.setCluster_dev (s : State) (k : Nat) (v : ClusterSt) : (s.setCluster k v).dev = s.dev := rfl

@[simp] theorem State.setLaunch_dt (s : State) (l : Nat) (v : Machine.Launch) : (s.setLaunch l v).dt = s.dt := rfl
@[simp] theorem State.setLaunch_cur (s : State) (l : Nat) (v : Machine.Launch) : (s.setLaunch l v).cur = s.cur := rfl
@[simp] theorem State.setLaunch_agenda (s : State) (l : Nat) (v : Machine.Launch) : (s.setLaunch l v).agenda = s.agenda := rfl
@[simp] theorem State.setLaunch_free (s : State) (l : Nat) (v : Machine.Launch) : (s.setLaunch l v).free = s.free := rfl
@[simp] theorem State.setLaunch_waves (s : State) (l : Nat) (v : Machine.Launch) : (s.setLaunch l v).waves = s.waves := rfl
@[simp] theorem State.setLaunch_groups (s : State) (l : Nat) (v : Machine.Launch) : (s.setLaunch l v).groups = s.groups := rfl
@[simp] theorem State.setLaunch_crews (s : State) (l : Nat) (v : Machine.Launch) : (s.setLaunch l v).crews = s.crews := rfl
@[simp] theorem State.setLaunch_cores (s : State) (l : Nat) (v : Machine.Launch) : (s.setLaunch l v).cores = s.cores := rfl
@[simp] theorem State.setLaunch_clusters (s : State) (l : Nat) (v : Machine.Launch) : (s.setLaunch l v).clusters = s.clusters := rfl
@[simp] theorem State.setLaunch_mem (s : State) (l : Nat) (v : Machine.Launch) : (s.setLaunch l v).mem = s.mem := rfl
@[simp] theorem State.setLaunch_sched (s : State) (l : Nat) (v : Machine.Launch) : (s.setLaunch l v).sched = s.sched := rfl
@[simp] theorem State.setLaunch_power (s : State) (l : Nat) (v : Machine.Launch) : (s.setLaunch l v).power = s.power := rfl
@[simp] theorem State.setLaunch_dev (s : State) (l : Nat) (v : Machine.Launch) : (s.setLaunch l v).dev = s.dev := rfl

@[simp] theorem State.setAccount_dt (s : State) (a : Nat) (v : Account) : (s.setAccount a v).dt = s.dt := rfl
@[simp] theorem State.setAccount_cur (s : State) (a : Nat) (v : Account) : (s.setAccount a v).cur = s.cur := rfl
@[simp] theorem State.setAccount_agenda (s : State) (a : Nat) (v : Account) : (s.setAccount a v).agenda = s.agenda := rfl
@[simp] theorem State.setAccount_free (s : State) (a : Nat) (v : Account) : (s.setAccount a v).free = s.free := rfl
@[simp] theorem State.setAccount_waves (s : State) (a : Nat) (v : Account) : (s.setAccount a v).waves = s.waves := rfl
@[simp] theorem State.setAccount_groups (s : State) (a : Nat) (v : Account) : (s.setAccount a v).groups = s.groups := rfl
@[simp] theorem State.setAccount_crews (s : State) (a : Nat) (v : Account) : (s.setAccount a v).crews = s.crews := rfl
@[simp] theorem State.setAccount_cores (s : State) (a : Nat) (v : Account) : (s.setAccount a v).cores = s.cores := rfl
@[simp] theorem State.setAccount_clusters (s : State) (a : Nat) (v : Account) : (s.setAccount a v).clusters = s.clusters := rfl
@[simp] theorem State.setAccount_launches (s : State) (a : Nat) (v : Account) : (s.setAccount a v).launches = s.launches := rfl
@[simp] theorem State.setAccount_sched (s : State) (a : Nat) (v : Account) : (s.setAccount a v).sched = s.sched := rfl
@[simp] theorem State.setAccount_power (s : State) (a : Nat) (v : Account) : (s.setAccount a v).power = s.power := rfl
@[simp] theorem State.setAccount_dev (s : State) (a : Nat) (v : Account) : (s.setAccount a v).dev = s.dev := rfl

@[simp] theorem State.setStore_dt (s : State) (m : Store) : (s.setStore m).dt = s.dt := rfl
@[simp] theorem State.setStore_cur (s : State) (m : Store) : (s.setStore m).cur = s.cur := rfl
@[simp] theorem State.setStore_agenda (s : State) (m : Store) : (s.setStore m).agenda = s.agenda := rfl
@[simp] theorem State.setStore_free (s : State) (m : Store) : (s.setStore m).free = s.free := rfl
@[simp] theorem State.setStore_waves (s : State) (m : Store) : (s.setStore m).waves = s.waves := rfl
@[simp] theorem State.setStore_groups (s : State) (m : Store) : (s.setStore m).groups = s.groups := rfl
@[simp] theorem State.setStore_crews (s : State) (m : Store) : (s.setStore m).crews = s.crews := rfl
@[simp] theorem State.setStore_cores (s : State) (m : Store) : (s.setStore m).cores = s.cores := rfl
@[simp] theorem State.setStore_clusters (s : State) (m : Store) : (s.setStore m).clusters = s.clusters := rfl
@[simp] theorem State.setStore_launches (s : State) (m : Store) : (s.setStore m).launches = s.launches := rfl
@[simp] theorem State.setStore_sched (s : State) (m : Store) : (s.setStore m).sched = s.sched := rfl
@[simp] theorem State.setStore_power (s : State) (m : Store) : (s.setStore m).power = s.power := rfl
@[simp] theorem State.setStore_dev (s : State) (m : Store) : (s.setStore m).dev = s.dev := rfl

@[simp] theorem State.setSeq_dt (s : State) (k : Nat) (q : Seq) : (s.setSeq k q).dt = s.dt := rfl
@[simp] theorem State.setSeq_cur (s : State) (k : Nat) (q : Seq) : (s.setSeq k q).cur = s.cur := rfl
@[simp] theorem State.setSeq_agenda (s : State) (k : Nat) (q : Seq) : (s.setSeq k q).agenda = s.agenda := rfl
@[simp] theorem State.setSeq_free (s : State) (k : Nat) (q : Seq) : (s.setSeq k q).free = s.free := rfl
@[simp] theorem State.setSeq_waves (s : State) (k : Nat) (q : Seq) : (s.setSeq k q).waves = s.waves := rfl
@[simp] theorem State.setSeq_groups (s : State) (k : Nat) (q : Seq) : (s.setSeq k q).groups = s.groups := rfl
@[simp] theorem State.setSeq_crews (s : State) (k : Nat) (q : Seq) : (s.setSeq k q).crews = s.crews := rfl
@[simp] theorem State.setSeq_cores (s : State) (k : Nat) (q : Seq) : (s.setSeq k q).cores = s.cores := rfl
@[simp] theorem State.setSeq_launches (s : State) (k : Nat) (q : Seq) : (s.setSeq k q).launches = s.launches := rfl
@[simp] theorem State.setSeq_mem (s : State) (k : Nat) (q : Seq) : (s.setSeq k q).mem = s.mem := rfl
@[simp] theorem State.setSeq_sched (s : State) (k : Nat) (q : Seq) : (s.setSeq k q).sched = s.sched := rfl
@[simp] theorem State.setSeq_power (s : State) (k : Nat) (q : Seq) : (s.setSeq k q).power = s.power := rfl
@[simp] theorem State.setSeq_dev (s : State) (k : Nat) (q : Seq) : (s.setSeq k q).dev = s.dev := rfl

@[simp] theorem State.setThread_dt (s : State) (g t : Nat) (v : Thread) : (s.setThread g t v).dt = s.dt := rfl
@[simp] theorem State.setThread_cur (s : State) (g t : Nat) (v : Thread) : (s.setThread g t v).cur = s.cur := rfl
@[simp] theorem State.setThread_agenda (s : State) (g t : Nat) (v : Thread) : (s.setThread g t v).agenda = s.agenda := rfl
@[simp] theorem State.setThread_free (s : State) (g t : Nat) (v : Thread) : (s.setThread g t v).free = s.free := rfl
@[simp] theorem State.setThread_waves (s : State) (g t : Nat) (v : Thread) : (s.setThread g t v).waves = s.waves := rfl
@[simp] theorem State.setThread_crews (s : State) (g t : Nat) (v : Thread) : (s.setThread g t v).crews = s.crews := rfl
@[simp] theorem State.setThread_cores (s : State) (g t : Nat) (v : Thread) : (s.setThread g t v).cores = s.cores := rfl
@[simp] theorem State.setThread_clusters (s : State) (g t : Nat) (v : Thread) : (s.setThread g t v).clusters = s.clusters := rfl
@[simp] theorem State.setThread_launches (s : State) (g t : Nat) (v : Thread) : (s.setThread g t v).launches = s.launches := rfl
@[simp] theorem State.setThread_mem (s : State) (g t : Nat) (v : Thread) : (s.setThread g t v).mem = s.mem := rfl
@[simp] theorem State.setThread_sched (s : State) (g t : Nat) (v : Thread) : (s.setThread g t v).sched = s.sched := rfl
@[simp] theorem State.setThread_power (s : State) (g t : Nat) (v : Thread) : (s.setThread g t v).power = s.power := rfl
@[simp] theorem State.setThread_dev (s : State) (g t : Nat) (v : Thread) : (s.setThread g t v).dev = s.dev := rfl

@[simp] theorem State.setWaveS_dt (s : State) (w r : Nat) (v : W64) : (s.setWaveS w r v).dt = s.dt := rfl
@[simp] theorem State.setWaveS_cur (s : State) (w r : Nat) (v : W64) : (s.setWaveS w r v).cur = s.cur := rfl
@[simp] theorem State.setWaveS_agenda (s : State) (w r : Nat) (v : W64) : (s.setWaveS w r v).agenda = s.agenda := rfl
@[simp] theorem State.setWaveS_free (s : State) (w r : Nat) (v : W64) : (s.setWaveS w r v).free = s.free := rfl
@[simp] theorem State.setWaveS_waves (s : State) (w r : Nat) (v : W64) : (s.setWaveS w r v).waves = s.waves := rfl
@[simp] theorem State.setWaveS_crews (s : State) (w r : Nat) (v : W64) : (s.setWaveS w r v).crews = s.crews := rfl
@[simp] theorem State.setWaveS_cores (s : State) (w r : Nat) (v : W64) : (s.setWaveS w r v).cores = s.cores := rfl
@[simp] theorem State.setWaveS_clusters (s : State) (w r : Nat) (v : W64) : (s.setWaveS w r v).clusters = s.clusters := rfl
@[simp] theorem State.setWaveS_launches (s : State) (w r : Nat) (v : W64) : (s.setWaveS w r v).launches = s.launches := rfl
@[simp] theorem State.setWaveS_mem (s : State) (w r : Nat) (v : W64) : (s.setWaveS w r v).mem = s.mem := rfl
@[simp] theorem State.setWaveS_sched (s : State) (w r : Nat) (v : W64) : (s.setWaveS w r v).sched = s.sched := rfl
@[simp] theorem State.setWaveS_power (s : State) (w r : Nat) (v : W64) : (s.setWaveS w r v).power = s.power := rfl
@[simp] theorem State.setWaveS_dev (s : State) (w r : Nat) (v : W64) : (s.setWaveS w r v).dev = s.dev := rfl

@[simp] theorem State.setWaveK_dt (s : State) (w r : Nat) (v : Capv) : (s.setWaveK w r v).dt = s.dt := rfl
@[simp] theorem State.setWaveK_cur (s : State) (w r : Nat) (v : Capv) : (s.setWaveK w r v).cur = s.cur := rfl
@[simp] theorem State.setWaveK_agenda (s : State) (w r : Nat) (v : Capv) : (s.setWaveK w r v).agenda = s.agenda := rfl
@[simp] theorem State.setWaveK_free (s : State) (w r : Nat) (v : Capv) : (s.setWaveK w r v).free = s.free := rfl
@[simp] theorem State.setWaveK_waves (s : State) (w r : Nat) (v : Capv) : (s.setWaveK w r v).waves = s.waves := rfl
@[simp] theorem State.setWaveK_crews (s : State) (w r : Nat) (v : Capv) : (s.setWaveK w r v).crews = s.crews := rfl
@[simp] theorem State.setWaveK_cores (s : State) (w r : Nat) (v : Capv) : (s.setWaveK w r v).cores = s.cores := rfl
@[simp] theorem State.setWaveK_clusters (s : State) (w r : Nat) (v : Capv) : (s.setWaveK w r v).clusters = s.clusters := rfl
@[simp] theorem State.setWaveK_launches (s : State) (w r : Nat) (v : Capv) : (s.setWaveK w r v).launches = s.launches := rfl
@[simp] theorem State.setWaveK_mem (s : State) (w r : Nat) (v : Capv) : (s.setWaveK w r v).mem = s.mem := rfl
@[simp] theorem State.setWaveK_sched (s : State) (w r : Nat) (v : Capv) : (s.setWaveK w r v).sched = s.sched := rfl
@[simp] theorem State.setWaveK_power (s : State) (w r : Nat) (v : Capv) : (s.setWaveK w r v).power = s.power := rfl
@[simp] theorem State.setWaveK_dev (s : State) (w r : Nat) (v : Capv) : (s.setWaveK w r v).dev = s.dev := rfl

@[simp] theorem State.setWaveVw_dt (s : State) (w r : Nat) (v : W64) : (s.setWaveVw w r v).dt = s.dt := rfl
@[simp] theorem State.setWaveVw_cur (s : State) (w r : Nat) (v : W64) : (s.setWaveVw w r v).cur = s.cur := rfl
@[simp] theorem State.setWaveVw_agenda (s : State) (w r : Nat) (v : W64) : (s.setWaveVw w r v).agenda = s.agenda := rfl
@[simp] theorem State.setWaveVw_free (s : State) (w r : Nat) (v : W64) : (s.setWaveVw w r v).free = s.free := rfl
@[simp] theorem State.setWaveVw_waves (s : State) (w r : Nat) (v : W64) : (s.setWaveVw w r v).waves = s.waves := rfl
@[simp] theorem State.setWaveVw_crews (s : State) (w r : Nat) (v : W64) : (s.setWaveVw w r v).crews = s.crews := rfl
@[simp] theorem State.setWaveVw_cores (s : State) (w r : Nat) (v : W64) : (s.setWaveVw w r v).cores = s.cores := rfl
@[simp] theorem State.setWaveVw_clusters (s : State) (w r : Nat) (v : W64) : (s.setWaveVw w r v).clusters = s.clusters := rfl
@[simp] theorem State.setWaveVw_launches (s : State) (w r : Nat) (v : W64) : (s.setWaveVw w r v).launches = s.launches := rfl
@[simp] theorem State.setWaveVw_mem (s : State) (w r : Nat) (v : W64) : (s.setWaveVw w r v).mem = s.mem := rfl
@[simp] theorem State.setWaveVw_sched (s : State) (w r : Nat) (v : W64) : (s.setWaveVw w r v).sched = s.sched := rfl
@[simp] theorem State.setWaveVw_power (s : State) (w r : Nat) (v : W64) : (s.setWaveVw w r v).power = s.power := rfl
@[simp] theorem State.setWaveVw_dev (s : State) (w r : Nat) (v : W64) : (s.setWaveVw w r v).dev = s.dev := rfl

@[simp] theorem State.orderRegs_dt (s : State) (w : Nat) : (s.orderRegs w).dt = s.dt := rfl
@[simp] theorem State.orderRegs_cur (s : State) (w : Nat) : (s.orderRegs w).cur = s.cur := rfl
@[simp] theorem State.orderRegs_agenda (s : State) (w : Nat) : (s.orderRegs w).agenda = s.agenda := rfl
@[simp] theorem State.orderRegs_free (s : State) (w : Nat) : (s.orderRegs w).free = s.free := rfl
@[simp] theorem State.orderRegs_crews (s : State) (w : Nat) : (s.orderRegs w).crews = s.crews := rfl
@[simp] theorem State.orderRegs_cores (s : State) (w : Nat) : (s.orderRegs w).cores = s.cores := rfl
@[simp] theorem State.orderRegs_clusters (s : State) (w : Nat) : (s.orderRegs w).clusters = s.clusters := rfl
@[simp] theorem State.orderRegs_launches (s : State) (w : Nat) : (s.orderRegs w).launches = s.launches := rfl
@[simp] theorem State.orderRegs_mem (s : State) (w : Nat) : (s.orderRegs w).mem = s.mem := rfl
@[simp] theorem State.orderRegs_sched (s : State) (w : Nat) : (s.orderRegs w).sched = s.sched := rfl
@[simp] theorem State.orderRegs_power (s : State) (w : Nat) : (s.orderRegs w).power = s.power := rfl
@[simp] theorem State.orderRegs_dev (s : State) (w : Nat) : (s.orderRegs w).dev = s.dev := rfl
@[simp] theorem State.orderRegs_groups (s : State) (w : Nat) : (s.orderRegs w).groups = s.groups := rfl

@[simp] theorem State.setCc_dt (s : State) (w : Nat) (c : Cc) : (s.setCc w c).dt = s.dt := rfl
@[simp] theorem State.setCc_cur (s : State) (w : Nat) (c : Cc) : (s.setCc w c).cur = s.cur := rfl
@[simp] theorem State.setCc_agenda (s : State) (w : Nat) (c : Cc) : (s.setCc w c).agenda = s.agenda := rfl
@[simp] theorem State.setCc_free (s : State) (w : Nat) (c : Cc) : (s.setCc w c).free = s.free := rfl
@[simp] theorem State.setCc_groups (s : State) (w : Nat) (c : Cc) : (s.setCc w c).groups = s.groups := rfl
@[simp] theorem State.setCc_crews (s : State) (w : Nat) (c : Cc) : (s.setCc w c).crews = s.crews := rfl
@[simp] theorem State.setCc_cores (s : State) (w : Nat) (c : Cc) : (s.setCc w c).cores = s.cores := rfl
@[simp] theorem State.setCc_clusters (s : State) (w : Nat) (c : Cc) : (s.setCc w c).clusters = s.clusters := rfl
@[simp] theorem State.setCc_launches (s : State) (w : Nat) (c : Cc) : (s.setCc w c).launches = s.launches := rfl
@[simp] theorem State.setCc_mem (s : State) (w : Nat) (c : Cc) : (s.setCc w c).mem = s.mem := rfl
@[simp] theorem State.setCc_sched (s : State) (w : Nat) (c : Cc) : (s.setCc w c).sched = s.sched := rfl
@[simp] theorem State.setCc_power (s : State) (w : Nat) (c : Cc) : (s.setCc w c).power = s.power := rfl
@[simp] theorem State.setCc_dev (s : State) (w : Nat) (c : Cc) : (s.setCc w c).dev = s.dev := rfl

@[simp] theorem State.setStatus_dt (s : State) (w n : Nat) : (s.setStatus w n).dt = s.dt := rfl
@[simp] theorem State.setStatus_cur (s : State) (w n : Nat) : (s.setStatus w n).cur = s.cur := rfl
@[simp] theorem State.setStatus_agenda (s : State) (w n : Nat) : (s.setStatus w n).agenda = s.agenda := rfl
@[simp] theorem State.setStatus_free (s : State) (w n : Nat) : (s.setStatus w n).free = s.free := rfl
@[simp] theorem State.setStatus_groups (s : State) (w n : Nat) : (s.setStatus w n).groups = s.groups := rfl
@[simp] theorem State.setStatus_crews (s : State) (w n : Nat) : (s.setStatus w n).crews = s.crews := rfl
@[simp] theorem State.setStatus_cores (s : State) (w n : Nat) : (s.setStatus w n).cores = s.cores := rfl
@[simp] theorem State.setStatus_clusters (s : State) (w n : Nat) : (s.setStatus w n).clusters = s.clusters := rfl
@[simp] theorem State.setStatus_launches (s : State) (w n : Nat) : (s.setStatus w n).launches = s.launches := rfl
@[simp] theorem State.setStatus_mem (s : State) (w n : Nat) : (s.setStatus w n).mem = s.mem := rfl
@[simp] theorem State.setStatus_sched (s : State) (w n : Nat) : (s.setStatus w n).sched = s.sched := rfl
@[simp] theorem State.setStatus_power (s : State) (w n : Nat) : (s.setStatus w n).power = s.power := rfl
@[simp] theorem State.setStatus_dev (s : State) (w n : Nat) : (s.setStatus w n).dev = s.dev := rfl

@[simp] theorem State.unpark_dt (s : State) (w : Nat) : (s.unpark w).dt = s.dt := rfl
@[simp] theorem State.unpark_cur (s : State) (w : Nat) : (s.unpark w).cur = s.cur := rfl
@[simp] theorem State.unpark_agenda (s : State) (w : Nat) : (s.unpark w).agenda = s.agenda := rfl
@[simp] theorem State.unpark_free (s : State) (w : Nat) : (s.unpark w).free = s.free := rfl
@[simp] theorem State.unpark_groups (s : State) (w : Nat) : (s.unpark w).groups = s.groups := rfl
@[simp] theorem State.unpark_crews (s : State) (w : Nat) : (s.unpark w).crews = s.crews := rfl
@[simp] theorem State.unpark_cores (s : State) (w : Nat) : (s.unpark w).cores = s.cores := rfl
@[simp] theorem State.unpark_clusters (s : State) (w : Nat) : (s.unpark w).clusters = s.clusters := rfl
@[simp] theorem State.unpark_launches (s : State) (w : Nat) : (s.unpark w).launches = s.launches := rfl
@[simp] theorem State.unpark_mem (s : State) (w : Nat) : (s.unpark w).mem = s.mem := rfl
@[simp] theorem State.unpark_sched (s : State) (w : Nat) : (s.unpark w).sched = s.sched := rfl
@[simp] theorem State.unpark_power (s : State) (w : Nat) : (s.unpark w).power = s.power := rfl
@[simp] theorem State.unpark_dev (s : State) (w : Nat) : (s.unpark w).dev = s.dev := rfl

@[simp] theorem State.park_dt (s : State) (w : Nat) (p : Park) : (s.park w p).dt = s.dt := rfl
@[simp] theorem State.park_cur (s : State) (w : Nat) (p : Park) : (s.park w p).cur = s.cur := rfl
@[simp] theorem State.park_agenda (s : State) (w : Nat) (p : Park) : (s.park w p).agenda = s.agenda := rfl
@[simp] theorem State.park_free (s : State) (w : Nat) (p : Park) : (s.park w p).free = s.free := rfl
@[simp] theorem State.park_groups (s : State) (w : Nat) (p : Park) : (s.park w p).groups = s.groups := rfl
@[simp] theorem State.park_crews (s : State) (w : Nat) (p : Park) : (s.park w p).crews = s.crews := rfl
@[simp] theorem State.park_cores (s : State) (w : Nat) (p : Park) : (s.park w p).cores = s.cores := rfl
@[simp] theorem State.park_clusters (s : State) (w : Nat) (p : Park) : (s.park w p).clusters = s.clusters := rfl
@[simp] theorem State.park_launches (s : State) (w : Nat) (p : Park) : (s.park w p).launches = s.launches := rfl
@[simp] theorem State.park_mem (s : State) (w : Nat) (p : Park) : (s.park w p).mem = s.mem := rfl
@[simp] theorem State.park_sched (s : State) (w : Nat) (p : Park) : (s.park w p).sched = s.sched := rfl
@[simp] theorem State.park_power (s : State) (w : Nat) (p : Park) : (s.park w p).power = s.power := rfl
@[simp] theorem State.park_dev (s : State) (w : Nat) (p : Park) : (s.park w p).dev = s.dev := rfl

@[simp] theorem State.bumpFree_dt (s : State) : (s.bumpFree).dt = s.dt := rfl
@[simp] theorem State.bumpFree_cur (s : State) : (s.bumpFree).cur = s.cur := rfl
@[simp] theorem State.bumpFree_agenda (s : State) : (s.bumpFree).agenda = s.agenda := rfl
@[simp] theorem State.bumpFree_waves (s : State) : (s.bumpFree).waves = s.waves := rfl
@[simp] theorem State.bumpFree_groups (s : State) : (s.bumpFree).groups = s.groups := rfl
@[simp] theorem State.bumpFree_crews (s : State) : (s.bumpFree).crews = s.crews := rfl
@[simp] theorem State.bumpFree_cores (s : State) : (s.bumpFree).cores = s.cores := rfl
@[simp] theorem State.bumpFree_clusters (s : State) : (s.bumpFree).clusters = s.clusters := rfl
@[simp] theorem State.bumpFree_launches (s : State) : (s.bumpFree).launches = s.launches := rfl
@[simp] theorem State.bumpFree_mem (s : State) : (s.bumpFree).mem = s.mem := rfl
@[simp] theorem State.bumpFree_sched (s : State) : (s.bumpFree).sched = s.sched := rfl
@[simp] theorem State.bumpFree_power (s : State) : (s.bumpFree).power = s.power := rfl
@[simp] theorem State.bumpFree_dev (s : State) : (s.bumpFree).dev = s.dev := rfl

@[simp] theorem State.finishN_dt (s : State) (w : Nat) (mark : Bool) (n : Nat) : (s.finishN w mark n).dt = s.dt := rfl
@[simp] theorem State.finishN_cur (s : State) (w : Nat) (mark : Bool) (n : Nat) : (s.finishN w mark n).cur = s.cur := rfl
@[simp] theorem State.finishN_agenda (s : State) (w : Nat) (mark : Bool) (n : Nat) : (s.finishN w mark n).agenda = s.agenda := rfl
@[simp] theorem State.finishN_groups (s : State) (w : Nat) (mark : Bool) (n : Nat) : (s.finishN w mark n).groups = s.groups := rfl
@[simp] theorem State.finishN_crews (s : State) (w : Nat) (mark : Bool) (n : Nat) : (s.finishN w mark n).crews = s.crews := rfl
@[simp] theorem State.finishN_cores (s : State) (w : Nat) (mark : Bool) (n : Nat) : (s.finishN w mark n).cores = s.cores := rfl
@[simp] theorem State.finishN_clusters (s : State) (w : Nat) (mark : Bool) (n : Nat) : (s.finishN w mark n).clusters = s.clusters := rfl
@[simp] theorem State.finishN_launches (s : State) (w : Nat) (mark : Bool) (n : Nat) : (s.finishN w mark n).launches = s.launches := rfl
@[simp] theorem State.finishN_mem (s : State) (w : Nat) (mark : Bool) (n : Nat) : (s.finishN w mark n).mem = s.mem := rfl
@[simp] theorem State.finishN_sched (s : State) (w : Nat) (mark : Bool) (n : Nat) : (s.finishN w mark n).sched = s.sched := rfl
@[simp] theorem State.finishN_power (s : State) (w : Nat) (mark : Bool) (n : Nat) : (s.finishN w mark n).power = s.power := rfl
@[simp] theorem State.finishN_dev (s : State) (w : Nat) (mark : Bool) (n : Nat) : (s.finishN w mark n).dev = s.dev := rfl

@[simp] theorem State.finish_dt (s : State) (w : Nat) (mark : Bool) : (s.finish w mark).dt = s.dt := rfl
@[simp] theorem State.finish_cur (s : State) (w : Nat) (mark : Bool) : (s.finish w mark).cur = s.cur := rfl
@[simp] theorem State.finish_agenda (s : State) (w : Nat) (mark : Bool) : (s.finish w mark).agenda = s.agenda := rfl
@[simp] theorem State.finish_groups (s : State) (w : Nat) (mark : Bool) : (s.finish w mark).groups = s.groups := rfl
@[simp] theorem State.finish_crews (s : State) (w : Nat) (mark : Bool) : (s.finish w mark).crews = s.crews := rfl
@[simp] theorem State.finish_cores (s : State) (w : Nat) (mark : Bool) : (s.finish w mark).cores = s.cores := rfl
@[simp] theorem State.finish_clusters (s : State) (w : Nat) (mark : Bool) : (s.finish w mark).clusters = s.clusters := rfl
@[simp] theorem State.finish_launches (s : State) (w : Nat) (mark : Bool) : (s.finish w mark).launches = s.launches := rfl
@[simp] theorem State.finish_mem (s : State) (w : Nat) (mark : Bool) : (s.finish w mark).mem = s.mem := rfl
@[simp] theorem State.finish_sched (s : State) (w : Nat) (mark : Bool) : (s.finish w mark).sched = s.sched := rfl
@[simp] theorem State.finish_power (s : State) (w : Nat) (mark : Bool) : (s.finish w mark).power = s.power := rfl
@[simp] theorem State.finish_dev (s : State) (w : Nat) (mark : Bool) : (s.finish w mark).dev = s.dev := rfl

@[simp] theorem State.addLong_dt (s : State) (w : Nat) (r : LongRes) : (s.addLong w r).dt = s.dt := by unfold State.addLong; split <;> rfl
@[simp] theorem State.addLong_cur (s : State) (w : Nat) (r : LongRes) : (s.addLong w r).cur = s.cur := by unfold State.addLong; split <;> rfl
@[simp] theorem State.addLong_agenda (s : State) (w : Nat) (r : LongRes) : (s.addLong w r).agenda = s.agenda := by unfold State.addLong; split <;> rfl
@[simp] theorem State.addLong_free (s : State) (w : Nat) (r : LongRes) : (s.addLong w r).free = s.free := by unfold State.addLong; split <;> rfl
@[simp] theorem State.addLong_groups (s : State) (w : Nat) (r : LongRes) : (s.addLong w r).groups = s.groups := by unfold State.addLong; split <;> rfl
@[simp] theorem State.addLong_crews (s : State) (w : Nat) (r : LongRes) : (s.addLong w r).crews = s.crews := by unfold State.addLong; split <;> rfl
@[simp] theorem State.addLong_cores (s : State) (w : Nat) (r : LongRes) : (s.addLong w r).cores = s.cores := by unfold State.addLong; split <;> rfl
@[simp] theorem State.addLong_clusters (s : State) (w : Nat) (r : LongRes) : (s.addLong w r).clusters = s.clusters := by unfold State.addLong; split <;> rfl
@[simp] theorem State.addLong_launches (s : State) (w : Nat) (r : LongRes) : (s.addLong w r).launches = s.launches := by unfold State.addLong; split <;> rfl
@[simp] theorem State.addLong_mem (s : State) (w : Nat) (r : LongRes) : (s.addLong w r).mem = s.mem := by unfold State.addLong; split <;> rfl
@[simp] theorem State.addLong_sched (s : State) (w : Nat) (r : LongRes) : (s.addLong w r).sched = s.sched := by unfold State.addLong; split <;> rfl
@[simp] theorem State.addLong_power (s : State) (w : Nat) (r : LongRes) : (s.addLong w r).power = s.power := by unfold State.addLong; split <;> rfl
@[simp] theorem State.addLong_dev (s : State) (w : Nat) (r : LongRes) : (s.addLong w r).dev = s.dev := by unfold State.addLong; split <;> rfl

@[simp] theorem State.logUndo_dt (s : State) (w t n k : Nat) : (s.logUndo w t n k).dt = s.dt := by unfold State.logUndo; split <;> rfl
@[simp] theorem State.logUndo_cur (s : State) (w t n k : Nat) : (s.logUndo w t n k).cur = s.cur := by unfold State.logUndo; split <;> rfl
@[simp] theorem State.logUndo_agenda (s : State) (w t n k : Nat) : (s.logUndo w t n k).agenda = s.agenda := by unfold State.logUndo; split <;> rfl
@[simp] theorem State.logUndo_free (s : State) (w t n k : Nat) : (s.logUndo w t n k).free = s.free := by unfold State.logUndo; split <;> rfl
@[simp] theorem State.logUndo_groups (s : State) (w t n k : Nat) : (s.logUndo w t n k).groups = s.groups := by unfold State.logUndo; split <;> rfl
@[simp] theorem State.logUndo_crews (s : State) (w t n k : Nat) : (s.logUndo w t n k).crews = s.crews := by unfold State.logUndo; split <;> rfl
@[simp] theorem State.logUndo_cores (s : State) (w t n k : Nat) : (s.logUndo w t n k).cores = s.cores := by unfold State.logUndo; split <;> rfl
@[simp] theorem State.logUndo_clusters (s : State) (w t n k : Nat) : (s.logUndo w t n k).clusters = s.clusters := by unfold State.logUndo; split <;> rfl
@[simp] theorem State.logUndo_launches (s : State) (w t n k : Nat) : (s.logUndo w t n k).launches = s.launches := by unfold State.logUndo; split <;> rfl
@[simp] theorem State.logUndo_mem (s : State) (w t n k : Nat) : (s.logUndo w t n k).mem = s.mem := by unfold State.logUndo; split <;> rfl
@[simp] theorem State.logUndo_sched (s : State) (w t n k : Nat) : (s.logUndo w t n k).sched = s.sched := by unfold State.logUndo; split <;> rfl
@[simp] theorem State.logUndo_power (s : State) (w t n k : Nat) : (s.logUndo w t n k).power = s.power := by unfold State.logUndo; split <;> rfl
@[simp] theorem State.logUndo_dev (s : State) (w t n k : Nat) : (s.logUndo w t n k).dev = s.dev := by unfold State.logUndo; split <;> rfl

@[simp] theorem State.setShort_dt (s : State) (w t : Nat) (o : Slc) (v : Nat) : (s.setShort w t o v).dt = s.dt := by simp [State.setShort]
@[simp] theorem State.setShort_cur (s : State) (w t : Nat) (o : Slc) (v : Nat) : (s.setShort w t o v).cur = s.cur := by simp [State.setShort]
@[simp] theorem State.setShort_agenda (s : State) (w t : Nat) (o : Slc) (v : Nat) : (s.setShort w t o v).agenda = s.agenda := by simp [State.setShort]
@[simp] theorem State.setShort_free (s : State) (w t : Nat) (o : Slc) (v : Nat) : (s.setShort w t o v).free = s.free := by simp [State.setShort]
@[simp] theorem State.setShort_crews (s : State) (w t : Nat) (o : Slc) (v : Nat) : (s.setShort w t o v).crews = s.crews := by simp [State.setShort]
@[simp] theorem State.setShort_cores (s : State) (w t : Nat) (o : Slc) (v : Nat) : (s.setShort w t o v).cores = s.cores := by simp [State.setShort]
@[simp] theorem State.setShort_clusters (s : State) (w t : Nat) (o : Slc) (v : Nat) : (s.setShort w t o v).clusters = s.clusters := by simp [State.setShort]
@[simp] theorem State.setShort_launches (s : State) (w t : Nat) (o : Slc) (v : Nat) : (s.setShort w t o v).launches = s.launches := by simp [State.setShort]
@[simp] theorem State.setShort_mem (s : State) (w t : Nat) (o : Slc) (v : Nat) : (s.setShort w t o v).mem = s.mem := by simp [State.setShort]
@[simp] theorem State.setShort_sched (s : State) (w t : Nat) (o : Slc) (v : Nat) : (s.setShort w t o v).sched = s.sched := by simp [State.setShort]
@[simp] theorem State.setShort_power (s : State) (w t : Nat) (o : Slc) (v : Nat) : (s.setShort w t o v).power = s.power := by simp [State.setShort]
@[simp] theorem State.setShort_dev (s : State) (w t : Nat) (o : Slc) (v : Nat) : (s.setShort w t o v).dev = s.dev := by simp [State.setShort]

@[simp] theorem State.setPrd_dt (s : State) (w t p : Nat) (v : Bool) : (s.setPrd w t p v).dt = s.dt := by unfold State.setPrd; split <;> rfl
@[simp] theorem State.setPrd_cur (s : State) (w t p : Nat) (v : Bool) : (s.setPrd w t p v).cur = s.cur := by unfold State.setPrd; split <;> rfl
@[simp] theorem State.setPrd_agenda (s : State) (w t p : Nat) (v : Bool) : (s.setPrd w t p v).agenda = s.agenda := by unfold State.setPrd; split <;> rfl
@[simp] theorem State.setPrd_free (s : State) (w t p : Nat) (v : Bool) : (s.setPrd w t p v).free = s.free := by unfold State.setPrd; split <;> rfl
@[simp] theorem State.setPrd_crews (s : State) (w t p : Nat) (v : Bool) : (s.setPrd w t p v).crews = s.crews := by unfold State.setPrd; split <;> rfl
@[simp] theorem State.setPrd_cores (s : State) (w t p : Nat) (v : Bool) : (s.setPrd w t p v).cores = s.cores := by unfold State.setPrd; split <;> rfl
@[simp] theorem State.setPrd_clusters (s : State) (w t p : Nat) (v : Bool) : (s.setPrd w t p v).clusters = s.clusters := by unfold State.setPrd; split <;> rfl
@[simp] theorem State.setPrd_launches (s : State) (w t p : Nat) (v : Bool) : (s.setPrd w t p v).launches = s.launches := by unfold State.setPrd; split <;> rfl
@[simp] theorem State.setPrd_mem (s : State) (w t p : Nat) (v : Bool) : (s.setPrd w t p v).mem = s.mem := by unfold State.setPrd; split <;> rfl
@[simp] theorem State.setPrd_sched (s : State) (w t p : Nat) (v : Bool) : (s.setPrd w t p v).sched = s.sched := by unfold State.setPrd; split <;> rfl
@[simp] theorem State.setPrd_power (s : State) (w t p : Nat) (v : Bool) : (s.setPrd w t p v).power = s.power := by unfold State.setPrd; split <;> rfl
@[simp] theorem State.setPrd_dev (s : State) (w t p : Nat) (v : Bool) : (s.setPrd w t p v).dev = s.dev := by unfold State.setPrd; split <;> rfl

@[simp] theorem State.noteEnd_dt (s : State) (l status info : Nat) : (s.noteEnd l status info).dt = s.dt := rfl
@[simp] theorem State.noteEnd_cur (s : State) (l status info : Nat) : (s.noteEnd l status info).cur = s.cur := rfl
@[simp] theorem State.noteEnd_agenda (s : State) (l status info : Nat) : (s.noteEnd l status info).agenda = s.agenda := rfl
@[simp] theorem State.noteEnd_free (s : State) (l status info : Nat) : (s.noteEnd l status info).free = s.free := rfl
@[simp] theorem State.noteEnd_waves (s : State) (l status info : Nat) : (s.noteEnd l status info).waves = s.waves := rfl
@[simp] theorem State.noteEnd_groups (s : State) (l status info : Nat) : (s.noteEnd l status info).groups = s.groups := rfl
@[simp] theorem State.noteEnd_crews (s : State) (l status info : Nat) : (s.noteEnd l status info).crews = s.crews := rfl
@[simp] theorem State.noteEnd_cores (s : State) (l status info : Nat) : (s.noteEnd l status info).cores = s.cores := rfl
@[simp] theorem State.noteEnd_clusters (s : State) (l status info : Nat) : (s.noteEnd l status info).clusters = s.clusters := rfl
@[simp] theorem State.noteEnd_mem (s : State) (l status info : Nat) : (s.noteEnd l status info).mem = s.mem := rfl
@[simp] theorem State.noteEnd_sched (s : State) (l status info : Nat) : (s.noteEnd l status info).sched = s.sched := rfl
@[simp] theorem State.noteEnd_power (s : State) (l status info : Nat) : (s.noteEnd l status info).power = s.power := rfl
@[simp] theorem State.noteEnd_dev (s : State) (l status info : Nat) : (s.noteEnd l status info).dev = s.dev := rfl

/-! ### Units after an update -/

theorem State.setWave_thread_frame' (s : State) (w : Nat) (v : Wave) (g t : Nat) : (s.setWave w v).thread g t = s.thread g t := rfl
@[simp] theorem State.setWave_wave_same (s : State) (w : Nat) (v : Wave) : (s.setWave w v).wave w = v := by
  simp [State.wave, State.setWave]
theorem State.setWave_wave (s : State) (w : Nat) (v : Wave) (x : Nat) :
    (s.setWave w v).wave x = if x = w then v else s.wave x := tabGet_tabPut _ _ _ _ _
@[simp] theorem State.setGroup_group_same (s : State) (g : Nat) (v : Group) : (s.setGroup g v).group g = v := by
  simp [State.group, State.setGroup]
theorem State.setGroup_group (s : State) (g : Nat) (v : Group) (x : Nat) :
    (s.setGroup g v).group x = if x = g then v else s.group x := tabGet_tabPut _ _ _ _ _
@[simp] theorem State.setCrew_crew_same (s : State) (c : Nat) (v : Crew) : (s.setCrew c v).crew c = v := by
  simp [State.crew, State.setCrew]
theorem State.setCrew_crew (s : State) (c : Nat) (v : Crew) (x : Nat) :
    (s.setCrew c v).crew x = if x = c then v else s.crew x := tabGet_tabPut _ _ _ _ _
@[simp] theorem State.setCore_core_same (s : State) (c : Nat) (v : CoreSt) : (s.setCore c v).core c = v := by
  simp [State.core, State.setCore]
theorem State.setCore_core (s : State) (c : Nat) (v : CoreSt) (x : Nat) :
    (s.setCore c v).core x = if x = c then v else s.core x := tabGet_tabPut _ _ _ _ _
@[simp] theorem State.setCluster_cluster_same (s : State) (k : Nat) (v : ClusterSt) : (s.setCluster k v).cluster k = v := by
  simp [State.cluster, State.setCluster]
theorem State.setCluster_cluster (s : State) (k : Nat) (v : ClusterSt) (x : Nat) :
    (s.setCluster k v).cluster x = if x = k then v else s.cluster x := tabGet_tabPut _ _ _ _ _
@[simp] theorem State.setLaunch_launch_same (s : State) (l : Nat) (v : Machine.Launch) : (s.setLaunch l v).launch l = v := by
  simp [State.launch, State.setLaunch]
theorem State.setLaunch_launch (s : State) (l : Nat) (v : Machine.Launch) (x : Nat) :
    (s.setLaunch l v).launch x = if x = l then v else s.launch x := tabGet_tabPut _ _ _ _ _
@[simp] theorem State.setAccount_account_same (s : State) (a : Nat) (v : Account) : (s.setAccount a v).account a = v := by
  simp [State.account, State.setAccount]
@[simp] theorem State.setSeq_seqOf_same (s : State) (k : Nat) (q : Seq) : (s.setSeq k q).seqOf k = q := by
  simp [State.seqOf, State.setSeq]
theorem State.setSeq_seqOf (s : State) (k : Nat) (q : Seq) (x : Nat) :
    (s.setSeq k q).seqOf x = if x = k then q else s.seqOf x := by
  unfold State.seqOf State.setSeq; rw [State.setCluster_cluster]; split <;> rfl
@[simp] theorem State.setStore_store (s : State) (m : Store) : (s.setStore m).store = m := rfl
@[simp] theorem State.setThread_thread_same (s : State) (g t : Nat) (v : Thread) : (s.setThread g t v).thread g t = v := by
  simp [State.thread, State.setThread]
theorem State.setThread_thread (s : State) (g t : Nat) (v : Thread) (x y : Nat) :
    (s.setThread g t v).thread x y = if x = g ∧ y = t then v else s.thread x y := by
  unfold State.thread State.setThread
  rw [State.setGroup_group]
  by_cases hx : x = g
  · subst hx; simp [tabGet_tabPut]
  · simp [hx]
theorem State.setThread_group_other (s : State) (g t : Nat) (v : Thread) (x : Nat) (h : x ≠ g) :
    (s.setThread g t v).group x = s.group x := by
  unfold State.setThread; rw [State.setGroup_group, if_neg h]

/-! Shared registers of a group (R192). -/

theorem State.setWaveS_groupS (s : State) (w r : Nat) (v : W64) (x y : Nat) :
    (s.setWaveS w r v).groupS x y = if x = groupOf w ∧ y = r then v else s.groupS x y := by
  unfold State.groupS State.setWaveS
  rw [State.setGroup_group]
  by_cases hx : x = groupOf w
  · subst hx; simp [tabGet_tabPut]
  · simp [hx]
theorem State.setWaveK_groupK (s : State) (w r : Nat) (v : Capv) (x y : Nat) :
    (s.setWaveK w r v).groupK x y = if x = groupOf w ∧ y = r then v else s.groupK x y := by
  unfold State.groupK State.setWaveK
  rw [State.setGroup_group]
  by_cases hx : x = groupOf w
  · subst hx; simp [tabGet_tabPut]
  · simp [hx]

/-- A write of a register by a wave leaves what the wave itself may read of an earlier value empty. -/
theorem pastValues_own {α : Type} (l : List (Past α)) (w : Nat) (know : Tab Nat) (p : Past α) (h : p.writer = w) :
    pastValues (p :: l) w know p.reg = [] := by
  simp [pastValues, List.takeWhile, h]

/-- A write of another register leaves what may be read of this one. -/
theorem pastValues_other {α : Type} (l : List (Past α)) (w r : Nat) (know : Tab Nat) (p : Past α) (h : p.reg ≠ r) :
    pastValues (p :: l) w know r = pastValues l w know r := by
  simp [pastValues, h]

/-- With every write known, no earlier value may be read. -/
theorem pastValues_known {α : Type} (l : List (Past α)) (w r : Nat) (know : Tab Nat) (h : ∀ p ∈ l, p.serial ≤ tabGet know 0 p.writer) :
    pastValues l w know r = [] := by
  unfold pastValues
  rw [List.map_eq_nil_iff]
  cases hl : l.filter (fun p => p.reg == r) with
  | nil => rfl
  | cons p rest =>
    have hp : p ∈ l.filter (fun p => p.reg == r) := by rw [hl]; exact List.mem_cons_self ..
    have := h p (List.mem_of_mem_filter hp)
    rw [List.takeWhile_cons_of_neg (by simp [this])]

/-- What a list's place gives is an entry, or the latest value. -/
theorem pick_cases {α : Type} (l : List α) (n : Nat) (d : α) : pick l n d = d ∨ pick l n d ∈ l := by
  induction l generalizing n with
  | nil => exact .inl rfl
  | cons x l ih =>
    cases n with
    | zero => exact .inr (List.mem_cons_self ..)
    | succ n => exact (ih n).imp id (List.mem_cons_of_mem _)

/-- What a wave reads of a shared register depends on DT, its group and the writes that it knows of alone. -/
theorem State.waveS_congr {s t : State} {x : Nat} (hd : t.dt = s.dt) (hg : t.group (groupOf x) = s.group (groupOf x))
    (hs : (t.wave x).know = (s.wave x).know) (r : Nat) : t.waveS x r = s.waveS x r := by
  unfold State.waveS State.groupS; rw [hd, hg, hs]
theorem State.waveK_congr {s t : State} {x : Nat} (hd : t.dt = s.dt)
    (hk : (t.group (groupOf x)).k = (s.group (groupOf x)).k) (hh : (t.group (groupOf x)).hist.k = (s.group (groupOf x)).hist.k)
    (hs : (t.wave x).know = (s.wave x).know) (r : Nat) : t.waveK x r = s.waveK x r := by
  unfold State.waveK State.groupK; rw [hd, hk, hh, hs]
theorem State.waveVw_congr {s t : State} {x : Nat} (hd : t.dt = s.dt)
    (hk : (t.group (groupOf x)).vw = (s.group (groupOf x)).vw) (hh : (t.group (groupOf x)).hist.vw = (s.group (groupOf x)).hist.vw)
    (hs : (t.wave x).know = (s.wave x).know) (r : Nat) : t.waveVw x r = s.waveVw x r := by
  unfold State.waveVw State.groupVw; rw [hd, hk, hh, hs]

/-- A wave reads its own write. -/
theorem State.setWaveS_waveS (s : State) (w r : Nat) (v : W64) : (s.setWaveS w r v).waveS w r = v := by
  unfold State.waveS
  rw [State.setWaveS_groupS]
  unfold State.setWaveS
  rw [State.setGroup_group]
  simp [pastValues, List.takeWhile, pick]

/-- What any wave of the group reads of another register is as it was. -/
theorem State.setWaveS_waveS_other (s : State) (w r : Nat) (v : W64) (x y : Nat) (hx : groupOf x = groupOf w) (hy : y ≠ r) :
    (s.setWaveS w r v).waveS x y = s.waveS x y := by
  unfold State.waveS
  rw [State.setWaveS_groupS, if_neg (fun h => hy h.2)]
  unfold State.setWaveS
  rw [State.setGroup_group, hx, if_pos rfl]
  dsimp only
  rw [pastValues_other _ _ _ _ _ (Ne.symm hy)]
  rfl

@[simp] theorem State.setWave_group_frame (s : State) (w : Nat) (v : Wave) (x : Nat) : (s.setWave w v).group x = s.group x :=
  by simp [State.group]
@[simp] theorem State.setWave_crew_frame (s : State) (w : Nat) (v : Wave) (x : Nat) : (s.setWave w v).crew x = s.crew x :=
  by simp [State.crew]
@[simp] theorem State.setWave_core_frame (s : State) (w : Nat) (v : Wave) (x : Nat) : (s.setWave w v).core x = s.core x :=
  by simp [State.core]
@[simp] theorem State.setWave_cluster_frame (s : State) (w : Nat) (v : Wave) (x : Nat) : (s.setWave w v).cluster x = s.cluster x :=
  by simp [State.cluster]
@[simp] theorem State.setWave_launch_frame (s : State) (w : Nat) (v : Wave) (x : Nat) : (s.setWave w v).launch x = s.launch x :=
  by simp [State.launch]
@[simp] theorem State.setWave_account_frame (s : State) (w : Nat) (v : Wave) (x : Nat) : (s.setWave w v).account x = s.account x :=
  by simp [State.account]
@[simp] theorem State.setWave_store_frame (s : State) (w : Nat) (v : Wave) : (s.setWave w v).store = s.store :=
  by simp [State.store]
@[simp] theorem State.setWave_seqOf_frame (s : State) (w : Nat) (v : Wave) (x : Nat) : (s.setWave w v).seqOf x = s.seqOf x :=
  by simp [State.seqOf, State.cluster]
@[simp] theorem State.setGroup_wave_frame (s : State) (g : Nat) (v : Group) (x : Nat) : (s.setGroup g v).wave x = s.wave x :=
  by simp [State.wave]
@[simp] theorem State.setGroup_crew_frame (s : State) (g : Nat) (v : Group) (x : Nat) : (s.setGroup g v).crew x = s.crew x :=
  by simp [State.crew]
@[simp] theorem State.setGroup_core_frame (s : State) (g : Nat) (v : Group) (x : Nat) : (s.setGroup g v).core x = s.core x :=
  by simp [State.core]
@[simp] theorem State.setGroup_cluster_frame (s : State) (g : Nat) (v : Group) (x : Nat) : (s.setGroup g v).cluster x = s.cluster x :=
  by simp [State.cluster]
@[simp] theorem State.setGroup_launch_frame (s : State) (g : Nat) (v : Group) (x : Nat) : (s.setGroup g v).launch x = s.launch x :=
  by simp [State.launch]
@[simp] theorem State.setGroup_account_frame (s : State) (g : Nat) (v : Group) (x : Nat) : (s.setGroup g v).account x = s.account x :=
  by simp [State.account]
@[simp] theorem State.setGroup_store_frame (s : State) (g : Nat) (v : Group) : (s.setGroup g v).store = s.store :=
  by simp [State.store]
@[simp] theorem State.setGroup_seqOf_frame (s : State) (g : Nat) (v : Group) (x : Nat) : (s.setGroup g v).seqOf x = s.seqOf x :=
  by simp [State.seqOf, State.cluster]
@[simp] theorem State.setCrew_wave_frame (s : State) (c : Nat) (v : Crew) (x : Nat) : (s.setCrew c v).wave x = s.wave x :=
  by simp [State.wave]
@[simp] theorem State.setCrew_group_frame (s : State) (c : Nat) (v : Crew) (x : Nat) : (s.setCrew c v).group x = s.group x :=
  by simp [State.group]
@[simp] theorem State.setCrew_core_frame (s : State) (c : Nat) (v : Crew) (x : Nat) : (s.setCrew c v).core x = s.core x :=
  by simp [State.core]
@[simp] theorem State.setCrew_cluster_frame (s : State) (c : Nat) (v : Crew) (x : Nat) : (s.setCrew c v).cluster x = s.cluster x :=
  by simp [State.cluster]
@[simp] theorem State.setCrew_launch_frame (s : State) (c : Nat) (v : Crew) (x : Nat) : (s.setCrew c v).launch x = s.launch x :=
  by simp [State.launch]
@[simp] theorem State.setCrew_account_frame (s : State) (c : Nat) (v : Crew) (x : Nat) : (s.setCrew c v).account x = s.account x :=
  by simp [State.account]
@[simp] theorem State.setCrew_store_frame (s : State) (c : Nat) (v : Crew) : (s.setCrew c v).store = s.store :=
  by simp [State.store]
@[simp] theorem State.setCrew_seqOf_frame (s : State) (c : Nat) (v : Crew) (x : Nat) : (s.setCrew c v).seqOf x = s.seqOf x :=
  by simp [State.seqOf, State.cluster]
@[simp] theorem State.setCore_wave_frame (s : State) (c : Nat) (v : CoreSt) (x : Nat) : (s.setCore c v).wave x = s.wave x :=
  by simp [State.wave]
@[simp] theorem State.setCore_group_frame (s : State) (c : Nat) (v : CoreSt) (x : Nat) : (s.setCore c v).group x = s.group x :=
  by simp [State.group]
@[simp] theorem State.setCore_crew_frame (s : State) (c : Nat) (v : CoreSt) (x : Nat) : (s.setCore c v).crew x = s.crew x :=
  by simp [State.crew]
@[simp] theorem State.setCore_cluster_frame (s : State) (c : Nat) (v : CoreSt) (x : Nat) : (s.setCore c v).cluster x = s.cluster x :=
  by simp [State.cluster]
@[simp] theorem State.setCore_launch_frame (s : State) (c : Nat) (v : CoreSt) (x : Nat) : (s.setCore c v).launch x = s.launch x :=
  by simp [State.launch]
@[simp] theorem State.setCore_account_frame (s : State) (c : Nat) (v : CoreSt) (x : Nat) : (s.setCore c v).account x = s.account x :=
  by simp [State.account]
@[simp] theorem State.setCore_store_frame (s : State) (c : Nat) (v : CoreSt) : (s.setCore c v).store = s.store :=
  by simp [State.store]
@[simp] theorem State.setCore_seqOf_frame (s : State) (c : Nat) (v : CoreSt) (x : Nat) : (s.setCore c v).seqOf x = s.seqOf x :=
  by simp [State.seqOf, State.cluster]
@[simp] theorem State.setCluster_wave_frame (s : State) (k : Nat) (v : ClusterSt) (x : Nat) : (s.setCluster k v).wave x = s.wave x :=
  by simp [State.wave]
@[simp] theorem State.setCluster_group_frame (s : State) (k : Nat) (v : ClusterSt) (x : Nat) : (s.setCluster k v).group x = s.group x :=
  by simp [State.group]
@[simp] theorem State.setCluster_crew_frame (s : State) (k : Nat) (v : ClusterSt) (x : Nat) : (s.setCluster k v).crew x = s.crew x :=
  by simp [State.crew]
@[simp] theorem State.setCluster_core_frame (s : State) (k : Nat) (v : ClusterSt) (x : Nat) : (s.setCluster k v).core x = s.core x :=
  by simp [State.core]
@[simp] theorem State.setCluster_launch_frame (s : State) (k : Nat) (v : ClusterSt) (x : Nat) : (s.setCluster k v).launch x = s.launch x :=
  by simp [State.launch]
@[simp] theorem State.setCluster_account_frame (s : State) (k : Nat) (v : ClusterSt) (x : Nat) : (s.setCluster k v).account x = s.account x :=
  by simp [State.account]
@[simp] theorem State.setCluster_store_frame (s : State) (k : Nat) (v : ClusterSt) : (s.setCluster k v).store = s.store :=
  by simp [State.store]
@[simp] theorem State.setLaunch_wave_frame (s : State) (l : Nat) (v : Machine.Launch) (x : Nat) : (s.setLaunch l v).wave x = s.wave x :=
  by simp [State.wave]
@[simp] theorem State.setLaunch_group_frame (s : State) (l : Nat) (v : Machine.Launch) (x : Nat) : (s.setLaunch l v).group x = s.group x :=
  by simp [State.group]
@[simp] theorem State.setLaunch_crew_frame (s : State) (l : Nat) (v : Machine.Launch) (x : Nat) : (s.setLaunch l v).crew x = s.crew x :=
  by simp [State.crew]
@[simp] theorem State.setLaunch_core_frame (s : State) (l : Nat) (v : Machine.Launch) (x : Nat) : (s.setLaunch l v).core x = s.core x :=
  by simp [State.core]
@[simp] theorem State.setLaunch_cluster_frame (s : State) (l : Nat) (v : Machine.Launch) (x : Nat) : (s.setLaunch l v).cluster x = s.cluster x :=
  by simp [State.cluster]
@[simp] theorem State.setLaunch_account_frame (s : State) (l : Nat) (v : Machine.Launch) (x : Nat) : (s.setLaunch l v).account x = s.account x :=
  by simp [State.account]
@[simp] theorem State.setLaunch_store_frame (s : State) (l : Nat) (v : Machine.Launch) : (s.setLaunch l v).store = s.store :=
  by simp [State.store]
@[simp] theorem State.setLaunch_seqOf_frame (s : State) (l : Nat) (v : Machine.Launch) (x : Nat) : (s.setLaunch l v).seqOf x = s.seqOf x :=
  by simp [State.seqOf, State.cluster]
@[simp] theorem State.setAccount_wave_frame (s : State) (a : Nat) (v : Account) (x : Nat) : (s.setAccount a v).wave x = s.wave x :=
  by simp [State.wave]
@[simp] theorem State.setAccount_group_frame (s : State) (a : Nat) (v : Account) (x : Nat) : (s.setAccount a v).group x = s.group x :=
  by simp [State.group]
@[simp] theorem State.setAccount_crew_frame (s : State) (a : Nat) (v : Account) (x : Nat) : (s.setAccount a v).crew x = s.crew x :=
  by simp [State.crew]
@[simp] theorem State.setAccount_core_frame (s : State) (a : Nat) (v : Account) (x : Nat) : (s.setAccount a v).core x = s.core x :=
  by simp [State.core]
@[simp] theorem State.setAccount_cluster_frame (s : State) (a : Nat) (v : Account) (x : Nat) : (s.setAccount a v).cluster x = s.cluster x :=
  by simp [State.cluster]
@[simp] theorem State.setAccount_launch_frame (s : State) (a : Nat) (v : Account) (x : Nat) : (s.setAccount a v).launch x = s.launch x :=
  by simp [State.launch]
@[simp] theorem State.setAccount_seqOf_frame (s : State) (a : Nat) (v : Account) (x : Nat) : (s.setAccount a v).seqOf x = s.seqOf x :=
  by simp [State.seqOf, State.cluster]
@[simp] theorem State.setStore_wave_frame (s : State) (m : Store) (x : Nat) : (s.setStore m).wave x = s.wave x :=
  by simp [State.wave]
@[simp] theorem State.setStore_group_frame (s : State) (m : Store) (x : Nat) : (s.setStore m).group x = s.group x :=
  by simp [State.group]
@[simp] theorem State.setStore_crew_frame (s : State) (m : Store) (x : Nat) : (s.setStore m).crew x = s.crew x :=
  by simp [State.crew]
@[simp] theorem State.setStore_core_frame (s : State) (m : Store) (x : Nat) : (s.setStore m).core x = s.core x :=
  by simp [State.core]
@[simp] theorem State.setStore_cluster_frame (s : State) (m : Store) (x : Nat) : (s.setStore m).cluster x = s.cluster x :=
  by simp [State.cluster]
@[simp] theorem State.setStore_launch_frame (s : State) (m : Store) (x : Nat) : (s.setStore m).launch x = s.launch x :=
  by simp [State.launch]
@[simp] theorem State.setStore_seqOf_frame (s : State) (m : Store) (x : Nat) : (s.setStore m).seqOf x = s.seqOf x :=
  by simp [State.seqOf, State.cluster]
@[simp] theorem State.setSeq_wave_frame (s : State) (k : Nat) (q : Seq) (x : Nat) : (s.setSeq k q).wave x = s.wave x :=
  by simp [State.wave]
@[simp] theorem State.setSeq_group_frame (s : State) (k : Nat) (q : Seq) (x : Nat) : (s.setSeq k q).group x = s.group x :=
  by simp [State.group]
@[simp] theorem State.setSeq_crew_frame (s : State) (k : Nat) (q : Seq) (x : Nat) : (s.setSeq k q).crew x = s.crew x :=
  by simp [State.crew]
@[simp] theorem State.setSeq_core_frame (s : State) (k : Nat) (q : Seq) (x : Nat) : (s.setSeq k q).core x = s.core x :=
  by simp [State.core]
@[simp] theorem State.setSeq_launch_frame (s : State) (k : Nat) (q : Seq) (x : Nat) : (s.setSeq k q).launch x = s.launch x :=
  by simp [State.launch]
@[simp] theorem State.setSeq_account_frame (s : State) (k : Nat) (q : Seq) (x : Nat) : (s.setSeq k q).account x = s.account x :=
  by simp [State.account]
@[simp] theorem State.setSeq_store_frame (s : State) (k : Nat) (q : Seq) : (s.setSeq k q).store = s.store :=
  by simp [State.store]
@[simp] theorem State.setThread_wave_frame (s : State) (g t : Nat) (v : Thread) (x : Nat) : (s.setThread g t v).wave x = s.wave x :=
  by simp [State.wave]
@[simp] theorem State.setThread_crew_frame (s : State) (g t : Nat) (v : Thread) (x : Nat) : (s.setThread g t v).crew x = s.crew x :=
  by simp [State.crew]
@[simp] theorem State.setThread_core_frame (s : State) (g t : Nat) (v : Thread) (x : Nat) : (s.setThread g t v).core x = s.core x :=
  by simp [State.core]
@[simp] theorem State.setThread_cluster_frame (s : State) (g t : Nat) (v : Thread) (x : Nat) : (s.setThread g t v).cluster x = s.cluster x :=
  by simp [State.cluster]
@[simp] theorem State.setThread_launch_frame (s : State) (g t : Nat) (v : Thread) (x : Nat) : (s.setThread g t v).launch x = s.launch x :=
  by simp [State.launch]
@[simp] theorem State.setThread_account_frame (s : State) (g t : Nat) (v : Thread) (x : Nat) : (s.setThread g t v).account x = s.account x :=
  by simp [State.account]
@[simp] theorem State.setThread_store_frame (s : State) (g t : Nat) (v : Thread) : (s.setThread g t v).store = s.store :=
  by simp [State.store]
@[simp] theorem State.setThread_seqOf_frame (s : State) (g t : Nat) (v : Thread) (x : Nat) : (s.setThread g t v).seqOf x = s.seqOf x :=
  by simp [State.seqOf, State.cluster]
@[simp] theorem State.setWaveS_wave_frame (s : State) (w r : Nat) (v : W64) (x : Nat) : (s.setWaveS w r v).wave x = s.wave x :=
  by simp [State.wave]
@[simp] theorem State.setWaveS_crew_frame (s : State) (w r : Nat) (v : W64) (x : Nat) : (s.setWaveS w r v).crew x = s.crew x :=
  by simp [State.crew]
@[simp] theorem State.setWaveS_core_frame (s : State) (w r : Nat) (v : W64) (x : Nat) : (s.setWaveS w r v).core x = s.core x :=
  by simp [State.core]
@[simp] theorem State.setWaveS_cluster_frame (s : State) (w r : Nat) (v : W64) (x : Nat) : (s.setWaveS w r v).cluster x = s.cluster x :=
  by simp [State.cluster]
@[simp] theorem State.setWaveS_launch_frame (s : State) (w r : Nat) (v : W64) (x : Nat) : (s.setWaveS w r v).launch x = s.launch x :=
  by simp [State.launch]
@[simp] theorem State.setWaveS_account_frame (s : State) (w r : Nat) (v : W64) (x : Nat) : (s.setWaveS w r v).account x = s.account x :=
  by simp [State.account]
@[simp] theorem State.setWaveS_store_frame (s : State) (w r : Nat) (v : W64) : (s.setWaveS w r v).store = s.store :=
  by simp [State.store]
@[simp] theorem State.setWaveS_seqOf_frame (s : State) (w r : Nat) (v : W64) (x : Nat) : (s.setWaveS w r v).seqOf x = s.seqOf x :=
  by simp [State.seqOf, State.cluster]
@[simp] theorem State.setWaveK_wave_frame (s : State) (w r : Nat) (v : Capv) (x : Nat) : (s.setWaveK w r v).wave x = s.wave x :=
  by simp [State.wave]
@[simp] theorem State.setWaveK_crew_frame (s : State) (w r : Nat) (v : Capv) (x : Nat) : (s.setWaveK w r v).crew x = s.crew x :=
  by simp [State.crew]
@[simp] theorem State.setWaveK_core_frame (s : State) (w r : Nat) (v : Capv) (x : Nat) : (s.setWaveK w r v).core x = s.core x :=
  by simp [State.core]
@[simp] theorem State.setWaveK_cluster_frame (s : State) (w r : Nat) (v : Capv) (x : Nat) : (s.setWaveK w r v).cluster x = s.cluster x :=
  by simp [State.cluster]
@[simp] theorem State.setWaveK_launch_frame (s : State) (w r : Nat) (v : Capv) (x : Nat) : (s.setWaveK w r v).launch x = s.launch x :=
  by simp [State.launch]
@[simp] theorem State.setWaveK_account_frame (s : State) (w r : Nat) (v : Capv) (x : Nat) : (s.setWaveK w r v).account x = s.account x :=
  by simp [State.account]
@[simp] theorem State.setWaveK_store_frame (s : State) (w r : Nat) (v : Capv) : (s.setWaveK w r v).store = s.store :=
  by simp [State.store]
@[simp] theorem State.setWaveK_seqOf_frame (s : State) (w r : Nat) (v : Capv) (x : Nat) : (s.setWaveK w r v).seqOf x = s.seqOf x :=
  by simp [State.seqOf, State.cluster]
@[simp] theorem State.setCc_group_frame (s : State) (w : Nat) (c : Cc) (x : Nat) : (s.setCc w c).group x = s.group x :=
  by simp [State.group]
@[simp] theorem State.setCc_crew_frame (s : State) (w : Nat) (c : Cc) (x : Nat) : (s.setCc w c).crew x = s.crew x :=
  by simp [State.crew]
@[simp] theorem State.setCc_core_frame (s : State) (w : Nat) (c : Cc) (x : Nat) : (s.setCc w c).core x = s.core x :=
  by simp [State.core]
@[simp] theorem State.setCc_cluster_frame (s : State) (w : Nat) (c : Cc) (x : Nat) : (s.setCc w c).cluster x = s.cluster x :=
  by simp [State.cluster]
@[simp] theorem State.setCc_launch_frame (s : State) (w : Nat) (c : Cc) (x : Nat) : (s.setCc w c).launch x = s.launch x :=
  by simp [State.launch]
@[simp] theorem State.setCc_account_frame (s : State) (w : Nat) (c : Cc) (x : Nat) : (s.setCc w c).account x = s.account x :=
  by simp [State.account]
@[simp] theorem State.setCc_store_frame (s : State) (w : Nat) (c : Cc) : (s.setCc w c).store = s.store := by simp [State.store]
@[simp] theorem State.setCc_seqOf_frame (s : State) (w : Nat) (c : Cc) (x : Nat) : (s.setCc w c).seqOf x = s.seqOf x :=
  by simp [State.seqOf, State.cluster]
@[simp] theorem State.setStatus_group_frame (s : State) (w n : Nat) (x : Nat) : (s.setStatus w n).group x = s.group x :=
  by simp [State.group]
@[simp] theorem State.setStatus_crew_frame (s : State) (w n : Nat) (x : Nat) : (s.setStatus w n).crew x = s.crew x :=
  by simp [State.crew]
@[simp] theorem State.setStatus_core_frame (s : State) (w n : Nat) (x : Nat) : (s.setStatus w n).core x = s.core x :=
  by simp [State.core]
@[simp] theorem State.setStatus_cluster_frame (s : State) (w n : Nat) (x : Nat) : (s.setStatus w n).cluster x = s.cluster x :=
  by simp [State.cluster]
@[simp] theorem State.setStatus_launch_frame (s : State) (w n : Nat) (x : Nat) : (s.setStatus w n).launch x = s.launch x :=
  by simp [State.launch]
@[simp] theorem State.setStatus_account_frame (s : State) (w n : Nat) (x : Nat) : (s.setStatus w n).account x = s.account x :=
  by simp [State.account]
@[simp] theorem State.setStatus_store_frame (s : State) (w n : Nat) : (s.setStatus w n).store = s.store := by simp [State.store]
@[simp] theorem State.setStatus_seqOf_frame (s : State) (w n : Nat) (x : Nat) : (s.setStatus w n).seqOf x = s.seqOf x :=
  by simp [State.seqOf, State.cluster]
@[simp] theorem State.unpark_group_frame (s : State) (w : Nat) (x : Nat) : (s.unpark w).group x = s.group x :=
  by simp [State.group]
@[simp] theorem State.unpark_crew_frame (s : State) (w : Nat) (x : Nat) : (s.unpark w).crew x = s.crew x := by simp [State.crew]
@[simp] theorem State.unpark_core_frame (s : State) (w : Nat) (x : Nat) : (s.unpark w).core x = s.core x := by simp [State.core]
@[simp] theorem State.unpark_cluster_frame (s : State) (w : Nat) (x : Nat) : (s.unpark w).cluster x = s.cluster x :=
  by simp [State.cluster]
@[simp] theorem State.unpark_launch_frame (s : State) (w : Nat) (x : Nat) : (s.unpark w).launch x = s.launch x :=
  by simp [State.launch]
@[simp] theorem State.unpark_account_frame (s : State) (w : Nat) (x : Nat) : (s.unpark w).account x = s.account x :=
  by simp [State.account]
@[simp] theorem State.unpark_store_frame (s : State) (w : Nat) : (s.unpark w).store = s.store := by simp [State.store]
@[simp] theorem State.unpark_seqOf_frame (s : State) (w : Nat) (x : Nat) : (s.unpark w).seqOf x = s.seqOf x :=
  by simp [State.seqOf, State.cluster]
@[simp] theorem State.park_group_frame (s : State) (w : Nat) (p : Park) (x : Nat) : (s.park w p).group x = s.group x :=
  by simp [State.group]
@[simp] theorem State.park_crew_frame (s : State) (w : Nat) (p : Park) (x : Nat) : (s.park w p).crew x = s.crew x :=
  by simp [State.crew]
@[simp] theorem State.park_core_frame (s : State) (w : Nat) (p : Park) (x : Nat) : (s.park w p).core x = s.core x :=
  by simp [State.core]
@[simp] theorem State.park_cluster_frame (s : State) (w : Nat) (p : Park) (x : Nat) : (s.park w p).cluster x = s.cluster x :=
  by simp [State.cluster]
@[simp] theorem State.park_launch_frame (s : State) (w : Nat) (p : Park) (x : Nat) : (s.park w p).launch x = s.launch x :=
  by simp [State.launch]
@[simp] theorem State.park_account_frame (s : State) (w : Nat) (p : Park) (x : Nat) : (s.park w p).account x = s.account x :=
  by simp [State.account]
@[simp] theorem State.park_store_frame (s : State) (w : Nat) (p : Park) : (s.park w p).store = s.store := by simp [State.store]
@[simp] theorem State.park_seqOf_frame (s : State) (w : Nat) (p : Park) (x : Nat) : (s.park w p).seqOf x = s.seqOf x :=
  by simp [State.seqOf, State.cluster]
@[simp] theorem State.bumpFree_wave_frame (s : State) (x : Nat) : (s.bumpFree).wave x = s.wave x := by simp [State.wave]
@[simp] theorem State.bumpFree_group_frame (s : State) (x : Nat) : (s.bumpFree).group x = s.group x := by simp [State.group]
@[simp] theorem State.bumpFree_crew_frame (s : State) (x : Nat) : (s.bumpFree).crew x = s.crew x := by simp [State.crew]
@[simp] theorem State.bumpFree_core_frame (s : State) (x : Nat) : (s.bumpFree).core x = s.core x := by simp [State.core]
@[simp] theorem State.bumpFree_cluster_frame (s : State) (x : Nat) : (s.bumpFree).cluster x = s.cluster x :=
  by simp [State.cluster]
@[simp] theorem State.bumpFree_launch_frame (s : State) (x : Nat) : (s.bumpFree).launch x = s.launch x := by simp [State.launch]
@[simp] theorem State.bumpFree_account_frame (s : State) (x : Nat) : (s.bumpFree).account x = s.account x :=
  by simp [State.account]
@[simp] theorem State.bumpFree_store_frame (s : State) : (s.bumpFree).store = s.store := by simp [State.store]
@[simp] theorem State.bumpFree_seqOf_frame (s : State) (x : Nat) : (s.bumpFree).seqOf x = s.seqOf x :=
  by simp [State.seqOf, State.cluster]
@[simp] theorem State.finishN_group_frame (s : State) (w : Nat) (mark : Bool) (n : Nat) (x : Nat) : (s.finishN w mark n).group x = s.group x :=
  by simp [State.group]
@[simp] theorem State.finishN_crew_frame (s : State) (w : Nat) (mark : Bool) (n : Nat) (x : Nat) : (s.finishN w mark n).crew x = s.crew x :=
  by simp [State.crew]
@[simp] theorem State.finishN_core_frame (s : State) (w : Nat) (mark : Bool) (n : Nat) (x : Nat) : (s.finishN w mark n).core x = s.core x :=
  by simp [State.core]
@[simp] theorem State.finishN_cluster_frame (s : State) (w : Nat) (mark : Bool) (n : Nat) (x : Nat) : (s.finishN w mark n).cluster x = s.cluster x :=
  by simp [State.cluster]
@[simp] theorem State.finishN_launch_frame (s : State) (w : Nat) (mark : Bool) (n : Nat) (x : Nat) : (s.finishN w mark n).launch x = s.launch x :=
  by simp [State.launch]
@[simp] theorem State.finishN_account_frame (s : State) (w : Nat) (mark : Bool) (n : Nat) (x : Nat) : (s.finishN w mark n).account x = s.account x :=
  by simp [State.account]
@[simp] theorem State.finishN_store_frame (s : State) (w : Nat) (mark : Bool) (n : Nat) : (s.finishN w mark n).store = s.store :=
  by simp [State.store]
@[simp] theorem State.finishN_seqOf_frame (s : State) (w : Nat) (mark : Bool) (n : Nat) (x : Nat) : (s.finishN w mark n).seqOf x = s.seqOf x :=
  by simp [State.seqOf, State.cluster]
@[simp] theorem State.finish_group_frame (s : State) (w : Nat) (mark : Bool) (x : Nat) : (s.finish w mark).group x = s.group x :=
  by simp [State.group]
@[simp] theorem State.finish_crew_frame (s : State) (w : Nat) (mark : Bool) (x : Nat) : (s.finish w mark).crew x = s.crew x :=
  by simp [State.crew]
@[simp] theorem State.finish_core_frame (s : State) (w : Nat) (mark : Bool) (x : Nat) : (s.finish w mark).core x = s.core x :=
  by simp [State.core]
@[simp] theorem State.finish_cluster_frame (s : State) (w : Nat) (mark : Bool) (x : Nat) : (s.finish w mark).cluster x = s.cluster x :=
  by simp [State.cluster]
@[simp] theorem State.finish_launch_frame (s : State) (w : Nat) (mark : Bool) (x : Nat) : (s.finish w mark).launch x = s.launch x :=
  by simp [State.launch]
@[simp] theorem State.finish_account_frame (s : State) (w : Nat) (mark : Bool) (x : Nat) : (s.finish w mark).account x = s.account x :=
  by simp [State.account]
@[simp] theorem State.finish_store_frame (s : State) (w : Nat) (mark : Bool) : (s.finish w mark).store = s.store :=
  by simp [State.store]
@[simp] theorem State.finish_seqOf_frame (s : State) (w : Nat) (mark : Bool) (x : Nat) : (s.finish w mark).seqOf x = s.seqOf x :=
  by simp [State.seqOf, State.cluster]
@[simp] theorem State.addLong_group_frame (s : State) (w : Nat) (r : LongRes) (x : Nat) : (s.addLong w r).group x = s.group x :=
  by simp [State.group]
@[simp] theorem State.addLong_crew_frame (s : State) (w : Nat) (r : LongRes) (x : Nat) : (s.addLong w r).crew x = s.crew x :=
  by simp [State.crew]
@[simp] theorem State.addLong_core_frame (s : State) (w : Nat) (r : LongRes) (x : Nat) : (s.addLong w r).core x = s.core x :=
  by simp [State.core]
@[simp] theorem State.addLong_cluster_frame (s : State) (w : Nat) (r : LongRes) (x : Nat) : (s.addLong w r).cluster x = s.cluster x :=
  by simp [State.cluster]
@[simp] theorem State.addLong_launch_frame (s : State) (w : Nat) (r : LongRes) (x : Nat) : (s.addLong w r).launch x = s.launch x :=
  by simp [State.launch]
@[simp] theorem State.addLong_account_frame (s : State) (w : Nat) (r : LongRes) (x : Nat) : (s.addLong w r).account x = s.account x :=
  by simp [State.account]
@[simp] theorem State.addLong_store_frame (s : State) (w : Nat) (r : LongRes) : (s.addLong w r).store = s.store :=
  by simp [State.store]
@[simp] theorem State.addLong_seqOf_frame (s : State) (w : Nat) (r : LongRes) (x : Nat) : (s.addLong w r).seqOf x = s.seqOf x :=
  by simp [State.seqOf, State.cluster]
@[simp] theorem State.logUndo_group_frame (s : State) (w t n k : Nat) (x : Nat) : (s.logUndo w t n k).group x = s.group x :=
  by simp [State.group]
@[simp] theorem State.logUndo_crew_frame (s : State) (w t n k : Nat) (x : Nat) : (s.logUndo w t n k).crew x = s.crew x :=
  by simp [State.crew]
@[simp] theorem State.logUndo_core_frame (s : State) (w t n k : Nat) (x : Nat) : (s.logUndo w t n k).core x = s.core x :=
  by simp [State.core]
@[simp] theorem State.logUndo_cluster_frame (s : State) (w t n k : Nat) (x : Nat) : (s.logUndo w t n k).cluster x = s.cluster x :=
  by simp [State.cluster]
@[simp] theorem State.logUndo_launch_frame (s : State) (w t n k : Nat) (x : Nat) : (s.logUndo w t n k).launch x = s.launch x :=
  by simp [State.launch]
@[simp] theorem State.logUndo_account_frame (s : State) (w t n k : Nat) (x : Nat) : (s.logUndo w t n k).account x = s.account x :=
  by simp [State.account]
@[simp] theorem State.logUndo_store_frame (s : State) (w t n k : Nat) : (s.logUndo w t n k).store = s.store :=
  by simp [State.store]
@[simp] theorem State.logUndo_seqOf_frame (s : State) (w t n k : Nat) (x : Nat) : (s.logUndo w t n k).seqOf x = s.seqOf x :=
  by simp [State.seqOf, State.cluster]
@[simp] theorem State.setShort_crew_frame (s : State) (w t : Nat) (o : Slc) (v : Nat) (x : Nat) : (s.setShort w t o v).crew x = s.crew x :=
  by simp [State.crew]
@[simp] theorem State.setShort_core_frame (s : State) (w t : Nat) (o : Slc) (v : Nat) (x : Nat) : (s.setShort w t o v).core x = s.core x :=
  by simp [State.core]
@[simp] theorem State.setShort_cluster_frame (s : State) (w t : Nat) (o : Slc) (v : Nat) (x : Nat) : (s.setShort w t o v).cluster x = s.cluster x :=
  by simp [State.cluster]
@[simp] theorem State.setShort_launch_frame (s : State) (w t : Nat) (o : Slc) (v : Nat) (x : Nat) : (s.setShort w t o v).launch x = s.launch x :=
  by simp [State.launch]
@[simp] theorem State.setShort_account_frame (s : State) (w t : Nat) (o : Slc) (v : Nat) (x : Nat) : (s.setShort w t o v).account x = s.account x :=
  by simp [State.account]
@[simp] theorem State.setShort_store_frame (s : State) (w t : Nat) (o : Slc) (v : Nat) : (s.setShort w t o v).store = s.store :=
  by simp [State.store]
@[simp] theorem State.setShort_seqOf_frame (s : State) (w t : Nat) (o : Slc) (v : Nat) (x : Nat) : (s.setShort w t o v).seqOf x = s.seqOf x :=
  by simp [State.seqOf, State.cluster]
@[simp] theorem State.setPrd_crew_frame (s : State) (w t p : Nat) (v : Bool) (x : Nat) : (s.setPrd w t p v).crew x = s.crew x :=
  by simp [State.crew]
@[simp] theorem State.setPrd_core_frame (s : State) (w t p : Nat) (v : Bool) (x : Nat) : (s.setPrd w t p v).core x = s.core x :=
  by simp [State.core]
@[simp] theorem State.setPrd_cluster_frame (s : State) (w t p : Nat) (v : Bool) (x : Nat) : (s.setPrd w t p v).cluster x = s.cluster x :=
  by simp [State.cluster]
@[simp] theorem State.setPrd_launch_frame (s : State) (w t p : Nat) (v : Bool) (x : Nat) : (s.setPrd w t p v).launch x = s.launch x :=
  by simp [State.launch]
@[simp] theorem State.setPrd_account_frame (s : State) (w t p : Nat) (v : Bool) (x : Nat) : (s.setPrd w t p v).account x = s.account x :=
  by simp [State.account]
@[simp] theorem State.setPrd_store_frame (s : State) (w t p : Nat) (v : Bool) : (s.setPrd w t p v).store = s.store :=
  by simp [State.store]
@[simp] theorem State.setPrd_seqOf_frame (s : State) (w t p : Nat) (v : Bool) (x : Nat) : (s.setPrd w t p v).seqOf x = s.seqOf x :=
  by simp [State.seqOf, State.cluster]
@[simp] theorem State.noteEnd_wave_frame (s : State) (l status info : Nat) (x : Nat) : (s.noteEnd l status info).wave x = s.wave x :=
  by simp [State.wave]
@[simp] theorem State.noteEnd_group_frame (s : State) (l status info : Nat) (x : Nat) : (s.noteEnd l status info).group x = s.group x :=
  by simp [State.group]
@[simp] theorem State.noteEnd_crew_frame (s : State) (l status info : Nat) (x : Nat) : (s.noteEnd l status info).crew x = s.crew x :=
  by simp [State.crew]
@[simp] theorem State.noteEnd_core_frame (s : State) (l status info : Nat) (x : Nat) : (s.noteEnd l status info).core x = s.core x :=
  by simp [State.core]
@[simp] theorem State.noteEnd_cluster_frame (s : State) (l status info : Nat) (x : Nat) : (s.noteEnd l status info).cluster x = s.cluster x :=
  by simp [State.cluster]
@[simp] theorem State.noteEnd_account_frame (s : State) (l status info : Nat) (x : Nat) : (s.noteEnd l status info).account x = s.account x :=
  by simp [State.account]
@[simp] theorem State.noteEnd_store_frame (s : State) (l status info : Nat) : (s.noteEnd l status info).store = s.store :=
  by simp [State.store]
@[simp] theorem State.noteEnd_seqOf_frame (s : State) (l status info : Nat) (x : Nat) : (s.noteEnd l status info).seqOf x = s.seqOf x :=
  by simp [State.seqOf, State.cluster]

/-! ### Reads at their homes and the free-value counter -/

@[simp] theorem State.touchRead_dt (s : State) (a n : Nat) : (s.touchRead a n).dt = s.dt := rfl
@[simp] theorem State.touchRead_cur (s : State) (a n : Nat) : (s.touchRead a n).cur = s.cur := rfl
@[simp] theorem State.touchRead_agenda (s : State) (a n : Nat) : (s.touchRead a n).agenda = s.agenda := rfl
@[simp] theorem State.touchRead_free (s : State) (a n : Nat) : (s.touchRead a n).free = s.free := rfl
@[simp] theorem State.touchRead_waves (s : State) (a n : Nat) : (s.touchRead a n).waves = s.waves := rfl
@[simp] theorem State.touchRead_groups (s : State) (a n : Nat) : (s.touchRead a n).groups = s.groups := rfl
@[simp] theorem State.touchRead_crews (s : State) (a n : Nat) : (s.touchRead a n).crews = s.crews := rfl
@[simp] theorem State.touchRead_cores (s : State) (a n : Nat) : (s.touchRead a n).cores = s.cores := rfl
@[simp] theorem State.touchRead_clusters (s : State) (a n : Nat) : (s.touchRead a n).clusters = s.clusters := rfl
@[simp] theorem State.touchRead_launches (s : State) (a n : Nat) : (s.touchRead a n).launches = s.launches := rfl
@[simp] theorem State.touchRead_sched (s : State) (a n : Nat) : (s.touchRead a n).sched = s.sched := rfl
@[simp] theorem State.touchRead_power (s : State) (a n : Nat) : (s.touchRead a n).power = s.power := rfl
@[simp] theorem State.touchRead_dev (s : State) (a n : Nat) : (s.touchRead a n).dev = s.dev := rfl
@[simp] theorem State.passMark_dt (s : State) (w : Nat) (m : Bool) : (s.passMark w m).dt = s.dt := rfl
@[simp] theorem State.passMark_cur (s : State) (w : Nat) (m : Bool) : (s.passMark w m).cur = s.cur := rfl
@[simp] theorem State.passMark_agenda (s : State) (w : Nat) (m : Bool) : (s.passMark w m).agenda = s.agenda := rfl
@[simp] theorem State.passMark_free (s : State) (w : Nat) (m : Bool) : (s.passMark w m).free = s.free := rfl
@[simp] theorem State.passMark_groups (s : State) (w : Nat) (m : Bool) : (s.passMark w m).groups = s.groups := rfl
@[simp] theorem State.passMark_crews (s : State) (w : Nat) (m : Bool) : (s.passMark w m).crews = s.crews := rfl
@[simp] theorem State.passMark_cores (s : State) (w : Nat) (m : Bool) : (s.passMark w m).cores = s.cores := rfl
@[simp] theorem State.passMark_clusters (s : State) (w : Nat) (m : Bool) : (s.passMark w m).clusters = s.clusters := rfl
@[simp] theorem State.passMark_launches (s : State) (w : Nat) (m : Bool) : (s.passMark w m).launches = s.launches := rfl
@[simp] theorem State.passMark_sched (s : State) (w : Nat) (m : Bool) : (s.passMark w m).sched = s.sched := rfl
@[simp] theorem State.passMark_power (s : State) (w : Nat) (m : Bool) : (s.passMark w m).power = s.power := rfl
@[simp] theorem State.passMark_dev (s : State) (w : Nat) (m : Bool) : (s.passMark w m).dev = s.dev := rfl
@[simp] theorem State.passMark_mem (s : State) (w : Nat) (m : Bool) : (s.passMark w m).mem = s.mem := rfl

@[simp] theorem State.owePeer_dt (s : State) (g : Nat) : (s.owePeer g).dt = s.dt := rfl
@[simp] theorem State.owePeer_cur (s : State) (g : Nat) : (s.owePeer g).cur = s.cur := rfl
@[simp] theorem State.owePeer_agenda (s : State) (g : Nat) : (s.owePeer g).agenda = s.agenda := rfl
@[simp] theorem State.owePeer_free (s : State) (g : Nat) : (s.owePeer g).free = s.free := rfl
@[simp] theorem State.owePeer_waves (s : State) (g : Nat) : (s.owePeer g).waves = s.waves := rfl
@[simp] theorem State.owePeer_groups (s : State) (g : Nat) : (s.owePeer g).groups = s.groups := rfl
@[simp] theorem State.owePeer_crews (s : State) (g : Nat) : (s.owePeer g).crews = s.crews := rfl
@[simp] theorem State.owePeer_cores (s : State) (g : Nat) : (s.owePeer g).cores = s.cores := rfl
@[simp] theorem State.owePeer_clusters (s : State) (g : Nat) : (s.owePeer g).clusters = s.clusters := rfl
@[simp] theorem State.owePeer_launches (s : State) (g : Nat) : (s.owePeer g).launches = s.launches := rfl
@[simp] theorem State.owePeer_sched (s : State) (g : Nat) : (s.owePeer g).sched = s.sched := rfl
@[simp] theorem State.owePeer_power (s : State) (g : Nat) : (s.owePeer g).power = s.power := rfl
@[simp] theorem State.owePeer_mem (s : State) (g : Nat) : (s.owePeer g).mem = s.mem := rfl

end Sys2Proof.Machine
end

