-- ==== Sys2Proof/Laws/Memory.lean ====
section
/-! SUPPORT. Laws of memory: every operation on a store keeps the canonical form, what a byte reads as after each, and what a write at its
home can reach. -/

namespace Sys2Proof.Machine

open Sys2Proof

/-! ### Reads after writes -/

/-- A byte after one byte has been written. -/
theorem Store.byte_setByte (m : Store) (a b : Nat) (v : Byte) : (m.setByte a v).byte b = if b = a then v else m.byte b := by
  simp only [Store.byte, Store.setByte, tabGet_tabSet]

/-- A byte that no cell names stays. -/
theorem Store.byte_putCells_other (m : Store) (cells : List (Nat × Byte × Byte)) (b : Nat) (h : ∀ c ∈ cells, c.1 ≠ b) :
    (m.putCells cells).byte b = m.byte b := by
  induction cells generalizing m with
  | nil => rfl
  | cons c rest ih =>
    obtain ⟨a, k, v⟩ := c
    rw [Store.putCells, ih _ (fun c hc => h c (List.mem_cons_of_mem _ hc)), Store.byte_setByte,
      if_neg (fun e => h _ (List.mem_cons_self) e.symm)]

/-- The cells of whole bytes name a run of addresses. -/
theorem mem_wholeCells {a : Nat} {bs : List Byte} {c : Nat × Byte × Byte} (h : c ∈ wholeCells a bs) : a ≤ c.1 ∧ c.1 < a + bs.length := by
  induction bs generalizing a with
  | nil => simp [wholeCells] at h
  | cons b rest ih =>
    simp only [wholeCells, List.mem_cons] at h
    rcases h with rfl | h
    · simp
    · have := ih h
      simp only [List.length_cons]
      omega

/-- A byte outside a run stays. -/
theorem Store.byte_putWhole_other (m : Store) (a b : Nat) (bs : List Byte) (h : b < a ∨ a + bs.length ≤ b) :
    (m.putCells (wholeCells a bs)).byte b = m.byte b :=
  m.byte_putCells_other _ b (fun c hc => by have := mem_wholeCells hc; omega)

/-- Each byte of a run reads what was written. -/
theorem Store.byte_putWhole (m : Store) (a i : Nat) (bs : List Byte) (b : Byte) (h : bs[i]? = some b) :
    (m.putCells (wholeCells a bs)).byte (a + i) = b := by
  induction bs generalizing m a i with
  | nil => simp at h
  | cons c rest ih =>
    rw [wholeCells, Store.putCells]
    cases i with
    | zero =>
      simp only [List.getElem?_cons_zero, Option.some.injEq] at h
      subst h
      rw [Store.byte_putWhole_other _ _ _ _ (.inl (by omega)), Nat.add_zero, Store.byte_setByte, if_pos rfl]
      have hm : ∀ x y : BitVec 8, (x &&& ~~~255#8) ||| (y &&& 255#8) = y := fun x y => by
        rw [show (255#8 : BitVec 8) = BitVec.allOnes 8 from rfl, BitVec.and_allOnes, BitVec.not_allOnes, BitVec.and_zero, BitVec.zero_or]
      exact hm _ _
    | succ k =>
      have := ih (m.setByte a ((m.byte a &&& ~~~255#8) ||| (c &&& 255#8))) (a + 1) k (by simpa using h)
      rw [← this]
      congr 1
      omega

/-- Tags leave bytes alone. -/
@[simp] theorem Store.retag_bytes (m : Store) (gs : List Nat) (tag : Option Bool) : (m.retag gs tag).bytes = m.bytes := by
  induction gs generalizing m with
  | nil => rfl
  | cons g rest ih => rw [Store.retag, ih]; split <;> rfl

/-- Poison leaves bytes alone. -/
@[simp] theorem Store.unpoison_bytes (m : Store) (cells : List (Nat × Byte × Byte)) (ws : List Nat) :
    (m.unpoison cells ws).bytes = m.bytes := by
  induction ws generalizing m with
  | nil => rfl
  | cons w rest ih => rw [Store.unpoison, ih]; split <;> rfl

/-- A write changes bytes as its cells do. -/
@[simp] theorem Store.write_bytes (m : Store) (cells : List (Nat × Byte × Byte)) (tag : Option Bool) :
    (m.write cells tag).bytes = (m.putCells cells).bytes := by simp [Store.write]

/-- A byte after a write. -/
@[simp] theorem Store.byte_write (m : Store) (cells : List (Nat × Byte × Byte)) (tag : Option Bool) (b : Nat) :
    (m.write cells tag).byte b = (m.putCells cells).byte b := by simp [Store.byte]

/-- A poisoned granule keeps its bytes. -/
@[simp] theorem Store.byte_poisonGranule (m : Store) (g b : Nat) : (m.poisonGranule g).byte b = m.byte b := rfl

/-- A key of a table from which some keys have been left out. -/
theorem tabFind_filter {α : Type} (t : Tab α) (p : Nat → Bool) (k : Nat) :
    tabFind (t.filter (fun e => p e.1)) k = if p k then tabFind t k else none := by
  induction t with
  | nil => simp [tabFind]
  | cons e rest ih =>
    obtain ⟨j, x⟩ := e
    rw [List.filter_cons]
    by_cases hp : p j = true
    · rw [if_pos hp, tabFind, tabFind, ih]
      by_cases hj : j = k
      · subst hj; simp [hp]
      · simp [hj]
    · rw [if_neg hp, ih, tabFind]
      by_cases hj : j = k
      · subst hj; simp [hp]
      · simp [hj]

/-- A byte after a range has been cleared. -/
theorem Store.byte_zero (m : Store) (a n b : Nat) : (m.zero a n).byte b = if a ≤ b ∧ b < a + n then 0 else m.byte b := by
  simp only [Store.byte, Store.zero, tabGet]
  rw [tabFind_filter m.bytes (fun k => !(decide (a ≤ k) && decide (k < a + n)))]
  by_cases h : a ≤ b ∧ b < a + n
  · simp [h]
  · rw [if_neg h, if_pos]
    simp only [Bool.not_eq_true', Bool.and_eq_false_iff, decide_eq_false_iff_not]
    omega

/-! ### The canonical form -/

/-- One byte. -/
theorem Store.wf_setByte (m : Store) (a : Nat) (v : Byte) (h : m.wf = true) : (m.setByte a v).wf = true := tabCanon_tabSet m.bytes 0 a v h

/-- Cells. -/
theorem Store.wf_putCells (m : Store) (cells : List (Nat × Byte × Byte)) (h : m.wf = true) : (m.putCells cells).wf = true := by
  induction cells generalizing m with
  | nil => exact h
  | cons c rest ih => obtain ⟨a, k, v⟩ := c; exact ih _ (m.wf_setByte a _ h)

/-- A write. -/
theorem Store.wf_write (m : Store) (cells : List (Nat × Byte × Byte)) (tag : Option Bool) (h : m.wf = true) : (m.write cells tag).wf = true := by
  have := m.wf_putCells cells h
  simpa [Store.wf] using this

/-- A range cleared. -/
theorem Store.wf_zero (m : Store) (a n : Nat) (h : m.wf = true) : (m.zero a n).wf = true := tabCanon_filter m.bytes 0 _ h

/-- A poisoned granule. -/
theorem Store.wf_poisonGranule (m : Store) (g : Nat) (h : m.wf = true) : (m.poisonGranule g).wf = true := h

/-- A column of a weight unit. -/
theorem Store.wf_writeColumn (m : Store) (a : Nat) (bs : List Byte) (bad : List Bool) (h : m.wf = true) :
    (m.writeColumn a bs bad).wf = true :=
  m.wf_write (wholeCells a bs) none h

/-- Memory at reset. -/
theorem State.reset_memoryCanonical : State.reset.store.wf = true := by decide

/-! ### The L2 holds no byte of its own (R70 to R77) -/

@[simp] theorem evictTag_store (ms : MemSys) (dt : Nat) (t : L2Tag) : (evictTag ms dt t).store = ms.store := rfl

@[simp] theorem placeLine_store (dt : Nat) (t : L2Tag) (n : Nat) (ms : MemSys) : (placeLine dt t n ms).store = ms.store := by
  induction n generalizing ms with
  | zero => rfl
  | succ k ih =>
    unfold placeLine
    split
    · rfl
    · split
      · rfl
      · rw [ih]; rfl

@[simp] theorem l2Touch_store (ms : MemSys) (dt line : Nat) (write : Bool) : (l2Touch ms dt line write).store = ms.store := by
  unfold l2Touch; split <;> simp

@[simp] theorem l2Refit_store (ms : MemSys) (dt line : Nat) : (l2Refit ms dt line).store = ms.store := by
  unfold l2Refit
  split
  · rfl
  · simp only
    split
    · rfl
    · split
      · rfl
      · split <;> rfl

@[simp] theorem l2Write_store (ms : MemSys) (dt : Nat) (cells : List (Nat × Byte × Byte)) : (l2Write ms dt cells).store = ms.store := by
  unfold l2Write
  induction linesOf cells generalizing ms with
  | nil => rfl
  | cons a rest ih => rw [List.foldl_cons, ih, l2Touch_store]

@[simp] theorem l2Grant_store (ms : MemSys) (dt line cls : Nat) : (l2Grant ms dt line cls).store = ms.store := by simp [l2Grant]

/-! ### Folds -/

/-- What every step of a fold keeps, the fold keeps. -/
theorem foldl_keeps {α β : Type} (P : β → Prop) (f : β → α → β) (l : List α) (b : β) (h : P b) (step : ∀ x a, P x → P (f x a)) :
    P (l.foldl f b) := by
  induction l generalizing b with
  | nil => exact h
  | cons a rest ih => exact ih _ (step b a h)

/-- What a step leaves as it was, a fold of such steps leaves. -/
theorem foldl_fixed {α β γ : Type} (p : β → γ) (f : β → α → β) (l : List α) (b : β) (step : ∀ x a, p (f x a) = p x) :
    p (l.foldl f b) = p b := by
  induction l generalizing b with
  | nil => rfl
  | cons a rest ih => rw [List.foldl_cons, ih, step]

/-! ### A write at its home (R25, R66, R72, R76, R118, R130, R133) -/

/-- What the machine keeps when a write reaches its home: all but waves, crews' grid objects, clusters and memory. -/
def State.homeKept (s t : State) : Prop := t = { s with waves := t.waves, crews := t.crews, clusters := t.clusters, mem := t.mem }

theorem State.homeKept.refl (s : State) : s.homeKept s := rfl

theorem State.homeKept.trans {s t u : State} (h : s.homeKept t) (k : t.homeKept u) : s.homeKept u := by
  unfold State.homeKept at *
  rw [k, h]

theorem State.homeKept_joinQueue (s : State) (w : Nat) : s.homeKept (s.joinQueue w) := by unfold State.joinQueue; split <;> rfl

theorem State.homeKept_wakeSeq (s : State) (g k : Nat) : s.homeKept (s.wakeSeq g k) := by
  unfold State.wakeSeq
  simp only
  split
  · split <;> rfl
  · rfl

theorem State.homeKept_foldl {α : Type} (f : State → α → State) (h : ∀ (s : State) (a : α), s.homeKept (f s a)) (l : List α) (s : State) :
    s.homeKept (l.foldl f s) :=
  foldl_keeps (fun t => s.homeKept t) f l s (State.homeKept.refl s) (fun x a hx => hx.trans (h x a))

theorem State.homeKept_wakeGranule (s : State) (g : Nat) : s.homeKept (s.wakeGranule g) := by
  unfold State.wakeGranule
  exact (State.homeKept_foldl State.joinQueue State.homeKept_joinQueue _ s).trans
    (State.homeKept_foldl (fun t k => t.wakeSeq g k) (fun s k => State.homeKept_wakeSeq s g k) _ _)

theorem State.homeKept_noteGrid (s : State) (a : Nat) : s.homeKept (s.noteGrid a) := by
  unfold State.noteGrid
  simp only
  split
  · rfl
  · apply State.homeKept_foldl
    intro t c
    rfl

theorem State.homeKept_testArmed (s : State) (g : Nat) : s.homeKept (s.testArmed g) := by
  unfold State.testArmed
  split
  · simp only
    split
    · exact s.homeKept_noteGrid _
    · rfl
  · rfl

theorem State.homeKept_markConflicts (s : State) (b : Option Nat) (l : List Nat) : s.homeKept (s.markConflicts b l) := rfl

/-- A write at its home reaches nothing else. -/
theorem State.homeKept_writeAtHome (s : State) (b : Option Nat) (cells : List (Nat × Byte × Byte)) (tag : Option Bool) :
    s.homeKept (s.writeAtHome b cells tag) := by
  unfold State.writeAtHome
  refine State.homeKept.trans ?_ (State.homeKept_markConflicts _ _ _)
  refine State.homeKept.trans ?_ (State.homeKept_foldl State.wakeGranule State.homeKept_wakeGranule _ _)
  refine State.homeKept.trans ?_ (State.homeKept_foldl State.testArmed State.homeKept_testArmed _ _)
  rfl

@[simp] theorem State.store_joinQueue (s : State) (w : Nat) : (s.joinQueue w).store = s.store := by
  unfold State.joinQueue; split <;> rfl

@[simp] theorem State.store_wakeSeq (s : State) (g k : Nat) : (s.wakeSeq g k).store = s.store := by
  unfold State.wakeSeq
  simp only
  split
  · split <;> rfl
  · rfl

@[simp] theorem State.store_wakeGranule (s : State) (g : Nat) : (s.wakeGranule g).store = s.store := by
  unfold State.wakeGranule
  rw [foldl_fixed State.store _ _ _ (fun x k => x.store_wakeSeq g k), foldl_fixed State.store _ _ _ State.store_joinQueue]

@[simp] theorem State.store_noteGrid (s : State) (a : Nat) : (s.noteGrid a).store = s.store := by
  unfold State.noteGrid
  simp only
  split
  · rfl
  · exact foldl_fixed State.store _ _ _ (fun x k => rfl)

@[simp] theorem State.store_markConflicts (s : State) (b : Option Nat) (l : List Nat) : (s.markConflicts b l).store = s.store := rfl

theorem State.wf_testArmed (s : State) (g : Nat) (h : s.store.wf = true) : (s.testArmed g).store.wf = true := by
  unfold State.testArmed
  split
  · simp only
    split
    · simpa using h
    · exact s.store.wf_putCells _ h
  · exact h

/-- A read at its home changes no byte of memory. -/
@[simp] theorem State.touchRead_store (s : State) (a n : Nat) : (s.touchRead a n).store = s.store :=
  foldl_fixed MemSys.store _ _ _ (fun x l => l2Touch_store x s.dt l false)

/-- A read at its home reaches the L2 alone. -/
theorem State.homeKept_touchRead (s : State) (a n : Nat) : s.homeKept (s.touchRead a n) := rfl

/-- Words poisoned at their home keep every byte of memory. -/
@[simp] theorem State.spoil_bytes (s : State) (ws gs : List Nat) : (s.spoil ws gs).store.bytes = s.store.bytes := by
  unfold State.spoil
  simp only
  rw [State.store, foldl_fixed MemSys.store _ _ _ (fun x l => l2Refit_store x s.dt l)]
  rfl

/-- A granule that is not armed is left as it is. -/
theorem State.testArmed_plain (s : State) (g : Nat) (h : s.store.armed.contains g = false) : s.testArmed g = s := by
  unfold State.testArmed
  rw [if_neg (by rw [h]; exact Bool.false_ne_true)]

/-- A write at its home keeps memory canonical. -/
theorem State.wf_writeAtHome (s : State) (b : Option Nat) (cells : List (Nat × Byte × Byte)) (tag : Option Bool)
    (h : s.store.wf = true) : (s.writeAtHome b cells tag).store.wf = true := by
  unfold State.writeAtHome
  simp only [State.store_markConflicts]
  rw [foldl_fixed State.store _ _ _ State.store_wakeGranule]
  refine foldl_keeps (fun t : State => t.store.wf = true) _ _ _ ?_ (fun x g hx => x.wf_testArmed g hx)
  rw [State.store, foldl_fixed MemSys.store _ _ _ (fun x l => l2Refit_store x s.dt l)]
  exact s.store.wf_write cells tag h

end Sys2Proof.Machine
end

