-- ==== Sys2Proof/Laws/Ends.lean ====
section
/-! SUPPORT. What finishing a word, performing writes, ending crews and launches, taking a trap and returning from one can change: one
lemma for each of these shared operations. -/

namespace Sys2Proof.Machine

open Sys2Proof

/-! ### Finishing and parking a word (R196, R236, R366) -/

/-- A word that is passed changes its wave's place and park, and nothing else. -/
theorem State.finishN_eq (s : State) (w : Nat) (mark : Bool) (n : Nat) : s.finishN w mark n = { s with
    free := s.free + 1
    waves := tabPut s.waves w { s.wave w with
      word := (s.wave w).word + n, retry := none, held := none, park := (s.wave w).afterWait mark
      lastPark := if mark = true ∧ (s.wave w).pend ≠ [] then s.coreCycles (s.waveCore w) else (s.wave w).lastPark } } := rfl

/-- A wave that parks keeps its place and registers. -/
theorem State.park_wave (s : State) (w : Nat) (p : Park) :
    (s.park w p).wave w = { s.wave w with park := p, lastPark := s.coreCycles (s.waveCore w) } := by simp [State.park, State.wave, State.setWave]

/-! ### Writes performed (R108 to R110) -/

/-- What is kept when writes in flight are performed, or crews end: all but waves, groups, crews, clusters, memory, the grids and MAXW of
launches, the releases of grids on their way, and what the journal owes of them. -/
def State.endKept (s t : State) : Prop :=
  t = { s with waves := t.waves, groups := t.groups, crews := t.crews, clusters := t.clusters, launches := t.launches, mem := t.mem
               sched := { s.sched with gridRel := t.sched.gridRel, gridJrn := t.sched.gridJrn } }
    ∧ ∀ l, t.launch l = { s.launch l with grids := (t.launch l).grids, maxw := (t.launch l).maxw }

theorem State.endKept.refl (s : State) : s.endKept s := ⟨rfl, fun _ => rfl⟩

theorem State.endKept.trans {s t u : State} (h : s.endKept t) (k : t.endKept u) : s.endKept u := by
  refine ⟨?_, fun l => ?_⟩
  · rw [k.1, h.1]
  · rw [k.2 l, h.2 l]

theorem State.endKept_of_home {s t : State} (h : s.homeKept t) : s.endKept t := by
  unfold State.homeKept at h
  refine ⟨by rw [h], fun l => ?_⟩
  have e : t.launch l = s.launch l := by rw [h]; rfl
  rw [e]

theorem State.endKept_foldl {α : Type} (f : State → α → State) (h : ∀ (s : State) (a : α), s.endKept (f s a)) (l : List α) (s : State) :
    s.endKept (l.foldl f s) :=
  foldl_keeps (fun t => s.endKept t) f l s (State.endKept.refl s) (fun x a hx => hx.trans (h x a))

theorem State.endKept_setLaunch (s : State) (l : Nat) (v : Launch) (h : v = { s.launch l with grids := v.grids, maxw := v.maxw }) :
    s.endKept (s.setLaunch l v) := by
  refine ⟨rfl, fun x => ?_⟩
  simp only [State.launch, State.setLaunch, tabGet_tabPut]
  split
  · subst_vars; exact h
  · rfl

theorem State.endKept_landWrite (s : State) (b : Option Nat) (p : PWrite) : s.endKept (s.landWrite b p) := by
  unfold State.landWrite
  split
  · exact State.endKept.refl s
  · exact State.endKept_of_home (s.homeKept_writeAtHome _ _ _)

theorem State.endKept_performWrite (s : State) (w : Nat) (p : PWrite) : s.endKept (s.performWrite w p) :=
  (s.endKept_landWrite (some w) p).trans ⟨rfl, fun _ => rfl⟩

theorem State.endKept_setAccount (s : State) (a : Nat) (v : Account) : s.endKept (s.setAccount a v) := ⟨rfl, fun _ => rfl⟩

theorem State.endKept_performLeft (s : State) (a : Nat) (p : PWrite) : s.endKept (s.performLeft a p) := by
  unfold State.performLeft
  exact (s.endKept_landWrite none p).trans ((State.endKept_setAccount (s.landWrite none p) a _).trans
    (State.endKept_setLaunch _ _ _ rfl))

theorem State.endKept_flushAccount (s : State) (h : List Nat) (a : Nat) : s.endKept (s.flushAccount h a) :=
  (s.endKept_setAccount a _).trans (State.endKept_foldl _ (fun t p => t.endKept_performLeft a p) _ _)

theorem State.endKept_emptyAccount (s : State) (a : Nat) : s.endKept (s.emptyAccount a) :=
  (s.endKept_setAccount a _).trans (State.endKept_foldl _ (fun t p => t.endKept_performLeft a p) _ _)

theorem State.endKept_flushAll (s : State) (w : Nat) : s.endKept (s.flushAll w) := by
  have h0 := State.endKept_foldl State.emptyAccount (fun t a => t.endKept_emptyAccount a) (s.wave w).accts s
  unfold State.flushAll
  simp only
  split
  · exact h0
  · exact h0.trans (State.endKept.trans ⟨rfl, fun _ => rfl⟩ (State.endKept_foldl _ (fun t p => t.endKept_performWrite w p) _ _))

/-! ### Crews that end (R141, R379, R380) -/

theorem State.endKept_dropWave (s : State) (w : Nat) : s.endKept (s.dropWave w) := by
  have h1 : s.endKept { s with waves := tabDel s.waves w } := ⟨rfl, fun _ => rfl⟩
  have h2 (t : State) (k : Nat) (v : ClusterSt) : t.endKept (t.setCluster k v) := ⟨rfl, fun _ => rfl⟩
  exact h1.trans ((h2 _ _ _).trans (State.endKept_setLaunch _ _ _ rfl))

theorem State.endKept_leaveWave (s : State) (w : Nat) : s.endKept (s.leaveWave w).1 := by
  unfold State.leaveWave
  simp only
  split
  · exact State.endKept.refl s
  · exact ⟨rfl, fun _ => rfl⟩

theorem State.endKept_removeWave (s : State) (w : Nat) : s.endKept (s.removeWave w) :=
  (s.endKept_flushAll w).trans ((State.endKept_leaveWave _ w).trans (State.endKept_dropWave _ w))

theorem State.endKept_gridTest (s : State) (l key : Nat) : s.endKept (s.gridTest l key) := by
  unfold State.gridTest
  simp only
  split
  · exact (s.endKept_setLaunch l _ rfl).trans ⟨rfl, fun _ => rfl⟩
  · exact State.endKept.refl s

theorem State.endKept_gridLeaveOne (s : State) (c key : Nat) : s.endKept (s.gridLeaveOne c key) := by
  unfold State.gridLeaveOne
  simp only
  split
  · exact (s.endKept_setLaunch _ _ rfl).trans (State.endKept_gridTest _ _ _)
  · exact State.endKept.refl s

theorem State.endKept_gridLeave (s : State) (c : Nat) : s.endKept (s.gridLeave c) := by
  unfold State.gridLeave
  split
  · exact State.endKept.refl s
  · exact (State.endKept_foldl _ (fun t k => t.endKept_gridLeaveOne c k) _ s).trans ⟨rfl, fun _ => rfl⟩

/-- What a crew's kill can change. -/
theorem State.endKept_killCrew (s : State) (c : Nat) : s.endKept (s.killCrew c) := by
  unfold State.killCrew
  refine State.endKept.trans ?_ (State.endKept_gridLeave _ c)
  refine State.endKept.trans ?_ (⟨rfl, fun _ => rfl⟩ : State.endKept _ (State.setCrew _ c _))
  exact (State.endKept_foldl _ State.endKept_removeWave _ s).trans
    (State.endKept_foldl State.endGroup (fun t g => ⟨rfl, fun _ => rfl⟩) _ _)

/-- An end that is recorded for a launch touches its status alone. -/
theorem State.noteEnd_launch (s : State) (l status info x : Nat) : (s.noteEnd l status info).launch x =
    if x = l then { s.launch l with endStatus := mergeEnd (s.launch l).endStatus status info } else s.launch x := by
  simp only [State.noteEnd, State.launch, State.setLaunch, tabGet_tabPut]

/-- The launch of a crew that ends alone has its status, and every other launch keeps its own. -/
theorem State.endCrewWith_endStatus (s : State) (c status info l : Nat) : ((s.endCrewWith c status info).launch l).endStatus =
    if l = (s.crew c).launch then mergeEnd (s.launch l).endStatus status info else (s.launch l).endStatus := by
  unfold State.endCrewWith
  rw [(State.endKept_killCrew _ c).2 l, State.noteEnd_launch]
  split
  · subst_vars; rfl
  · rfl

/-! ### Traps (R372 to R375) -/

/-- A trap at THREAD level with a handler: the wave alone changes, as R372 says. -/
theorem State.takeTrap_handler (s : State) (w active : Nat) (t : TrapInfo) (h0 : (s.wave w).spec = none) (h1 : (s.wave w).level = .thread)
    (h2 : (s.launch (s.waveLaunch w)).mod_.handlerOf t.cause ≠ 4095) :
    s.takeTrap w active t = s.enterHandler w active ((s.launch (s.waveLaunch w)).mod_.handlerOf t.cause) t := by
  simp [State.takeTrap, h0, h1, h2]

/-- A trap at THREAD level without a handler ends the crew (R375). -/
theorem State.takeTrap_noHandler (s : State) (w active : Nat) (t : TrapInfo) (h0 : (s.wave w).spec = none) (h1 : (s.wave w).level = .thread)
    (h2 : (s.launch (s.waveLaunch w)).mod_.handlerOf t.cause = 4095) :
    s.takeTrap w active t = if t.cause = .deadline then s.endCrewWith (crewOf w) 1 0
      else s.endCrewWith (crewOf w) 13 (causeCode t.cause + 256 * (s.wave w).seg) := by
  simp [State.takeTrap, h0, h1, h2]

/-- A trap inside a handler ends the crew (R373). -/
theorem State.takeTrap_inHandler (s : State) (w active : Nat) (t : TrapInfo) (h0 : (s.wave w).spec = none) (h1 : (s.wave w).level = .trap) :
    s.takeTrap w active t = s.endCrewWith (crewOf w) (if t.cause = .deadline then 1 else 12) 0 := by simp [State.takeTrap, h0, h1]

/-- A speculative wave waits for its fence before its trap (R116). -/
theorem State.takeTrap_spec (s : State) (w active : Nat) (t : TrapInfo) (p : Spec) (h : (s.wave w).spec = some p) :
    s.takeTrap w active t = s.park w .spec := by simp [State.takeTrap, h]

/-- A return gives the wave back what its trap saved (R374), and changes nothing else. -/
theorem State.trapReturn_wave (s : State) (w : Nat) (skip : Bool) (f : TrapFrame) (h : (s.wave w).frame = some f) :
    (s.trapReturn w skip).wave w = { s.wave w with
      seg := f.seg, word := if skip then f.word + f.skip else f.word, level := .thread, cc := f.cc, lc := f.lc
      wdBase := if f.cause = .watchdog ∨ f.cause = .deadline then 0 else f.wd
      wdSince := s.coreCycles (s.waveCore w), park := .run, frame := none, held := none, retry := if skip then none else f.rerun } := by
  unfold State.trapReturn
  simp only [h]
  simp [State.wave, State.setWave]

end Sys2Proof.Machine
end

