-- ==== Sys2Proof/Laws/Lanes.lean ====
section
/-! SUPPORT. What the shared forms of per-lane words do: writes of slices and predicates of short-class and long-class words
in program order, and the frames of the words built on them. -/

namespace Sys2Proof.Machine

open Sys2Proof

/-! ### Slice tables -/

/-- A read after a write of slices. -/
theorem putSlices_get (f : Tab Nib) (d : Nib) (n v k j : Nat) :
    tabGet (putSlices f n v k) d j
      = if n ≤ j ∧ j < n + k then BitVec.ofNat 4 (v / 16 ^ (j - n) % 16) else tabGet f d j := by
  induction k generalizing f n v with
  | zero => simp [putSlices]
  | succ k ih =>
    rw [putSlices, ih, tabGet_tabPut]
    by_cases h1 : j = n
    · subst h1; simp
    · by_cases h2 : n + 1 ≤ j ∧ j < n + 1 + k
      · obtain ⟨d, rfl⟩ : ∃ d, j = n + 1 + d := ⟨j - (n + 1), by omega⟩
        rw [if_pos h2, if_pos (by omega), show n + 1 + d - (n + 1) = d by omega, show n + 1 + d - n = d + 1 by omega,
          pow_succ, Nat.mul_comm, Nat.div_div_eq_div_mul]
      · rw [if_neg h2, if_neg h1, if_neg (by omega)]

/-- Claimed cells are no longer outstanding; the others are. -/
theorem pendingCells_claim (ps : List LongRes) (t n k x j : Nat) :
    pendingCells (claimCells ps t n k) x j = if x = t ∧ n ≤ j ∧ j < n + k then [] else pendingCells ps x j := by
  induction ps with
  | nil => simp [claimCells, pendingCells]
  | cons p rest ih =>
    simp only [claimCells, List.map_cons, pendingCells] at ih ⊢
    by_cases h : x = t ∧ n ≤ j ∧ j < n + k
    · rw [if_pos h] at ih ⊢
      have : (p.cells.filter (fun c => !(c.1 == t && decide (n ≤ c.2.1) && decide (c.2.1 < n + k)))).find?
          (fun c => c.1 == x && c.2.1 == j) = none := by
        rw [List.find?_eq_none]
        intro c hc
        simp only [List.mem_filter, Bool.not_eq_true', Bool.and_eq_false_iff, beq_eq_false_iff_ne, decide_eq_false_iff_not,
          Bool.and_eq_true, beq_iff_eq, not_and] at hc ⊢
        omega
      rw [this]; exact ih
    · rw [if_neg h] at ih ⊢
      have : (p.cells.filter (fun c => !(c.1 == t && decide (n ≤ c.2.1) && decide (c.2.1 < n + k)))).find?
          (fun c => c.1 == x && c.2.1 == j) = p.cells.find? (fun c => c.1 == x && c.2.1 == j) := by
        rw [List.find?_filter]
        congr 1; funext c
        by_cases hc : c.1 = x ∧ c.2.1 = j
        · have : ¬(c.1 = t ∧ n ≤ c.2.1 ∧ c.2.1 < n + k) := by omega
          simp only [not_and, Nat.not_lt] at this
          simp [hc.1, hc.2] at this ⊢; omega
        · have : (c.1 == x && c.2.1 == j) = false := by simpa using hc
          simp [this]
      rw [this, ih]

/-- A claimed predicate is no longer outstanding. -/
theorem pendingPrds_claim (ps : List LongRes) (t p x q : Nat) :
    pendingPrds (claimPrd ps t p) x q = if x = t ∧ q = p then [] else pendingPrds ps x q := by
  induction ps with
  | nil => simp [claimPrd, pendingPrds]
  | cons r rest ih =>
    simp only [claimPrd, List.map_cons, pendingPrds] at ih ⊢
    by_cases h : x = t ∧ q = p
    · rw [if_pos h] at ih ⊢
      have : (r.prds.filter (fun c => !(c.1 == t && c.2.1 == p))).find? (fun c => c.1 == x && c.2.1 == q) = none := by
        rw [List.find?_eq_none]
        intro c hc
        simp only [List.mem_filter, Bool.not_eq_true', Bool.and_eq_false_iff, beq_eq_false_iff_ne, Bool.and_eq_true,
          beq_iff_eq, not_and] at hc ⊢
        omega
      rw [this]; exact ih
    · rw [if_neg h] at ih ⊢
      have : (r.prds.filter (fun c => !(c.1 == t && c.2.1 == p))).find? (fun c => c.1 == x && c.2.1 == q)
          = r.prds.find? (fun c => c.1 == x && c.2.1 == q) := by
        rw [List.find?_filter]
        congr 1; funext c
        by_cases hc : c.1 = x ∧ c.2.1 = q
        · have : ¬(c.1 = t ∧ c.2.1 = p) := by omega
          simp only [not_and] at this
          simp [hc.1, hc.2] at this ⊢; tauto
        · have : (c.1 == x && c.2.1 == q) = false := by simpa using hc
          simp [this]
      rw [this, ih]

/-- A cell's claim leaves the outstanding predicates. -/
@[simp] theorem pendingPrds_claimCells (ps : List LongRes) (t n k x q : Nat) :
    pendingPrds (claimCells ps t n k) x q = pendingPrds ps x q := by
  induction ps with
  | nil => rfl
  | cons r rest ih => simp only [claimCells, List.map_cons, pendingPrds] at ih ⊢; rw [ih]

/-- A predicate's claim leaves the outstanding cells. -/
@[simp] theorem pendingCells_claimPrd (ps : List LongRes) (t p x n : Nat) :
    pendingCells (claimPrd ps t p) x n = pendingCells ps x n := by
  induction ps with
  | nil => rfl
  | cons r rest ih => simp only [claimPrd, List.map_cons, pendingCells] at ih ⊢; rw [ih]

/-- A result joins the outstanding cells last. -/
theorem pendingCells_append (ps : List LongRes) (r : LongRes) (x n : Nat) :
    pendingCells (ps ++ [r]) x n = pendingCells ps x n ++ (match r.cells.find? (fun c => c.1 == x && c.2.1 == n) with
      | none => []
      | some c => [c.2.2]) := by
  induction ps with
  | nil =>
    simp only [List.nil_append, pendingCells] <;> cases r.cells.find? (fun c => c.1 == x && c.2.1 == n) <;> rfl
  | cons p rest ih =>
    simp only [List.cons_append, pendingCells]
    split <;> simp [ih]

/-- A result joins the outstanding predicates last. -/
theorem pendingPrds_append (ps : List LongRes) (r : LongRes) (x n : Nat) :
    pendingPrds (ps ++ [r]) x n = pendingPrds ps x n ++ (match r.prds.find? (fun c => c.1 == x && c.2.1 == n) with
      | none => []
      | some c => [c.2.2]) := by
  induction ps with
  | nil =>
    simp only [List.nil_append, pendingPrds] <;> cases r.prds.find? (fun c => c.1 == x && c.2.1 == n) <;> rfl
  | cons p rest ih =>
    simp only [List.cons_append, pendingPrds]
    split <;> simp [ih]

/-! ### The frame of lane writes -/

/-- What lane writes of a wave leave alone, before the wave passes the word. -/
structure LaneStep (s t : State) (w : Nat) : Prop where
  machine : t = { s with waves := t.waves, groups := t.groups }
  waves : ∀ x, x ≠ w → t.wave x = s.wave x
  groups : ∀ g, g ≠ groupOf w → t.group g = s.group g
  wave : t.wave w = { s.wave w with pend := (t.wave w).pend, spec := (t.wave w).spec }
  regs : s.sameGroupRegs t (groupOf w)
  rest : ∀ x, (s.thread (groupOf w) x).sameRest (t.thread (groupOf w) x)

theorem LaneStep.refl (s : State) (w : Nat) : LaneStep s s w :=
  ⟨rfl, fun _ _ => rfl, fun _ _ => rfl, rfl, rfl, fun _ => rfl⟩

theorem LaneStep.trans {s t u : State} {w : Nat} (a : LaneStep s t w) (b : LaneStep t u w) : LaneStep s u w where
  machine := by have h1 := a.machine; have h2 := b.machine; rw [h1] at h2; exact h2
  waves := fun x hx => (b.waves x hx).trans (a.waves x hx)
  groups := fun g hg => (b.groups g hg).trans (a.groups g hg)
  wave := by have h1 := a.wave; have h2 := b.wave; rw [h1] at h2; exact h2
  regs := by
    have h1 := a.regs; have h2 := b.regs
    unfold State.sameGroupRegs at *
    rw [h1] at h2; exact h2
  rest := fun x => by
    have h1 := a.rest x; have h2 := b.rest x
    unfold Thread.sameRest at *
    rw [h1] at h2; exact h2

/-- The active lanes and the quotas depend on what lane writes leave alone. -/
theorem LaneStep.occupied {s t : State} {w : Nat} (h : LaneStep s t w) : t.occupied w = s.occupied w := by
  unfold State.occupied; rw [h.wave]

theorem logUndo_step (s : State) (w t n k : Nat) : LaneStep s (s.logUndo w t n k) w := by
  unfold State.logUndo
  split
  · exact LaneStep.refl s w
  · refine ⟨rfl, fun x hx => ?_, fun _ _ => rfl, ?_, rfl, fun _ => rfl⟩
    · rw [State.setWave_wave, if_neg hx]
    · simp

@[simp] theorem logUndo_pend (s : State) (w t n k : Nat) : ((s.logUndo w t n k).wave w).pend = (s.wave w).pend := by
  unfold State.logUndo; split <;> simp

@[simp] theorem logUndo_group (s : State) (w t n k g : Nat) : (s.logUndo w t n k).group g = s.group g := by
  unfold State.logUndo; split <;> rfl

@[simp] theorem logUndo_thread (s : State) (w t n k g x : Nat) : (s.logUndo w t n k).thread g x = s.thread g x := by
  unfold State.thread; simp

theorem setWave_step (s : State) (w : Nat) (v : Wave)
    (h : v = { s.wave w with pend := v.pend, spec := v.spec }) : LaneStep s (s.setWave w v) w := by
  refine ⟨rfl, fun x hx => ?_, fun _ _ => rfl, ?_, rfl, fun _ => rfl⟩
  · rw [State.setWave_wave, if_neg hx]
  · simpa using h

theorem setThread_step (s : State) (w t : Nat) (v : Thread) (h : (s.thread (groupOf w) t).sameRest v) :
    LaneStep s (s.setThread (groupOf w) t v) w := by
  refine ⟨rfl, fun _ _ => rfl, fun g hg => State.setThread_group_other s _ t v g hg, rfl, ?_, fun x => ?_⟩
  · unfold State.sameGroupRegs State.setThread; simp
  · rw [State.setThread_thread]
    split
    · rename_i hx; rw [hx.2]; exact h
    · rfl

theorem setShort_step (s : State) (w t : Nat) (o : Slc) (v : Nat) : LaneStep s (s.setShort w t o v) w := by
  unfold State.setShort
  refine ((logUndo_step s w t o.start o.width).trans (setWave_step _ w _ rfl)).trans (setThread_step _ w t _ ?_)
  rfl

/-- A short-class write in program order (R195, R198). -/
theorem setShort_progNib (s : State) (w t : Nat) (o : Slc) (v x n : Nat) :
    (s.setShort w t o v).progNib w x n
      = if x = t ∧ o.start ≤ n ∧ n < o.start + o.width then BitVec.ofNat 4 (v / 16 ^ (n - o.start) % 16)
        else s.progNib w x n := by
  unfold State.progNib State.setShort
  simp only [State.setThread_wave_frame, State.setWave_wave_same, pendingCells_claim, logUndo_pend, State.setThread_thread, true_and]
  by_cases h : x = t ∧ o.start ≤ n ∧ n < o.start + o.width
  · obtain ⟨rfl, h1, h2⟩ := h
    simp [h1, h2, Thread.write, putSlices_get]
  · rw [if_neg h, if_neg h]
    by_cases hx : x = t
    · subst hx
      have : ¬(o.start ≤ n ∧ n < o.start + o.width) := fun hh => h ⟨rfl, hh⟩
      simp [Thread.write, putSlices_get, this, State.thread]
    · simp [hx, State.thread]

theorem setShort_progPrd (s : State) (w t : Nat) (o : Slc) (v x p : Nat) :
    (s.setShort w t o v).progPrd w x p = s.progPrd w x p := by
  unfold State.progPrd State.setShort
  simp only [State.setThread_wave_frame, State.setWave_wave_same, pendingPrds_claimCells, logUndo_pend, State.setThread_thread]
  by_cases hx : x = t
  · subst hx; simp [Thread.write, State.thread]
  · simp [hx, State.thread]

theorem setPrd_step (s : State) (w t p : Nat) (v : Bool) : LaneStep s (s.setPrd w t p v) w := by
  unfold State.setPrd
  split
  · exact LaneStep.refl s w
  · refine (setWave_step s w _ rfl).trans (setThread_step _ w t _ ?_)
    rfl

/-- A short-class write of a predicate in program order; p0 stays true (R189). -/
theorem setPrd_progPrd (s : State) (w t p : Nat) (v : Bool) (x q : Nat) :
    (s.setPrd w t p v).progPrd w x q = if q = 0 then true else if x = t ∧ q = p then v else s.progPrd w x q := by
  by_cases hq : q = 0
  · simp [State.progPrd, hq]
  · rw [if_neg hq]
    unfold State.setPrd
    by_cases hp : p = 0
    · subst hp; simp [hq]
    · rw [if_neg hp]
      unfold State.progPrd
      simp only [hq, if_false, State.setThread_wave_frame, State.setWave_wave_same, pendingPrds_claim, State.setThread_thread]
      by_cases h : x = t ∧ q = p
      · obtain ⟨rfl, rfl⟩ := h; simp
      · rw [if_neg h, if_neg h]
        by_cases hx : x = t
        · subst hx
          have : q ≠ p := fun hh => h ⟨rfl, hh⟩
          simp [State.thread, tabGet_tabPut_other _ _ _ _ _ this]
        · simp [hx, State.thread]

theorem setPrd_progNib (s : State) (w t p : Nat) (v : Bool) (x n : Nat) :
    (s.setPrd w t p v).progNib w x n = s.progNib w x n := by
  unfold State.setPrd
  split
  · rfl
  · unfold State.progNib
    simp only [State.setThread_wave_frame, State.setWave_wave_same, pendingCells_claimPrd, State.setThread_thread]
    by_cases hx : x = t
    · subst hx; simp [State.thread]
    · simp [hx, State.thread]

/-! ### Results of all active lanes -/

/-- Slices in program order that hold the digits of a number make that number. -/
theorem progSlices_eq (s : State) (w t n v k : Nat)
    (h : ∀ i, i < k → s.progNib w t (n + i) = BitVec.ofNat 4 (v / 16 ^ i % 16)) : s.progSlices w t n k = v % 16 ^ k := by
  induction k generalizing n v with
  | zero => simp [State.progSlices, Nat.mod_one]
  | succ k ih =>
    have h0 : s.progNib w t n = BitVec.ofNat 4 (v % 16) := by simpa using h 0 (by omega)
    have hr := ih (n + 1) (v / 16) (fun i hi => by
      have := h (i + 1) (by omega)
      rw [show n + 1 + i = n + (i + 1) by omega, this, Nat.div_div_eq_div_mul, pow_succ, Nat.mul_comm])
    rw [State.progSlices, hr, h0]
    have e : v % 16 ^ (k + 1) = v % 16 + 16 * (v / 16 % 16 ^ k) := by
      rw [pow_succ, Nat.mul_comm (16 ^ k) 16, Nat.mod_mul]
    rw [e, BitVec.toNat_ofNat, Nat.mod_mod]

theorem putShort_step (s : State) (w : Nat) (act : List (Nat × Nat)) (f : Nat → Nat → LaneOut) :
    LaneStep s (s.putShort w act f) w := by
  unfold State.putShort
  induction act generalizing s with
  | nil => exact LaneStep.refl s w
  | cons e rest ih =>
    rw [List.foldl_cons]
    refine LaneStep.trans ?_ (ih _)
    generalize f e.1 e.2 = outs
    clear ih
    induction outs generalizing s with
    | nil => exact LaneStep.refl s w
    | cons o more ih => rw [List.foldl_cons]; exact (setShort_step s w e.2 o.1 o.2).trans (ih _)

theorem putShort_progPrd (s : State) (w : Nat) (act : List (Nat × Nat)) (f : Nat → Nat → LaneOut) (x p : Nat) :
    (s.putShort w act f).progPrd w x p = s.progPrd w x p := by
  unfold State.putShort
  induction act generalizing s with
  | nil => rfl
  | cons e rest ih =>
    rw [List.foldl_cons, ih]
    generalize f e.1 e.2 = outs
    clear ih
    induction outs generalizing s with
    | nil => rfl
    | cons o more ih => rw [List.foldl_cons, ih, setShort_progPrd]

/-- Short-class results of one operand in program order. -/
theorem putShort_progNib (s : State) (w : Nat) (act : List (Nat × Nat)) (d : Slc) (v : Nat → Nat → Nat) (x n : Nat)
    (hu : ∀ l l', (l, x) ∈ act → (l', x) ∈ act → v l x = v l' x) :
    (s.putShort w act (fun l t => [(d, v l t)])).progNib w x n = (match act.find? (fun e => e.2 == x) with
      | none => s.progNib w x n
      | some e => if d.start ≤ n ∧ n < d.start + d.width then BitVec.ofNat 4 (v e.1 x / 16 ^ (n - d.start) % 16)
        else s.progNib w x n) := by
  unfold State.putShort
  induction act generalizing s with
  | nil => rfl
  | cons e rest ih =>
    rw [List.foldl_cons, ih _ (fun l l' h h' => hu l l' (List.mem_cons_of_mem _ h) (List.mem_cons_of_mem _ h'))]
    simp only [List.foldl_cons, List.foldl_nil, setShort_progNib, List.find?_cons]
    by_cases hx : e.2 = x
    · have hb : (e.2 == x) = true := by simpa using hx
      rw [hb]
      obtain ⟨l, y⟩ := e
      simp only at hx; subst hx
      cases hf : rest.find? (fun e => e.2 == y) with
      | none => simp
      | some e' =>
        have hm := List.mem_of_find?_eq_some hf
        have he : e'.2 = y := by simpa using List.find?_some hf
        obtain ⟨l', y'⟩ := e'
        simp only at he; subst he
        have := hu l' l (List.mem_cons_of_mem _ hm) (List.mem_cons_self ..)
        simp only [this, true_and]
        split <;> rfl
    · have hb : (e.2 == x) = false := by simpa using hx
      rw [hb]
      have : ¬x = e.2 := fun h => hx h.symm
      simp [this]

/-- The long-class result of one operand, cell by cell. -/
theorem find_cellsOf (t n v k x j : Nat) :
    (cellsOf t n v k).find? (fun c => c.1 == x && c.2.1 == j)
      = if t = x ∧ n ≤ j ∧ j < n + k then some (x, j, BitVec.ofNat 4 (v / 16 ^ (j - n) % 16)) else none := by
  induction k generalizing n v with
  | zero => simp [cellsOf]
  | succ k ih =>
    rw [cellsOf, List.find?_cons, ih]
    by_cases ht : t = x
    · subst ht
      by_cases hj : n = j
      · subst hj; simp
      · have : (n == j) = false := by simpa using hj
        simp only [beq_self_eq_true, this, Bool.and_false, true_and]
        by_cases h : n + 1 ≤ j ∧ j < n + 1 + k
        · obtain ⟨d, rfl⟩ : ∃ d, j = n + 1 + d := ⟨j - (n + 1), by omega⟩
          rw [if_pos h, if_pos (by omega), show n + 1 + d - (n + 1) = d by omega, show n + 1 + d - n = d + 1 by omega,
            pow_succ, Nat.mul_comm, Nat.div_div_eq_div_mul]
        · rw [if_neg h, if_neg (by omega)]
    · have : (t == x) = false := by simpa using ht
      simp [ht, this]

theorem find_laneCells (act : List (Nat × Nat)) (d : Slc) (v : Nat → Nat → Nat) (x j : Nat) :
    (laneCells act (fun l t => [(d, v l t)])).find? (fun c => c.1 == x && c.2.1 == j)
      = match act.find? (fun e => e.2 == x) with
        | none => none
        | some e => if d.start ≤ j ∧ j < d.start + d.width
          then some (x, j, BitVec.ofNat 4 (v e.1 x / 16 ^ (j - d.start) % 16)) else none := by
  induction act with
  | nil => rfl
  | cons e rest ih =>
    simp only [laneCells, List.flatMap_cons, List.flatMap_nil, List.append_nil, List.find?_append, find_cellsOf,
      List.find?_cons] at ih ⊢
    rw [ih]
    by_cases hx : e.2 = x
    · have hb : (e.2 == x) = true := by simpa using hx
      rw [hb]
      simp only [hx, true_and]
      by_cases h : d.start ≤ j ∧ j < d.start + d.width
      · simp [h]
      · simp only [h, if_false, Option.none_or]
        split <;> rfl
    · have hb : (e.2 == x) = false := by simpa using hx
      rw [hb]; simp [hx]

/-! ### The gates of a per-lane word -/

theorem filterMap_none {α β : Type} (l : List α) (f : α → Option β) (h : ∀ e ∈ l, f e = none) : l.filterMap f = [] := by
  induction l with
  | nil => rfl
  | cons e rest ih =>
    rw [List.filterMap_cons, h e (List.mem_cons_self ..)]
    exact ih fun x hx => h x (List.mem_cons_of_mem _ hx)

/-- A word whose operands are in order reaches its body (R185, R234, R388). -/
theorem issueLanes_ok (s : State) (w : Nat) (x : LaneWord) (body : List (Nat × Nat) → State)
    (h : s.lanesOk w x.g x.reads x.writes) (hl : x.legal = true) :
    s.issueLanes w x body = body (s.activeLanes w x.g) := by
  obtain ⟨-, hfile, hquota, hpoison, hspec⟩ := h
  unfold State.issueLanes State.issueQuota
  have h1 : (x.reads ++ x.writes).all slcInFile = true := by
    rw [List.all_eq_true]; intro o ho; simpa [slcInFile] using hfile o ho
  have h2 : s.overQuota w (s.activeLanes w x.g) (x.reads ++ x.writes) = false := by
    unfold State.overQuota
    rw [List.any_eq_false]
    intro e he
    rw [Bool.not_eq_true, List.any_eq_false]
    intro o ho
    simpa [slcInQuota] using hquota e he o ho
  have h3 : s.poisonLanes w (s.activeLanes w x.g) x.reads = [] := by
    unfold State.poisonLanes
    apply filterMap_none
    intro e he
    rw [hpoison e he]
  simp [hl, h1, h2, h3, hspec]

/-- What passing a word of n positions changes. -/
theorem finishN_frame (s t : State) (w n : Nat) (mark : Bool) (h : LaneStep s t w) :
    s.sameMachine (t.finishN w mark n) ∧ s.sameOthers (t.finishN w mark n) w ∧ (s.wave w).passed ((t.finishN w mark n).wave w) n
      ∧ ((t.finishN w mark n).wave w).cc = (s.wave w).cc ∧ s.sameGroupRegs (t.finishN w mark n) (groupOf w)
      ∧ ∀ x, (s.thread (groupOf w) x).sameRest ((t.finishN w mark n).thread (groupOf w) x) := by
  have hm := h.machine
  have hw := h.wave
  have e1 : (t.finishN w mark n).wave w = { t.wave w with
      word := (t.wave w).word + n, retry := none, held := none, park := ((t.finishN w mark n).wave w).park
      lastPark := ((t.finishN w mark n).wave w).lastPark } := by
    simp [State.finishN, State.bumpFree, State.wave, State.setWave]
  refine ⟨⟨?_, fun a => ?_⟩, ⟨fun x hx => ?_, fun g hg => h.groups g hg⟩, ?_, ?_, h.regs, h.rest⟩
  · unfold State.finishN State.bumpFree State.setWave
    rw [hm]
  · rw [show (t.finishN w mark n).store = t.store from rfl, hm]; rfl
  · have : (t.finishN w mark n).wave x = t.wave x := by
      unfold State.finishN State.bumpFree
      exact (State.setWave_wave t w _ x).trans (if_neg hx)
    rw [this, h.waves x hx]
  · unfold Wave.passed; rw [e1, hw]
  · rw [e1, hw]

@[simp] theorem finishN_progNib (s : State) (w n : Nat) (mark : Bool) (x i : Nat) :
    (s.finishN w mark n).progNib w x i = s.progNib w x i := by
  simp [State.progNib, State.finishN, State.bumpFree, State.wave, State.setWave, State.thread, State.group]

@[simp] theorem finishN_progPrd (s : State) (w n : Nat) (mark : Bool) (x i : Nat) :
    (s.finishN w mark n).progPrd w x i = s.progPrd w x i := by
  simp [State.progPrd, State.finishN, State.bumpFree, State.wave, State.setWave, State.thread, State.group]

/-- The first active lane of a thread. -/
theorem find_thread (act : List (Nat × Nat)) (l t : Nat) (h : (l, t) ∈ act) :
    ∃ l', act.find? (fun e => e.2 == t) = some (l', t) ∧ (l', t) ∈ act := by
  cases hf : act.find? (fun e => e.2 == t) with
  | none =>
    have := List.find?_eq_none.mp hf (l, t) h
    simp at this
  | some e =>
    have he : e.2 = t := by simpa using List.find?_some hf
    have hm := List.mem_of_find?_eq_some hf
    obtain ⟨l', t'⟩ := e
    simp only at he; subst he
    exact ⟨l', rfl, hm⟩

theorem find_thread_none (act : List (Nat × Nat)) (t : Nat) (h : ∀ l, (l, t) ∉ act) :
    act.find? (fun e => e.2 == t) = none := by
  rw [List.find?_eq_none]
  intro e he hb
  obtain ⟨l, t'⟩ := e
  have : t' = t := by simpa using hb
  exact h l (this ▸ he)

/-- The ONE lemma of short-class words with one slice result: they execute, every active thread gets its value, and the frame
holds. -/
theorem shortWord_gives (s : State) (w : Nat) (x : LaneWord) (d : Slc) (v : Nat → Nat → Nat → Nat)
    (hl : x.legal = true) (hw : x.writes = [d]) (h : s.lanesOk w x.g x.reads [d])
    (hu : ∀ l l' t, (l, t) ∈ s.activeLanes w x.g → (l', t) ∈ s.activeLanes w x.g → v w l t = v w l' t) :
    Answer.gives (s.shortWord x (fun w l t => [(d, v w l t)])) (fun t =>
      s.laneFrame t w x.g d ∧ ∀ l i, (l, i) ∈ s.activeLanes w x.g → t.progOpnd w i d = v w l i % 16 ^ d.width) := by
  have hcur := h.1
  unfold State.shortWord State.onWave State.onAgent
  rw [hcur]
  refine ⟨_, rfl, ?_⟩
  dsimp only
  rw [issueLanes_ok s w x _ (hw ▸ h) hl]
  have hs := putShort_step s w (s.activeLanes w x.g) (fun l t => [(d, v w l t)])
  have hn := fun i n => putShort_progNib s w (s.activeLanes w x.g) d (v w) i n (fun l l' a b => hu l l' i a b)
  obtain ⟨f1, f2, f3, f4, f5, f6⟩ := finishN_frame s _ w 1 x.mark hs
  refine ⟨⟨⟨f1, f2, f3⟩, f4, f5, ⟨fun i n hi => ?_, fun i p => ?_⟩, f6⟩, fun l i hi => ?_⟩
  · rw [State.finish, finishN_progNib, hn]
    by_cases ha : ∃ l, (l, i) ∈ s.activeLanes w x.g
    · obtain ⟨l, hl'⟩ := ha
      obtain ⟨l', hf, -⟩ := find_thread _ l i hl'
      rw [hf]
      simp only
      rw [if_neg fun hh => hi ⟨⟨l, hl'⟩, hh⟩]
    · rw [find_thread_none _ i fun l hl' => ha ⟨l, hl'⟩]
  · rw [State.finish, finishN_progPrd, putShort_progPrd]
  · unfold State.progOpnd
    apply progSlices_eq
    intro j hj
    rw [State.finish, finishN_progNib, hn]
    obtain ⟨l', hf, hm⟩ := find_thread _ l i hi
    rw [hf]
    simp only
    rw [if_pos ⟨by omega, by omega⟩, hu l' l i hm hi, show d.start + j - d.start = j by omega]

theorem addLong_step (s : State) (w : Nat) (r : LongRes) : LaneStep s (s.addLong w r) w := by
  unfold State.addLong
  split
  · exact LaneStep.refl s w
  · exact setWave_step s w _ rfl

theorem addLong_progNib (s : State) (w : Nat) (r : LongRes) (x n : Nat) :
    (s.addLong w r).progNib w x n = match r.cells.find? (fun c => c.1 == x && c.2.1 == n) with
      | none => s.progNib w x n
      | some c => c.2.2 := by
  unfold State.addLong
  split
  · rename_i h; rw [h.1]; rfl
  · unfold State.progNib
    rw [State.setWave_wave_same, State.setWave_thread_frame', pendingCells_append]
    split <;> simp

theorem addLong_progPrd (s : State) (w : Nat) (r : LongRes) (x p : Nat) (h : r.prds = []) :
    (s.addLong w r).progPrd w x p = s.progPrd w x p := by
  unfold State.addLong
  split
  · rfl
  · unfold State.progPrd
    rw [State.setWave_wave_same, State.setWave_thread_frame', pendingPrds_append, h]
    simp

theorem foldl_step {α : Type} (w : Nat) (l : List α) (f : State → α → State) (hf : ∀ s a, LaneStep s (f s a) w) (s : State) :
    LaneStep s (l.foldl f s) w := by
  induction l generalizing s with
  | nil => exact LaneStep.refl s w
  | cons a rest ih => exact (hf s a).trans (ih _)

theorem foldl_same {α β : Type} (l : List α) (f : State → α → State) (q : State → β) (hf : ∀ s a, q (f s a) = q s) (s : State) :
    q (l.foldl f s) = q s := by
  induction l generalizing s with
  | nil => rfl
  | cons a rest ih => rw [List.foldl_cons, ih, hf]

theorem logUndo_progNib (s : State) (w t n k x i : Nat) : (s.logUndo w t n k).progNib w x i = s.progNib w x i := by
  simp [State.progNib]

theorem logUndo_progPrd (s : State) (w t n k x i : Nat) : (s.logUndo w t n k).progPrd w x i = s.progPrd w x i := by
  simp [State.progPrd]

/-- The undo log of the writes of a word: only the wave's own log changes. -/
def undoAll (s : State) (w : Nat) (act : List (Nat × Nat)) (writes : List Slc) : State :=
  act.foldl (fun t e => writes.foldl (fun u o => u.logUndo w e.2 o.start o.width) t) s

theorem undoAll_step (s : State) (w : Nat) (act : List (Nat × Nat)) (writes : List Slc) :
    LaneStep s (undoAll s w act writes) w :=
  foldl_step w act _ (fun _ _ => foldl_step w writes _ (fun _ _ => logUndo_step _ _ _ _ _) _) s

theorem undoAll_progNib (s : State) (w : Nat) (act : List (Nat × Nat)) (writes : List Slc) (x i : Nat) :
    (undoAll s w act writes).progNib w x i = s.progNib w x i :=
  foldl_same act _ (fun u => u.progNib w x i)
    (fun _ _ => foldl_same writes _ (fun u => u.progNib w x i) (fun _ _ => logUndo_progNib _ _ _ _ _ _ _) _) s

theorem undoAll_progPrd (s : State) (w : Nat) (act : List (Nat × Nat)) (writes : List Slc) (x i : Nat) :
    (undoAll s w act writes).progPrd w x i = s.progPrd w x i :=
  foldl_same act _ (fun u => u.progPrd w x i)
    (fun _ _ => foldl_same writes _ (fun u => u.progPrd w x i) (fun _ _ => logUndo_progPrd _ _ _ _ _ _ _) _) s

/-- The ONE lemma of long-class words with one slice result. -/
theorem longWord_gives (s : State) (w : Nat) (x : LaneWord) (d : Slc) (v : Nat → Nat → Nat → Nat)
    (hl : x.legal = true) (hw : x.writes = [d]) (h : s.lanesOk w x.g x.reads [d])
    (hu : ∀ l l' t, (l, t) ∈ s.activeLanes w x.g → (l', t) ∈ s.activeLanes w x.g → v w l t = v w l' t) :
    Answer.gives (s.longWord x (fun w l t => [(d, v w l t)])) (fun t =>
      s.laneFrame t w x.g d ∧ ∀ l i, (l, i) ∈ s.activeLanes w x.g → t.progOpnd w i d = v w l i % 16 ^ d.width) := by
  have hcur := h.1
  unfold State.longWord State.onWave State.onAgent
  rw [hcur]
  refine ⟨_, rfl, ?_⟩
  dsimp only
  rw [issueLanes_ok s w x _ (hw ▸ h) hl, State.putLong, show
    (s.activeLanes w x.g).foldl (fun t e => x.writes.foldl (fun u o => u.logUndo w e.2 o.start o.width) t) s
      = undoAll s w (s.activeLanes w x.g) x.writes from rfl]
  have hs := (undoAll_step s w (s.activeLanes w x.g) x.writes).trans (addLong_step _ w
    { cells := laneCells (s.activeLanes w x.g) (fun l t => [(d, v w l t)]), prds := [] })
  have hn := fun i n => addLong_progNib (undoAll s w (s.activeLanes w x.g) x.writes) w
    { cells := laneCells (s.activeLanes w x.g) (fun l t => [(d, v w l t)]), prds := [] } i n
  simp only [find_laneCells, undoAll_progNib] at hn
  obtain ⟨f1, f2, f3, f4, f5, f6⟩ := finishN_frame s _ w 1 x.mark hs
  refine ⟨⟨⟨f1, f2, f3⟩, f4, f5, ⟨fun i n hi => ?_, fun i p => ?_⟩, f6⟩, fun l i hi => ?_⟩
  · rw [State.finish, finishN_progNib, hn]
    by_cases ha : ∃ l, (l, i) ∈ s.activeLanes w x.g
    · obtain ⟨l, hl'⟩ := ha
      obtain ⟨l', hf, -⟩ := find_thread _ l i hl'
      rw [hf]
      simp only
      rw [if_neg fun hh => hi ⟨⟨l, hl'⟩, hh⟩]
    · rw [find_thread_none _ i fun l hl' => ha ⟨l, hl'⟩]
  · rw [State.finish, finishN_progPrd, addLong_progPrd _ _ _ _ _ rfl, undoAll_progPrd]
  · unfold State.progOpnd
    apply progSlices_eq
    intro j hj
    rw [State.finish, finishN_progNib, hn]
    obtain ⟨l', hf, hm⟩ := find_thread _ l i hi
    rw [hf]
    simp only
    rw [if_pos ⟨by omega, by omega⟩]
    simp only
    rw [hu l' l i hm hi, show d.start + j - d.start = j by omega]

/-- The ONE lemma of long-class words with one slice result that depends on the lane. -/
theorem longWord_cross (s : State) (w : Nat) (x : LaneWord) (d : Slc) (v : Nat → Nat → Nat → Nat)
    (hl : x.legal = true) (hw : x.writes = [d]) (h : s.lanesOk w x.g x.reads [d]) :
    Answer.gives (s.longWord x (fun w l t => [(d, v w l t)])) (fun t =>
      s.laneFrame t w x.g d ∧ ∀ i, s.threadActive w x.g i →
        ∃ l, (l, i) ∈ s.activeLanes w x.g ∧ t.progOpnd w i d = v w l i % 16 ^ d.width) := by
  have hcur := h.1
  unfold State.longWord State.onWave State.onAgent
  rw [hcur]
  refine ⟨_, rfl, ?_⟩
  dsimp only
  rw [issueLanes_ok s w x _ (hw ▸ h) hl, State.putLong, show
    (s.activeLanes w x.g).foldl (fun t e => x.writes.foldl (fun u o => u.logUndo w e.2 o.start o.width) t) s
      = undoAll s w (s.activeLanes w x.g) x.writes from rfl]
  have hs := (undoAll_step s w (s.activeLanes w x.g) x.writes).trans (addLong_step _ w
    { cells := laneCells (s.activeLanes w x.g) (fun l t => [(d, v w l t)]), prds := [] })
  have hn := fun i n => addLong_progNib (undoAll s w (s.activeLanes w x.g) x.writes) w
    { cells := laneCells (s.activeLanes w x.g) (fun l t => [(d, v w l t)]), prds := [] } i n
  simp only [find_laneCells, undoAll_progNib] at hn
  obtain ⟨f1, f2, f3, f4, f5, f6⟩ := finishN_frame s _ w 1 x.mark hs
  refine ⟨⟨⟨f1, f2, f3⟩, f4, f5, ⟨fun i n hi => ?_, fun i p => ?_⟩, f6⟩, fun i ⟨l, hi⟩ => ?_⟩
  · rw [State.finish, finishN_progNib, hn]
    by_cases ha : ∃ l, (l, i) ∈ s.activeLanes w x.g
    · obtain ⟨l, hl'⟩ := ha
      obtain ⟨l', hf, -⟩ := find_thread _ l i hl'
      rw [hf]
      simp only
      rw [if_neg fun hh => hi ⟨⟨l, hl'⟩, hh⟩]
    · rw [find_thread_none _ i fun l hl' => ha ⟨l, hl'⟩]
  · rw [State.finish, finishN_progPrd, addLong_progPrd _ _ _ _ _ rfl, undoAll_progPrd]
  · obtain ⟨l', hf, hm⟩ := find_thread _ l i hi
    refine ⟨l', hm, ?_⟩
    unfold State.progOpnd
    apply progSlices_eq
    intro j hj
    rw [State.finish, finishN_progNib, hn, hf]
    simp only
    rw [if_pos ⟨by omega, by omega⟩]
    simp only
    rw [show d.start + j - d.start = j by omega]

/-- Predicates of all active lanes written. -/
theorem prdFold_step (s : State) (w d : Nat) (act : List (Nat × Nat)) (b : Nat → Nat → Bool) :
    LaneStep s (act.foldl (fun t e => t.setPrd w e.2 d (b e.1 e.2)) s) w :=
  foldl_step w act _ (fun _ _ => setPrd_step _ _ _ _ _) s

theorem prdFold_progNib (s : State) (w d : Nat) (act : List (Nat × Nat)) (b : Nat → Nat → Bool) (x n : Nat) :
    (act.foldl (fun t e => t.setPrd w e.2 d (b e.1 e.2)) s).progNib w x n = s.progNib w x n :=
  foldl_same act _ (fun u => u.progNib w x n) (fun _ _ => setPrd_progNib _ _ _ _ _ _ _) s

theorem prdFold_progPrd (s : State) (w d : Nat) (act : List (Nat × Nat)) (b : Nat → Nat → Bool) (x p : Nat)
    (hu : ∀ l l', (l, x) ∈ act → (l', x) ∈ act → b l x = b l' x) :
    (act.foldl (fun t e => t.setPrd w e.2 d (b e.1 e.2)) s).progPrd w x p = (match act.find? (fun e => e.2 == x) with
      | none => s.progPrd w x p
      | some e => if p = 0 then true else if p = d then b e.1 x else s.progPrd w x p) := by
  induction act generalizing s with
  | nil => rfl
  | cons e rest ih =>
    rw [List.foldl_cons, ih _ (fun l l' h h' => hu l l' (List.mem_cons_of_mem _ h) (List.mem_cons_of_mem _ h'))]
    simp only [setPrd_progPrd, List.find?_cons]
    by_cases hx : e.2 = x
    · have hb : (e.2 == x) = true := by simpa using hx
      rw [hb]
      obtain ⟨l, y⟩ := e
      simp only at hx; subst hx
      cases hf : rest.find? (fun e => e.2 == y) with
      | none => simp
      | some e' =>
        have hm := List.mem_of_find?_eq_some hf
        have he : e'.2 = y := by simpa using List.find?_some hf
        obtain ⟨l', y'⟩ := e'
        simp only at he; subst he
        have := hu l' l (List.mem_cons_of_mem _ hm) (List.mem_cons_self ..)
        simp only [this, true_and]
        by_cases h0 : p = 0
        · simp [h0]
        · by_cases hd : p = d <;> simp [h0, hd]
    · have hb : (e.2 == x) = false := by simpa using hx
      rw [hb]
      have : ¬x = e.2 := fun h => hx h.symm
      by_cases h0 : p = 0
      · subst h0; simp [State.progPrd]
      · simp [this, h0]

/-- The ONE lemma of per-lane words that write a predicate (R267). -/
theorem prdWord_gives (s : State) (w : Nat) (x : LaneWord) (d : Nat) (b : Nat → Nat → Nat → Bool)
    (hl : x.legal = true) (hw : x.writes = []) (h : s.lanesOk w x.g x.reads [])
    (hu : ∀ l l' t, (l, t) ∈ s.activeLanes w x.g → (l', t) ∈ s.activeLanes w x.g → b w l t = b w l' t) :
    Answer.gives (s.prdWord x d b) (fun t =>
      s.prdFrame t w x.g d ∧ ∀ l i, (l, i) ∈ s.activeLanes w x.g → t.progPrd w i d = if d = 0 then true else b w l i) := by
  have hcur := h.1
  unfold State.prdWord State.onWave State.onAgent
  rw [hcur]
  refine ⟨_, rfl, ?_⟩
  dsimp only
  rw [issueLanes_ok s w x _ (hw ▸ h) hl]
  have hs := prdFold_step s w d (s.activeLanes w x.g) (b w)
  have hn := fun i n => prdFold_progPrd s w d (s.activeLanes w x.g) (b w) i n (fun l l' a b => hu l l' i a b)
  generalize hu0 : (s.activeLanes w x.g).foldl (fun t e => t.setPrd w e.2 d (b w e.1 e.2)) s = u at hs hn
  have hnib : ∀ x n, u.progNib w x n = s.progNib w x n := fun i n => by rw [← hu0]; exact prdFold_progNib ..
  obtain ⟨f1, f2, f3, f4, f5, f6⟩ := finishN_frame s _ w 1 x.mark hs
  have hc : (u.setMz w d).wave w = { u.wave w with cc := ((u.setMz w d).wave w).cc } := by simp [State.setMz, State.setCc]
  have hmz : ((u.setMz w d).wave w).cc = { (u.wave w).cc with mz := ((u.setMz w d).wave w).cc.mz } := by
    simp [State.setMz, State.setCc]
  have hcc : (u.wave w).cc = (s.wave w).cc := by rw [hs.wave]
  refine ⟨⟨⟨⟨?_, ?_⟩, ⟨fun y hy => ?_, fun g hg => hs.groups g hg⟩, ?_⟩, ?_, hs.regs, ⟨fun i p hi => ?_, fun i n => ?_⟩, hs.rest⟩,
    fun l i hi => ?_⟩
  · have := hs.machine
    simp only [State.finish, State.finishN, State.bumpFree, State.setWave, State.setMz, State.setCc]
    rw [this]
  · intro a
    have := hs.machine
    show u.store.byte a = s.store.byte a
    rw [this]; rfl
  · have : ((u.setMz w d).finish w x.mark).wave y = u.wave y := by
      simp only [State.finish, State.finishN, State.bumpFree, State.setMz, State.setCc]
      refine (State.setWave_wave _ w _ y).trans ((if_neg hy).trans ?_)
      exact (State.setWave_wave _ w _ y).trans (if_neg hy)
    rw [this, hs.waves y hy]
  · have e1 : ((u.setMz w d).finish w x.mark).wave w = { (u.setMz w d).wave w with
        word := ((u.setMz w d).wave w).word + 1, retry := none, held := none, park := (((u.setMz w d).finish w x.mark).wave w).park
        lastPark := (((u.setMz w d).finish w x.mark).wave w).lastPark } := by
      simp [State.finish, State.finishN, State.bumpFree, State.wave, State.setWave]
    unfold Wave.passed
    rw [e1, hc, hs.wave]
  · have e1 : (((u.setMz w d).finish w x.mark).wave w).cc = ((u.setMz w d).wave w).cc := by
      simp [State.finish, State.finishN, State.bumpFree, State.wave, State.setWave]
    rw [e1, hmz, hcc]
  · have e2 : ((u.setMz w d).finish w x.mark).progPrd w i p = u.progPrd w i p := by
      rw [State.finish, finishN_progPrd]
      simp [State.progPrd, State.setMz, State.setCc, State.thread]
    rw [e2, hn]
    by_cases ha : ∃ l, (l, i) ∈ s.activeLanes w x.g
    · obtain ⟨l, hl'⟩ := ha
      obtain ⟨l', hf, -⟩ := find_thread _ l i hl'
      rw [hf]
      have : p ≠ d := fun hh => hi ⟨⟨l, hl'⟩, hh⟩
      by_cases h0 : p = 0
      · subst h0; simp [State.progPrd]
      · simp [this, h0]
    · rw [find_thread_none _ i fun l hl' => ha ⟨l, hl'⟩]
  · have e2 : ((u.setMz w d).finish w x.mark).progNib w i n = u.progNib w i n := by
      rw [State.finish, finishN_progNib]
      simp [State.progNib, State.setMz, State.setCc, State.thread]
    rw [e2, hnib]
  · have e2 : ((u.setMz w d).finish w x.mark).progPrd w i d = u.progPrd w i d := by
      rw [State.finish, finishN_progPrd]
      simp [State.progPrd, State.setMz, State.setCc, State.thread]
    obtain ⟨l', hf, hm⟩ := find_thread _ l i hi
    rw [e2, hn, hf]
    simp only [if_true]
    rw [hu l' l i hm hi]

end Sys2Proof.Machine
end

