-- ==== Sys2Proof/Laws/Predicate.lean ====
section
/-! SUPPORT. What the shared form of predicate words does to the predicate and to MZ (R267). -/

namespace Sys2Proof.Machine

open Sys2Proof

/-- With no outstanding result a predicate reads as its latest writer gave it. -/
theorem readPrd_eq (s : State) (w t p : Nat) (h : pendingPrds (s.wave w).pend t p = []) : s.readPrd w t p = s.progPrd w t p := by
  unfold State.readPrd State.progPrd
  rw [h]; simp [windowValue]

/-- MZ after a predicate word. -/
theorem prdWord_mz (s : State) (w : Nat) (x : LaneWord) (d : Nat) (b : Nat → Nat → Nat → Bool) (t : State)
    (hl : x.legal = true) (hw : x.writes = []) (h : s.lanesOk w x.g x.reads [])
    (ht : s.prdWord x d b = .next t) (hp : ∀ i, pendingPrds (s.wave w).pend i d = []) :
    ((t.wave w).cc.mz = true ↔ d ≠ 0 ∧ ∀ e ∈ s.occupied w, t.progPrd w e.2 d = false) := by
  have hcur := h.1
  unfold State.prdWord State.onWave State.onAgent at ht
  rw [hcur] at ht
  dsimp only at ht
  rw [issueLanes_ok s w x _ (hw ▸ h) hl] at ht
  injection ht with ht
  have hs := prdFold_step s w d (s.activeLanes w x.g) (b w)
  generalize hu0 : (s.activeLanes w x.g).foldl (fun t e => t.setPrd w e.2 d (b w e.1 e.2)) s = u at hs ht
  have hpu : ∀ i, pendingPrds (u.wave w).pend i d = [] := by
    have gen : ∀ (l : List (Nat × Nat)) (s : State), (∀ i, pendingPrds (s.wave w).pend i d = []) →
        ∀ i, pendingPrds ((l.foldl (fun t e => t.setPrd w e.2 d (b w e.1 e.2)) s).wave w).pend i d = [] := by
      intro l
      induction l with
      | nil => intro s h i; exact h i
      | cons e rest ih =>
        intro s h i
        rw [List.foldl_cons]
        apply ih
        intro i
        unfold State.setPrd
        split
        · exact h i
        · have e1 : ∀ v, (((s.setWave w { s.wave w with pend := claimPrd (s.wave w).pend e.2 d }).setThread (groupOf w) e.2 v).wave w).pend = claimPrd (s.wave w).pend e.2 d := by
            intro v; simp [State.setThread, State.setGroup, State.wave, State.setWave]
          rw [e1, pendingPrds_claim]
          split
          · rfl
          · exact h i
    intro i; rw [← hu0]; exact gen _ _ hp i
  have hocc : u.occupied w = s.occupied w := hs.occupied
  subst ht
  have e1 : ((((u.setMz w d).finish w x.mark).wave w).cc).mz = (d != 0 && (u.occupied w).all (fun e => !u.readPrd w e.2 d)) := by
    simp [State.finish, State.finishN, State.bumpFree, State.setWave, State.wave, State.setMz, State.setCc]
  have e2 : ∀ i, ((u.setMz w d).finish w x.mark).progPrd w i d = u.progPrd w i d := by
    intro i
    rw [State.finish, finishN_progPrd]
    simp [State.progPrd, State.setMz, State.setCc, State.thread]
  rw [e1, hocc]
  simp only [e2, Bool.and_eq_true, bne_iff_ne, List.all_eq_true, Bool.not_eq_true']
  constructor
  · rintro ⟨h1, h2⟩; exact ⟨h1, fun e he => by rw [← readPrd_eq _ _ _ _ (hpu _)]; exact h2 e he⟩
  · rintro ⟨h1, h2⟩; exact ⟨h1, fun e he => by rw [readPrd_eq _ _ _ _ (hpu _)]; exact h2 e he⟩

/-- The ONE lemma of predicate words in the terms of the claims. -/
theorem prdWord_result (s : State) (w : Nat) (x : LaneWord) (d : Nat) (b : Nat → Nat → Bool)
    (hl : x.legal = true) (hw : x.writes = []) (h : s.lanesOk w x.g x.reads []) :
    s.prdResult (s.prdWord x d (fun w _ t => b w t)) w x.g d (b w) := by
  obtain ⟨t, e, f, v⟩ := prdWord_gives s w x d (fun w _ t => b w t) hl hw h (fun _ _ _ _ _ => rfl)
  refine ⟨t, e, f, fun i ⟨l, hi⟩ => ?_, fun hp => prdWord_mz s w x d _ t hl hw h e hp⟩
  rw [v l i hi]; by_cases hd : d = 0 <;> simp [hd]

end Sys2Proof.Machine
end

