-- ==== Sys2Proof/Laws/Scalar.lean ====
section
/-! SUPPORT. What the shared scalar form does for a wave and for a sequencer. -/

namespace Sys2Proof.Machine

open Sys2Proof

/-- A register of the selected agent lies below 2^64. -/
theorem sReg_lt (s : State) (r : Nat) : s.sReg r < 2 ^ 64 := by
  unfold State.sReg
  split
  · norm_num
  · exact BitVec.isLt _
  · exact BitVec.isLt _

/-- The registers of the selected agent after one of them and CC are written and the word is passed. -/
theorem agentWrite_frame (s : State) (d v n : Nat) (c : Cc) (mark : Bool) (h : s.cur ≠ .idle) :
    s.scalarFrame (((s.setSReg d v).setAgentCc c).agentFinish mark n) (some d) n
      ∧ (((s.setSReg d v).setAgentCc c).agentFinish mark n).sReg d = v % 2 ^ 64
      ∧ (((s.setSReg d v).setAgentCc c).agentFinish mark n).cc = c := by
  cases hc : s.cur with
  | idle => exact absurd hc h
  | wave w =>
    have hcur : (((s.setSReg d v).setAgentCc c).agentFinish mark n).cur = .wave w := by
      simp [State.setSReg, State.setAgentCc, State.agentFinish, hc, State.setCc, State.finishN, State.bumpFree, State.setWaveS]
    have hw : ∀ x, x ≠ w → (((s.setSReg d v).setAgentCc c).agentFinish mark n).wave x = s.wave x := by
      intro x hx
      simp only [State.setSReg, State.setAgentCc, State.agentFinish, hc, State.setWaveS, State.setGroup_cur, State.setCc,
        State.finishN, State.bumpFree, State.setWave_cur]
      exact (State.setWave_wave _ w _ x).trans ((if_neg hx).trans ((State.setWave_wave _ w _ x).trans (if_neg hx)))
    have hg : ∀ x, x ≠ groupOf w → (((s.setSReg d v).setAgentCc c).agentFinish mark n).group x = s.group x := by
      intro x hx
      simp [State.setSReg, State.setAgentCc, State.agentFinish, hc, State.setWaveS, State.setCc,
        State.finishN, State.bumpFree, State.setWave, State.setGroup, State.group, tabGet_tabPut, hx]
    have hwv : (((s.setSReg d v).setAgentCc c).agentFinish mark n).wave w = { s.wave w with
        cc := c, word := (s.wave w).word + n, retry := none, held := none
        park := ((((s.setSReg d v).setAgentCc c).agentFinish mark n).wave w).park
        lastPark := ((((s.setSReg d v).setAgentCc c).agentFinish mark n).wave w).lastPark } := by
      simp [State.setSReg, State.setAgentCc, State.agentFinish, hc, State.setWaveS, State.setCc,
        State.finishN, State.bumpFree, State.setWave, State.setGroup, State.wave]
    have hgr : (((s.setSReg d v).setAgentCc c).agentFinish mark n).groups = (s.setWaveS w d (BitVec.ofNat 64 v)).groups := by
      simp [State.setSReg, State.setAgentCc, State.agentFinish, hc, State.setCc, State.finishN, State.bumpFree, State.setWave]
    have hgg : ∀ x, (((s.setSReg d v).setAgentCc c).agentFinish mark n).group x = (s.setWaveS w d (BitVec.ofNat 64 v)).group x :=
      fun x => by unfold State.group; rw [hgr]
    have hdt : (((s.setSReg d v).setAgentCc c).agentFinish mark n).dt = s.dt := by
      simp [State.setSReg, State.setAgentCc, State.agentFinish, hc, State.setWaveS, State.setCc, State.finishN, State.bumpFree,
        State.setWave, State.setGroup]
    have hsn : ∀ x, ((((s.setSReg d v).setAgentCc c).agentFinish mark n).wave x).know = (s.wave x).know := fun x => by
      by_cases hx : x = w
      · rw [hx, hwv]
      · rw [hw x hx]
    have hws : ∀ x r, groupOf x = groupOf w →
        (((s.setSReg d v).setAgentCc c).agentFinish mark n).waveS x r = (s.setWaveS w d (BitVec.ofNat 64 v)).waveS x r :=
      fun x r _ => State.waveS_congr (by rw [hdt]; rfl) (hgg _) (by rw [hsn]; rfl) r
    have hG : (s.setWaveS w d (BitVec.ofNat 64 v)).group (groupOf w) = { s.group (groupOf w) with
        s := tabPut (s.group (groupOf w)).s d (BitVec.ofNat 64 v)
        hist := ((s.setWaveS w d (BitVec.ofNat 64 v)).group (groupOf w)).hist } := by
      simp [State.setWaveS, State.setGroup, State.group]
    have hG2 : ((s.setWaveS w d (BitVec.ofNat 64 v)).group (groupOf w)).hist.k = (s.group (groupOf w)).hist.k
        ∧ ((s.setWaveS w d (BitVec.ofNat 64 v)).group (groupOf w)).hist.vw = (s.group (groupOf w)).hist.vw := by
      simp [State.setWaveS, State.setGroup, State.group]
    have hsh : s.sameShared (((s.setSReg d v).setAgentCc c).agentFinish mark n) (groupOf w) (some d) none none := by
      refine ⟨fun r hr => ⟨?_, fun x hx => ?_⟩, fun r _ => ⟨?_, fun x hx => ?_⟩, fun r _ => ⟨?_, fun x hx => ?_⟩⟩
      · unfold State.groupS
        rw [hgg]
        exact (State.setWaveS_groupS s w d _ (groupOf w) r).trans (if_neg fun h => hr (by rw [h.2]))
      · rw [hws x r hx]
        exact State.setWaveS_waveS_other s w d _ x r hx fun h => hr (by rw [h])
      · unfold State.groupK; rw [hgg, hG]
      · exact State.waveK_congr hdt (by rw [hx, hgg, hG]) (by rw [hx, hgg, hG2.1]) (hsn x) r
      · unfold State.groupVw; rw [hgg, hG]
      · exact State.waveVw_congr hdt (by rw [hx, hgg, hG]) (by rw [hx, hgg, hG2.2]) (hsn x) r
    refine ⟨⟨hcur.trans hc.symm, fun r hr => ?_, ?_⟩, ?_, ?_⟩
    · unfold State.sReg
      rw [hcur, hc]
      simp only [(hsh.1 r hr).2 w rfl]
    · rw [hc]
      refine ⟨⟨⟨?_, fun a => ?_⟩, ⟨hw, hg⟩, ?_⟩, ?_, ?_, ?_, hsh⟩
      · simp [State.setSReg, State.setAgentCc, State.agentFinish, hc, State.setWaveS, State.setCc,
          State.finishN, State.bumpFree, State.setWave, State.setGroup]
      · simp [State.setSReg, State.setAgentCc, State.agentFinish, hc, State.setWaveS, State.setCc,
          State.finishN, State.bumpFree, State.setWave, State.setGroup, State.store]
      · unfold Wave.passed; rw [hwv]
      · rw [hwv]
      · rw [hwv]
      · rw [hgg, hG]
    · unfold State.sReg
      rw [hcur]
      simp only [hws w d rfl, State.setWaveS_waveS, BitVec.toNat_ofNat]
    · unfold State.cc; rw [hcur]; dsimp only; rw [hwv]
  | seq k =>
    have hcur : (((s.setSReg d v).setAgentCc c).agentFinish mark n).cur = .seq k := by
      simp [State.setSReg, State.setAgentCc, State.agentFinish, hc, State.seqFinish, State.bumpFree, State.setSeq, State.setCluster]
    have hk : (((s.setSReg d v).setAgentCc c).agentFinish mark n).cluster k = { s.cluster k with seq := { s.seqOf k with
        s := tabPut (s.seqOf k).s d (BitVec.ofNat 64 v), cc := c, word := (s.seqOf k).word + n, park := .run } } := by
      simp [State.setSReg, State.setAgentCc, State.agentFinish, hc, State.seqFinish, State.bumpFree, State.setSeq, State.setCluster,
        State.cluster, State.seqOf]
    have hq : (((s.setSReg d v).setAgentCc c).agentFinish mark n).seqOf k = { s.seqOf k with
        s := tabPut (s.seqOf k).s d (BitVec.ofNat 64 v), cc := c, word := (s.seqOf k).word + n, park := .run } := by
      unfold State.seqOf at hk ⊢; rw [hk]
    refine ⟨⟨hcur.trans hc.symm, fun r hr => ?_, ?_⟩, ?_, ?_⟩
    · unfold State.sReg
      rw [hcur, hc]
      simp only [hq, tabGet_tabPut]
      rw [if_neg fun h => hr (by rw [h])]
    · rw [hc]
      refine ⟨?_, fun a => ?_, fun j hj => ?_, ?_, ?_⟩
      · simp [State.setSReg, State.setAgentCc, State.agentFinish, hc, State.seqFinish, State.bumpFree, State.setSeq, State.setCluster]
      · simp [State.setSReg, State.setAgentCc, State.agentFinish, hc, State.seqFinish, State.bumpFree, State.setSeq, State.setCluster,
          State.store]
      · simp [State.setSReg, State.setAgentCc, State.agentFinish, hc, State.seqFinish, State.bumpFree, State.setSeq, State.setCluster,
          State.cluster, tabGet_tabPut, hj]
      · rw [hk, hq]
      · rw [hq]
    · unfold State.sReg
      rw [hcur]
      simp only [hq, tabGet_tabPut, if_true, BitVec.toNat_ofNat]
    · unfold State.cc; rw [hcur]; simp only [hq]

/-- CC of the selected agent written and the word passed. -/
theorem agentCc_frame (s : State) (n : Nat) (c : Cc) (mark : Bool) (h : s.cur ≠ .idle) :
    s.scalarFrame ((s.setAgentCc c).agentFinish mark n) none n ∧ ((s.setAgentCc c).agentFinish mark n).cc = c := by
  cases hc : s.cur with
  | idle => exact absurd hc h
  | wave w =>
    have hcur : ((s.setAgentCc c).agentFinish mark n).cur = .wave w := by
      simp [State.setAgentCc, State.agentFinish, hc, State.setCc, State.finishN, State.bumpFree]
    have hw : ∀ x, x ≠ w → ((s.setAgentCc c).agentFinish mark n).wave x = s.wave x := by
      intro x hx
      simp only [State.setAgentCc, State.agentFinish, hc, State.setCc, State.finishN, State.bumpFree, State.setWave_cur]
      exact (State.setWave_wave _ w _ x).trans ((if_neg hx).trans ((State.setWave_wave _ w _ x).trans (if_neg hx)))
    have hwv : ((s.setAgentCc c).agentFinish mark n).wave w = { s.wave w with
        cc := c, word := (s.wave w).word + n, retry := none, held := none, park := (((s.setAgentCc c).agentFinish mark n).wave w).park
        lastPark := (((s.setAgentCc c).agentFinish mark n).wave w).lastPark } := by
      simp [State.setAgentCc, State.agentFinish, hc, State.setCc, State.finishN, State.bumpFree, State.setWave, State.wave]
    have hgr : ((s.setAgentCc c).agentFinish mark n).groups = s.groups := by
      simp [State.setAgentCc, State.agentFinish, hc, State.setCc, State.finishN, State.bumpFree, State.setWave]
    have hgg : ∀ g, ((s.setAgentCc c).agentFinish mark n).group g = s.group g := fun g => by unfold State.group; rw [hgr]
    have hdt : ((s.setAgentCc c).agentFinish mark n).dt = s.dt := by
      simp [State.setAgentCc, State.agentFinish, hc, State.setCc, State.finishN, State.bumpFree, State.setWave]
    have hsn : ∀ x, (((s.setAgentCc c).agentFinish mark n).wave x).know = (s.wave x).know := fun x => by
      by_cases hx : x = w
      · rw [hx, hwv]
      · rw [hw x hx]
    have hsh : s.sameShared ((s.setAgentCc c).agentFinish mark n) (groupOf w) none none none := by
      refine ⟨fun r _ => ⟨?_, fun x hx => ?_⟩, fun r _ => ⟨?_, fun x hx => ?_⟩, fun r _ => ⟨?_, fun x hx => ?_⟩⟩
      · unfold State.groupS; rw [hgg]
      · exact State.waveS_congr hdt (hgg _) (hsn x) r
      · unfold State.groupK; rw [hgg]
      · exact State.waveK_congr hdt (by rw [hgg]) (by rw [hgg]) (hsn x) r
      · unfold State.groupVw; rw [hgg]
      · exact State.waveVw_congr hdt (by rw [hgg]) (by rw [hgg]) (hsn x) r
    refine ⟨⟨hcur.trans hc.symm, fun r hr => ?_, ?_⟩, ?_⟩
    · unfold State.sReg
      rw [hcur, hc]
      simp only [(hsh.1 r hr).2 w rfl]
    · rw [hc]
      refine ⟨⟨⟨?_, fun a => ?_⟩, ⟨hw, fun g _ => hgg g⟩, ?_⟩, ?_, ?_, ?_, hsh⟩
      · simp [State.setAgentCc, State.agentFinish, hc, State.setCc, State.finishN, State.bumpFree, State.setWave]
      · simp [State.setAgentCc, State.agentFinish, hc, State.setCc, State.finishN, State.bumpFree, State.setWave, State.store]
      · unfold Wave.passed; rw [hwv]
      · rw [hwv]
      · rw [hwv]
      · rw [hgg]
    · unfold State.cc; rw [hcur]; dsimp only; rw [hwv]
  | seq k =>
    have hcur : ((s.setAgentCc c).agentFinish mark n).cur = .seq k := by
      simp [State.setAgentCc, State.agentFinish, hc, State.seqFinish, State.bumpFree, State.setSeq, State.setCluster]
    have hk : ((s.setAgentCc c).agentFinish mark n).cluster k = { s.cluster k with seq := { s.seqOf k with
        cc := c, word := (s.seqOf k).word + n, park := .run } } := by
      simp [State.setAgentCc, State.agentFinish, hc, State.seqFinish, State.bumpFree, State.setSeq, State.setCluster,
        State.cluster, State.seqOf]
    have hq : ((s.setAgentCc c).agentFinish mark n).seqOf k = { s.seqOf k with
        cc := c, word := (s.seqOf k).word + n, park := .run } := by
      unfold State.seqOf at hk ⊢; rw [hk]
    refine ⟨⟨hcur.trans hc.symm, fun r _ => ?_, ?_⟩, ?_⟩
    · unfold State.sReg
      rw [hcur, hc]
      simp only [hq]
    · rw [hc]
      refine ⟨?_, fun a => ?_, fun j hj => ?_, ?_, ?_⟩
      · simp [State.setAgentCc, State.agentFinish, hc, State.seqFinish, State.bumpFree, State.setSeq, State.setCluster]
      · simp [State.setAgentCc, State.agentFinish, hc, State.seqFinish, State.bumpFree, State.setSeq, State.setCluster, State.store]
      · simp [State.setAgentCc, State.agentFinish, hc, State.seqFinish, State.bumpFree, State.setSeq, State.setCluster,
          State.cluster, tabGet_tabPut, hj]
      · rw [hk, hq]
      · rw [hq]
    · unfold State.cc; rw [hcur]; simp only [hq]

@[simp] theorem setSReg_cc (s : State) (d v : Nat) : (s.setSReg d v).cc = s.cc := by
  unfold State.cc State.setSReg
  cases h : s.cur with
  | idle => simp [h]
  | wave w => simp [h, State.setWaveS]
  | seq k => simp [h, State.setSeq, State.setCluster, State.seqOf, State.cluster]

/-- What a scalar form that writes a register does. -/
theorem scalarWord_gives (s : State) (mark : Bool) (d : Nat) (r : ScalarRes) (h : s.agentReady) (hv : r.val < 2 ^ 64) :
    Answer.gives (s.scalarWord mark (some d) r) (fun t =>
      s.scalarFrame t (some d) 1 ∧ t.sReg d = r.val ∧ t.cc = ccOf s.cc r) := by
  have hi : s.cur ≠ .idle := by
    intro e; unfold State.agentReady at h; rw [e] at h; exact h
  have := agentWrite_frame s d r.val 1 (ccOf s.cc r) mark hi
  rw [Nat.mod_eq_of_lt hv] at this
  unfold State.scalarWord State.onBoth State.onAgent
  simp only [setSReg_cc]
  unfold State.agentReady at h
  cases hc : s.cur with
  | idle => exact absurd hc hi
  | wave w =>
    rw [hc] at h
    simp only [Option.isSome_some, Bool.true_and, show (s.wave w).spec.isSome = false by rw [h]; rfl, Bool.false_eq_true, if_false]
    exact ⟨_, rfl, this⟩
  | seq k => exact ⟨_, rfl, this⟩

/-- What a comparison of the scalar form does. -/
theorem scalarCompare_gives (s : State) (mark : Bool) (r : ScalarRes) (h : s.cur ≠ .idle) :
    Answer.gives (s.scalarWord mark none r) (fun t => s.scalarFrame t none 1 ∧ t.cc = ccOf s.cc r) := by
  have := agentCc_frame s 1 (ccOf s.cc r) mark h
  unfold State.scalarWord State.onBoth State.onAgent
  cases hc : s.cur with
  | idle => exact absurd hc h
  | wave w => simp only [Option.isSome_none, Bool.false_and, Bool.false_eq_true, if_false]; exact ⟨_, rfl, this⟩
  | seq k => exact ⟨_, rfl, this⟩

end Sys2Proof.Machine
end

