-- ==== Sys2Proof/Laws/Typed.lean ====
section
/-! SUPPORT. What the shared typed forms do: one lemma for each variant, on elements. -/

namespace Sys2Proof.Machine

open Sys2Proof

theorem joinElems_lt (e : Nat) (xs : List Nat) : joinElems e xs < 16 ^ (e * xs.length) := by
  induction xs with
  | nil => simp [joinElems]
  | cons x rest ih =>
    simp only [joinElems, List.length_cons, Nat.mul_add, Nat.mul_one, pow_add]
    have h1 : x % 16 ^ e < 16 ^ e := Nat.mod_lt _ (by positivity)
    calc x % 16 ^ e + 16 ^ e * joinElems e rest < 16 ^ e + 16 ^ e * joinElems e rest := by omega
      _ = 16 ^ e * (joinElems e rest + 1) := by ring
      _ ≤ 16 ^ e * 16 ^ (e * rest.length) := Nat.mul_le_mul_left _ ih
      _ = 16 ^ (e * rest.length) * 16 ^ e := Nat.mul_comm _ _

theorem elem_lt (e v j : Nat) : elem e v j < 16 ^ e := Nat.mod_lt _ (by positivity)

/-- Element j of joined elements. -/
theorem elem_joinElems (e : Nat) (xs : List Nat) (j : Nat) (h : j < xs.length) :
    elem e (joinElems e xs) j = xs[j] % 16 ^ e := by
  induction xs generalizing j with
  | nil => simp at h
  | cons x rest ih =>
    have hx : x % 16 ^ e < 16 ^ e := Nat.mod_lt _ (by positivity)
    cases j with
    | zero => simp [elem, joinElems, Nat.add_mul_mod_self_left]
    | succ j =>
      simp only [List.length_cons, Nat.add_lt_add_iff_right] at h
      rw [List.getElem_cons_succ, ← ih j h]
      unfold elem
      rw [joinElems, Nat.mul_add, Nat.mul_one, Nat.add_comm (e * j) e, pow_add, ← Nat.div_div_eq_div_mul,
        Nat.add_mul_div_left _ _ (by positivity), Nat.div_eq_of_lt hx, Nat.zero_add]

/-- Element j of the result of an element operation. -/
theorem elem_mapElems (e wd : Nat) (f : Nat → Nat → Nat → Nat) (a b d j : Nat) (hw : wd % e = 0) (hj : j < wd / e) :
    elem e (mapElems e wd f a b d % 16 ^ wd) j = f (elem e a j) (elem e b j) (elem e d j) % 16 ^ e := by
  have hl : mapElems e wd f a b d < 16 ^ wd := by
    have := joinElems_lt e ((List.range (wd / e)).map (fun j => f (elem e a j) (elem e b j) (elem e d j)))
    simpa [mapElems, Nat.mul_div_cancel' (Nat.dvd_of_mod_eq_zero hw)] using this
  rw [Nat.mod_eq_of_lt hl, mapElems, elem_joinElems _ _ _ (by simpa using hj)]
  simp

/-- A form of one slice result whose lanes do not tell apart by their number. -/
theorem wordGives (s : State) (w : Nat) (x : LaneWord) (d : Slc) (long : Bool) (v : Nat → Nat → Nat)
    (hl : x.legal = true) (hw : x.writes = [d]) (h : s.lanesOk w x.g x.reads [d]) :
    Answer.gives (if long then s.longWord x (fun w _ t => [(d, v w t)]) else s.shortWord x (fun w _ t => [(d, v w t)]))
      (fun t => s.laneFrame t w x.g d ∧ ∀ i, s.threadActive w x.g i → t.progOpnd w i d = v w i % 16 ^ d.width) := by
  have key : ∀ r : Answer, Answer.gives r (fun t => s.laneFrame t w x.g d ∧ ∀ l i, (l, i) ∈ s.activeLanes w x.g →
      t.progOpnd w i d = v w i % 16 ^ d.width) →
      Answer.gives r (fun t => s.laneFrame t w x.g d ∧ ∀ i, s.threadActive w x.g i → t.progOpnd w i d = v w i % 16 ^ d.width) := by
    rintro r ⟨t, e, f, g⟩
    exact ⟨t, e, f, fun i ⟨l, hi⟩ => g l i hi⟩
  cases long with
  | true => exact key _ (longWord_gives s w x d (fun w _ t => v w t) hl hw h (fun _ _ _ _ _ => rfl))
  | false => exact key _ (shortWord_gives s w x d (fun w _ t => v w t) hl hw h (fun _ _ _ _ _ => rfl))

/-- From a value of an element operation to the elements. -/
theorem elementResult_of (s : State) (r : Answer) (w : Nat) (g : Guard) (d : Slc) (e : Nat) (a b : Nat → Nat)
    (h f : Nat → Nat → Nat → Nat) (F : ElemOp) (hw : d.width % e = 0)
    (hr : Answer.gives r (fun t => s.laneFrame t w g d ∧ ∀ i, s.threadActive w g i →
      t.progOpnd w i d = mapElems e d.width f (a i) (b i) (h 0 w i) % 16 ^ d.width))
    (hd : ∀ x y i j, x < 16 ^ e → y < 16 ^ e →
      f x y (elem e (h 0 w i) j) % 16 ^ e = F (4 * e) x y (elem e (s.opnd w i d 2) j) % 2 ^ (4 * e)) :
    s.elementResult r w g d e a b F := by
  obtain ⟨t, e1, f1, g1⟩ := hr
  refine ⟨t, e1, f1, fun i hi j hj => ?_⟩
  rw [g1 i hi, elem_mapElems _ _ _ _ _ _ _ hw hj, hd _ _ _ _ (elem_lt _ _ _) (elem_lt _ _ _)]

theorem widthsOk_typed {e wd ws ext : Nat} (h : widthsOk e wd ws ext) : typedOk e wd ws ext = true := by
  obtain ⟨h1, h2⟩ := h
  unfold typedOk widenOk
  rcases h2 with h2 | ⟨h2, h3⟩
  · simp [h1, h2]
  · simp [h1, h2, h3]

theorem widenOk_of {ext ws wd : Nat} (h : ws = wd ∨ (ws < wd ∧ ext ≠ 0)) : widenOk ext ws wd = true := by
  unfold widenOk
  rcases h with h | ⟨h, h'⟩
  · simp [h]
  · simp [h, h']

/-- The ONE lemma of typed forms, variant VV. -/
theorem typedVV_gives (s : State) (w : Nat) (o : VV) (e : Nat) (ok useD long : Bool) (f : Nat → Nat → Nat → Nat)
    (F : ElemOp) (hok : ok = true) (hw : widthsOk e o.d.width o.a.width o.ext)
    (h : s.lanesOk w o.g ([o.a, { start := o.b, width := o.d.width }] ++ if useD then [o.d] else []) [o.d])
    (hf : ∀ x y z, x < 16 ^ e → y < 16 ^ e → z < 16 ^ e → f x y z % 16 ^ e = F (4 * e) x y z % 2 ^ (4 * e)) :
    s.elementResult (s.typedVV o e ok useD long f) w o.g o.d e (fun i => widen o.ext (s.opnd w i o.a) o.a.width o.d.width)
      (fun i => s.opnd w i { start := o.b, width := o.d.width } 1) F := by
  subst hok
  refine elementResult_of s _ w o.g o.d e _ _ (fun _ w i => s.opnd w i o.d 2) f F hw.1 ?_ (fun x y i j hx hy => hf _ _ _ hx hy (elem_lt _ _ _))
  exact wordGives s w { mark := o.mark, g := o.g, legal := true && typedOk e o.d.width o.a.width o.ext
                        reads := [o.a, { start := o.b, width := o.d.width }] ++ if useD then [o.d] else [], writes := [o.d] }
    o.d long (fun w t => mapElems e o.d.width f (s.srcA w t o.ext o.a o.d.width) (s.opnd w t { start := o.b, width := o.d.width } 1)
      (s.opnd w t o.d 2)) (by simpa using widthsOk_typed hw) rfl h

/-- The ONE lemma of typed forms, variant VS. -/
theorem typedVS_gives (s : State) (w : Nat) (o : VS) (e : Nat) (ok useD long : Bool) (f : Nat → Nat → Nat → Nat)
    (F : ElemOp) (hok : ok = true) (hw : widthsOk e o.d.width o.a.width o.ext)
    (hs : e = o.d.width ∨ (e < o.d.width ∧ o.ext ≠ 0))
    (h : s.lanesOk w o.g ([o.a] ++ if useD then [o.d] else []) [o.d])
    (hf : ∀ x y z, x < 16 ^ e → y < 16 ^ e → z < 16 ^ e → f x y z % 16 ^ e = F (4 * e) x y z % 2 ^ (4 * e)) :
    s.elementResult (s.typedVS o e ok useD long f) w o.g o.d e (fun i => widen o.ext (s.opnd w i o.a) o.a.width o.d.width)
      (fun _ => widen o.ext (s.sReg o.s % 2 ^ (4 * e)) e o.d.width) F := by
  subst hok
  refine elementResult_of s _ w o.g o.d e _ _ (fun _ w i => s.opnd w i o.d 2) f F hw.1 ?_ (fun x y i j hx hy => hf _ _ _ hx hy (elem_lt _ _ _))
  have := wordGives s w { mark := o.mark, g := o.g
                          legal := true && typedOk e o.d.width o.a.width o.ext && widenOk o.ext e o.d.width
                          reads := [o.a] ++ if useD then [o.d] else [], writes := [o.d] }
    o.d long (fun w t => mapElems e o.d.width f (s.srcA w t o.ext o.a o.d.width) (s.srcS o.s e o.ext o.d.width)
      (s.opnd w t o.d 2)) (by simp [widthsOk_typed hw, widenOk_of hs]) rfl h
  have e16 : (2 : Nat) ^ (4 * e) = 16 ^ e := by rw [pow_mul]; norm_num
  rw [e16]
  exact this

/-- The ONE lemma of typed forms, variant VI. -/
theorem typedVI_gives (s : State) (w : Nat) (o : VI) (useD long : Bool) (f : Nat → Nat → Nat → Nat)
    (F : ElemOp) (hw : o.d.width % intE o.nib = 0) (hi : o.d.width ≤ 4 ∨ o.ext ≠ 0)
    (h : s.lanesOk w o.g ([{ start := o.a, width := o.d.width }] ++ if useD then [o.d] else []) [o.d])
    (hf : ∀ x y z, x < 16 ^ intE o.nib → y < 16 ^ intE o.nib → z < 16 ^ intE o.nib →
      f x y z % 16 ^ intE o.nib = F (4 * intE o.nib) x y z % 2 ^ (4 * intE o.nib)) :
    s.elementResult (s.typedVI o useD long f) w o.g o.d (intE o.nib) (fun i => s.opnd w i { start := o.a, width := o.d.width })
      (fun _ => widenImm o.ext o.imm o.d.width) F := by
  refine elementResult_of s _ w o.g o.d _ _ _ (fun _ w i => s.opnd w i o.d 2) f F hw ?_ (fun x y i j hx hy => hf _ _ _ hx hy (elem_lt _ _ _))
  exact wordGives s w { mark := o.mark, g := o.g, legal := decide (o.d.width % intE o.nib = 0) && immOk o.ext o.d.width
                        reads := [{ start := o.a, width := o.d.width }] ++ if useD then [o.d] else [], writes := [o.d] }
    o.d long (fun w t => mapElems (intE o.nib) o.d.width f (s.opnd w t { start := o.a, width := o.d.width })
      (widenImm o.ext o.imm o.d.width) (s.opnd w t o.d 2)) (by simp [hw, immOk]; tauto) rfl h

/-- The ONE lemma of unary typed forms from slices. -/
theorem typedU_gives (s : State) (w : Nat) (o : U1) (e : Nat) (ok long : Bool) (f : Nat → Nat)
    (F : Nat → Nat) (hok : ok = true) (hw : widthsOk e o.d.width o.a.width o.ext)
    (h : s.lanesOk w o.g [o.a] [o.d]) (hf : ∀ x, x < 16 ^ e → f x % 16 ^ e = F x % 2 ^ (4 * e)) :
    s.elementResult (s.typedU o e ok long f) w o.g o.d e (fun i => widen o.ext (s.opnd w i o.a) o.a.width o.d.width)
      (fun _ => 0) (fun _ x _ _ => F x) := by
  subst hok
  refine elementResult_of s _ w o.g o.d e _ _ (fun _ _ _ => 0) (fun a _ _ => f a) _ hw.1 ?_ (fun x y i j hx _ => hf _ hx)
  exact wordGives s w { mark := o.mark, g := o.g, legal := true && typedOk e o.d.width o.a.width o.ext, reads := [o.a], writes := [o.d] }
    o.d long (fun w t => mapElems e o.d.width (fun a _ _ => f a) (s.srcA w t o.ext o.a o.d.width) 0 0)
    (by simpa using widthsOk_typed hw) rfl h

/-- The ONE lemma of unary typed forms from an s register. -/
theorem typedUS_gives (s : State) (w : Nat) (o : US) (e : Nat) (ok long : Bool) (f : Nat → Nat)
    (F : Nat → Nat) (hok : ok = true) (hw : o.d.width % e = 0)
    (hs : e = o.d.width ∨ (e < o.d.width ∧ o.ext ≠ 0))
    (h : s.lanesOk w o.g [] [o.d]) (hf : ∀ x, x < 16 ^ e → f x % 16 ^ e = F x % 2 ^ (4 * e)) :
    s.elementResult (s.typedUS o e ok long f) w o.g o.d e (fun _ => widen o.ext (s.sReg o.s % 2 ^ (4 * e)) e o.d.width)
      (fun _ => 0) (fun _ x _ _ => F x) := by
  subst hok
  refine elementResult_of s _ w o.g o.d e _ _ (fun _ _ _ => 0) (fun a _ _ => f a) _ hw ?_ (fun x y i j hx _ => hf _ hx)
  have e16 : (2 : Nat) ^ (4 * e) = 16 ^ e := by rw [pow_mul]; norm_num
  rw [e16]
  exact wordGives s w { mark := o.mark, g := o.g, legal := true && decide (o.d.width % e = 0) && widenOk o.ext e o.d.width
                        reads := [], writes := [o.d] }
    o.d long (fun w t => mapElems e o.d.width (fun a _ _ => f a) (s.srcS o.s e o.ext o.d.width) 0 0)
    (by simp [hw, widenOk_of hs]) rfl h

end Sys2Proof.Machine
end

