-- ==== Sys2Proof/Tests/Slice0.lean ====
section
/-! SUPPORT. Tests: well-formedness checks refuse ill-formed terms, words that the spec writes out decode to what they stand for, worked
cases of the spec run as it says, and every hypothesis of the statements is met by a state. -/

namespace Sys2Proof.Tests

set_option Elab.async false

open Sys2Proof Sys2Proof.Machine

/-- No guard. -/
def g0 : Guard := { pred := 0, neg := false }

/-- A slice operand. -/
def n (start width : Nat) : Slc := { start := start, width := width }

/-! ### Words of the spec's worked cases decode to the instructions beside them -/

/-- Class 0 and class 15 (R254, R255, R228). -/
theorem test_decode_scalar :
    decodeWord 0x001000024004FFF4 0 = .ok (.saddImm { mark := false, d := 9, a := 4, imm := 2 ^ 14 - 3 })
    ∧ decodeWord 0x0010000140000080 0 = .ok (.saddImm { mark := false, d := 5, a := 0, imm := 32 })
    ∧ decodeWord 0x03200001C287000C 0 = .ok (.sget { mark := false, d := 7, a := n 40 8, lane := 3 })
    ∧ decodeWord 0x3C00000100000000 7 = .ok (.lit { mark := false, d := 4, v := 7 })
    ∧ decodeWord 0x3C00000040000000 0x0000000100000000 = .ok (.lit { mark := false, d := 1, v := 0x100000000 }) := by decide +kernel

/-- Class 1 (R256). -/
theorem test_decode_vector_integer :
    decodeWord 0x8400B0A1C0A30F0E 0 = .ok (.addVV
      { mark := true, g := { pred := 5, neg := true }, d := n 40 8, a := n 10 4, b := 60, nib := 3, ext := 2 })
    ∧ decodeWord 0x042000A1C283FFF7 0 = .ok (.addVI { mark := false, g := g0, d := n 40 8, a := 40, nib := 3, imm := 2 ^ 14 - 3, ext := 3 })
    ∧ decodeWord 0x041000A1C2870C13 0 = .ok (.addVS { mark := false, g := g0, d := n 40 8, a := n 40 8, s := 4, nib := 3, ext := 3 })
    ∧ decodeWord 0x04000001C007021C 0
      = .ok (.addVV { mark := false, g := g0, d := n 0 8, a := n 0 8, b := 8, nib := 7, ext := 0 }) := by decide +kernel

/-- Class 2 (R258, R259). -/
theorem test_decode_vector_float :
    decodeWord 0x086000A1C3070E00 0 = .ok (.fmaVV { mark := false, g := g0, d := n 40 8, a := n 48 8, b := 56, nib := 0, ext := 0 })
    ∧ decodeWord 0x090003C1CE870000 0
      = .ok (.frsqVV { mark := false, g := g0, d := n 240 8, a := n 232 8, nib := 0, ext := 0 }) := by decide +kernel

/-- Class 3 (R260, R265). -/
theorem test_decode_bits :
    decodeWord 0x0DA08001C0070191 0 = .ok (.movVI { mark := false, g := { pred := 4, neg := false }, d := n 0 8, nib := 7, imm := 100, ext := 1 })
    ∧ decodeWord 0x0DA00001C0070001 0 = .ok (.movVI { mark := false, g := g0, d := n 0 8, nib := 7, imm := 0, ext := 1 })
    ∧ decodeWord 0x0EB000F0C28F143C 0 = .ok (.cvtef { mark := false, g := g0, d := n 60 4, a := n 40 16, r := n 80 16, f := 0 })
    ∧ decodeWord 0x0EB00640D00F783C 0
      = .ok (.cvtef { mark := false, g := g0, d := n 400 4, a := n 256 16, r := n 480 16, f := 0 }) := by decide +kernel

/-- Class 4 (R268, R271). -/
theorem test_decode_predicate :
    decodeWord 0x10A0090100070191 0 = .ok (.cmpVI
      { mark := false, g := g0, cond := 4, uns := true, red := 0, d := 4, a := 0, nib := 7, imm := 100, ext := 1 })
    ∧ decodeWord 0x11302031C0470800 0 = .ok (.reduce { mark := false, g := { pred := 1, neg := false }, d := n 12 8, a := n 4 8, nib := 0,
                                                       flt := true, op := 0, uns := false, excl := false }) := by decide +kernel

/-- Class 5 (R274, R276, R277). -/
theorem test_decode_control :
    decodeWord 0x1420000000000000 0 = .ok (.exit { mark := false })
    ∧ decodeWord 0x1400000001020000 0 = .ok (.next { mark := false, a := n 16 3 })
    ∧ decodeWord 0x1460000000000004 0 = .ok (.jmnz { mark := false, sel := 0, disp := 1 })
    ∧ decodeWord 0x145000000001FFF4 0 = .ok (.jmz { mark := false, sel := 1, disp := 2 ^ 14 - 3 })
    ∧ decodeWord 0x1470000100000014 0 = .ok (.lcset { mark := false, n := 0, imm := true, v := 5 })
    ∧ decodeWord 0x148000000000FFF8 0 = .ok (.loop { mark := false, n := 0, disp := 2 ^ 14 - 2 })
    ∧ decodeWord 0x1490000000000000 0 = .ok (.nop { mark := false }) := by decide +kernel

/-- Class 6 (R282, R285, R286, R318). -/
theorem test_decode_memory :
    decodeWord 0x180000A1C087230C 0
      = .ok (.ld { mark := false, g := g0, d := n 40 8, a := n 8 8, cap := 4, attr := 1, scope := 4, sh := 3 })
    ∧ decodeWord 0x181024A3D387401C 0 = .ok (.st { mark := false, g := { pred := 1, neg := false }, d := n 296 16, a := n 312 8, cap := 8,
                                                    attr := 0, scope := 0, sh := 7 })
    ∧ decodeWord 0x1840010012B02830 0 = .ok (.spill { mark := false, g := g0, a := 64, c := 300, cap := 5, s := 12 })
    ∧ decodeWord 0x18600000C002FB00 0 = .ok (.ldc { mark := false, d := 3, a := 2, cap := 31, attr := 1, scope := 4 })
    ∧ decodeWord 0x18700002403D6000 0 = .ok (.stc { mark := false, d := 9, a := 61, cap := 12, attr := 0, scope := 0 })
    ∧ decodeWord 0x1880200000200000 0 = .ok (.adrn { mark := false, g := { pred := 1, neg := false }, vw := 0, a := n 2 1, f := 0,
                                                      sat := false, s := 0 })
    ∧ decodeWord 0x9880000005870078 0
      = .ok (.adrn { mark := true, g := g0, vw := 0, a := n 88 8, f := 0, sat := false, s := 30 }) := by decide +kernel

/-- Class 7 (R287, R289, R290). -/
theorem test_decode_atomic :
    decodeWord 0x1C0000A3C0873720 0
      = .ok (.atom { mark := false, g := g0, d := n 40 16, a := n 8 8, cap := 6, attr := 3, scope := 4, op := 8 })
    ∧ decodeWord 0x1C30000000000500 0 = .ok (.fence { mark := false, attr := 2, scope := 4 })
    ∧ decodeWord 0x1C40000000000700 0 = .ok (.fenceS { mark := false, scope := 4 })
    ∧ decodeWord 0x1C50000000000000 0 = .ok (.iinv { mark := false, reach := 0 })
    ∧ decodeWord 0x1C50000000000004 0 = .ok (.iinv { mark := false, reach := 1 }) := by decide +kernel

/-- Classes 8, 9 and 10 (R291, R292, R296). -/
theorem test_decode_capability_barrier_flume :
    decodeWord 0x2000000140040050 0 = .ok (.cder { mark := false, d := 5, a := 4, b := 20 })
    ∧ decodeWord 0x2400000140005000 0 = .ok (.binit { mark := false, cap := 10, a := 0, d := 5 })
    ∧ decodeWord 0x2410000000075000 0 = .ok (.barr { mark := false, g := g0, cap := 10, a := 7 })
    ∧ decodeWord 0x24300002C00A1000 0 = .ok (.bwait { mark := false, cap := 2, a := 10, d := 11 })
    ∧ decodeWord 0x28000000801E4800 0 = .ok (.flk { mark := false, ch := 2, cap := 9, a := 30 })
    ∧ decodeWord 0x2800000000006000 0 = .ok (.flk { mark := false, ch := 0, cap := 12, a := 0 }) := by decide +kernel

/-- Classes 11 and 12 (R324, R335 to R343). -/
theorem test_decode_tasks_engines :
    decodeWord 0x2C00001050000000 0 = .ok (.spawn { mark := false, g := g0, d := n 4 2, a := 256 })
    ∧ decodeWord 0x2C100040C0872800 0 = .ok (.succ { mark := false, g := g0, cap := 5, a := n 8 8, v := n 16 4 })
    ∧ decodeWord 0x2C200000C0040000 0 = .ok (.cancel { mark := false, d := 3, a := 4 })
    ∧ decodeWord 0x2C30000000286000 0 = .ok (.launch { mark := false, cap := 12, a := 40 })
    ∧ decodeWord 0x2C500021C0000008 0 = .ok (.pallocT { mark := false, g := g0, d := n 8 8, n := 2 })
    ∧ decodeWord 0x2C60000000870008 0 = .ok (.pfree { mark := false, g := g0, a := n 8 8, n := 2 })
    ∧ decodeWord 0x2C700021E0023000 0 = .ok (.cput { mark := false, g := g0, c := 1, a := 512, cap := 6, f := n 8 8 })
    ∧ decodeWord 0x2C80000000000004 0 = .ok (.cflush { mark := false, c := 1 })
    ∧ decodeWord 0x3000000506701000 0 = .ok (.rcast { mark := false, g := g0, d := 20, q := 3, o := 7, f := 2 })
    ∧ decodeWord 0x3000000A08301000 0 = .ok (.rcast { mark := false, g := g0, d := 40, q := 4, o := 3, f := 2 }) := by decide +kernel

/-- Class 13 (R304, R305, R307, R310, R313 to R316). -/
theorem test_decode_matrix :
    decodeWord 0x3400000000014000 0 = .ok (.mresv { mark := false, slot := 0, cap := 8, b := 1 })
    ∧ decodeWord 0x34100000C0000000 0 = .ok (.mrels { mark := false, slot := 3 })
    ∧ decodeWord 0x3420000000004800 0 = .ok (.mldb { mark := false, d := 0, a := 0, cap := 9, fmt := 0 })
    ∧ decodeWord 0x3420000000004804 0 = .ok (.mldb { mark := false, d := 0, a := 0, cap := 9, fmt := 1 })
    ∧ decodeWord 0x3440000000060000 0 = .ok (.mmaz { mark := false, a := 6, ln := false })
    ∧ decodeWord 0x3430000000060004 0 = .ok (.mma { mark := false, a := 6, ln := true })
    ∧ decodeWord 0x34800000000C0000 0 = .ok (.lnset { mark := false, lvl := 0, a := 12 })
    ∧ decodeWord 0x34900002000D0000 0 = .ok (.lncoef { mark := false, c := 2, lvl := 0, a := 13 })
    ∧ decodeWord 0x34A0000000000000 0 = .ok (.lnstep { mark := false })
    ∧ decodeWord 0x34C0000500150084 0 = .ok (.ctake { mark := false, d := 20, c := 2, slot := 1, a := 21 })
    ∧ decodeWord 0x34E0000000000000 0 = .ok (.idemb { mark := false })
    ∧ decodeWord 0x34F0000000000000 0 = .ok (.ideme { mark := false }) := by decide +kernel

/-- Class 14 and the paired word (R201, R232, R345, R346, R348). -/
theorem test_decode_system_paired :
    decodeWord 0x3800000240000000 0 = .ok (.srdScalar { mark := false, d := 9, reg := 0 })
    ∧ decodeWord 0x380000A1C0010008 0 = .ok (.srdSlice { mark := false, d := n 40 8, reg := 2 })
    ∧ decodeWord 0x3820000000010024 0 = .ok (.trap { mark := false, sel := 1, code := 9 })
    ∧ decodeWord 0x384000000000001C 0 = .ok (.brk { mark := false, code := 7 })
    ∧ decodeWord 0x3880000240040030 0 = .ok (.rquota { mark := false, d := 9, a := 4, q := 12 })
    ∧ decodeWord 0x3880001400510014 0 = .ok (.rquota { mark := false, d := 80, a := 81, q := 5 })
    ∧ decodeWord 0x4508518A422CA6D4 0 = .ok (.pairedWord
      { mark := false,
        h1 := { op := 1, ty := 2, s1 := 16, w1 := 5, s2 := 24, w2 := 5, pg := 0 },
        h2 := { op := 8, ty := 2, s1 := 44, w1 := 5, s2 := 54, w2 := 5, pg := 0 } }) := by decide +kernel

/-- Unassigned words and broken fields are refused with the cause that the spec names (R224, R229, R232, R234). -/
theorem test_decode_refuses :
    decodeWord 0x0330000000000000 0 = .error .illegalOpcode
    ∧ decodeWord 0x3C10000000000000 0 = .error .illegalOpcode
    ∧ decodeWord 0x0010000240040001 0 = .error .illegalOpcode
    ∧ decodeWord 0x0010200240040000 0 = .error .illegalOperand
    ∧ decodeThread 0x3440000000060000 0 = .error .illegalOpcode := by decide +kernel

/-! ### Well-formedness refuses an operand outside its field -/

theorem test_wf_scalar :
    (Instr.saddReg { mark := false, d := 256, a := 0, b := 0 }).wf = false ∧ (Instr.saddReg { mark := false, d := 255, a := 255, b := 255 }).wf = true
    ∧ (Instr.saddReg { mark := false, d := 0, a := 256, b := 0 }).wf = false ∧ (Instr.saddReg { mark := false, d := 0, a := 0, b := 256 }).wf = false
    ∧ (Instr.saddImm { mark := false, d := 0, a := 0, imm := 16384 }).wf = false ∧ (Instr.scmpReg { mark := false, a := 0, b := 256 }).wf = false
    ∧ (Instr.scmpImm { mark := false, a := 0, imm := 16384 }).wf = false ∧ (Instr.smovReg { mark := false, d := 0, b := 256 }).wf = false
    ∧ (Instr.smovImm { mark := false, d := 0, imm := 16384 }).wf = false ∧ (Instr.spopc { mark := false, d := 0, a := 256 }).wf = false
    ∧ (Instr.sget { mark := false, d := 0, a := n 0 1, lane := 32 }).wf = false
    ∧ (Instr.lit { mark := false, d := 0, v := 2 ^ 64 }).wf = false := by decide +kernel

theorem test_wf_typed :
    (Instr.addVV { mark := false, g := g0, d := n 1024 1, a := n 0 1, b := 0, nib := 0, ext := 0 }).wf = false
    ∧ (Instr.addVV { mark := false, g := g0, d := n 0 17, a := n 0 1, b := 0, nib := 0, ext := 0 }).wf = false
    ∧ (Instr.addVV { mark := false, g := { pred := 128, neg := false }, d := n 0 1, a := n 0 1, b := 0, nib := 0, ext := 0 }).wf = false
    ∧ (Instr.addVV { mark := false, g := g0, d := n 0 1, a := n 0 1, b := 1024, nib := 0, ext := 0 }).wf = false
    ∧ (Instr.addVV { mark := false, g := g0, d := n 0 1, a := n 0 1, b := 0, nib := 16, ext := 0 }).wf = false
    ∧ (Instr.addVS { mark := false, g := g0, d := n 0 1, a := n 0 1, s := 256, nib := 0, ext := 0 }).wf = false
    ∧ (Instr.addVI { mark := false, g := g0, d := n 0 1, a := 0, nib := 0, imm := 16384, ext := 0 }).wf = false
    ∧ (Instr.abs { mark := false, g := g0, d := n 0 1, a := n 0 1, nib := 0, ext := 4 }).wf = false
    ∧ (Instr.movVS { mark := false, g := g0, d := n 0 1, s := 256, nib := 0, ext := 0 }).wf = false
    ∧ (Instr.movVI { mark := false, g := g0, d := n 0 1, nib := 16, imm := 0, ext := 0 }).wf = false
    ∧ (Instr.bfe { mark := false, g := g0, d := n 0 1, a := n 0 1, pos := 64, len := 1 }).wf = false
    ∧ (Instr.bfi { mark := false, g := g0, d := n 0 1, a := n 0 1, pos := 0, len := 65 }).wf = false
    ∧ (Instr.zip { mark := false, g := g0, d := n 0 2, a := n 0 1, b := n 0 1, gc := 4 }).wf = false
    ∧ (Instr.unzip { mark := false, g := g0, d := n 0 2, a := n 0 2, gc := 4 }).wf = false
    ∧ (Instr.cvt { mark := false, g := g0, d := n 0 8, a := n 0 8, src := 8, dst := 0, mode := 0, sat := false }).wf = false
    ∧ (Instr.cvtfi { mark := false, g := g0, d := n 0 8, a := n 0 8, src := 0, e := 17, uns := false, mode := 0 }).wf = false
    ∧ (Instr.cvtif { mark := false, g := g0, d := n 0 8, a := n 0 8, e := 0, uns := false, dst := 0, mode := 0, sat := false }).wf = false
    ∧ (Instr.cvtef { mark := false, g := g0, d := n 0 2, a := n 0 8, r := n 8 8, f := 4 }).wf = false
    ∧ (Instr.cvte8 { mark := false, g := g0, d := n 0 2, a := n 0 8, s := n 8 2, f := 2, sat := false }).wf = false
    ∧ (Instr.pairedWord { mark := false, h1 := { op := 15, ty := 0, s1 := 0, w1 := 0, s2 := 0, w2 := 0, pg := 0 },
                          h2 := { op := 14, ty := 0, s1 := 0, w1 := 0, s2 := 0, w2 := 0, pg := 0 } }).wf = false := by decide +kernel

theorem test_wf_predicate_control :
    (Instr.pand { mark := false, g := g0, d := 128, a := 0, an := false, b := 0, bn := false }).wf = false
    ∧ (Instr.pnot { mark := false, g := g0, d := 0, a := 128, an := false }).wf = false
    ∧ (Instr.pset { mark := false, g := g0, d := 128, v := true }).wf = false
    ∧ (Instr.pbit { mark := false, g := g0, d := 0, a := n 0 1, b := 16384 }).wf = false
    ∧ (Instr.pton { mark := false, g := g0, d := n 0 1, a := 128, an := false }).wf = false
    ∧ (Instr.cmpVV { mark := false, g := g0, cond := 8, uns := false, red := 0, d := 1, a := n 0 1, b := 0, nib := 0 }).wf = false
    ∧ (Instr.cmpVS { mark := false, g := g0, cond := 0, uns := false, red := 4, d := 1, a := n 0 1, s := 0, nib := 0, ext := 0 }).wf = false
    ∧ (Instr.cmpVI { mark := false, g := g0, cond := 0, uns := false, red := 0, d := 1, a := 1024, nib := 0, imm := 0, ext := 0 }).wf = false
    ∧ (Instr.shfl { mark := false, g := g0, d := n 0 1, a := n 0 1, b := n 1023 0 }).wf = false
    ∧ (Instr.shflx { mark := false, g := g0, d := n 0 1, a := n 0 1, imm := 32 }).wf = false
    ∧ (Instr.reduce { mark := false, g := g0, d := n 0 1, a := n 0 1, nib := 0, flt := false, op := 8, uns := false, excl := false }).wf = false
    ∧ (Instr.vote { mark := false, g := g0, d := 1, a := 1, an := false, mode := 4 }).wf = false
    ∧ (Instr.ballot { mark := false, g := g0, d := 256, a := 1, an := false }).wf = false
    ∧ (Instr.next { mark := false, a := n 0 17 }).wf = false ∧ (Instr.nextu { mark := false, a := 256 }).wf = false
    ∧ (Instr.meet { mark := false, m := 4096 }).wf = false ∧ (Instr.jmp { mark := false, disp := 16384 }).wf = false
    ∧ (Instr.jmz { mark := false, sel := 8, disp := 0 }).wf = false
    ∧ (Instr.lcset { mark := false, n := 0, imm := false, v := 256 }).wf = false
    ∧ (Instr.lcset { mark := false, n := 4, imm := true, v := 0 }).wf = false
    ∧ (Instr.loop { mark := false, n := 4, disp := 0 }).wf = false := by decide +kernel

theorem test_wf_memory_units :
    (Instr.ld { mark := false, g := g0, d := n 0 1, a := n 0 1, cap := 32, attr := 0, scope := 0, sh := 0 }).wf = false
    ∧ (Instr.ld { mark := false, g := g0, d := n 0 1, a := n 0 1, cap := 0, attr := 0, scope := 1, sh := 0 }).wf = false
    ∧ (Instr.ld { mark := false, g := g0, d := n 0 1, a := n 0 1, cap := 0, attr := 4, scope := 0, sh := 0 }).wf = false
    ∧ (Instr.st { mark := false, g := g0, d := n 0 1, a := n 0 1, cap := 0, attr := 0, scope := 0, sh := 8 }).wf = false
    ∧ (Instr.cas { mark := false, g := g0, d := n 0 8, a := n 0 1, cap := 0, attr := 3, scope := 8 }).wf = false
    ∧ (Instr.pref { mark := false, g := g0, lvl := 2, a := n 0 1, cap := 0, sh := 0 }).wf = false
    ∧ (Instr.spill { mark := false, g := g0, a := 0, c := 0, cap := 0, s := 0 }).wf = false
    ∧ (Instr.fill { mark := false, g := g0, a := 0, c := 1025, cap := 0, s := 0 }).wf = false
    ∧ (Instr.ldc { mark := false, d := 256, a := 0, cap := 0, attr := 0, scope := 0 }).wf = false
    ∧ (Instr.adrn { mark := false, g := g0, vw := 4, a := n 0 1, f := 0, sat := false, s := 0 }).wf = false
    ∧ (Instr.atom { mark := false, g := g0, d := n 0 8, a := n 0 1, cap := 0, attr := 0, scope := 0, op := 16 }).wf = false
    ∧ (Instr.fence { mark := false, attr := 0, scope := 4 }).wf = false ∧ (Instr.fenceS { mark := false, scope := 8 }).wf = false
    ∧ (Instr.iinv { mark := false, reach := 2 }).wf = false ∧ (Instr.cder { mark := false, d := 0, a := 0, b := 256 }).wf = false
    ∧ (Instr.cres { mark := false, d := 0, a := 0, perms := 4096 }).wf = false
    ∧ (Instr.cseal { mark := false, d := 0, a := 0, k := 256 }).wf = false ∧ (Instr.cmov { mark := false, d := 256, a := 0 }).wf = false
    ∧ (Instr.cget { mark := false, d := 0, a := 0, f := 16 }).wf = false ∧ (Instr.cgetn { mark := false, d := n 0 17, a := 0, f := 0 }).wf = false
    ∧ (Instr.ctest { mark := false, perms := 4096, a := 0, b := 0 }).wf = false
    ∧ (Instr.binit { mark := false, cap := 32, a := 0, d := 0 }).wf = false ∧ (Instr.barr { mark := false, g := g0, cap := 0, a := 256 }).wf = false
    ∧ (Instr.flk { mark := false, ch := 4, cap := 0, a := 0 }).wf = false ∧ (Instr.flq { mark := false, d := 0, ch := 4 }).wf = false
    ∧ (Instr.flc { mark := false, ch := 4 }).wf = false ∧ (Instr.spawn { mark := false, g := g0, d := n 0 2, a := 1024 }).wf = false
    ∧ (Instr.succ { mark := false, g := g0, cap := 32, a := n 0 1, v := n 0 1 }).wf = false
    ∧ (Instr.launch { mark := false, cap := 32, a := 0 }).wf = false ∧ (Instr.palloc { mark := false, g := g0, d := n 0 8, n := 16 }).wf = false
    ∧ (Instr.pfree { mark := false, g := g0, a := n 0 8, n := 16 }).wf = false
    ∧ (Instr.cput { mark := false, g := g0, c := 8, a := 0, cap := 0, f := n 0 1 }).wf = false
    ∧ (Instr.cflush { mark := false, c := 8 }).wf = false ∧ (Instr.rcast { mark := false, g := g0, d := 0, q := 32, o := 0, f := 0 }).wf = false := by
  decide +kernel

theorem test_wf_matrix_system :
    (Instr.mresv { mark := false, slot := 16, cap := 0, b := 0 }).wf = false ∧ (Instr.mrels { mark := false, slot := 16 }).wf = false
    ∧ (Instr.mldb { mark := false, d := 0, a := 0, cap := 0, fmt := 3 }).wf = false ∧ (Instr.mma { mark := false, a := 256, ln := false }).wf = false
    ∧ (Instr.lnset { mark := false, lvl := 4, a := 0 }).wf = false ∧ (Instr.lncoef { mark := false, c := 4, lvl := 0, a := 0 }).wf = false
    ∧ (Instr.ctake { mark := false, d := 0, c := 8, slot := 0, a := 0 }).wf = false
    ∧ (Instr.ctakeArm { mark := false, c := 0, cap := 32, a := 0 }).wf = false ∧ (Instr.cgive { mark := false, c := 8, a := 0 }).wf = false
    ∧ (Instr.srdScalar { mark := false, d := 0, reg := 4096 }).wf = false ∧ (Instr.srdSlice { mark := false, d := n 0 0, reg := 0 }).wf = false
    ∧ (Instr.swr { mark := false, reg := 4096, a := 0 }).wf = false ∧ (Instr.trap { mark := false, sel := 8, code := 0 }).wf = false
    ∧ (Instr.brk { mark := false, code := 16384 }).wf = false ∧ (Instr.rquota { mark := false, d := 0, a := 0, q := 32 }).wf = false := by
  decide +kernel

theorem test_wf_device :
    (Instr.leaseExpiry 128).wf = false ∧ (Instr.tileFillComplete 32 0).wf = false ∧ (Instr.waveParkExchange 0 8).wf = false
    ∧ (Instr.flumeChainStart 0 4).wf = false ∧ (Instr.doorbell 16 0).wf = false ∧ (Instr.launchRecordTake 17).wf = false
    ∧ (Instr.launchRecordTake 16).wf = true ∧ (Instr.schedCtlTake 2).wf = false ∧ (Instr.partitionStateError 0 8 0 0).wf = false
    ∧ (Instr.vaultRefresh 32).wf = false ∧ (Instr.poolLimitWrite 0 16 0).wf = false ∧ (Instr.alarmSourceAssert 4).wf = false
    ∧ (Instr.reductionMergedWrite 8 0 []).wf = false ∧ (Instr.peerUnreachable 4).wf = false ∧ (Instr.holdSet 128).wf = false := by decide +kernel

/-! ### A small machine: launch 0 with one crew of one group on core 0 -/

/-- A thread in formation slot 0 whose slices hold some operands: start, width and value of each. -/
def thr (xs : List (Nat × Nat × Nat)) : Thread :=
  { Thread.idle with slices := xs.foldl (fun f x => putSlices f x.1 x.2.2 x.2.1) [], place := .formed 0 }

/-- Segments of words 0 to 15, 16 to 31 (a meeting segment, the handler), and 32 to 47 (of the matrix sequencer). -/
def tMod : Module :=
  { Module.none with
    segs := [⟨0, 16, false, false⟩, ⟨16, 16, true, false⟩, ⟨32, 16, false, true⟩], seqEntry := 2
    pools := [⟨0, 5, 3⟩], cisterns := [⟨0, 2, 100, 128⟩], traps := List.replicate 16 1, quota := [4] }

/-- Launch 0. -/
def tLaunch : Machine.Launch :=
  { Machine.Launch.none with
    rec_ := { LaunchRec.zero with banks := 1, ntensor := 1 }, mod_ := tMod, phase := .placed, codeBase := placedCode
    poolBase := [(0, 0)], pools := [(0, { next := 0, limit := 8, freed := [] })] }

/-- Crew 0. -/
def tCrew : Crew := { placedCrew with spSize := 16384 }

/-- Its k registers: k1 a page of GLOBAL, k2 the crew's scratchpad, k3 the launch's pool bank, k4 the operand buffer, k5 tensor 1,
k6 a sealing key of type 9, k7 a capability to be sealed. -/
def tCaps : Tab Capv :=
  [ (1, Capv.make true 0x30000 0x20000 0 0xFFF 0 false), (2, Capv.make true 0x4000 0 0 0xFFF 1 false),
    (3, Capv.make true 0x20000 0 0 0xFFF 2 false), (4, Capv.make true 0x100000 0 0 0xFFF 3 false),
    (5, Capv.make true 0x30000 0x20000 1 0xFFF 5 false), (6, Capv.make true 9 9 9 0xFFF 0 false),
    (7, Capv.make true 0x4000 0 9 0xFFF 1 false) ]

/-- Group 0, with s1 = 5, s2 = 16 and s3 = 64. -/
def tGroup (ths : Tab Thread) : Group :=
  { Group.idle with threads := ths, s := [(1, 5), (2, 16), (3, 64)], k := tCaps, quota := [(0, 16)], retired := false }

/-- The wave of the threads in lanes 0 on. -/
def tWave (ths : Tab Thread) : Wave := { placedWave with lanes := ths.map (fun e => (e.1, 0)) }

/-- Memory with the code page and a page of data at 0x20000, uncached, mapped onto themselves. -/
def tStore : Store :=
  (placedStore { bytes := [], tags := [], poison := [], armed := [] } 0).put8 0x4010 (leafWord 0x20000 0 0 false true true ||| 192)

/-- The machine with these threads, at DT 1,000. -/
def base (ths : Tab Thread) : State :=
  { State.reset with
    dt := 1000, cur := .wave 0, waves := [(0, tWave ths)], groups := [(0, tGroup ths)], crews := [(0, tCrew)]
    launches := [(0, tLaunch)], mem := { MemSys.reset with store := tStore } }

/-- One thread, with one operand. -/
def one (start width v : Nat) : State := base [(0, thr [(start, width, v)])]

/-- The state that an answer gives. -/
def nxt (r : Answer) : State :=
  match r with
  | .next t => t
  | _ => State.reset

/-- The answer is a next state. -/
def goes (r : Answer) : Bool :=
  match r with
  | .next _ => true
  | _ => false

/-! ### Worked cases of the spec -/

/-- R12: core (13, 6) is core 109, in cluster 30 at place 1. -/
theorem test_core_numbers : clusterOf 109 = 30 ∧ placeOf 109 = 1 ∧ coreAt 30 1 = 109 := by decide

/-- R23: the capability of the worked case in memory. -/
theorem test_capability_words :
    (Capv.make true 0x23460000 0x23400000 0 0x907 0 false).bits.toNat = 0x0000234600000000 * 2 ^ 64 + 0x2340000000009070 := by decide +kernel

/-- R43: the last byte of vault 30's window at INTLV 128, and the first beyond it. -/
theorem test_vault_window : State.reset.physPlace 0x0007CFFFFFFF = some 1 ∧ State.reset.physPlace 0x0007D0000000 = none := by decide +kernel

/-- R71: the home slice of 0x123480. -/
theorem test_home_slice : l2Slice 0x123480 = 3 := by decide

/-- R130, R131: a credit before its expectation, two arrivals, and the reload at the end of the phase. -/
theorem test_barrier_phase :
    let b0 : BarObj := { phase := 0, expArr := 2, pendArr := 2, flags := 0, expBytes := 0, pendBytes := 0 }
    let b1 := barArrive (barAddBytes (barAddBytes b0 (-4096)) 4096)
    b1.phase = 0 ∧ b1.pendArr = 1 ∧ (barArrive b1).phase = 1 ∧ (barArrive b1).pendArr = 2 ∧ (barArrive b1).pendBytes = 0
      ∧ bit (barArrive b1).flags 13 = false := by decide +kernel

/-- R188: the source 0xFFFE widened to eight slices, sign-extended, zero-extended and repeated. -/
theorem test_widen : widen 2 0xFFFE 4 8 = 0xFFFFFFFE ∧ widen 1 0xFFFE 4 8 = 0x0000FFFE ∧ widen 3 0xFFFE 4 8 = 0xFFFEFFFE := by decide

/-- R227: the immediate −3. -/
theorem test_widen_immediate : widenImm 2 0x3FFD 8 = 0xFFFFFFFD ∧ widenImm 3 0x3FFD 8 = 0xFFFDFFFD ∧ widenImm 1 0x3FFD 8 = 0x00003FFD := by decide

/-- R212: 1.0625 twice through .e4m3. -/
theorem test_error_feedback :
    errorFeedback .e4m3 0x3F880000 0 = (0x38, 0x3D800000) ∧ errorFeedback .e4m3 0x3F880000 0x3D800000 = (0x39, 0) := by decide +kernel

/-- R218, R219: RecipSeed(3.0) and RsqrtSeed(2.0). -/
theorem test_seeds : recipSeed 0x40400000 = 0x3EAA0000 ∧ rsqrtSeed 0x40000000 = 0x3F348000 := by decide +kernel

/-- R264: 500.0 saturates to .e4m3 448 and rounds to .e5m2 512. -/
theorem test_convert :
    (nxt (exec (.cvt { mark := false, g := g0, d := n 0 2, a := n 8 8, src := 0, dst := 3, mode := 0, sat := false })
      (one 8 8 0x43FA0000))).progOpnd 0 0 (n 0 2) = 0x7E
    ∧ (nxt (exec (.cvt { mark := false, g := g0, d := n 0 2, a := n 8 8, src := 0, dst := 4, mode := 0, sat := false })
      (one 8 8 0x43FA0000))).progOpnd 0 0 (n 0 2) = 0x60 := by decide +kernel

/-- R256: saturation of .i8 and .b8 elements. -/
theorem test_saturate :
    let s := base [(0, thr [(0, 4, 0x807F), (8, 4, 0xFF05)])]
    (nxt (exec (.addSatIVV { mark := false, g := g0, d := n 0 4, a := n 0 4, b := 8, nib := 1, ext := 0 }) s)).progOpnd 0 0 (n 0 4) = 0x807F
    ∧ (nxt (exec (.addSatBVV { mark := false, g := g0, d := n 0 4, a := n 0 4, b := 8, nib := 1, ext := 0 }) s)).progOpnd 0 0 (n 0 4)
      = 0xFF84 := by decide +kernel

/-- R187, R188: an .i16 addition of eight slices with a source of four, and EQ refuses it with a trap. -/
theorem test_add_widened :
    let s := base [(0, thr [(10, 4, 0xFFFE), (60, 8, 0x00050005)])]
    let o : VV := { mark := false, g := g0, d := n 40 8, a := n 10 4, b := 60, nib := 3, ext := 2 }
    (nxt (exec (.addVV o) s)).progOpnd 0 0 (n 40 8) = 0x00040003
    ∧ (nxt (exec (.addVV { o with ext := 3 }) s)).progOpnd 0 0 (n 40 8) = 0x00030003
    ∧ ((nxt (exec (.addVV { o with ext := 0 }) s)).wave 0).frame.map (fun f => f.cause) = some .illegalOperand := by decide +kernel

/-- R271, R270, R273: the sum of the active lanes in ascending order, a move from a lane that holds no thread, and a count. -/
theorem test_cross_lane :
    let t := fun (v : Nat) (p : Bool) => { thr [(4, 8, v), (12, 8, 0x7F800001)] with preds := [(1, p)] }
    let s := base [(0, t 0x3F800000 true), (1, t 0x4B800000 true), (2, t 0x40A00000 false), (3, t 0x3F800000 true),
      (4, t 0xCB800000 true), (5, t 0x3F800000 true)]
    let p1 : Guard := { pred := 1, neg := false }
    let r := nxt (exec (.reduce { mark := false, g := p1, d := n 12 8, a := n 4 8, nib := 0, flt := true, op := 0, uns := false, excl := false }) s)
    let x := nxt (exec (.shflx { mark := false, g := g0, d := n 20 8, a := n 4 8, imm := 2 }) s)
    r.progOpnd 0 0 (n 12 8) = 0x3F800000 ∧ r.progOpnd 0 2 (n 12 8) = 0x7F800001 ∧ r.progOpnd 0 5 (n 12 8) = 0x3F800000
    ∧ x.progOpnd 0 0 (n 20 8) = 0x40A00000 ∧ x.progOpnd 0 3 (n 20 8) = 0x4B800000 ∧ x.progOpnd 0 4 (n 20 8) = 0
    ∧ (nxt (exec (.pcount { mark := false, g := g0, d := 3, a := 1, an := false }) s)).groupS 0 3 = 5 := by decide +kernel

/-- R287: ATOM.max of four lanes on the best-plan cell. -/
theorem test_atomic_max :
    let t := fun (v : Nat) => thr [(8, 8, 0), (40, 16, v)]
    let s := base [(0, t 0x0000000300000002), (1, t 0x0000000900000040), (2, t 0x0000000900000007), (3, t 0x0000000700000050)]
    let s := s.setStore (s.store.put8 0x20000 0x0000000500000011)
    let r := nxt (exec (.atom { mark := false, g := g0, d := n 40 16, a := n 8 8, cap := 1, attr := 3, scope := 4, op := 8 }) s)
    r.progOpnd 0 0 (n 40 16) = 0x0000000500000011 ∧ r.progOpnd 0 1 (n 40 16) = 0x0000000500000011
    ∧ r.progOpnd 0 2 (n 40 16) = 0x0000000900000040 ∧ r.progOpnd 0 3 (n 40 16) = 0x0000000900000040
    ∧ r.store.readNat 0x20000 8 = 0x0000000900000040 := by decide +kernel

/-- R202: a spill of five slices writes two bytes and the low half of a third. -/
theorem test_spill_bytes :
    let s := base [(0, thr [(41, 5, 0x70C93)])]
    ((nxt (exec (.spill { mark := false, g := g0, a := 41, c := 5, cap := 2, s := 3 }) s)).wave 0).out.flatMap (fun p => p.cells)
      = [(2 ^ 48 + 64, 255, 0x93), (2 ^ 48 + 65, 255, 0x0C), (2 ^ 48 + 66, 15, 0x07)] := by decide +kernel

/-- R377: an ATOM of which one lane's word is poisoned: the others are performed, and the frame names the lane. -/
theorem test_atomic_poison :
    let t := fun (a : Nat) => thr [(8, 8, a), (16, 8, 1)]
    let s := base [(0, t 0), (1, t 64), (2, t 128), (3, t 192)]
    let s := s.setStore { s.store with poison := [(0x20000 + 128) / 8] }
    let r := nxt (exec (.atom { mark := false, g := g0, d := n 16 8, a := n 8 8, cap := 1, attr := 0, scope := 0, op := 1 }) s)
    (r.wave 0).frame.map (fun f => (f.cause, f.active, f.fault, f.rerun)) = some (.poison, 15, 4, some 4)
    ∧ r.store.byte 0x20000 = 1 ∧ r.store.byte 0x20080 = 0 ∧ r.store.byte 0x200C0 = 1 := by decide +kernel

/-- R28, R291: the derived capability of the worked case, and one that would add ST. -/
theorem test_derive :
    let s := base [(0, thr [])]
    let s := { s with groups := [(0, { tGroup [(0, thr [])] with
      k := [(4, Capv.make true 0x23460000 0x23400000 0 0x907 0 false)], s := [(20, 0x10000), (21, 0x8000), (22, 1)] })] }
    let t := nxt (exec (.cder { mark := false, d := 5, a := 4, b := 20 }) s)
    (t.groupK 0 5).bits.toNat = 0x0000234180000000 * 2 ^ 64 + 0x2341000000000010 ∧ (t.groupK 0 5).tag = true
    ∧ ((nxt (exec (.cder { mark := false, d := 6, a := 5, b := 20 }) t)).wave 0).frame.map (fun f => f.cause) = some .capPerm := by decide +kernel

/-- R254: a carry without an overflow, and an overflow. -/
theorem test_scalar_flags :
    let s := base [(0, thr [])]
    let s := s.setWaveS 0 4 (2 ^ 64 - 1)
    let t := nxt (exec (.saddImm { mark := false, d := 9, a := 4, imm := 1 }) s)
    let u := nxt (exec (.saddReg { mark := false, d := 9, a := 5, b := 5 }) (s.setWaveS 0 5 (2 ^ 63 - 1)))
    t.groupS 0 9 = 0 ∧ t.cc = { Cc.zero with z := true, c := true } ∧ u.cc = { Cc.zero with n := true, v := true } := by decide +kernel

/-- R205: a quotient by zero, and the most negative number by −1. -/
theorem test_scalar_division :
    let s := (base [(0, thr [])]).setWaveS 0 4 (2 ^ 63)
    (nxt (exec (.sdivImm { mark := false, d := 9, a := 4, imm := 0 }) s)).groupS 0 9 = 2 ^ 63
    ∧ (nxt (exec (.sdivImm { mark := false, d := 9, a := 1, imm := 0 }) s)).groupS 0 9 = 2 ^ 63 - 1
    ∧ (nxt (exec (.sdivuImm { mark := false, d := 9, a := 1, imm := 0 }) s)).groupS 0 9 = 2 ^ 64 - 1
    ∧ (nxt (exec (.sdivImm { mark := false, d := 9, a := 4, imm := 2 ^ 14 - 1 }) s)).groupS 0 9 = 2 ^ 63 := by decide +kernel

/-- R268: 0xFFFF is above 100 as .b16 and below it as .i16, and MZ tells that the predicate is false in every lane. -/
theorem test_compare_sign :
    let s := one 0 4 0xFFFF
    let o : CmpVI := { mark := false, g := g0, cond := 4, uns := true, red := 0, d := 4, a := 0, nib := 3, imm := 100, ext := 0 }
    (nxt (exec (.cmpVI o) s)).progPrd 0 0 4 = true ∧ (nxt (exec (.cmpVI o) s)).cc.mz = false
    ∧ (nxt (exec (.cmpVI { o with uns := false }) s)).progPrd 0 0 4 = false
    ∧ (nxt (exec (.cmpVI { o with uns := false }) s)).cc.mz = true := by decide +kernel

/-- R260, R262: a rotation of .i8 elements, a field taken out and one put in. -/
theorem test_bits :
    let s := base [(0, thr [(0, 4, 0x81C3), (8, 4, 0x0000), (16, 4, 0x0101)])]
    (nxt (exec (.rotVV { mark := false, g := g0, d := n 20 4, a := n 0 4, b := 16, nib := 1, ext := 0 }) s)).progOpnd 0 0 (n 20 4) = 0x0387
    ∧ (nxt (exec (.bfe { mark := false, g := g0, d := n 20 4, a := n 0 4, pos := 4, len := 8 }) s)).progOpnd 0 0 (n 20 4) = 0x1C
    ∧ (nxt (exec (.bfi { mark := false, g := g0, d := n 8 4, a := n 0 4, pos := 12, len := 4 }) s)).progOpnd 0 0 (n 8 4) = 0x3000 := by
  decide +kernel

/-- R274, R165: EXIT ends the thread and its wave. -/
theorem test_exit :
    let t := nxt (exec (.exit { mark := false }) (one 0 1 3))
    (t.thread 0 0).place = .dead ∧ tabFind t.waves 0 = none := by decide +kernel

/-- R276, R277: a jump back by three words, and a loop whose counter reaches 0. -/
theorem test_jumps :
    let s := (one 0 1 0).setWave 0 { tWave [(0, thr [])] with word := 6, lc := [(0, 2)] }
    ((nxt (exec (.jmp { mark := false, disp := 2 ^ 14 - 3 }) s)).wave 0).word = 4
    ∧ (let t := nxt (exec (.loop { mark := false, n := 0, disp := 2 ^ 14 - 2 }) s)
       (t.wave 0).word = 5 ∧ tabGet (t.wave 0).lc 0 0 = 1
       ∧ ((nxt (exec (.loop { mark := false, n := 0, disp := 2 ^ 14 - 2 }) t)).wave 0).word = 6) := by decide +kernel

/-- R346, R372: BREAK 7 enters the handler with the frame of its word. -/
theorem test_break :
    let t := nxt (exec (.brk { mark := false, code := 7 }) ((one 0 1 0).setWave 0 { tWave [(0, thr [])] with word := 3 }))
    (t.wave 0).level = .trap ∧ (t.wave 0).seg = 1 ∧ (t.wave 0).word = 0
    ∧ (t.wave 0).frame.map (fun f => (f.cause, f.seg, f.word, f.info)) = some (.brk, 0, 3, 7)
    ∧ ((nxt (exec (.tretSkip { mark := false }) t)).wave 0).word = 4
    ∧ ((nxt (exec (.tretRetry { mark := false }) t)).wave 0).word = 3 := by decide +kernel

/-- R289: FENCE with RLX is an illegal operand. -/
theorem test_fence_rlx :
    ((nxt (exec (.fence { mark := false, attr := 0, scope := 0 }) (one 0 1 0))).wave 0).frame.map (fun f => f.cause) = some .illegalOperand := by
  decide +kernel

/-- R344, R345: DT, and a register that no table row names. -/
theorem test_system_registers :
    (nxt (exec (.srdScalar { mark := false, d := 9, reg := 0 }) (one 0 1 0))).groupS 0 9 = 1000
    ∧ ((nxt (exec (.srdScalar { mark := false, d := 9, reg := 11 }) (one 0 1 0))).wave 0).frame.map (fun f => f.cause) = some .illegalOperand := by
  decide +kernel

/-- R201: a growth that the pool cannot give is DENIED with the old quota. -/
theorem test_quota_denied :
    let t := nxt (exec (.rquota { mark := false, d := 9, a := 0, q := 16 }) { one 0 1 0 with
      groups := [(0, { tGroup [(0, thr [])] with quota := [(0, 4)], pool := 0 })] })
    t.cc.status = 7 ∧ t.quota 0 0 = 4 ∧ bits (t.groupS 0 9).toNat 7 0 = 4 := by decide +kernel

/-- R230 to R232: both halves of a paired word, each on its own bank. -/
theorem test_paired :
    let s := base [(0, thr [(16, 8, 5), (24, 8, 7), (300, 8, 0xF0), (310, 8, 0xFF)])]
    let t := nxt (exec (.pairedWord { mark := false,
                                      h1 := { op := 1, ty := 2, s1 := 16, w1 := 5, s2 := 24, w2 := 5, pg := 0 },
                                      h2 := { op := 8, ty := 2, s1 := 44, w1 := 5, s2 := 54, w2 := 5, pg := 0 } }) s)
    t.progOpnd 0 0 (n 16 8) = 12 ∧ t.progOpnd 0 0 (n 300 8) = 0x0F := by decide +kernel

/-- R340: fresh nodes in ascending lanes, and a freed node first. -/
theorem test_pool :
    let s := base [(0, thr []), (1, thr [])]
    let t := nxt (exec (.palloc { mark := false, g := g0, d := n 0 8, n := 0 }) s)
    t.progOpnd 0 0 (n 0 8) = 0 ∧ t.progOpnd 0 1 (n 0 8) = 1 ∧ t.cc.status = 0 ∧ (t.pool 0 0).next = 2 := by decide +kernel

/-- R145: the next release of the sluice at its reset values follows six cycles after one. -/
theorem test_sluice_spacing :
    let k := ClusterSt.reset
    ((k.cslrStep + 1) * k.cslrEstimate * 14 + (10 * k.cslrLimit - 1)) / (10 * k.cslrLimit) = 6 := by decide

/-- The word placed where the first instruction after reset is fetched runs: SADD s9, s4, −3. -/
theorem test_step_runs_word :
    (nxt (step (State.reset.withFetchWord 64 0x001000024004FFF4))).groupS 0 9 = 2 ^ 64 - 3 := by decide +kernel

/-! ### The hypotheses of the statements are met: registers and control -/

/-- One thread in a lane, with no operand of note. -/
def w0 : State := base [(0, thr [(0, 4, 0x1234)])]

/-- The sequencer of cluster 0 selected, on a program of launch 0. -/
def q0 : State :=
  { base [(0, thr [])] with
    cur := .seq 0
    clusters := [(0, { ClusterSt.reset with seq := { Seq.idle with
      launch := some 0, run := true, seg := 2, k := tCaps
      s := [(1, 5), (2, 16), (3, 64), (10, 0x100000000), (11, 0x1FFFFF0008)], resv := [(3, ⟨0, 4096, 8192, 2097151, 4⟩)] } })] }

theorem witness_DecodeEncode :
    (Instr.saddReg { mark := true, d := 255, a := 255, b := 255 }).wf = true ∧ isEvent (.saddReg { mark := true, d := 255, a := 255, b := 255 }) = false
    ∧ (Instr.lit { mark := false, d := 0, v := 2 ^ 64 - 1 }).wf = true ∧ isEvent (.lit { mark := false, d := 0, v := 2 ^ 64 - 1 }) = false := by
  decide +kernel

theorem witness_EncodeDecode :
    ∃ i, (0xBC00000240000000 : Nat) < 2 ^ 64 ∧ 2 ^ 64 - 1 < 2 ^ 64 ∧ decodeWord 0xBC00000240000000 (2 ^ 64 - 1) = .ok i :=
  ⟨.lit { mark := true, d := 9, v := 2 ^ 64 - 1 }, by decide +kernel⟩

theorem witness_ScalarForms : scalarRows.length = 19 ∧ w0.agentReady ∧ q0.agentReady :=
  ⟨rfl, by show (w0.wave 0).spec = none; decide +kernel, trivial⟩

theorem witness_ScalarMoves : w0.cur ≠ .idle ∧ w0.agentReady ∧ q0.cur ≠ .idle ∧ q0.agentReady :=
  ⟨by decide +kernel, by show (w0.wave 0).spec = none; decide +kernel, by decide +kernel, trivial⟩

/-- R192: another wave has written s9 of the group, and then this one. -/
def wPast : State := (w0.setWaveS 1 9 7).setWaveS 0 9 8

theorem witness_ScalarMoves_shared : wPast.cur = .wave 0 ∧ wPast.agentReady ∧ groupOf 1 = groupOf 0 ∧ isRelease (.fence ⟨false, 3, 1⟩) = true
    ∧ isAcquire (.fence ⟨false, 3, 1⟩) = true ∧ (wPast.group (groupOf 0)).hist.s.length = 2 ∧ ∀ p ∈ (wPast.group (groupOf 0)).hist.s, p.serial ≤ (wPast.group (groupOf 0)).hist.writes :=
  ⟨by decide +kernel, by show (wPast.wave 0).spec = none; decide +kernel, by decide +kernel, rfl, by decide +kernel, by decide +kernel⟩

/-- R192: a wave reads its own write; after a release of it and an acquire another wave reads that too; before them that wave may read
what the register held before. -/
theorem test_shared_register :
    wPast.waveS 0 9 = 8 ∧ ((wPast.ordered 0 (.fence ⟨false, 2, 1⟩)).ordered 1 (.fence ⟨false, 1, 1⟩)).waveS 1 9 = 8
    ∧ pastValues (wPast.group 0).hist.s 1 [] 9 = [7] ∧ pastValues (wPast.group 0).hist.s 0 [] 9 = [] := by decide +kernel

/-- R248: the first eight bytes of SHAKE256 of the empty string, 46 B9 DD 2B 0B A8 8D 13, as FIPS 202 publishes them. -/
theorem test_shake256_empty : shake256 [] % 2 ^ 64 = 0x138DA80B2BDDB946 := by decide +kernel

/-- R248: the first eight bytes of SHAKE128 of the empty string, as FIPS 202 publishes them; 1,753 has order 512 modulo q, and the inverse
of 256, as FIPS 204 has them. -/
theorem test_signature_numbers :
    shakeBytes 168 8 [] = [0x7F, 0x9C, 0x2B, 0xA4, 0xE8, 0x8F, 0x82, 0x7D] ∧ mlRoot 256 = mlMod - 1 ∧ 256 * 8347681 % mlMod = 1
    ∧ mlHigh 8380416 false = 0 ∧ mlHigh 8380416 true = 15 ∧ mlHigh 1 true = 1 ∧ mlHigh 261889 false = 1 := by decide +kernel

/-- R68: an uncorrectable error replaces a corrected record and keeps an OVER still set; a later corrected one changes nothing. -/
theorem test_error_log_keeps_over :
    bit (logErr (2 ^ 63 + 2 ^ 62 + 5) 1 9) 62 = true ∧ logErr (2 ^ 63 + 5) 0 9 = 2 ^ 63 + 5 ∧ logErr 0 0 9 = 2 ^ 63 + 9 := by
  decide +kernel

/-- R409: an image is not used after the translator has changed. -/
theorem test_image_of_translator :
    { w0 with dev := { w0.dev with translator := 1 } }.imageOf tMod { digest := tMod.digest, translator := 2, at_ := 0, total := 0, code := [] } = false := by
  decide +kernel

theorem witness_IntegerForms :
    intRows.length = 26
    ∧ (widthsOk (eInt 3) 16 4 2 ∧ w0.lanesOk 0 g0 ([n 0 4, n 1008 16] ++ [n 1008 16]) [n 1008 16])
    ∧ (widthsOk (eInt 15) 16 16 0 ∧ (eInt 15 = 16 ∨ (eInt 15 < 16 ∧ 0 ≠ 0)) ∧ w0.lanesOk 0 g0 ([n 0 16] ++ [n 16 16]) [n 16 16])
    ∧ (widthsOk (eInt 0) 8 8 1 ∧ (eInt 0 = 8 ∨ (eInt 0 < 8 ∧ 1 ≠ 0)))
    ∧ ((n 0 4).width % eInt 3 = 0 ∧ ((n 0 4).width ≤ 4 ∨ 0 ≠ 0) ∧ w0.lanesOk 0 g0 [n 8 4] [n 0 4])
    ∧ (widthsOk (eInt 1) 2 2 0 ∧ w0.lanesOk 0 g0 [n 0 2, n 4 2] [n 1022 2]) := by
  unfold State.lanesOk widthsOk; decide +kernel

theorem witness_FloatForms :
    floatRows.length = 7
    ∧ (nibFloat 11 = true ∧ widthsOk (eFloat 11) 4 4 0 ∧ w0.lanesOk 0 g0 ([n 0 4, n 4 4] ++ [n 8 4]) [n 8 4])
    ∧ (nibRne 8 = true ∧ widthsOk (eFloat 8) 8 4 3 ∧ w0.lanesOk 0 g0 [n 0 4, n 4 8] [n 8 8])
    ∧ (nibFloat 0 = true ∧ (eFloat 0 = 8 ∨ (eFloat 0 < 8 ∧ 0 ≠ 0)) ∧ w0.lanesOk 0 g0 [n 0 8] [n 8 8])
    ∧ (nibRne 4 = true ∧ (eFloat 4 = 16 ∨ (eFloat 4 < 16 ∧ 3 ≠ 0)) ∧ widthsOk (eFloat 4) 16 4 3) := by
  unfold State.lanesOk widthsOk; decide +kernel

theorem witness_UnaryForms :
    unaryRows.length = 17 ∧ unarySRows.length = 11
    ∧ (anyNib 2 = true ∧ widthsOk (eInt 2) 15 3 2 ∧ w0.lanesOk 0 g0 [n 0 3] [n 1009 15])
    ∧ (nibF32 0 = true ∧ widthsOk (eFloat 0) 8 8 0) ∧ (nibRne 8 = true ∧ widthsOk (eFloat 8) 4 4 0) ∧ nibFloat 11 = true
    ∧ ((n 0 16).width % eFloat 0 = 0 ∧ (eFloat 0 = 16 ∨ (eFloat 0 < 16 ∧ 3 ≠ 0)) ∧ w0.lanesOk 0 g0 [] [n 0 16]) := by
  unfold State.lanesOk widthsOk; decide +kernel

theorem witness_FieldForms :
    ((n 0 4).width % eInt 3 = 0 ∧ ((n 0 4).width ≤ 4 ∨ 0 ≠ 0) ∧ w0.lanesOk 0 g0 [] [n 0 4])
    ∧ (63 + 1 ≤ 4 * (n 0 16).width ∧ 1 ≤ 4 * (n 16 1).width ∧ w0.lanesOk 0 g0 [n 0 16] [n 16 1])
    ∧ (60 + 4 ≤ 4 * (n 16 16).width ∧ 4 ≤ 4 * (n 0 1).width ∧ w0.lanesOk 0 g0 [n 0 1, n 16 16] [n 16 16])
    ∧ ((n 0 8).width = (n 8 8).width ∧ (n 16 16).width = 2 * (n 0 8).width ∧ (n 0 8).width % 2 ^ 3 = 0
      ∧ w0.lanesOk 0 g0 [n 0 8, n 8 8] [n 16 16])
    ∧ ((n 16 16).width = (n 0 16).width ∧ (n 0 16).width % (2 * 2 ^ 3) = 0 ∧ w0.lanesOk 0 g0 [n 0 16] [n 16 16]) := by
  unfold State.lanesOk; decide +kernel

theorem witness_Conversions :
    (8 % fmtSlices (fmtOf 0) = 0 ∧ 2 % fmtSlices (fmtOf 4) = 0 ∧ 8 / fmtSlices (fmtOf 0) = 2 / fmtSlices (fmtOf 4)
      ∧ w0.lanesOk 0 g0 [n 0 8] [n 8 2])
    ∧ (8 % fmtSlices (fmtOf 2) = 0 ∧ 16 % 8 = 0 ∧ 8 / fmtSlices (fmtOf 2) = 16 / 8 ∧ w0.lanesOk 0 g0 [n 0 8] [n 8 16])
    ∧ (2 % 1 = 0 ∧ 16 % fmtSlices (fmtOf 0) = 0 ∧ 2 / 1 = 16 / fmtSlices (fmtOf 0) ∧ w0.lanesOk 0 g0 [n 0 2] [n 8 16])
    ∧ ((n 0 16).width = 16 ∧ (n 20 4).width = (n 0 16).width / 4 ∧ (n 16 2).width = 2 ∧ w0.lanesOk 0 g0 [n 0 16, n 16 2] [n 20 4])
    ∧ ((n 40 16).width = (n 80 16).width ∧ (n 60 8).width = (n 40 16).width / 8 * fmtSlices (efFmt 2) ∧ slcMeet (n 60 8) (n 80 16) = false
      ∧ w0.lanesOk 0 g0 [n 40 16, n 80 16] [n 60 8, n 80 16]) := by
  unfold State.lanesOk; decide +kernel

theorem witness_Predicates :
    w0.lanesOk 0 { pred := 127, neg := true } [] [] ∧ w0.lanesOk 0 g0 [] []
    ∧ (15 < 4 * (n 0 4).width ∧ w0.lanesOk 0 g0 [n 0 4] [])
    ∧ (condInt.zipIdx.length = 6 ∧ (n 0 16).width % eInt 0 = 0 ∧ w0.lanesOk 0 g0 [n 0 16, n 1008 16] [])
    ∧ ((eInt 3 = 16 ∨ (eInt 3 < 16 ∧ 2 ≠ 0)) ∧ w0.lanesOk 0 g0 [n 0 16] []) ∧ ((eInt 3 ≤ 4 ∨ 0 ≠ 0) ∧ w0.lanesOk 0 g0 [n 0 4] [])
    ∧ (condFloat.zipIdx.length = 8 ∧ nibRne 4 = true ∧ (n 0 4).width % eFloat 4 = 0 ∧ w0.lanesOk 0 g0 [n 0 4, n 4 4] [])
    ∧ ((eFloat 0 = 8 ∨ (eFloat 0 < 8 ∧ 0 ≠ 0)) ∧ nibRne 0 = true ∧ w0.lanesOk 0 g0 [n 0 8] []) := by
  unfold State.lanesOk; and_intros <;> decide +kernel

theorem witness_LaneMoves :
    w0.lanesOk 0 g0 [n 0 8, n 8 1] [n 16 8] ∧ w0.lanesOk 0 g0 [n 0 16] [n 1008 16]
    ∧ redLimits { mark := false, g := g0, d := n 0 8, a := n 8 8, nib := 3, flt := false, op := 5, uns := true, excl := false }
    ∧ redLimits { mark := false, g := g0, d := n 0 8, a := n 8 8, nib := 11, flt := true, op := 2, uns := false, excl := true }
    ∧ w0.lanesOk 0 g0 [n 8 8] [n 0 8] := by
  unfold State.lanesOk redLimits; decide +kernel

theorem witness_GathersAndScalars :
    w0.lanesOk 0 g0 [] [] ∧ w0.cur = .wave 0 ∧ (w0.wave 0).spec = none ∧ (n 1008 16).start + (n 1008 16).width ≤ 1024
    ∧ (∀ e ∈ w0.occupied 0, e.1 = 0 → (n 1008 16).start + (n 1008 16).width ≤ 64 * w0.quota (groupOf 0) (e.2 / 32)
      ∧ (w0.thread (groupOf 0) e.2).poisonedSlice [n 1008 16] = none)
    ∧ (∀ e ∈ w0.occupied 0, e.1 ≠ 31) := by
  unfold State.lanesOk; decide +kernel

theorem witness_Jumps :
    w0.cur ≠ .idle ∧ q0.cur ≠ .idle ∧ w0.leadsTo 14 15 ∧ w0.leadsTo (2 ^ 14 - 1) 0 ∧ q0.leadsTo 14 15
    ∧ (flagList w0.cc)[0]? = some false ∧ (flagList { w0.cc with status := 9 })[5]? = some true := by
  unfold State.leadsTo; decide +kernel

theorem witness_LoopForms : w0.cur ≠ .idle ∧ q0.cur ≠ .idle ∧ w0.leadsTo (2 ^ 14 - 1) 0 ∧ w0.leadsTo 14 15 := by
  unfold State.leadsTo; decide +kernel

/-- A wave may end its segment. -/
theorem w0_mayEnd : w0.mayEnd 0 :=
  ⟨⟨by decide +kernel, by decide +kernel, by decide +kernel, by decide +kernel, by decide +kernel⟩, fun r h => nomatch h⟩

/-- w0 with operands at slices 0 and 4 that name segments. -/
def w1 : State := base [(0, thr [(0, 3, 1), (4, 3, 4095)])]

/-- w1 may end its segment. -/
theorem w1_mayEnd : w1.mayEnd 0 :=
  ⟨⟨by decide +kernel, by decide +kernel, by decide +kernel, by decide +kernel, by decide +kernel⟩, fun r h => nomatch h⟩

theorem witness_SegmentEnds_successors :
    w1.mayEnd 0 ∧ (w1.lanesOk 0 { pred := 0, neg := false } [n 0 3] [] ∧ ∀ e ∈ w1.occupied 0, (w1.waveMod 0).succOk (w1.opnd 0 e.2 (n 0 3)) = true)
    ∧ (w1.lanesOk 0 { pred := 0, neg := false } [n 4 3] [] ∧ ∀ e ∈ w1.occupied 0, (w1.waveMod 0).succOk (w1.opnd 0 e.2 (n 4 3)) = true) :=
  ⟨w1_mayEnd, by unfold State.lanesOk; decide +kernel, by unfold State.lanesOk; decide +kernel⟩

theorem witness_SegmentEnds_nextu :
    (let s := w1.setWaveS 0 9 4095; s.mayEnd 0 ∧ s.sReg 9 = 4095 ∧ (s.waveMod 0).succOk (s.sReg 9) = true)
    ∧ (let s := w1.setWaveS 0 9 1
       s.mayGoOn 0 ∧ s.sReg 9 ≠ 4095 ∧ (s.waveMod 0).succOk (s.sReg 9) = true ∧ s.agedNow (groupOf 0) = []
       ∧ ∀ e ∈ s.occupied 0, (s.thread (groupOf 0) e.2).meetCur ≠ s.sReg 9) :=
  ⟨⟨⟨⟨by decide +kernel, by decide +kernel, by decide +kernel, by decide +kernel, by decide +kernel⟩, fun r h => nomatch h⟩, by decide +kernel⟩,
    ⟨⟨by decide +kernel, by decide +kernel, by decide +kernel, by decide +kernel, by decide +kernel⟩, by decide +kernel⟩⟩

theorem witness_SegmentEnds_meet :
    w1.cur = .wave 0 ∧ (w1.wave 0).level = .thread ∧ (w1.wave 0).spec = none ∧ 1 < (w1.waveMod 0).segs.length
    ∧ ((w1.waveMod 0).segOf 1).meetSeg = true ∧ (∀ e ∈ w1.occupied 0, (w1.thread (groupOf 0) e.2).meetOuter = 4095)
    ∧ ((w1.occupied 0).filter (fun e => e.2 == 0)).length = 1 := by decide +kernel

theorem witness_SequencerEnds :
    q0.cur = .seq 0 ∧ (q0.seqOf 0).drained = true ∧ (q0.seqOf 0).idem = false ∧ (q0.seqOf 0).launch = some 0 ∧ (q0.seqOf 0).deadline = false
    ∧ q0.crewsOf 0 = [0]
    ∧ (let s := q0.setSeq 0 { q0.seqOf 0 with s := [(9, 2)] }
       s.cur = .seq 0 ∧ (s.seqOf 0).drained = true ∧ (s.seqOf 0).idem = false ∧ (s.seqOf 0).launch = some 0 ∧ (s.seqOf 0).deadline = false
       ∧ s.sReg 9 ≠ 4095 ∧ s.sReg 9 < (s.launch 0).mod_.segs.length ∧ ((s.launch 0).mod_.segOf (s.sReg 9)).seq = true) := by decide +kernel

/-! ### The hypotheses of the statements are met: memory -/

/-- What every active lane of a word reaches from the offset in an operand, times m. -/
def reach (s : State) (r : MemReq) (off : Nat → Nat) : State × Tab TrapLane × List LaneAcc :=
  s.locate (s.waveEnv 0) (s.kReg r.ci) r ((s.activeLanes 0 g0).map (fun e => (e.1, e.2, off e.2)))

/-- The last eight bytes of the page of data, as an offset through k1. -/
def w2 : State := base [(0, thr [(8, 8, 0xFFF8), (40, 16, 5), (56, 16, 6)])]

/-- Loads of k1. -/
def rLd : MemReq := { ci := 1, spaces := loadSpaces, mask := permLD, acc := .load, n := 8, align := 1 }

/-- Fills through k2. -/
def rFill : MemReq := { ci := 2, spaces := loadSpaces, mask := permLD, acc := .load, n := 512, align := 1 }

/-- Where nothing is poisoned, places that show no damage are sound. -/
theorem sound_clean (s : State) (core : Nat) (ks : List (Nat × Nat)) (hp : s.store.poison = [])
    (h : ∀ k ∈ ks, s.seenBad core k = false) : s.soundFor core ks :=
  fun k hk => ⟨h k hk, .inr (fun a _ => by simp [Store.poisoned, hp])⟩

theorem witness_Loads_sound :
    (let x := reach w2 rLd (fun i => w2.opnd 0 i (n 8 8) * 2 ^ 0)
     x.1.soundFor (x.1.waveCore 0) (placesOf x.2.2))
    ∧ (let x := reach w2 rFill (fun i => w2.sReg 3 + i * (16 * ((1024 + 31) / 32)))
       x.1.soundFor (x.1.waveCore 0) (placesOf x.2.2)) :=
  ⟨sound_clean _ _ _ (by decide +kernel) (by decide +kernel), sound_clean _ _ _ (by decide +kernel) (by decide +kernel)⟩

theorem witness_Loads :
    (let x := reach w2 rLd (fun i => w2.opnd 0 i (n 8 8) * 2 ^ 0)
     (w2.wave 0).sentLoad = none ∧ x.2.2.length = 1 ∧ x.1.noneInFlight 0
     ∧ w2.lanesOk 0 g0 [n 8 8] [n 1008 16]
     ∧ w2.reaches 0 g0 { ci := 1, spaces := loadSpaces, mask := permLD, acc := .load, n := opBytes 16, align := 1 }
         (fun i => w2.opnd 0 i (n 8 8) * 2 ^ 0) x.1 x.2.2)
    ∧ (let x := reach w2 rFill (fun i => w2.sReg 3 + i * (16 * ((1024 + 31) / 32)))
       x.1.noneInFlight 0
       ∧ w2.lanesOk 0 g0 [] [{ start := 0, width := 1024 }]
       ∧ w2.reaches 0 g0 { ci := 2, spaces := loadSpaces, mask := permLD, acc := .load, n := opBytes 1024, align := 1 }
           (fun i => w2.sReg 3 + i * (16 * ((1024 + 31) / 32))) x.1 x.2.2) := by
  unfold State.noneInFlight State.lanesOk State.reaches Capv.grants; decide +kernel

/-- Tensor 1 in slot 7 of cluster 0: one tile at the page of data. -/
def tTensor : Tensor :=
  { launch := 0, base := 0x20000, tid := 1, rowPitch := 64, width := 64, height := 16, depth := 1, lease := 0, planePitch := 1024 }

/-- A lane that names the last eight bytes of the tile. -/
def w3 : State :=
  { base [(0, thr [(8, 16, 15 * 2 ^ 48 + 56 * 2 ^ 52)])] with clusters := [(0, { ClusterSt.reset with tensors := [(7, tTensor)] })] }

/-- What it reaches. -/
def tile3 : State × Tab TrapLane × List TileAcc :=
  w3.tileLocate (w3.waveEnv 0) (w3.kReg 5) 5 8 tTensor ((w3.activeLanes 0 g0).map (fun e => (e.1, e.2, w3.opnd 0 e.2 (n 8 16))))

theorem witness_Loads_tile :
    (w3.wave 0).spec = none ∧ w3.lanesOk 0 g0 [n 8 16] [n 40 16] ∧ w3.activeLanes 0 g0 ≠ [] ∧ (w3.kReg 5).grants [5] permLD
    ∧ w3.tensorSlot (w3.waveCluster 0) (w3.waveLaunch 0) (w3.kReg 5).tid = some (7, tTensor)
    ∧ w3.tileLocate (w3.waveEnv 0) (w3.kReg 5) 5 (opBytes 16) tTensor ((w3.activeLanes 0 g0).map (fun e => (e.1, e.2, w3.opnd 0 e.2 (n 8 16))))
      = (tile3.1, [], tile3.2.2)
    ∧ tile3.1.noneInFlight 0
    ∧ (∀ a ∈ tile3.2.2, ∀ x, x < opBytes 16 → (8 * bits a.v 51 48 + (bits a.v 57 52 + x) / 8)
      ∉ (tile3.1.tileSeen (w3.waveCluster 0) 7 tTensor a).2)
    ∧ ∀ a ∈ tile3.2.2, tilePoison tile3.1.store a.rows = [] := by
  unfold State.noneInFlight State.lanesOk Capv.grants; and_intros <;> decide +kernel

theorem witness_Stores :
    (let r : MemReq := { ci := 1, spaces := storeSpaces, mask := permST, acc := .store, n := opBytes 16, align := 1 }
     let x := reach w2 r (fun i => w2.opnd 0 i (n 8 8) * 2 ^ 0)
     w2.lanesOk 0 g0 [n 8 8, n 40 16] [] ∧ w2.reaches 0 g0 r (fun i => w2.opnd 0 i (n 8 8) * 2 ^ 0) x.1 x.2.2 ∧ x.1.mayStore 0 2 5)
    ∧ (let r : MemReq := { ci := 2, spaces := storeSpaces, mask := permST, acc := .store, n := opBytes 5, align := 1 }
       let x := reach w2 r (fun i => w2.sReg 3 + i * (16 * ((5 + 31) / 32)))
       w2.lanesOk 0 g0 [n 1019 5] [] ∧ w2.reaches 0 g0 r (fun i => w2.sReg 3 + i * (16 * ((5 + 31) / 32))) x.1 x.2.2 ∧ x.1.mayStore 0 0 0) := by
  unfold State.mayStore State.lanesOk State.reaches Capv.grants; decide +kernel

theorem witness_AccessAndWrites_places :
    (w2.kReg 2).space = 1 ∧ (w2.waveEnv 0).core = some 0 ∧ (w2.waveEnv 0).crew = some 0 ∧ (w2.kReg 3).space = 2 ∧ (w2.kReg 4).space = 3
    ∧ (w2.kReg 1).space ∉ [1, 2, 3] ∧ ((w2.kReg 1).base + 0xFFF8) % 65536 + 8 ≤ 65536 ∧ (w2.kReg 1).base + 0xFFF8 < 2 ^ 48 := by decide +kernel

/-- The translation of the last byte of the page. -/
def tr2 : State × Nat × Nat :=
  match w2.translate (w2.waveEnv 0) ((w2.kReg 1).base + 0xFFF8) .store with
  | .ok x => x
  | .error _ => (w2, 0, 0)

theorem witness_AccessAndWrites_translated :
    w2.translate (w2.waveEnv 0) ((w2.kReg 1).base + 0xFFF8) .store = .ok (tr2.1, tr2.2.1, tr2.2.2) := by decide +kernel

/-- A write of one byte on its way. -/
def out1 : PWrite := { lane := 0, ser := 1, cells := [(0x20000, 255, 7)], tag := none }

theorem witness_AccessAndWrites_perform :
    let s := w2.setWave 0 { w2.wave 0 with out := [out1] }
    (0 : Nat) < 2 ^ 64 ∧ (s.wave 0).out[0]? = some out1 ∧ heldBack (s.wave 0).out 0 out1 = false ∧ (s.wave 0).accts = []
    ∧ (∀ c ∈ out1.cells, isPeer c.1 = false) ∧ s.store.armed.contains (0x20000 / 16) = false := by decide +kernel

theorem witness_Atomics :
    let r : MemReq := { ci := 1, spaces := rmwSpaces, mask := permAT, acc := .store, n := 8, align := 8 }
    let x := reach w2 r (fun i => w2.opnd 0 i (n 8 8))
    x.1.noneInFlight 0 ∧ x.1.plainPlaces x.2.2 ∧ x.2.2.length = 1 ∧ (w2.wave 0).spec = none
    ∧ w2.reaches 0 g0 r (fun i => w2.opnd 0 i (n 8 8)) x.1 x.2.2 ∧ x.1.mayStore 0 3 4 ∧ x.1.mayStore 0 2 5
    ∧ atomTable.length = 12 ∧ w2.lanesOk 0 g0 [n 8 8, n 40 16] [n 40 16] ∧ w2.lanesOk 0 g0 [n 8 8, n 40 16] []
    ∧ w2.lanesOk 0 g0 [n 8 8, n 40 16, { start := 40 + 16, width := 16 }] [n 40 16] := by
  unfold State.noneInFlight State.plainPlaces State.mayStore State.lanesOk State.reaches Capv.grants; decide +kernel

/-- s20 = 0x8000, s21 = 0x8000 and s22 = 1 in a wave with the capabilities. -/
def w4 : State :=
  { w0 with groups := [(0, { tGroup [(0, thr [])] with s := [(20, 0x8000), (21, 0x8000), (22, 1), (23, 0xFFF0)] })] }

theorem witness_Capabilities :
    w4.cur = .wave 0 ∧ (w4.wave 0).spec = none
    ∧ ((w4.kReg 1).tag = true ∧ (w4.kReg 1).isSealed = false ∧ (w4.kReg 1).perm &&& permDV = permDV
      ∧ w4.sReg (20 + 2) % 4096 &&& (w4.kReg 1).perm = w4.sReg (20 + 2) % 4096
      ∧ (w4.kReg 1).base + w4.sReg 20 + w4.sReg (20 + 1) ≤ (w4.kReg 1).top)
    ∧ ((w4.kReg 7).tag = true ∧ (w4.kReg 7).isSealed = false ∧ (w4.kReg 6).tag = true ∧ (w4.kReg 6).isSealed = false
      ∧ (w4.kReg 6).perm &&& permSU = permSU ∧ (w4.kReg 6).base = (w4.kReg 6).top ∧ (w4.kReg 6).tid = (w4.kReg 7).tid)
    ∧ (let s := w4.setWaveK 0 8 (Capv.make true 0x4000 0 9 0xFFF 1 true)
       (s.kReg 8).tag = true ∧ (s.kReg 8).isSealed = true ∧ (s.kReg 6).tid = (s.kReg 8).tid)
    ∧ capFields.length = 10 ∧ w4.lanesOk 0 { pred := 0, neg := false } [] [n 1008 16] := by
  unfold State.lanesOk; decide +kernel

/-- The places of an LDC or an STC at the last granule of the page. -/
def ldcKeys (acc : Acc) : State × List (Nat × Nat) :=
  match w4.capKeys (w4.waveEnv 0) (w4.kReg 1) acc (w4.sReg 23) 16 with
  | .ok x => x
  | .error _ => (w4, [])

theorem witness_Capabilities_memory :
    w4.laneCheck (w4.waveEnv 0) (w4.kReg 1) (w4.sReg 23) 16 16 = none ∧ (w4.kReg 1).grants rmwSpaces permLD
    ∧ (ldcKeys .load).2.length = 16
    ∧ w4.capKeys (w4.waveEnv 0) (w4.kReg 1) .load (w4.sReg 23) 16 = .ok (ldcKeys .load) ∧ (ldcKeys .load).1.noneInFlight 0
    ∧ (w4.wave 0).held = none
    ∧ (w4.kReg 1).grants rmwSpaces (permST + permSC)
    ∧ ((w4.kReg 7).tag = true ∧ (w4.kReg 7).perm &&& permPV = permPV ∧ ∀ k ∈ (ldcKeys .store).2, isPlace3 k.1 = false)
    ∧ w4.capKeys (w4.waveEnv 0) (w4.kReg 1) .store (w4.sReg 23) 16 = .ok (ldcKeys .store) ∧ (ldcKeys .store).1.mayStore 0 2 4 := by
  unfold Capv.grants State.noneInFlight State.mayStore; and_intros <;> decide +kernel

theorem witness_Capabilities_sound : (ldcKeys .load).1.soundFor ((ldcKeys .load).1.waveCore 0) (ldcKeys .load).2 :=
  sound_clean _ _ _ (by decide +kernel) (by decide +kernel)

/-- A wave whose latest write has a GWCT that has not passed. -/
def wLate : State := w0.setWave 0 { w0.wave 0 with maxw := 5000 }

theorem witness_FencesAndPrefetch :
    w0.cur = .wave 0 ∧ (w0.wave 0).pend = [] ∧ (w0.wave 0).spec = none ∧ w0.releaseDone 0 5 = true ∧ wLate.releaseDone 0 4 = false
    ∧ (wLate.wave 0).pend = [] ∧ (wLate.wave 0).spec = none
    ∧ q0.cur = .seq 0 ∧ (q0.seqOf 0).drained = true ∧ (q0.seqOf 0).idem = false ∧ q0.seqReleaseDone 0 5 = true
    ∧ w0.releaseDone 0 0 = true ∧ w0.lanesOk 0 g0 [n 1008 16] [] := by
  unfold State.lanesOk; decide +kernel

/-- The init words of a local object for two arrivals and of a future (R293). -/
def w5 : State := { w0 with groups := [(0, { tGroup [(0, thr [])] with s := [(1, 2), (2, 2 ^ 48), (3, 0x3FF0), (4, 0x3FE0), (5, 1)] })] }

theorem witness_Barriers_wave :
    (initGridOk w5.agentMod (w5.sReg 1) = true ∧ w5.mayBar 2 (w5.sReg 3) (initSize (w5.sReg 1)))
    ∧ (initGridOk w5.agentMod (w5.sReg 2) = true ∧ initSize (w5.sReg 2) = 32 ∧ w5.mayBar 2 (w5.sReg 4) (initSize (w5.sReg 2))
      ∧ ∀ i, i < 16 → w5.store.armed.contains ((w5.objectPlace w5.agentEnv (w5.kReg 2) (w5.sReg 4) + 16 + i) / 16) = false)
    ∧ w5.mayBar 3 (w5.sReg 3) 16 ∧ w5.activeLanes 0 g0 ≠ []
    ∧ w5.releaseDone 0 (barScope (w5.kReg 2).space (w5.store.barrier (w5.objectPlace w5.agentEnv (w5.kReg 2) (w5.sReg 3)))) = true
    ∧ ((w5.store.barrier (w5.objectPlace w5.agentEnv (w5.kReg 2) (w5.sReg 3))).phase + 65536 - w5.sReg 6 % 65536) % 65536 < 32768
    ∧ ¬((w5.store.barrier (w5.objectPlace w5.agentEnv (w5.kReg 2) (w5.sReg 3))).phase + 65536 - w5.sReg 5 % 65536) % 65536 < 32768 := by
  have h : ∀ ci off m, w5.mayBar ci off m = (w5.laneCheck (w5.waveEnv 0) (w5.kReg ci) off m m = none
    ∧ (w5.kReg ci).grants [1, 2] permBA ∧ w5.noneInFlight 0 ∧ (w5.wave 0).relGate = none
      ∧ w5.store.poisoned (w5.objectPlace (w5.waveEnv 0) (w5.kReg ci) off) 16 = false) := fun _ _ _ => rfl
  rw [h, h, h]
  unfold Capv.grants State.noneInFlight
  and_intros <;> decide +kernel

theorem witness_Barriers_sequencer :
    q0.mayBar 3 (q0.sReg 2) 16
    ∧ q0.seqReleaseDone 0 (barScope (q0.kReg 3).space (q0.store.barrier (q0.objectPlace q0.agentEnv (q0.kReg 3) (q0.sReg 2)))) = true
    ∧ (q0.seqOf 0).deadline = false := by
  have h : q0.mayBar 3 (q0.sReg 2) 16 = (q0.laneCheck (q0.seqEnv 0) (q0.kReg 3) (q0.sReg 2) 16 16 = none
    ∧ (q0.kReg 3).grants [2] permBA ∧ q0.store.poisoned (q0.objectPlace (q0.seqEnv 0) (q0.kReg 3) (q0.sReg 2)) 16 = false
      ∧ (q0.seqOf 0).idem = false ∧ (q0.seqOf 0).drained = true
      ∧ (q0.seqOf 0).relGate = none ∧ (q0.seqOf 0).park = .run) := rfl
  rw [h]
  unfold Capv.grants
  and_intros <;> decide +kernel

/-- A wave in the release queue of its cluster. -/
def wQueued : State :=
  { w0.setWave 0 { w0.wave 0 with park := .queued (2 ^ 48) 1 0 0 true } with
    clusters := [(0, { ClusterSt.reset with relQ := [0], sluiceAt := some 1394 })] }

/-- The machine s with the object b at byte off of crew 0's scratchpad. -/
def putBar (s : State) (off : Nat) (b : BarObj) : State :=
  { s with mem := { s.mem with store := { s.store.putCells (wholeCells (spKey 0 off) (barrierBytes b)) with armed := memberAdd s.store.armed (spKey 0 off / 16) } } }

/-- A grid barrier 0 of all the launch's crews at byte 0x100 of the scratchpad, with SETTLE, in one crew. -/
def wGrid : State :=
  putBar { w0 with
    launches := [(0, { tLaunch with mod_ := { tMod with barriers := [⟨0x100, 0, 0, 0, 0⟩] } })]
    crews := [(0, { tCrew with gridHeld := [(0, 0)] })] } 0x100
    { phase := 65535, expArr := 2, pendArr := 0, flags := 0x9000, expBytes := 0, pendBytes := 0 }

/-- An arrival at the port for an instance with n crews still missing. -/
def wPort (n : Nat) : State :=
  { wGrid with
    launches := [(0, { tLaunch with mod_ := { tMod with barriers := [⟨0x100, 0, 0, 0, 0⟩] }, grids := [(0, ⟨n, 65535, [0], []⟩)] })]
    sched := { SchedRegs.reset with gridPort := [(0, 0)], gridRel := [(0, 0)] } }

theorem witness_Barriers_shut :
    w5.gridShut (w5.objectPlace w5.agentEnv (w5.kReg 2) (w5.sReg 3)) = false
    ∧ (let s := { wGrid with groups := [(0, { tGroup [(0, thr [])] with s := [(1, 2), (3, 0x100)] })] }
       initGridOk s.agentMod (s.sReg 1) = true ∧ initSize (s.sReg 1) = 16 ∧ s.objectPlace s.agentEnv (s.kReg 2) (s.sReg 3) = spKey 0 0x100
       ∧ s.gridShut (spKey 0 0x100) = true ∧ s.laneCheck (s.waveEnv 0) (s.kReg 2) (s.sReg 3) 16 16 = none
       ∧ s.store.poisoned (spKey 0 0x100) 16 = false) := by decide +kernel

theorem witness_SluiceAndGrid :
    ((wQueued.cluster 0).relQ ≠ [] ∧ ∀ x, x = 1394 → x + (((wQueued.cluster 0).cslrStep + 1) * (wQueued.cluster 0).cslrEstimate * 14
        + (10 * (wQueued.cluster 0).cslrLimit - 1)) / (10 * (wQueued.cluster 0).cslrLimit) ≤ wQueued.cycles 0)
    ∧ (wGrid.gridDecl 0 0 = some ⟨0x100, 0, 0, 0, 0⟩
      ∧ gridClosed (wGrid.store.barrier (wGrid.gridPlace 0 ⟨0x100, 0, 0, 0, 0⟩)) = true
      ∧ bit (wGrid.store.barrier (wGrid.gridPlace 0 ⟨0x100, 0, 0, 0, 0⟩)).flags 12 = true ∧ wGrid.chainsSettled 0 0 = true)
    ∧ tabFind (wGrid.crew 0).gridHeld 0 = some 0 ∧ (wGrid.crew 0).ended = false ∧ (wGrid.crew 0).killed = false
    ∧ (wGrid.crew 0).gridSent.contains 0 = false := by
  refine ⟨⟨by decide +kernel, fun x h => by subst h; decide +kernel⟩, by decide +kernel⟩

theorem witness_SluiceAndGrid_port :
    (∀ m ∈ [1, 2], (wPort m).sched.gridPort = (0, 0) :: [] ∧ (wPort m).sched.failed = false ∧ (wPort m).sched.replay = false
      ∧ (wPort m).gridDecl 0 0 = some ⟨0x100, 0, 0, 0, 0⟩
      ∧ (tabGet ((wPort m).launch 0).grids ⟨0, 0, [], []⟩ (gridKey ⟨0x100, 0, 0, 0, 0⟩ ((wPort m).crew 0))).pending = m
      ∧ (tabGet ((wPort m).launch 0).grids ⟨0, 0, [], []⟩ (gridKey ⟨0x100, 0, 0, 0, 0⟩ ((wPort m).crew 0))).crews ≠ [])
    ∧ (wPort 1).sched.gridRel = (0, 0) :: [] ∧ ((wPort 1).crew 0).ended = false ∧ ((wPort 1).crew 0).killed = false := by decide +kernel

/-- A word that has not waited reads its k registers as they stand. -/
theorem witness_kUse (s : State) (r : Nat) (h : ∀ w, s.cur = .wave w → (s.wave w).held = none) : s.kUse r = s.kReg r := by
  unfold State.kUse
  split
  · rename_i w hw
    rw [h w hw]
  · rfl

/-! ### The hypotheses of the statements are met: units of a wave -/

/-- A view of 64 rows and one column of 2-slice elements, 16 slices apart, from n0 on (R193). -/
def tView : Nat := 2 * 2 ^ 46 + 1 * 2 ^ 42 + 63 * 2 ^ 36 + 0 * 2 ^ 30 + 2 * 2 ^ 20

/-- A thread that names accumulator row 448, with s4 = 255. -/
def wView : State :=
  { base [(0, thr [(200, 16, 448)])] with
    groups := [(0, { tGroup [(0, thr [(200, 16, 448)])] with s := [(4, 255)], vw := [(3, BitVec.ofNat 64 tView)] })] }

theorem witness_AccumulatorReads :
    tView = (wView.groupVw (groupOf 0) 3).toNat ∧ [Fmt.f32, .f16, .bf16, .e4m3, .e5m2][4]? = some Fmt.e5m2 ∧ bits tView 47 46 = 2
    ∧ bits tView 45 42 + 1 = fmtSlices .e5m2 ∧ (n 200 16).width ≤ 16 ∧ wView.sReg 4 + bits tView 35 30 + 1 ≤ 256
    ∧ (wView.wave 0).spec = none ∧ (wView.seqOf (wView.waveCluster 0)).mmas = []
    ∧ wView.lanesOk 0 g0 [n 200 16] ((viewIndex (bits tView 41 36) (bits tView 35 30)).map (fun e => viewSlc tView e.1 e.2))
    ∧ (∀ e ∈ wView.activeLanes 0 g0, wView.opnd 0 e.2 (n 200 16) + bits tView 41 36 + 1 ≤ 512)
    ∧ wView.store.poison = [] := by
  unfold State.lanesOk; decide +kernel

theorem witness_AccumulatorReads_poison (a m : Nat) : wView.store.poisoned a m = false := by
  have h : wView.store.poison = [] := by decide +kernel
  simp [Store.poisoned, h]

/-- A transfer record at byte 0 of the scratchpad, and its capabilities in granules 8 to 10: from byte 0x300 of the scratchpad to the
last eight bytes of the page, crediting the object at byte 0x200. -/
def tRecord : Nat :=
  (2 ^ 31 + 2 ^ 30) + 1 * 256 ^ 4 + (8 + 9 * 4096 + 10 * 2 ^ 24) * 256 ^ 8 + 0x300 * 256 ^ 14 + 0xFFF8 * 256 ^ 20 + 0x200 * 256 ^ 26
    + 8 * 256 ^ 29 + 256 ^ 32 + 256 ^ 34 + 256 ^ 36

/-- Memory with the record and its capabilities. -/
def fStore : Store :=
  ((((tStore.write (wholeCells (spKey 0 0) (bytesOf tRecord 64)) none).write
    (wholeCells (spKey 0 128) (bytesOf (Capv.make true 0x4000 0 0 0xFFF 1 false).bits.toNat 16)) (some true)).write
    (wholeCells (spKey 0 144) (bytesOf (Capv.make true 0x30000 0x20000 0 0xFFF 0 false).bits.toNat 16)) (some true)).write
    (wholeCells (spKey 0 160) (bytesOf (Capv.make true 0x4000 0 0 0xFFF 1 false).bits.toNat 16)) (some true)).write
    (wholeCells (spKey 0 0x300) (bytesOf 0x1122334455667788 8)) none

/-- The chain of that record, with what it owes. -/
def fChain (off : Nat) (c : Option Credit) : Chain :=
  { crew := 0, cap := Capv.make true 0x4000 0 0 0xFFF 1 false, off := off, kick := 0, fork := Fork.none, credit := c }

/-- A head of crew 0. -/
def fHead (fwd : Bool) : Head :=
  { crew := 0, cap := Capv.make true 0x4000 0 0 0xFFF 1 false, off := 0, kick := 0, fork := Fork.none, forwarded := fwd }

/-- The machine with a channel 3 on core 0. -/
def wFl (x : Channel) : State :=
  { base [(0, thr [])] with
    cores := [(0, { CoreSt.reset with channels := [(3, x)] })], mem := { MemSys.reset with store := fStore } }

/-- A credit that is due. -/
def fCredit (last : Bool) : Credit := { place := spKey 0 0x200, bytes := some 8, err := false, maxw := 999, last := last, off := 0 }

/-- FLK with s register a, on channel 3. -/
def fFlk : Flk := { mark := false, ch := 7, cap := 2, a := 9 }

/-- Sixteen entries in staging. -/
def fStaging : Tab (List Spilled) := [(0, List.replicate 16 (.head 0 3 (fHead false)))]

theorem witness_Flumes_kick :
    let s := { wFl Channel.idle with groups := [(0, { tGroup [(0, thr [])] with s := [(9, 0x3FC0)] })] }
    s.cur = .wave 0 ∧ (s.wave 0).spec = none ∧ (s.wave 0).relGate = none ∧ (s.kReg fFlk.cap).grants [0, 1, 2] (permXF + permLD + permLC)
    ∧ s.sReg fFlk.a + 64 ≤ (s.kReg fFlk.cap).top - (s.kReg fFlk.cap).base
    ∧ (s.spaceLimit (s.waveEnv 0) (s.kReg fFlk.cap).space).all
      (fun lim => decide ((s.kReg fFlk.cap).base + s.sReg fFlk.a + 64 ≤ lim)) = true ∧ ((s.kReg fFlk.cap).base + s.sReg fFlk.a) % 64 = 0
    ∧ ((s.channel 0 3).heads.length < 16 ∧ s.crewSpilled 0 = false ∧ s.channelSpilled 0 3 = false)
    ∧ (let full := wFl { heads := List.replicate 16 (fHead false), chain := none, cancelled := [] }
       ¬((full.channel 0 3).heads.length < 16) ∧ full.stagingRoom (clusterOf 0) 0 = true
       ∧ { full with clusters := [(0, { ClusterSt.reset with staging := fStaging })] }.stagingRoom (clusterOf 0) 0 = false) := by
  unfold Capv.grants; decide +kernel

theorem witness_Flumes_channel :
    (let s := wFl { heads := [fHead true, fHead false], chain := none, cancelled := [] }
     (s.channel 0 3).heads = [fHead true] ++ fHead false :: [] ∧ (fHead true).forwarded = true ∧ (fHead false).forwarded = false
     ∧ s.forkReturned (fHead false).fork = true)
    ∧ (let s := wFl { heads := [fHead true], chain := none, cancelled := [] }
       (s.channel 0 3).heads = fHead true :: [] ∧ (s.channel 0 3).chain = none ∧ (s.channel 0 3).cancelled = []
       ∧ (fHead true).forwarded = true ∧ s.forkReady (fHead true).fork = true ∧ s.clusterRuns (clusterOf 0) = true
       ∧ s.channelSpilled 0 3 = false)
    ∧ (let s := wFl { heads := [], chain := some (fChain 64 (some (fCredit false))), cancelled := [fChain 64 (some (fCredit true))] }
       (s.channel 0 3).chain = some (fChain 64 (some (fCredit false))) ∧ s.chainTurn 0 (fChain 64 (some (fCredit false)))
       ∧ (fCredit false).maxw < s.dt ∧ (s.channel 0 3).cancelled = fChain 64 (some (fCredit true)) :: []
       ∧ s.chainTurn 0 (fChain 64 (some (fCredit true)))
       ∧ s.store.poisoned (fCredit true).place 16 = false
       ∧ { s with mem := { s.mem with store := s.store.poisonGranule (spKey 0 0x200 / 16) } }.store.poisoned (fCredit false).place 16 = true) := by
  unfold State.chainTurn; decide +kernel

/-- A channel that runs or has left a chain without a credit, at an offset. -/
def wRec (off : Nat) : State := wFl { heads := [], chain := some (fChain off none), cancelled := [fChain off none] }

/-- The record that the chain reads. -/
def rRec (off : Nat) : State × Option FlumeRec := (wRec off).readRecord ((wRec off).chainEnv 0) (fChain off none) 3

/-- The record itself. -/
def theRec : FlumeRec := flumeRec (bytesOf tRecord 64)

/-- The place of its barrier object. -/
def rBar : State × Nat :=
  match (rRec 0).1.recordBarrier ((wRec 0).chainEnv 0) (fChain 0 none) theRec with
  | .ok x => x
  | .error _ => (wRec 0, 0)

/-- The move. -/
def rMove : State × Nat × Nat := rBar.1.moveRecord ((wRec 0).chainEnv 0) (fChain 0 none) 3 theRec

/-- The header written after it. -/
def rHdr (s : State) (st : Nat) : State × Nat := (s.writeHdr ((wRec 0).chainEnv 0) (fChain 0 none) theRec st).getD (s, 0)

theorem witness_Flumes_end :
    ((wRec 64).channel 0 3).chain = some (fChain 64 none) ∧ ((wRec 64).channel 0 3).cancelled = fChain 64 none :: []
    ∧ (wRec 64).chainTurn 0 (fChain 64 none) ∧ (rRec 64).2 = none := by
  unfold State.chainTurn; decide +kernel

theorem witness_Flumes_record :
    (wRec 0).chainTurn 0 (fChain 0 none) ∧ (rRec 0).2 = some theRec
    ∧ (rRec 0).1.recordBarrier ((wRec 0).chainEnv 0) (fChain 0 none) theRec = .ok (rBar.1, spKey 0 0x200) ∧ rMove.2.1 = 0
    ∧ rMove.1.writeHdr ((wRec 0).chainEnv 0) (fChain 0 none) theRec 0 = some (rHdr rMove.1 0)
    ∧ (rBar.1.setStopped 0 3).writeHdr ((wRec 0).chainEnv 0) (fChain 0 none) theRec 7 = some (rHdr (rBar.1.setStopped 0 3) 7) := by
  unfold State.chainTurn; and_intros <;> decide +kernel

/-- The job of the record. -/
def rJob : State × FlumeJob :=
  match rBar.1.recordJob ((wRec 0).chainEnv 0) (fChain 0 none) 3 theRec with
  | .ok x => x
  | .error _ => (wRec 0, { crew := 0, ch := 0, recNo := 0, src := Capv.null, dst := Capv.null, idx := Capv.null, r := theRec })

/-- Its source and destination. -/
def rSrc : State × List (Nat × Nat) × Option Cause := rJob.1.sidePrefix ((wRec 0).chainEnv 0) rJob.2.src .load theRec.srcOff theRec.len0

/-- The destination's places. -/
def rDst : State × List (Nat × Nat) × Option Cause := rSrc.1.sidePrefix ((wRec 0).chainEnv 0) rJob.2.dst .store theRec.dstOff theRec.len0

theorem witness_Flumes_move :
    theRec.badShape = false ∧ theRec.mode = 0 ∧ theRec.cnt1 = 1 ∧ theRec.cnt2 = 1 ∧ theRec.cnt3 = 1
    ∧ rBar.1.recordJob ((wRec 0).chainEnv 0) (fChain 0 none) 3 theRec = .ok (rJob.1, rJob.2) ∧ rJob.2.src.space ≠ 5
    ∧ rSrc.2.2 = none ∧ rDst.2.2 = none ∧ rSrc.2.1.length = 8 ∧ rDst.2.1.length = 8 ∧ (rDst.2.1.map (fun k => k.1)).Nodup
    ∧ (∀ k ∈ rDst.2.1, isPeer k.1 = false ∧ rDst.1.store.armed.contains (k.1 / 16) = false) := by
  and_intros <;> decide +kernel

/-- A machine whose thread holds a record at n100 that enters segment 1, with this many records queued on its core. -/
def wSpawn (q : Nat) : State :=
  { base [(0, thr [(100, 128, 1)])] with
    cores := [(0, { CoreSt.reset with headrace := List.replicate q ⟨[1, 0, 2 ^ 56, 2 ^ 64 - 1, 7], 0, Fork.none⟩ })] }

/-- A task record. -/
def tRec : TaskRec := ⟨[1, 0, 0x41 * 2 ^ 56, 2 ^ 64 - 1, 7], 0, Fork.none⟩

theorem witness_SpawnCancelLaunch_spawn :
    (let s := wSpawn 255
     (n 8 2).width = 2 ∧ s.cur = .wave 0 ∧ (s.wave 0).spec = none ∧ (s.wave 0).relGate = none
     ∧ s.lanesOk 0 g0 [{ start := 100, width := 128 }] [n 8 2] ∧ s.activeLanes 0 g0 ≠ []
     ∧ (∀ e ∈ s.activeLanes 0 g0, (s.waveMod 0).entryOk ((s.sliceWords 0 e.2 100).getD 0 0 % 4096) = true)
     ∧ (s.launch tRec.launch).deadlineFell = false ∧ (s.core 0).headrace.length < 256 ∧ s.spilledOn tRec.launch 0 = false)
    ∧ (let s := wSpawn 256
       ¬((s.core 0).headrace.length < 256) ∧ s.stagingRoom (clusterOf 0) tRec.launch = true
       ∧ { s with clusters := [(0, { ClusterSt.reset with staging := fStaging })] }.stagingRoom (clusterOf 0) 0 = false) := by
  unfold State.lanesOk; decide +kernel

theorem witness_SpawnCancelLaunch_cancel :
    (let s := { wSpawn 1 with groups := [(0, { tGroup [(0, thr [])] with s := [(9, 0xFF01)] })] }
     s.cur = .wave 0 ∧ (s.wave 0).spec = none ∧ (s.wave 0).relGate = none ∧ s.releaseDone 0 4 = true
     ∧ (s.launch (s.waveLaunch 0)).ending = false ∧ (s.cancelRecords (s.waveLaunch 0) (s.sReg 9)).length = 1
     ∧ ∀ r ∈ s.cancelRecords (s.waveLaunch 0) (s.sReg 9), r.succAddr = 2 ^ 64 - 1)
    ∧ (let s := w0.setWave 0 { w0.wave 0 with park := .cancel 5 1 true }
       (s.wave 0).park = .cancel 5 1 true ∧ (s.wave 0).succRel = [] ∧ s.isSaved (crewOf 0) = false) := by decide +kernel

/-- s9 is the last place of a launch record in the page of data; the device launch queue holds some records. -/
def wLaunch (q : Nat) : State :=
  { base [(0, thr [])] with
    groups := [(0, { tGroup [(0, thr [])] with s := [(9, 0xFF80)] })]
    sched := { SchedRegs.reset with devQ := List.replicate q ⟨[], 0, Fork.none, 0⟩ } }

/-- The places of the record. -/
def launchKeys (q : Nat) : State × List (Nat × Nat) :=
  match (wLaunch q).capKeys ((wLaunch q).waveEnv 0) ((wLaunch q).kReg 1) .load ((wLaunch q).sReg 9) 128 with
  | .ok x => x
  | .error _ => (wLaunch q, [])

theorem witness_SpawnCancelLaunch_launch :
    ∀ q ∈ [63, 64], (wLaunch q).cur = .wave 0 ∧ ((wLaunch q).kReg 1).grants [0, 1, 2, 4, 5] permLD
      ∧ (wLaunch q).laneCheck ((wLaunch q).waveEnv 0) ((wLaunch q).kReg 1) ((wLaunch q).sReg 9) 128 1 = none
      ∧ (wLaunch q).capKeys ((wLaunch q).waveEnv 0) ((wLaunch q).kReg 1) .load ((wLaunch q).sReg 9) 128 = .ok (launchKeys q)
      ∧ (launchKeys q).2.length = 128 ∧ ((wLaunch q).wave 0).spec = none ∧ (launchKeys q).1.noneInFlight 0
      ∧ ((launchKeys q).1.wave 0).relGate = none
      ∧ (launchKeys q).1.sched.devQ.length = q := by
  unfold Capv.grants State.noneInFlight; decide +kernel

theorem witness_SpawnCancelLaunch_sound :
    ∀ q ∈ [63, 64], (launchKeys q).1.soundFor ((launchKeys q).1.waveCore 0) (launchKeys q).2 := by
  intro q hq
  refine sound_clean _ _ _ ?_ ?_ <;> (revert q; decide +kernel)

/-- An idle group of a task launch, with a record in the headrace and one that waits with the group. -/
def wTask : State :=
  { base [] with
    groups := [(0, { tGroup [(0, { thr [] with place := .dead })] with waitingRel := [] })]
    launches := [(0, { tLaunch with rec_ := { LaunchRec.zero with task := true } })]
    cores := [(0, { CoreSt.reset with headrace := [tRec, { tRec with words := [1, 0, 0, 2 ^ 64 - 1, 3] }] })], waves := [] }

/-- The same group with a release that waits. -/
def wRelease : State := { wTask with groups := [(0, { tGroup [(0, { thr [] with place := .dead })] with waitingRel := [tRec] })] }

/-- A table of one entry. -/
theorem one_entry {α : Type} {k x : Nat} (v d : α) (h : x ≠ k) : tabGet [(k, v)] d x = d := by
  simp [tabGet, tabFind, Ne.symm h]

theorem witness_TasksAndCounters_start :
    (wTask.groupIdle 0 = true ∧ wTask.crewFrozen (0 / 8) = false
      ∧ ∃ r ∈ (wTask.core (wTask.crew (0 / 8)).core).headrace, r.launch = (wTask.crew (0 / 8)).launch ∧ wTask.forkReady r.fork = true)
    ∧ (wRelease.group 0).waitingRel = [tRec] ∧ (tabFind wRelease.groups 0).isSome = true ∧ (wRelease.crew (0 / 8)).ended = false
    ∧ (∀ x, x ≠ 0 → (wRelease.group x).waitingRel = []) ∧ (∀ x, (wRelease.wave x).succRel = [])
    ∧ (wRelease.enqueue (wRelease.crew (0 / 8)).core tRec).2 ≠ 4 :=
  ⟨by decide +kernel, by decide +kernel, by decide +kernel, by decide +kernel,
    fun x hx => by unfold State.group wRelease; rw [one_entry _ _ hx]; rfl,
    fun x => rfl, by decide +kernel⟩

/-- A counter in the last granule of the page that holds 1, with its successor record at byte 0x100, and a lane that adds v. -/
def wSucc (v : Nat) : State :=
  { base [(0, thr [(8, 8, 0xFFF0), (40, 16, v)])] with
    mem := { MemSys.reset with store := ((tStore.put8 0x2FFF0 1).put8 0x2FFF8 0x100).put8 0x20100 1 } }

/-- SUCC on it. -/
def tSucc : Succ := { mark := false, g := g0, cap := 1, a := n 8 8, v := n 40 16 }

/-- Its access. -/
def rSucc : MemReq := { ci := 1, spaces := rmwSpaces, mask := permAT, acc := .store, n := 16, align := 16 }

/-- The addition that it makes. -/
def fSucc (v : Nat) (i m : Nat) : Option Nat := some (lowBits (sInt 64 m + sInt 64 ((wSucc v).opnd 0 i (n 40 16))) 64)

/-- The counter after the addition, and its successor. -/
def aSucc : State × Option TaskRec :=
  let x := reach (wSucc (2 ^ 64 - 1)) rSucc (fun i => (wSucc (2 ^ 64 - 1)).opnd 0 i (n 8 8))
  let ks := (x.2.2.headD { lane := 0, thread := 0, off := 0, keys := [] }).keys
  (x.1.dropL1 (x.1.waveCore 0) (keyCells (ks.take 8) 0)).counterAdd (x.1.waveEnv 0) ((wSucc (2 ^ 64 - 1)).kReg 1) ks (-1)

theorem witness_TasksAndCounters_succ :
    ∀ v ∈ [2 ^ 64 - 2, 2 ^ 64 - 1],
      let s := wSucc v
      let x := reach s rSucc (fun i => s.opnd 0 i (n 8 8))
      s.cur = .wave 0 ∧ (s.wave 0).spec = none ∧ x.1.noneInFlight 0 ∧ x.1.plainPlaces x.2.2 ∧ x.1.mayStore 0 2 4
      ∧ (x.1.launch (x.1.waveLaunch 0)).ending = false ∧ x.2.2.length = 1 ∧ s.lanesOk 0 g0 [tSucc.a, tSucc.v] []
      ∧ s.reaches 0 g0 rSucc (fun i => s.opnd 0 i (n 8 8)) x.1 x.2.2
      ∧ ((∀ p ∈ (rmwRun x.1.store (fSucc v) (x.2.2.map LaneAcc.count)).2, fSucc v p.1 p.2 ≠ some 0) ↔ v = 2 ^ 64 - 2) := by
  unfold State.noneInFlight State.plainPlaces State.mayStore State.lanesOk State.reaches Capv.grants; decide +kernel

theorem witness_TasksAndCounters_zero :
    sInt 64 ((wSucc (2 ^ 64 - 1)).opnd 0 0 tSucc.v) = -1 ∧ aSucc.2 = some ⟨[1, 0, 0, 0, 0, 0, 0, 0], 0, Fork.none⟩
    ∧ (aSucc.1.launch ((wSucc (2 ^ 64 - 1)).waveLaunch 0)).ending = false
    ∧ (aSucc.1.enqueue (aSucc.1.waveCore 0) ⟨[1, 0, 0, 0, 0, 0, 0, 0], 0, Fork.none⟩).2 ≠ 4 := by decide +kernel

/-- The pool at these bounds, with some nodes cached in the cluster. -/
def wPool (next limit : Nat) (c : List Nat) : State :=
  { base [(0, thr [(0, 8, 7)])] with
    launches := [(0, { tLaunch with pools := [(0, { next := next, limit := limit, freed := [] })] })] }.setCache 0 0 0 c

theorem witness_PoolsAndQuotas_pools :
    (let s := wPool 7 8 []
     ((s.groupMod (groupOf 0)).poolDecl 0).isSome = true ∧ s.lanesOk 0 g0 [] [n 1016 8] ∧ s.cur = .wave 0 ∧ (s.wave 0).spec = none
     ∧ (s.wave 0).relGate = none ∧ (∀ x ∈ s.nodeOrder 0 0 0, x ≠ 0xFFFFFFFF)
     ∧ (s.activeLanes 0 g0).length = 1 ∧ (s.nodeOrder 0 0 0).length = 1)
    ∧ (wPool 8 8 []).nodeOrder 0 0 0 = [] ∧ (wPool 8 8 []).lanesOk 0 g0 [] [n 1016 8]
    ∧ (let s := wPool 8 8 (List.replicate 63 0)
       ((s.groupMod (groupOf 0)).poolDecl 0).isSome = true ∧ s.lanesOk 0 g0 [n 0 8] [] ∧ s.releaseDone 0 4 = true
       ∧ s.activeLanes 0 g0 ≠ [] ∧ (∀ e ∈ s.activeLanes 0 g0, s.opnd 0 e.2 (n 0 8) < (s.pool 0 0).next)
       ∧ (s.cacheOf 0 0 0).length + (s.activeLanes 0 g0).length = 64) := by
  unfold State.lanesOk; decide +kernel

/-- A group whose home wave has 8 of so many units. -/
def wQuota (units : Nat) : State :=
  { w0 with groups := [(0, { tGroup [(0, thr [])] with quota := [(0, 8)], pool := units, s := [(1, 0)] })] }

theorem witness_PoolsAndQuotas_quotas :
    ∀ u ∈ [16, 15], let s := wQuota u
      s.cur = .wave 0 ∧ (s.wave 0).spec = none ∧ s.sReg 1 % 16 < (s.launch (s.waveLaunch 0)).rec_.wpg
      ∧ s.targetsBeyond (groupOf 0) 0 7 = false ∧ 7 ≤ s.quota (groupOf 0) 0 ∧ ¬(16 ≤ s.quota (groupOf 0) 0)
      ∧ (16 - s.quota (groupOf 0) 0 ≤ s.freeUnits (groupOf 0) ↔ u = 16) := by decide +kernel

/-- A lane with a row of 128 bytes at n100 and a future in the last 32 bytes of the scratchpad. -/
def wCis (x : Cistern) : State :=
  { base [(0, thr [(100, 16, 7), (8, 8, 0x3FE0)])] with
    clusters := [(0, { ClusterSt.reset with seq := { Seq.idle with launch := some 0 }, cisterns := [(0, x)] })] }

/-- A row that waits in a cistern. -/
def tRow (f : Nat) : CisRow := { bytes := List.replicate 128 3, future := f, crew := 0, poison := [], fork := Fork.none }

/-- The access to the future. -/
def rFut : MemReq := { ci := 2, spaces := [1, 2], mask := permBA, acc := .store, n := 32, align := 32 }

theorem witness_Cisterns_put :
    ∀ x ∈ [Cistern.empty, { Cistern.empty with openRows := [tRow 64], firstAt := 900 },
        { Cistern.empty with ready := List.replicate 4 [tRow 64] }],
      let s := wCis x
      let y := reach s rFut (fun i => s.opnd 0 i (n 8 8))
      (s.cur = .wave 0 ∧ (s.wave 0).spec = none ∧ (s.wave 0).relGate = none
        ∧ (s.groupMod (groupOf 0)).cisternDecl 0 = some ⟨0, 2, 100, 128⟩ ∧ s.lanesOk 0 g0 [{ start := 100, width := 2 * 128 }, n 8 8] []
        ∧ (y.1.wave 0).relGate = none ∧ s.reaches 0 g0 rFut (fun i => s.opnd 0 i (n 8 8)) y.1 y.2.2 ∧ y.2.2.length = 1)
      ∧ ((y.1.cistern 0 0) = x)
      ∧ ∀ a ∈ y.2.2, ∀ i, i < 16 → y.1.store.armed.contains (((a.keys.headD (0, 0)).1 + 16 + i) / 16) = false := by
  unfold State.lanesOk State.reaches Capv.grants; decide +kernel

theorem witness_Cisterns_flush :
    (let s := wCis { Cistern.empty with openRows := [tRow 64], firstAt := 900 }
     (s.seqOf 0).launch = some 0 ∧ (s.launch 0).mod_.cisternDecl 0 = some ⟨0, 2, 100, 128⟩ ∧ (s.cistern 0 0).openRows ≠ []
     ∧ (s.cistern 0 0).firstAt + 100 = s.dt ∧ (s.cistern (s.waveCluster 0) 0).openRows ≠ [])
    ∧ ((wCis Cistern.empty).cistern ((wCis Cistern.empty).waveCluster 0) 0).openRows = [] := by decide +kernel

/-- Crew 0's cistern with an arrival due for a tile, and futures that are due or are not yet. -/
def wTold : State :=
  { wCis { Cistern.empty with armed := some (spKey 0 0x80), due := [(spKey 0 0x80, [Fork.none])] } with
    mem := { MemSys.reset with store := tStore, arrivals := [{ place := spKey 0 0x100, crew := 0, after := 999 }] } }

theorem witness_Cisterns_told :
    (∀ x, wTold.mem.arrivals = [x] → x.after < wTold.dt ∧ (wTold.crew x.crew).ended = false) ∧ wTold.mem.arrivals.length = 1
    ∧ (∃ cl, wTold.clusters = [(0, cl)] ∧ ∃ x, cl.cisterns = [(0, x)] ∧ x.due = [(spKey 0 0x80, [Fork.none])])
    ∧ wTold.clusterRuns 0 = true ∧ wTold.forkReady Fork.none = true
    ∧ (wTold.cistern 0 0).armed = some (spKey 0 0x80) ∧ wTold.forkReady { Fork.none with maxw := 1000 } = false :=
  ⟨fun x h => by
      obtain rfl : x = { place := spKey 0 0x100, crew := 0, after := 999 } := by
        have : [x] = [{ place := spKey 0 0x100, crew := 0, after := 999 }] := h.symm
        simpa using this
      decide +kernel,
    rfl, ⟨_, rfl, _, rfl, rfl⟩, by decide +kernel, by decide +kernel, rfl, by decide +kernel⟩

/-- The sequencer with these cisterns, registers and reservations. -/
def qCis (x : Cistern) (xs : Tab W64) (off : Nat) : State :=
  { q0 with
    clusters := [(0, { ClusterSt.reset with
      cisterns := [(0, x)]
      seq := { Seq.idle with launch := some 0, run := true, seg := 2, k := tCaps, s := xs, resv := [(3, ⟨0, 4096, 8192, off, 4⟩)] } })] }

theorem witness_Cisterns_take :
    (∀ x ∈ [Cistern.empty, { Cistern.empty with taken := some [tRow 64] }, { Cistern.empty with ready := [[tRow 64, tRow 96]] }],
      ∀ off ∈ [2097151, 512],
      let s := qCis x [(1, 2)] off
      s.seqReady 0 ∧ (s.seqOf 0).idem = false ∧ s.agentMod.cisternDecl 0 = some ⟨0, 2, 100, 128⟩
      ∧ tabFind (s.seqOf 0).resv 3 = some ⟨0, 4096, 8192, off, 4⟩ ∧ s.sReg 1 + 2 = 4 ∧ 128 ≤ (⟨0, 4096, 8192, off, 4⟩ : Resv).rb
      ∧ (s.cistern 0 0) = x ∧ (∀ y ∈ [tRow 64, tRow 96], s.forkReady y.fork = true)
      ∧ ((⟨0, 4096, 8192, off, 4⟩ : Resv).scaled = true → 4 * (⟨0, 4096, 8192, off, 4⟩ : Resv).rb ≤ off)) := by
  unfold State.seqReady; decide +kernel

theorem witness_Cisterns_give :
    (let s := qCis { Cistern.empty with taken := some [tRow (2 ^ 48 + 64), tRow (2 ^ 48 + 96)] } [(1, 510 + 255 * 512), (2, 16)] 2097151
     (s.kReg 3).grants [2] permBA ∧ s.laneCheck (s.seqEnv 0) (s.kReg 3) (s.sReg 2) 16 16 = none ∧ (s.seqOf 0).relGate = none
     ∧ (s.seqOf 0).park = .run ∧ (s.seqOf 0).drained = true
     ∧ (s.cistern 0 0).taken = some [tRow (2 ^ 48 + 64), tRow (2 ^ 48 + 96)] ∧ s.sReg 1 % 512 + 2 = 512
     ∧ [tRow (2 ^ 48 + 64), tRow (2 ^ 48 + 96)].Pairwise (fun y z => y.future ≠ z.future)
     ∧ (∀ y ∈ [tRow (2 ^ 48 + 64), tRow (2 ^ 48 + 96)], y.future % 32 = 0 ∧ y.future < 2 ^ 50
       ∧ s.store.armed.contains ((y.future + 16) / 16) = false ∧ (s.crew y.crew).ended = false ∧ (s.crew y.crew).killed = false)
     ∧ (∀ i, i < 2 → s.store.poisoned (accElem 0 (s.sReg 1 % 512 + i) (bits (s.sReg 1) 16 9)) 4 = false))
    ∧ ((qCis Cistern.empty [] 2097151).cistern 0 0).taken = none := by
  unfold Capv.grants; decide +kernel

/-- A wave with s252 to s255 at the last bytes of the scratchpad. -/
def wEng : State :=
  { w0 with groups := [(0, { tGroup [(0, thr [])] with s := [(252, 0x2000), (253, 0x3000), (254, 0x3FE0), (255, 0x400)] })] }

theorem witness_Engines_issue :
    engForms.map (fun f => (f.2.2.1, f.2.2.2)) = [(32, 16), (32, 16), (64, 64), (80, 80)]
    ∧ ∀ f ∈ [(32, 16), (64, 64), (80, 80)], (252 : Nat) < 253 ∧ wEng.lanesOk 0 g0 [] [] ∧ (wEng.wave 0).spec = none
      ∧ (wEng.wave 0).relGate = none ∧ (wEng.kReg 2).grants [0, 1, 2] (permXF + permLD + permST)
      ∧ (wEng.kReg 2).grants [0, 1, 2] (permXF + permLD) ∧ (wEng.kReg 2).grants [1, 2] permBA
      ∧ wEng.laneCheck (wEng.waveEnv 0) (wEng.kReg 2) (wEng.sReg (252 + 2)) 32 32 = none
      ∧ (∀ e ∈ wEng.activeLanes 0 g0,
        wEng.laneCheck (wEng.waveEnv 0) (wEng.kReg 2) (wEng.sReg 252 + e.1 * f.1) f.1 4 = none
        ∧ wEng.laneCheck (wEng.waveEnv 0) (wEng.kReg 2) (wEng.sReg (252 + 1) + e.1 * f.2) f.2 4 = none)
      ∧ (wEng.cluster (wEng.waveCluster 0)).roe.length < 32 ∧ (wEng.cluster (wEng.waveCluster 0)).cbe.length < 32 := by
  unfold State.lanesOk Capv.grants; exact ⟨rfl, by decide +kernel⟩

/-- The header of an octree of two voxels on a side with voxel (0, 0, 0), of a chain of one joint, and of a step; a request entry. -/
def eStore : Store :=
  ((((tStore.write (wholeCells (spKey 0 0x400) (bytesOf (1 * 256 ^ 13 + 1 * 256 ^ 16 + 0x0101 * 256 ^ 32) 40)) none).write
    (wholeCells (spKey 0 0x440) (bytesOf 1 4)) none).write
    (wholeCells (spKey 0 0x4C0) (bytesOf 0 4)) none).write
    (wholeCells (spKey 0 0x2000) (bytesOf (0x3F800000 * 256 ^ 12 + 0x40800000 * 256 ^ 24) 32)) none)

/-- A request of lane 31 of each kind, its header, and the bytes of a request entry and of a result entry. -/
def eReq (kind : Nat) (done : Option (Nat × Nat × Nat)) : EngReq :=
  let c := Capv.make true 0x4000 0 0 0xFFF 1 false
  { kind := kind, core := 0, crew := 0, launch := 0, kq := c, ko := c, kf := c, kqIndex := 2, req := 0x2000 - 31 * [32, 32, 64, 80].getD kind 0
    res := 0x3000 - 31 * [16, 16, 64, 80].getD kind 0, fut := 0x3FE0, obj := [0x400, 0x400, 0x440, 0x4C0].getD kind 0, mask := 2 ^ 31
    fork := Fork.none, done := done }

/-- A machine with that request queued. -/
def wReq (kind : Nat) (done : Option (Nat × Nat × Nat)) : State :=
  { base [(0, thr [])] with
    clusters := [(0, { ClusterSt.reset with
      roe := if kind < 2 then [eReq kind done] else [], cbe := if kind < 2 then [] else [eReq kind done] })]
    mem := { MemSys.reset with store := eStore } }

/-- What a service reads, computes and writes. -/
def served (kind : Nat) : Bool :=
  let s := wReq kind none
  let r := eReq kind none
  match s.engHeader r with
  | (s1, .ok h) =>
    match s1.engRead r.env r.kq (r.req + 31 * [32, 32, 64, 80].getD kind 0) ([32, 32, 64, 80].getD kind 0) with
    | (s2, .ok b) =>
      match s2.engLane r h b with
      | (s3, .ok x) =>
        match s3.engWrite r.env r.kq (r.res + 31 * [16, 16, 64, 80].getD kind 0) x.1 with
        | (_, .ok _) => true
        | _ => false
      | _ => false
    | _ => false
  | _ => false

theorem witness_Engines_served : ∀ kind ∈ [0, 1, 2, 3], served kind = true ∧ (wReq kind none).clusterRuns 0 = true
    ∧ (wReq kind none).forkReady (eReq kind none).fork = true ∧ (eReq kind none).mask = 2 ^ 31 := by decide +kernel

theorem witness_Engines_finish : ∀ kind ∈ [0, 1, 2, 3],
    (if kind < 2 then ((wReq kind (some (2 ^ 31, 0, 999))).cluster 0).roe else ((wReq kind (some (2 ^ 31, 0, 999))).cluster 0).cbe)
      = eReq kind (some (2 ^ 31, 0, 999)) :: []
    ∧ (eReq kind (some (2 ^ 31, 0, 999))).done = some (2 ^ 31, 0, 999) ∧ 999 < (wReq kind none).dt
    ∧ (eReq kind none).kf.space ∈ [1, 2]
    ∧ ∀ i, i < 16 → (wReq kind none).store.armed.contains
      (((wReq kind none).objectPlace (eReq kind none).env (eReq kind none).kf (eReq kind none).fut + 16 + i) / 16) = false := by
  decide +kernel

/-! ### The hypotheses of the statements are met: sequencers, system registers and traps -/

/-- The sequencer with other registers. -/
def qWith (f : Seq → Seq) : State :=
  { q0 with clusters := [(0, { (q0.cluster 0) with seq := f (q0.seqOf 0), wtags := [(0, .w4g), (601, .w3g)] })] }

theorem witness_SequencerRegisters :
    q0.seqReady 0 ∧ q0.sReg 1 % 65536 ≠ 0 ∧ (q0.seqOf 0).idem = false ∧ (q0.seqOf 0).drained = true ∧ (q0.kReg 4).grants [3] permMX
    ∧ (tabGet (q0.seqOf 0).iv 0 0 + 1 = tabGet (q0.seqOf 0).lb 1 0)
    ∧ (let s := qWith (fun q => { q with iv := [(0, 65534), (1, 0)], lb := [(0, 65535), (1, 3)] })
       s.seqReady 0 ∧ (∀ i, i < 1 → tabGet (s.seqOf 0).iv 0 i + 1 = tabGet (s.seqOf 0).lb 1 i)
       ∧ tabGet (s.seqOf 0).iv 0 1 + 1 ≠ tabGet (s.seqOf 0).lb 1 1) := by
  unfold State.seqReady Capv.grants; decide +kernel

theorem witness_SequencerRegisters_resv :
    ∀ w0 ∈ [0x100000000, 0x100002000], ∀ w1 ∈ [0x1FFFFF0008, 0x0008000008],
      let s := qWith (fun q => { q with s := [(253, BitVec.ofNat 64 w0), (254, BitVec.ofNat 64 w1)] })
      let r := resvOf (s.kReg 4).base (s.sReg 253) (s.sReg (253 + 1))
      s.seqReady 0 ∧ (s.seqOf 0).idem = false ∧ (s.kReg 4).grants [3] permMX
      ∧ s.laneCheck (s.seqEnv 0) (s.kReg 4) (bits (s.sReg 253) 19 0) (bits (s.sReg 253) 40 20) 1 = none
      ∧ resvLegal r (s.sReg 253) (s.sReg 254) = true ∧ tabFind (s.seqOf 0).resv 15 = none ∧ (tabFind (s.seqOf 0).resv 3).isSome = true
      ∧ ((∃ e ∈ (s.seqOf 0).resv, e.2.start < r.start + r.length ∧ r.start < e.2.start + e.2.length) ↔ w0 = 0x100002000) := by
  unfold State.seqReady Capv.grants; decide +kernel

/-- A computation has a value. -/
def answers {ε α : Type} (x : Except ε α) : Bool :=
  match x with
  | .ok _ => true
  | .error _ => false

/-- MLDB of a pair of units 600 and 601 from the start of the page. -/
def qMldb : State := qWith (fun q => { q with s := [(1, 600), (2, 0)] })

theorem witness_MatrixWork_load :
    qMldb.seqReady 0 ∧ qMldb.sReg 1 % 1024 ≤ 600 ∧ (qMldb.kReg 1).grants [0, 5] permMX
    ∧ qMldb.laneCheck (qMldb.seqEnv 0) (qMldb.kReg 1) (qMldb.sReg 2) (256 * weightBytes 2) 1 = none ∧ (qMldb.seqOf 0).mldbs.length < 2
    ∧ (qMldb.seqOf 0).mmas = []
    ∧ answers (qMldb.capKeys (qMldb.seqEnv 0) (qMldb.kReg 1) .load (qMldb.sReg 2) (256 * weightBytes 2)) = true := by
  unfold State.seqReady Capv.grants; decide +kernel

/-- Its completion. -/
def tMldb : MldbOp :=
  { unit := 600, fmt := 2, runs := [(0x20000, 256 * weightBytes 2)], notBefore := 999, region := false
    snap := runCells tStore [(0x20000, 256 * weightBytes 2)] }

/-- A machine in which it is outstanding. -/
def qLoaded : State := qWith (fun q => { q with mldbs := [tMldb] })

/-- Reading n bytes gives n. -/
theorem readBytes_size (m : Store) (a k : Nat) : (m.readBytes a k).length = k := by
  induction k generalizing a with
  | zero => rfl
  | succ k ih => simp [Store.readBytes, ih]

theorem witness_MatrixWork_loaded :
    (qLoaded.seqOf 0).mldbs = tMldb :: [] ∧ tMldb.notBefore < qLoaded.dt ∧ tMldb.fmt < 3
    ∧ 68 * tMldb.unit + weightBytes tMldb.fmt ≤ 65536 ∧ (runBytes qLoaded.store tMldb.runs).length = 256 * weightBytes tMldb.fmt
    ∧ tMldb.snap = (runBytes qLoaded.store tMldb.runs).zip (runPoison qLoaded.store tMldb.runs) :=
  ⟨rfl, by decide, by decide, by decide,
    by show (runBytes tStore [(0x20000, 256 * weightBytes 2)]).length = _; simp only [runBytes, List.flatMap_cons, List.flatMap_nil, List.append_nil, readBytes_size]; rfl,
    by have h : qLoaded.store = tStore := rfl; rw [h]; simp only [tMldb, runCells]⟩

/-- A descriptor: rows 30 and 31 of reservation 15, unit 601, accumulator rows 510 and 511, post-scales at 3,072 of reservation 15. -/
def tDesc : Nat := 15 + 31 * 2 ^ 4 + 1 * 2 ^ 20 + 601 * 2 ^ 29 + 510 * 2 ^ 39 + 3 * 2 ^ 48 + 15 * 2 ^ 58

/-- Its reservation. -/
def tResv : Resv := ⟨0, 4096, 8192, 2097151, 32⟩

/-- An operation. -/
def tOp : MmaOp := mmaOf tDesc false true tResv tResv .w3g 30 601 510 false 0

/-- The sequencer with the descriptor, a loop nest whose sum for rows is -1, and operations on their way. -/
def qMma (l : List MmaOp) (stop : Bool) (st : Option MmaOp) : State :=
  qWith (fun q => { q with
    s := [(1, BitVec.ofNat 64 tDesc)], resv := [(15, tResv)], cf := [(0, -1)], iv := [(0, 1)], lb := [(0, 2)], mmas := l, stop := stop
    stalled := st })

/-- The operation as it was accepted. -/
def tDone : MmaOp := { tOp with snap := runCells tStore (tOp.ranges 0), entered := some 0 }

/-- The array takes an MMA beside one whose rows have entered; it takes none beside one whose rows have not, two, or when stopped. -/
theorem witness_MatrixWork_array :
    (qMma [] false none).arrayFree 0 ∧ (qMma [tDone] false none).arrayFree 0 ∧ (qMma [tDone] false (some tOp)).arrayFree 0
    ∧ ((qMma [tDone] false (some tOp)).seqOf 0).stalled = some tOp ∧ tOp.snap = [] ∧ tOp.entered = none
    ∧ ¬(qMma [tOp] false none).arrayFree 0 ∧ ¬(qMma [tDone, tDone] false none).arrayFree 0 ∧ ¬(qMma [] true none).arrayFree 0 := by
  refine ⟨⟨by decide, rfl, by intro y hy; cases hy⟩, ⟨by decide, rfl, ?_⟩, ⟨by decide, rfl, ?_⟩, rfl, rfl, rfl, ?_, ?_, ?_⟩
  · intro y hy
    obtain rfl : y = tDone := List.mem_singleton.mp hy
    exact ⟨0, rfl, Nat.zero_le _⟩
  · intro y hy
    obtain rfl : y = tDone := List.mem_singleton.mp hy
    exact ⟨0, rfl, Nat.zero_le _⟩
  · rintro ⟨-, -, h⟩
    obtain ⟨m, h, -⟩ := h tOp (List.mem_singleton.mpr rfl)
    cases h
  · exact fun h => absurd h.1 (by decide)
  · exact fun h => absurd h.2.1 (by decide)

theorem witness_MatrixWork_issue :
    (∀ l ∈ [[], [tDone], [tOp], [tOp, tOp]],
      let s := qMma l false none
      s.seqReady 0 ∧ s.sReg 1 = tDesc ∧ tDesc < 2 ^ 62 ∧ ((30 : Nat) : Int) = bits tDesc 19 4 + (s.seqOf 0).lnSum 0
      ∧ ((601 : Nat) : Int) = bits tDesc 38 29 + (s.seqOf 0).lnSum 1 ∧ ((510 : Nat) : Int) = bits tDesc 47 39 + (s.seqOf 0).lnSum 2
      ∧ tabFind (s.seqOf 0).resv (bits tDesc 3 0) = some tResv ∧ 30 + bits tDesc 28 20 + 1 ≤ tResv.rows ∧ 510 + bits tDesc 28 20 + 1 = 512
      ∧ tabGet (s.cluster 0).wtags .none 601 = .w3g
      ∧ tabFind (s.seqOf 0).resv (bits tDesc 61 58) = some tResv ∧ bits tDesc 57 48 * 1024 + 1024 ≤ tResv.length
      ∧ (s.seqOf 0).mldbs = [] ∧ (s.seqOf 0).mmas = l) := by
  unfold State.seqReady; decide +kernel

/-- Bytes read where nothing is poisoned carry no damage. -/
theorem runCells_clean (m : Store) (rs : List (Nat × Nat)) (h : m.poison = []) : ∀ x ∈ runCells m rs, x.2 = false := by
  intro x hx
  obtain ⟨i, hi, rfl⟩ := List.mem_iff_getElem.mp hx
  have : ∀ y ∈ runPoison m rs, y = false := by simp [runPoison, Store.poisoned, h]
  simpa [runCells] using this _ (List.getElem_mem _)

/-- A mixed byte is one of the old bytes or one of the new ones. -/
theorem mem_mixBytes {f : Nat} {x : Byte × Bool} (p : List Nat) (a b : List (Byte × Bool)) (h : x ∈ mixBytes f p a b) :
    x ∈ a ∨ x ∈ b := by
  induction p generalizing a b with
  | nil => exact .inr (by simpa [mixBytes] using h)
  | cons q p ih =>
    cases a with
    | nil => exact .inr (by simpa [mixBytes] using h)
    | cons y a => cases b with
      | nil => simp [mixBytes] at h
      | cons z b =>
        simp only [mixBytes, List.mem_cons] at h ⊢
        rcases h with h | h
        · split at h <;> simp [h]
        · rcases ih a b h with h | h <;> simp [h]

/-- Where nothing is poisoned, now or when it first read, an MMA reads no damaged word. -/
theorem mmaDamage_clean (s : State) (k : Nat) (o : MmaOp) (h : s.store.poison = []) (hs : ∀ x ∈ o.snap, x.2 = false) :
    s.mmaDamage k o = [] := by
  have e : ∀ a n, damagedAt s.store a n = [] := by simp [damagedAt, Store.poisoned, h]
  have f : ∀ l : List Nat, l.flatMap (fun _ => ([] : List DamRead)) = [] := by simp
  have b : ∀ x ∈ s.mmaBytes k o, x.2 = false := by
    intro x hx
    unfold State.mmaBytes at hx
    split at hx
    · exact hs x hx
    · rcases mem_mixBytes _ _ _ hx with hx | hx
      · exact hs x hx
      · exact runCells_clean _ _ h x hx
  have p : ∀ i a, damagedIn a (s.mmaPart k o i) = [] := by
    intro i a
    have q : ∀ x ∈ s.mmaPart k o i, x.2 = false := fun x hx => b x (List.mem_of_mem_drop (List.mem_of_mem_take hx))
    simp only [damagedIn, List.filter_eq_nil_iff, List.mem_range]
    intro j hj
    simp [List.getD_eq_getElem?_getD, List.getElem?_eq_getElem hj, q _ (List.getElem_mem hj)]
  simp only [State.mmaDamage, e, p, List.map_nil, f, ite_self, List.append_nil]
  rfl

theorem witness_MatrixWork_done :
    ((qMma [tDone] false none).seqOf 0).mmas = tDone :: [] ∧ tDone.notBefore < (qMma [tDone] false none).dt ∧ tDone.acc + tDone.m ≤ 512
    ∧ (∃ n, tDone.entered = some n ∧ n ≤ (qMma [tDone] false none).cycles 0)
    ∧ tDone.snap = (runBytes (qMma [tDone] false none).store (tDone.ranges 0)).zip (runPoison (qMma [tDone] false none).store (tDone.ranges 0))
    ∧ (qMma [tDone] false none).mmaDamage 0 tDone = [] := by
  have h : (qMma [tDone] false none).store.poison = [] := rfl
  exact ⟨rfl, by decide, by decide, ⟨0, rfl, Nat.zero_le _⟩, rfl, mmaDamage_clean _ 0 tDone h (runCells_clean _ _ (by rfl))⟩

/-- A wave of a launch with a matrix program. -/
def wSys : State :=
  { w0 with clusters := [(0, { ClusterSt.reset with seq := { Seq.idle with launch := some 0 } })] }

theorem witness_SystemRegisters :
    wSys.cur = .wave 0 ∧ (wSys.wave 0).spec = none ∧ waveSysTable.map (fun r => r.1) = [0, 1, 3, 4, 5, 6, 7, 8, 9, 10] ++ List.range' 16 8 ++ List.range' 32 16
    ∧ wSys.inMatrix 0 = true ∧ seqSysTable.map (fun r => r.1) = [24, 25, 26]
    ∧ q0.cur = .seq 0 ∧ (q0.seqOf 0).idem = false ∧ seqReadTable.map (fun r => r.1) = [0, 6, 7, 8, 9, 10, 24, 25, 26] ++ List.range' 32 16
    ∧ wSys.lanesOk 0 { pred := 0, neg := false } [] [n 1008 16] := by
  unfold State.lanesOk; decide +kernel

/-- A frame. -/
def tFrame : TrapFrame :=
  { cause := .watchdog, seg := 0, word := 3, info := 1, active := 1, fault := 0, lanes := [(0, ⟨.pageFault, 0, 1, 64⟩)]
    isPartial := false, rerun := some 1, skip := 2, cc := { Cc.zero with z := true }, lc := [(0, 3)], wd := 7 }

/-- A wave in its handler, of a task launch or not. -/
def wTrap (task : Bool) : State :=
  { w0 with
    waves := [(0, { tWave [(0, thr [])] with seg := 1, level := .trap, frame := some tFrame })]
    launches := [(0, { tLaunch with rec_ := { LaunchRec.zero with task := task } })] }

theorem witness_Traps :
    w0.cur = .wave 0 ∧ (w0.wave 0).spec = none ∧ (w0.wave 0).level = .thread ∧ (w0.waveMod 0).traps.getD 5 4095 ≠ 4095
    ∧ (let s := w0.setWave 0 { w0.wave 0 with cc := { Cc.zero with status := 1 } }
       (flagList (s.wave 0).cc)[5]? = some true ∧ (flagList (s.wave 0).cc)[0]? = some false)
    ∧ (let s := { w0 with launches := [(0, { tLaunch with mod_ := { tMod with traps := List.replicate 16 4095 } })] }
       (s.waveMod 0).traps.getD 5 4095 = 4095 ∧ (s.wave 0).level = .thread)
    ∧ (let s := wTrap false
       s.cur = .wave 0 ∧ (s.wave 0).spec = none ∧ (s.wave 0).level = .trap ∧ (s.wave 0).frame = some tFrame ∧ (s.wave 0).pend = []
       ∧ (s.launch (s.waveLaunch 0)).rec_.task = false ∧ (s.launch (s.waveLaunch 0)).deadlineFell = false) := by
  decide +kernel

/-- An addition at the end of the low half, and a halving at the end of the high one, in the lanes of p127. -/
def tPair : Pair :=
  { mark := false, h1 := { op := 1, ty := 0, s1 := 240, w1 := 7, s2 := 254, w2 := 1, pg := 0 }
    h2 := { op := 10, ty := 1, s1 := 252, w1 := 3, s2 := 252, w2 := 3, pg := 15 } }

theorem witness_PairedWords :
    w0.cur = .wave 0 ∧ (w0.wave 0).spec = none ∧ tPair.h1.legal 0 256 = true ∧ tPair.h2.legal 256 512 = true
    ∧ w0.halfOk 0 tPair.h1 0 ∧ w0.halfOk 0 tPair.h2 256 := by
  unfold State.halfOk; decide +kernel

/-! ### The hypotheses of the statements are met: waves, caches and memory -/

/-- A speculative wave. -/
def tSpec (conflict : Bool) : Spec :=
  { scope := 5, ckPreds := [(0, [(1, true)])], ckCc := Cc.zero, ckLc := [], undo := [(0, 3, 7)], watches := [2048]
    stores := [[out1]], rollbacks := 3, conflict := conflict, seg := 0, word := 1 }

/-- The machine w0 with its wave changed. -/
def wv (f : Wave → Wave) : State := w0.setWave 0 (f (w0.wave 0))

/-- A launch record with a watchdog of 1,024 cycles before and after its deadline. -/
def wDog (fell : Bool) : State :=
  { w0 with launches := [(0, { tLaunch with rec_ := { LaunchRec.zero with segLim := 1, dgrace := 1 }, deadlineFell := fell })] }

theorem witness_WaveEvents :
    ((wv fun v => { v with pend := [⟨[(0, 3, 5)], [(0, 1, true)]⟩] }).wave 0).pend[0]? = some ⟨[(0, 3, 5)], [(0, 1, true)]⟩
    ∧ (∀ s ∈ [wv fun v => { v with park := .release 5 }], s.isSaved (crewOf 0) = false ∧ (s.wave 0).park = .release 5 ∧ (s.wave 0).relGate = none
      ∧ s.releaseDone 0 5 = true)
    ∧ (∀ s ∈ [wv fun v => { v with relGate := some 5 }], s.isSaved (crewOf 0) = false ∧ (s.wave 0).park = .run ∧ (s.wave 0).relGate = some 5
      ∧ s.releaseDone 0 5 = true)
    ∧ (∀ s ∈ [wv fun v => { v with park := .iinv 3 true }], (s.wave 0).park = .iinv 3 true ∧ s.isSaved (crewOf 0) = false)
    ∧ (∀ s ∈ [wv fun v => { v with spec := some (tSpec false) }], (s.wave 0).spec = some (tSpec false) ∧ s.isSaved (crewOf 0) = false
      ∧ (tSpec false).conflict = false ∧ (s.wave 0).relGate = none ∧ s.releaseDone 0 (tSpec false).scope = true)
    ∧ (∀ s ∈ [wv fun v => { v with spec := some (tSpec true) }], (s.wave 0).spec = some (tSpec true) ∧ (tSpec true).conflict = true
      ∧ s.isSaved (crewOf 0) = false)
    ∧ (∀ b ∈ [true, false], let s := wDog b
      (tabFind s.waves 0).isSome = true ∧ (s.wave 0).park = .run ∧ (s.wave 0).level = .thread ∧ (s.wave 0).spec = none
      ∧ (s.launch (s.waveLaunch 0)).deadlineFell = b ∧ (s.launch (s.waveLaunch 0)).rec_.segLim * 1024 ≤ s.wdCount 0
      ∧ (s.launch (s.waveLaunch 0)).rec_.dgrace * 1024 ≤ s.wdCount 0 ∧ (s.waveMod 0).handlerOf .watchdog ≠ 4095
      ∧ (s.waveMod 0).handlerOf .deadline ≠ 4095 ∧ s.crewFrozen (crewOf 0) = false
      ∧ (match s.fetchWave 0 with
        | (s1, .words _ _) => s1.wdCount 0 == s.wdCount 0 && decide ((s1.wave 0).level = .thread) && (s1.wave 0).spec.isNone
        | _ => false) = true) := by decide +kernel

/-- Threads of two home waves in the bucket of segment 1. -/
def wBucket : State :=
  { w0 with
    waves := [], groups := [(0, tGroup [(0, { thr [] with place := .bucket 1 5 0 }), (33, { thr [] with place := .bucket 1 3 0 })])] }

/-- Nine waves of one partition, of which the first eight are active and the seventh is parked or not. -/
def wNine (parked : Bool) (n : Nat) : State :=
  { w0 with
    launches := [(0, { tLaunch with rec_ := { LaunchRec.zero with wpg := 8 } })]
    waves := (List.range n).map (fun i => (if i < 8 then i else 64, { tWave [(0, thr [])] with
      active := decide (i < 8), park := if parked = true ∧ i = 6 then .release 2 else .run }))
    crews := [(0, tCrew), (1, tCrew)] }

theorem witness_WaveSelection :
    wBucket.crewFrozen (0 / 8) = false ∧ wBucket.freeSlots 0 = 0 :: [] ∧ wBucket.formingSeg 0 = some 1
    ∧ (wBucket.group 0).bucketSegs.contains 1 = true
    ∧ (let s := { wBucket with launches := [(0, { tLaunch with rec_ := { LaunchRec.zero with ageMax := 1394 } })] }
       s.ageMax 0 ≤ s.bucketAge 0 1)
    ∧ (∀ s ∈ [wNine true 9, wNine false 9], (s.oldestPending 0 0).isSome = true
      ∧ 8 ≤ ((s.partWaves 0 0).filter (fun x => x.2.active)).length
      ∧ (s.partWaves 0 0).filter (fun e => !e.2.active && e.2.ready && decide (e.2.waitsFrom + 1024 ≤ s.coreCycles 0)) ≠ [])
    ∧ (∃ x ∈ ((wNine true 9).partWaves 0 0).filter (fun x => x.2.active), x.2.ready = false)
    ∧ (let s := { w0 with waves := [(0, { tWave [(0, thr [])] with active := false })] }
       (s.oldestPending 0 0).isSome = true ∧ ((s.partWaves 0 0).filter (fun x => x.2.active)).length < 8) := by decide +kernel

/-- The miss of a prefetch of an address, whose walk runs. -/
def tMiss (va : Nat) : Miss := ⟨0, va / 65536, [⟨0, 0, va⟩], true⟩

/-- A prefetch of the page's first line asked for, a tile fill on its way, and a walk that runs. -/
def wCache (va : Nat) : State :=
  { w0 with
    cores := [(0, { CoreSt.reset with prefs := [⟨0x800, 2, 0⟩] })]
    clusters := [(0, { ClusterSt.reset with fills := [⟨7, 0, 0, 0, 3, false, 5000, List.replicate 1024 0, []⟩], misses := [tMiss va] })]
    mem := { MemSys.reset with store := tStore.put8 0x4018 (leafWord 0x20000 0 0 false true false) } }

/-- The walk. -/
def walked (va : Nat) : State × Except Cause TlbEntry :=
  ((wCache va).setCluster 0 { (wCache va).cluster 0 with misses := [] }).walkRaw { core := none, cluster := 0, crew := none, launch := 0 }
    0 (va / 65536 * 65536) false

/-- The place of the address that it gives. -/
def walkedTo (va : Nat) : Except Cause (Nat × Nat) :=
  match (walked va).2 with
  | .ok e => (walked va).1.leafPlace e va .load
  | .error c => .error c

theorem witness_CacheSteps :
    ((wCache 0).core 0).prefs = ⟨0x800, 2, 0⟩ :: [] ∧ (wCache 0).store.poisoned (64 * 0x800) 64 = false
    ∧ (wCache 0).lineInFlight 0 0x800 = false
    ∧ ((wCache 0).cluster 0).fills[0]? = some ⟨7, 0, 0, 0, 3, false, 5000, List.replicate 1024 0, []⟩
    ∧ (wCache 0).bankMode 0 3 = 0 ∧ (wCache 0).bankMode 0 31 ≠ 0 ∧ (wCache 0).running = [(0, tMiss 0)]
    ∧ (tMiss 0).waiters = [⟨0, 0, 0⟩] ∧ ((wCache 0).cluster 0).misses.filter (fun y => y != tMiss 0) = [] ∧ (wCache 0).dev.tlbBusy = false
    ∧ answers (walked 0x2FFFF).2 = true ∧ answers (walked 0x30000).2 = true ∧ answers (walked 0x50000).2 = false
    ∧ answers (walkedTo 0x2FFFF) = true ∧ answers (walkedTo 0x30000) = false
    ∧ (let s := { w0 with dev := { w0.dev with tlbBusy := true } }
       s.dev.tlbBusy = true ∧ s.noLateAccess = true)
    ∧ (let s := { wv (fun v => { v with spec := some (tSpec false) }) with dev := { w0.dev with tlbBusy := true } }
       s.dev.tlbBusy = true ∧ s.noLateAccess = false) := by decide +kernel

theorem witness_CacheSteps_walks (va : Nat) : ∀ j, ∀ y ∈ ((wCache va).cluster j).misses, y.walking = true := by
  intro j y h
  by_cases hj : j = 0
  · subst hj
    have : y = tMiss va := by simpa using (show y ∈ [tMiss va] from h)
    rw [this]; rfl
  · rw [State.cluster, show (wCache va).clusters = [(0, _)] from rfl, one_entry _ _ hj] at h
    exact absurd h (by simp [ClusterSt.reset])

/-- The crew of core 0 is gone. -/
def wEmpty : State := { w0 with crews := [], waves := [], groups := [] }

theorem witness_ScrubsAndSensors :
    bit (w0.cluster 31).nearErr 63 = false ∧ bit (tabGet w0.mem.farErr 0 31) 63 = false ∧ (384 * 1048576 - 1) < 384 * 1048576
    ∧ w0.rowAt 0 30 131071 = none ∧ w0.inL2 (w0.vaultAddr 31 0) = false
    ∧ (let s := { w0 with mem := { w0.mem with l2 := [{ line := w0.vaultAddr 31 0 / 128, frame := 15, second := false, expiry := 0, dirty := true, used := 1 }] } }
       s.inL2 (w0.vaultAddr 31 0 + 127) = true)
    ∧ { CoreSt.reset with l1i := [⟨7, [], 0⟩], fbufs := [(0, [⟨7, [], 0⟩, ⟨9, [], 0⟩])] }.codeLines = [7, 9] := by
  decide +kernel

/-- A dirty line in way 15 of set 0 of slice 0. -/
def wLine : State :=
  { w0 with mem := { w0.mem with l2 := [{ line := 0, frame := 15, second := false, expiry := 0, dirty := true, used := 1 }] } }

/-- The same line with no byte but zeros. -/
def wZero : State := { wLine with mem := { wLine.mem with store := { bytes := [], tags := [], poison := [], armed := [] } } }

theorem witness_OuterMemoryErrors :
    (∃ e ∈ wLine.mem.l2, e.line = 127 / 128 ∧ l2Slice 127 = 0 ∧ e.dirty = true ∧ l2SetOf e.line = 0 * 1024 + 15 / 16 ∧ e.frame = 15 % 16)
    ∧ kindOf 1 = 0 ∧ kindOf 2 = 2 ∧ kindOf 3 = 0 ∧ kindOf 5 = 1 ∧ w0.mem.dramOut = false
    ∧ footprint wLine.store 0 = 40 ∧ footprint wZero.store 0 = 0 ∧ (∃ e ∈ wZero.mem.l2, e.line = 0)
    ∧ w0.inL2 (0x001000000000 + 127) = false
    ∧ { w0 with mem := { w0.mem with l2 := [{ line := 0x001000000000 / 128, frame := 0, second := false, expiry := 0, dirty := true, used := 1 }] } }.inL2
      (0x001000000000 + 127) = true
    ∧ (127 : Nat) < usableDram ∧ extSub (0x001000000000 + 127) = 0 ∧ extSub (0x001000000000 + 15 * 128) = 15 := by decide +kernel

theorem witness_MemorySetup :
    (keepsTags (0x3FFFF / 16 * 16) = true ∧ (w0.physPlace (0x3FFFF / 16 * 16)).isSome = true)
    ∧ wEmpty.liveCrews 127 = [] ∧ wEmpty.liveCrews 0 = [] ∧ (w0.cluster 31).cmd.busy = false
    ∧ ((w0.bankMode 0 0 = 0 ∧ w0.bankOwned 0 0 = false)
      ∧ (let s := { w0 with clusters := [(0, { ClusterSt.reset with
          cmd := { busy := true, status := 0, newMode := 2, bank := 5, run := (5, 2) }, fills := [⟨7, 0, 0, 0, 3, false, 5000, [], []⟩] })] }
         (s.cluster 0).cmd.busy = true ∧ ∀ f ∈ (s.cluster 0).fills, f.bank ≠ (s.cluster 0).cmd.run.1))
    ∧ (tabFind w0.launches 0).isSome = true := by decide +kernel

theorem witness_MemorySetup_refused :
    (let s := { w0 with clusters := [(0, { ClusterSt.reset with modes := (List.range 8).map (fun b => (8 + b, 0)) })] }
     s.bankMode 0 16 ≠ 0 ∧ s.bankOwned 0 16 = false ∧ 16 ≤ (s.tileBanks 0).length)
    ∧ (let s := { w0 with clusters := [(0, { ClusterSt.reset with bankOwner := [(17, 1)] })] }
       s.bankOwned 0 17 = true ∧ s.bankMode 0 17 ≠ 0)
    ∧ (w0.bankMode 0 31 ≠ 1) := by decide +kernel

/-! ### The hypotheses of the statements are met: power and launches -/

/-- No launch's deadline has fallen in a machine with launch 0 alone. -/
theorem no_deadline (s : State) (v : Machine.Launch) (h : s.launches = [(0, v)]) (hv : v.deadlineFell = false) : s.noDeadline := by
  intro l
  unfold State.launch
  rw [h]
  by_cases hl : l = 0
  · subst hl; exact hv
  · rw [one_entry _ _ hl]; rfl

/-- The machine w0 with power registers changed. -/
def wPow (f : PowerRegs → PowerRegs) : State := { w0 with power := f PowerRegs.reset }

/-- The machine w0 with cluster 31 changed. -/
def wCl (f : ClusterSt → ClusterSt) : State := { w0 with clusters := [(31, f ClusterSt.reset)] }

theorem witness_RailsAndAlarms :
    ((w0.cluster 31).rail.busy = false ∧ (w0.cluster 31).rail.rail ≠ 1 % 2 ∧ (w0.cluster 31).rail.rail = 0 % 2
      ∧ w0.railPinned 31 (1 % 2) = false)
    ∧ (let s := { w0 with launches := [(0, { tLaunch with rec_ := { LaunchRec.zero with rail := 1 } })] }
       (s.cluster 0).rail.rail ≠ 1 % 2 ∧ s.railPinned 0 (1 % 2) = true)
    ∧ (((wCl fun c => { c with rail := ⟨true, 0, 1, 0, 1, none⟩ }).cluster 31).rail.busy = true
      ∧ ((wCl fun c => { c with rail := ⟨true, 0, 1, 0, 1, none⟩ }).cluster 31).rail.next = none)
    ∧ (let s := { wCl (fun c => { c with rail := ⟨true, 0, 1, 0, 1, some 0⟩ }) with crews := [], launches := [] }
       (s.cluster 31).rail.next = some 0 ∧ (s.cluster 31).rail.going ≠ 0 ∧ s.crews = [] ∧ s.launches = [])
    ∧ (bit w0.power.sources 1 = false ∧ bit (wPow fun p => { p with sources := 2 }).power.sources 1 = true)
    ∧ (let s := wPow fun p => { p with droops := List.replicate 64 990 }
       max 1 s.power.droopLimit ≤ (s.power.droops.filter (fun x => decide (s.dt < x + 10000))).length)
    ∧ (∃ e ∈ (wCl fun c => { c with temp := 110 }).clusters, 110 ≤ sInt 8 e.2.temp)
    ∧ (let s := wPow fun p => { p with throttled := true, holdUntil := 1000 }
       s.power.throttled = true ∧ s.power.sources = 0 ∧ s.power.holdUntil ≤ s.dt)
    ∧ (let s := { wPow fun p => { p with throttled := true, sources := 1 } with dt := 100000 }
       s.power.throttled = true ∧ s.power.sources ≠ 0 ∧ s.power.killing = false
       ∧ s.power.alarmAt + (if s.power.killWindow = 0 then 100 else s.power.killWindow) * 1000 ≤ s.dt ∧ s.placedAt s.power.klevel ≠ [])
    ∧ (let s := wPow fun p => { p with sources := 1, killing := true, killAt := 1000, klevel := 7 }
       s.power.killing = true ∧ s.power.sources ≠ 0 ∧ s.power.killAt ≤ s.dt ∧ s.placedAt 7 = []) := by decide +kernel

theorem witness_RailsAndAlarms_switch : (wCl fun c => { c with rail := ⟨true, 0, 1, 0, 1, none⟩ }).noDeadline ∧ w0.noDeadline :=
  ⟨no_deadline _ tLaunch rfl rfl, no_deadline _ tLaunch rfl rfl⟩

theorem witness_LossOfSupply :
    w0.noDeadline ∧ ((wCl fun c => { c with lost := true, brownout := true }).cluster 31).lost = true
    ∧ (q0.clusterCrews 0 = [0] ∧ 0 ∈ q0.lostLaunches 0)
    ∧ ((w0.power.droops.filter (fun x => decide (w0.dt < x + 10000))).length + 1 < max 1 w0.power.droopLimit) :=
  ⟨no_deadline _ tLaunch rfl rfl, by decide +kernel⟩

theorem witness_MetersAndTests :
    (110 ≤ sInt 8 (lowBits 110 8))
    ∧ (let s := { wPow fun p => { p with holds := [127] } with clusters := [] }
       s.power.holds.contains 127 = true ∧ s.power.scanBusy = false ∧ s.coreCrews 127 = [] ∧ (s.core 127).swap.held = false
       ∧ s.present 127 = true)
    ∧ (w0.power.holds.contains 0 = false)
    ∧ (∀ r ∈ [true, false], ∀ hs ∈ [[], [127]],
       let s := { wPow fun p => { p with scanBusy := true, scanOn := (127, 9), holds := hs } with
         dt := 200000, sched := { SchedRegs.reset with replay := r } }
       s.power.scanBusy = true ∧ s.power.scanAbort = false ∧ s.power.scanStart + 280000 ≤ s.cycles (clusterOf s.power.scanOn.1)
       ∧ s.sched.replay = r ∧ (s.power.holds.contains s.power.scanOn.1 = true ↔ hs = [127]))
    ∧ (wPow fun p => { p with tickCmp := 1000 }).power.tickCmp ≤ (wPow fun p => p).dt
    ∧ (wPow fun p => p).dt < (wPow fun p => { p with tickCmp := 1001 }).power.tickCmp
    ∧ (wPow fun p => p).power.tickPend = false := by decide +kernel

/-- A tick that is pending, with cluster 5 at a temperature, some ALLOW and some cool ticks. -/
def wTick (temp allow cool : Nat) : State :=
  { w0 with
    clusters := [(5, { ClusterSt.reset with temp := temp, allow := allow })]
    power := { PowerRegs.reset with tickCmp := 900, tickPend := true }
    mem := { MemSys.reset with store := tStore.putCells (wholeCells (coolAt 5) (bytesOf cool 1)) } }

theorem witness_MetersAndTests_tick :
    (∀ x ∈ [(100, 8, 9), (99, 8, 9), (93, 8, 9), (92, 6, 8), (92, 6, 9)], let s := wTick x.1 x.2.1 x.2.2
      s.power.tickPend = true ∧ s.dev.fwOk = true ∧ sInt 8 ((s.cluster 5).temp % 256) = x.1 ∧ (s.cluster 5).allow = x.2.1
      ∧ (s.store.byte (devBase + 0x40000 + 5)).toNat = x.2.2)
    ∧ w0.power.tickPend = false ∧ { w0 with dev := { w0.dev with fwOk := false } }.dev.fwOk = false := by decide +kernel

/-- R444: at 100 °C ALLOW falls by 2, to 2 at the least; at 99 °C it stays; the tenth tick at 92 °C raises it by 2, to 8 at the most. -/
theorem test_thermal_tick :
    [(100, 8, 9), (100, 2, 9), (99, 8, 9), (92, 6, 8), (92, 6, 9), (92, 8, 9)].map
      (fun x => ((nxt (execTickInterrupt (wTick x.1 x.2.1 x.2.2))).cluster 5).allow) = [6, 2, 8, 6, 8, 8] := by decide +kernel

/-- Host queue 15 with two slots, its head at the last. -/
def wHost : State :=
  { w0 with sched := { SchedRegs.reset with queues := [(15, { HostQ.reset with base := 0x30000, log2n := 1, head := 1, tail := 2 })] } }

/-- A launch that waits for an event word of an address. -/
def wWait (va : Nat) : State :=
  { w0 with launches := [(0, { tLaunch with phase := .waiting, rec_ := { LaunchRec.zero with waitEv := va, waitVal := 1 } })] }

/-- The word. -/
def waited : State × List Byte := ((wWait 0x2FFF8).ctlRead 0 0x2FFF8 8).getD (w0, [])

theorem witness_HostQueues :
    wHost.cpRuns = true ∧ wHost.jrnRoom 1 = true ∧ wHost.translates = true ∧ (wHost.hostQ 14).enabled = false ∧ (wHost.hostQ 15).enabled = true ∧ (wHost.hostQ 15).isEmpty = false
    ∧ ((wHost.hostQ 15).head + 1) % (wHost.hostQ 15).size = (wHost.hostQ 15).tail % (wHost.hostQ 15).size
    ∧ wHost.ctlReadable ((wHost.hostQ 15).base + 128 * ((wHost.hostQ 15).head % (wHost.hostQ 15).size)) 128 = true
    ∧ recordBad (wHost.store.readBytes ((wHost.hostQ 15).base + 128 * ((wHost.hostQ 15).head % (wHost.hostQ 15).size)) 128) = true
    ∧ (let s := { w0 with sched := { SchedRegs.reset with devQ := [⟨[], 0, Fork.none, 0⟩] } }
       s.sched.devQ = ⟨[], 0, Fork.none, 0⟩ :: [] ∧ s.forkReady (⟨[], 0, Fork.none, 0⟩ : DevRec).fork = true)
    ∧ (((wWait 0x50000).launch 0).phase = .waiting ∧ (wWait 0x50000).cpRuns = true ∧ (wWait 0x50000).ctlRead 0 0x50000 8 = none)
    ∧ (((wWait 0x2FFF8).launch 0).phase = .waiting ∧ (wWait 0x2FFF8).ctlRead 0 0x2FFF8 8 = some (waited.1, waited.2)
      ∧ natOfBytes waited.2 < 1) := by decide +kernel

/-- A launch that can be placed on one core, or a rectangle with no room, on the empty machine. -/
def wPlace (ex : Nat) (aside : Option Nat) : State :=
  { wEmpty with
    launches := [(0, { tLaunch with phase := .ready, asideAt := aside, rec_ := { LaunchRec.zero with reloc := true, ex := ex }, mod_ := placedModule false })] }

theorem witness_PlacementsAndCrews_place :
    (∀ ex ∈ [16, 17], let s := wPlace ex none
      (s.launch 0).phase = .ready ∧ (s.launch 0).asideAt = none ∧ s.pastDeadline 0 = false ∧ s.cpRuns = true ∧ s.jrnRoom 4 = true
      ∧ (∀ x ∈ s.readyLaunches, (s.launch x).asideAt = none → s.triedBefore x 0 = false)
      ∧ ((s.placeable 0).isSome = true ↔ ex = 16))
    ∧ (let s := wPlace 16 (some 0)
       (s.launch 0).phase = .ready ∧ (s.launch 0).asideAt = some 0 ∧ (s.launch 0).saving = [] ∧ s.pastDeadline 0 = false ∧ s.cpRuns = true ∧ s.jrnRoom 3 = true
       ∧ (∀ y ∈ s.readyLaunches, s.triedBefore y 0 = true → (s.launch y).asideAt ≠ none ∧ s.placeable y = none)
       ∧ (s.placeable 0).isSome = true) := by decide +kernel

theorem witness_PlacementsAndCrews_crew :
    (let s := { wEmpty with crews := [(0, { tCrew with started := false })] }
     s.crewReady 0 = true ∧ (s.launch (s.crew 0).launch).rec_.gpc ≤ 8 ∧ (s.launch (s.crew 0).launch).rec_.wpg ≤ 8
     ∧ (s.launch (s.crew 0).launch).mod_.binds = [])
    ∧ (let s := { w0 with groups := [(0, { tGroup [] with retired := true })] }
       s.crewOver 0 = true ∧ s.jrnRoom 3 = true)
    ∧ (∀ ph ∈ [Phase.ready, Phase.placed],
       let s := { wEmpty with
         launches := [(0, { tLaunch with phase := ph, rec_ := { LaunchRec.zero with deadline := 1000 } })]
         crews := [(0, { tCrew with started := false })] }
       (s.launch 0).rec_.deadline ≠ 0 ∧ (s.launch 0).rec_.deadline ≤ s.dt ∧ s.pastDeadline 0 = true
       ∧ (s.launch 0).deadlineFell = false ∧ (s.launch 0).phase = ph
       ∧ (s.launch 0).saving = [] ∧ ∀ c ∈ s.crewsOf 0, (s.crew c).started = false) := by decide +kernel

theorem witness_PlacementsAndCrews_deadline :
    (∀ x, x ≠ 0 → (wEmpty.launch x).deadlineFell = false) ∧ ∀ k, (wEmpty.seqOf k).launch ≠ some 0 :=
  ⟨fun x _ => no_deadline wEmpty tLaunch rfl rfl x, fun _ => by show (none : Option Nat) ≠ some 0; decide⟩

/-- A launch whose completion is due for ring 15. -/
def wDue : State :=
  { wEmpty with
    launches := [(0, { tLaunch with phase := .due, queue := 15, stageSlot := none, endStatus := some (0, 0) })]
    sched := { SchedRegs.reset with queues := [(15, { HostQ.reset with base := 0x30000, log2n := 2, crBase := 0x40000, crTail := 3, crHead := 3 })] } }

/-- A launch with a ring that holds a record, and one in staging. -/
def wRing : State :=
  { wEmpty with
    launches := [(0, { tLaunch with
      rec_ := { LaunchRec.zero with spillBase := 0x20000, task := true }, ring := [.task 0 tRec] })]
    crews := [(0, tCrew)], clusters := [(0, { ClusterSt.reset with staging := [(0, [.task 0 tRec])] })] }

theorem witness_Completions :
    (wEmpty.launchOver 0 = true ∧ wEmpty.pastDeadline 0 = false ∧ (wEmpty.launch 0).mod_.grids = 0 ∧ wEmpty.jrnRoom 1 = true ∧ (wEmpty.launch 0).rec_.sigEv = 0 ∧ (wEmpty.launch 0).rec_.bestSlot = 0xFFFFFFFF)
    ∧ (wDue.dueOf 15 = some 0 ∧ wDue.cpHeld = false ∧ wDue.sched.assistBusy = false ∧ wDue.jrnRoom 1 = true
      ∧ (wDue.stageDue.launch 0).stageSlot = some 0 ∧ (wDue.stageDue.launch 0).phase = .due ∧ wDue.stageDue.slotWrites 0 15 0)
    ∧ (wRing.stagingOf 0 0 = .task 0 tRec :: [] ∧ wRing.ringFull 0 = false
      ∧ (wRing.ringPage 0 ((wRing.launch 0).ringVa ((wRing.launch 0).ringHead + (wRing.launch 0).ring.length))).isSome = true)
    ∧ (wRing.launch 0).ring.findSome? (wRing.refillOne 0) = some (tRec, 0) ∧ (wRing.launch tRec.launch).deadlineFell = false := by
  unfold State.slotWrites; and_intros <;> decide +kernel

theorem witness_Completions_staged : ∀ x, (wEmpty.launch x).phase = .due → (wEmpty.launch x).stageSlot ≠ none := by
  intro x h
  by_cases hx : x = 0
  · subst hx; exact absurd h (by decide)
  · rw [State.launch, show wEmpty.launches = [(0, tLaunch)] from rfl, one_entry _ _ hx] at h
    exact absurd h (by decide)

/-! ### The hypotheses of the statements are met: the device -/

/-- A machine with these scheduling registers. -/
def wSch (f : SchedRegs → SchedRegs) : State := { wDue with sched := f wDue.sched }

/-- A machine whose completion has been staged. -/
def wStaged (f : SchedRegs → SchedRegs) : State :=
  let s := wDue.stage 0
  { s with sched := f s.sched }

theorem witness_TakeOver :
    (let s := wSch fun r => { r with failed := true }
     s.sched.failed = true ∧ s.sched.standbyOk = true ∧ 1 = 1 - s.sched.primary)
    ∧ ((wSch id).sched.failed = false)
    ∧ (let s := wSch fun r => { r with replay := true, primary := 1 }
       s.sched.replay = true ∧ 1 = s.sched.primary ∧ s.power.scanDue = false
     ∧ { s.power with scanDue := true }.scanDue = true ∧ ∀ e ∈ s.cores, e.2.swap.held = false)
    ∧ (∀ n ∈ [3, 0], let s := wStaged fun r => { r with queues := r.queues.map (fun e => (e.1, { e.2 with crHead := n })) }
       s.sched.assistBusy = false ∧ s.cpHeld = false ∧ s.slotMayWrite 0 = true ∧ (s.store.byte (stageAt 0 + 33)).toNat % 2 = 0
       ∧ (s.store.byte (stageAt 0 + 32)).toNat % 16 = 15 ∧ ((s.hostQ 15).ringFull = true ↔ n = 0))
    ∧ (wStaged id).slotWrites 0 15 0
    ∧ ((wStaged id).sched.assistBusy = false ∧ (wStaged id).sched.failed = false ∧ (tabFind w0.crews 0).isSome = true)
    ∧ (let s := { wStaged (fun r => { r with assistBusy := true }) with launches := [(0, { tLaunch with phase := .done, stageSlot := some 0 })] }
       s.sched.assistBusy = true ∧ s.sched.assistOp = 0 ∧ (s.launch 0).phase = .done
       ∧ (s.launch 0).stageSlot = some s.sched.assistSlot) := by
  unfold State.slotWrites; and_intros <;> decide +kernel

/-- Core 0 with its shadow in some state, on which a speculative wave runs. -/
def wSwap (f : Swap → Swap) : State :=
  { w0 with
    waves := [(0, { tWave [(0, thr [])] with spec := some (tSpec false) })]
    cores := [(0, { CoreSt.reset with swap := f Swap.zero })] }

theorem witness_SavesAndRestores :
    ((wSwap id).core 0).swap.busy = false ∧ ((wSwap id).core 0).swap.held = false ∧ 0 ∈ (wSwap id).coreWaves 0
    ∧ ((wSwap id).wave 0).spec = some (tSpec false) ∧ (q0.matrixOn 0 = true ∧ (q0.core 0).swap.held = false)
    ∧ ((wSwap fun w => { w with held := true }).core 0).swap.held = true
    ∧ (let s := wSwap fun w => { w with busy := true, goAt := 900, halted := true }
       (s.core 0).swap.busy = true ∧ (s.core 0).swap.dir = false ∧ (s.core 0).swap.copying = false ∧ s.halted 0 = true)
    ∧ (∀ d ∈ [true, false], ∀ l ∈ [[], [0]],
       let s := wSwap fun w => { w with busy := true, copying := true, dir := d, copyAt := 840, lost := l, saved := [0] }
       (s.core 0).swap.busy = true ∧ (s.core 0).swap.copying = true ∧ s.clusterRuns (clusterOf 0) = true
       ∧ (s.core 0).swap.copyAt + 560 = s.cycles (clusterOf 0) ∧ (s.core 0).swap.dir = d ∧ (s.core 0).swap.lost = l)
    ∧ (wSwap id).crewIn 0 0 = true
    ∧ (let s := { wSwap (fun w => { w with held := true, saved := [0] }) with waves := [] }
       (s.core 0).swap.busy = false ∧ (s.core 0).swap.held = true ∧ s.liveCrews 0 = [])
    ∧ (let s := { wSwap (fun w => { w with held := true, saved := [0] }) with crews := [(0, tCrew), (1, tCrew)] }
       (s.core 0).swap.busy = false ∧ (s.core 0).swap.held = true ∧ s.liveCrews 0 ≠ []) := by decide +kernel

/-- R65: the one group of a saved crew is the first in the slot of its home wave's partition. -/
theorem witness_SavesAndRestores_shadow :
    (List.range 8).map (fun q => (wSwap fun w => { w with held := true, saved := [0] }).shadowGroups 0 q)
      = [[0], [], [], [], [], [], [], []] := by decide +kernel

/-- R65: word 1 of the s registers of that record, and a place of no slot. -/
theorem test_shadow_word :
    (wSwap fun w => { w with held := true, saved := [0] }).shadowWord 0 (0x22000 + 8) = some 5
    ∧ (wSwap fun w => { w with held := true, saved := [0] }).shadowWord 0 (6 * 2 ^ 20) = none := by decide +kernel

theorem witness_SavesAndRestores_deadline (f : Swap → Swap) : (wSwap f).noDeadline := no_deadline _ tLaunch rfl rfl

/-- Rows and entries that an error can hit. -/
def wHit : State :=
  { w0 with
    cores := [(0, { CoreSt.reset with headrace := [tRec], channels := [(3, { Channel.idle with heads := [fHead false] })] })]
    clusters := [(0, { ClusterSt.reset with
      staging := [(0, [.task 0 tRec, .head 0 3 (fHead false)])], cisterns := [(0, { Cistern.empty with ready := [[tRow 64]] })] })]
    launches := [(0, { tLaunch with ring := [.task 0 tRec, .head 0 3 (fHead false)] })]
    sched := { SchedRegs.reset with devQ := [⟨[], 0, Fork.none, 0⟩] } }

theorem witness_DamagedState :
    (tabFind (wHit.group 0).threads 0).isSome = true ∧ bit (wHit.cluster (clusterOf (wHit.crew (0 / 8)).core)).nearErr 63 = false
    ∧ wHit.hitCrews 0 0 0 0 = [0] ∧ wHit.hitCrews 0 0 1 0 = [0] ∧ wHit.hitCrews 0 0 2 0 = [0]
    ∧ (wHit.core 0).headrace[0]? = some tRec ∧ (wHit.stagingOf 0 0)[0]? = some (.task 0 tRec)
    ∧ (wHit.launch 0).ring[0]? = some (.task 0 tRec) ∧ (wHit.channel 0 3).heads[0]? = some (fHead false)
    ∧ (wHit.stagingOf 0 0)[1]? = some (.head 0 3 (fHead false)) ∧ (wHit.launch 0).ring[1]? = some (.head 0 3 (fHead false))
    ∧ ((wHit.cistern 0 0).ready.flatten ++ (wHit.cistern 0 0).openRows)[0]? = some (tRow 64) ∧ wHit.sched.devQ[0]? = some ⟨[], 0, Fork.none, 0⟩ := by decide +kernel

theorem witness_RegisterAccess_window :
    (regOf 0 (2 ^ 41 + 0x3FFF8) = none ∧ windowMemory 0 (2 ^ 41 + 0x3FFF8) 8 = true)
    ∧ (regOf 0 (2 ^ 41 + 0x40000) = none ∧ windowMemory 0 (2 ^ 41 + 0x40000) 8 = false)
    ∧ (∀ n ∈ [1, 2, 4], regOf 2 (0x50000 - n) = none ∧ windowMemory 2 (0x50000 - n) n = true ∧ windowMemory 2 (0x50001 - n) n = false)
    ∧ w0.fenced 2 = false ∧ { w0 with dev := { w0.dev with fencing := [2] } }.fenced 2 = true
    ∧ (let s := { w0 with dev := { w0.dev with fences := [(3, 1000)] } }
       s.dt ≤ tabGet s.dev.fences 0 3)
    ∧ { w0 with dev := { w0.dev with cpPeer := [(1, 2 ^ 47)] } }.dev.cpPeer.any (fun x => x.1 == 1) = true := by decide +kernel

theorem witness_RegisterAccess :
    (regOf 0 0xFFFFF8 = none ∧ windowMemory 0 0xFFFFF8 8 = false) ∧ (regOf 1 0x10FFF8 = none ∧ windowMemory 1 0x10FFF8 8 = true)
    ∧ (regOf 0 0x110000 = none ∧ windowMemory 0 0x110000 8 = true)
    ∧ (∀ x ∈ writtenBack, ∃ r, regOf x.1 x.2.1 = some r)
    ∧ (∀ x ∈ [(2, 0x1000008), (3, 0x420)], ∃ r ∈ (regOf x.1 x.2).toList, ¬(x.1 = 3 ∧ r.lowActs = true))
    ∧ w0.mapHeld = false ∧ tabGet w0.dev.fences 0 3 < w0.dt ∧ w0.dev.cpPeer.all (fun x => x.1 != 3) = true := by
  refine ⟨by decide +kernel, by decide +kernel, by decide +kernel, ?_, by decide +kernel, by decide +kernel, by decide +kernel,
    by decide +kernel⟩
  intro x hx
  have h : ∀ x ∈ writtenBack, (regOf x.1 x.2.1).isSome = true := by decide +kernel
  exact Option.isSome_iff_exists.mp (h x hx)

/-- A peer 3 that is present, and a reduction window 7 of additions on 8 bytes. -/
def wPeer : State :=
  { w0 with dev := { w0.dev with
    galPresent := 8, rwinBase := [(7, 2 ^ 63 + 1 * 2 ^ 59 + 0x30 * 4096)], rwinSize := [(7, 1)] } }

theorem witness_HostAndPeers :
    (w0.hostReaches (w0.dev.aper * 2 ^ 34 + 0xFFFFF % 2 ^ 34) 1 = true ∧ tabGet w0.dev.fences 0 3 = 0)
    ∧ w0.hostReaches (w0.dev.aper * 2 ^ 34 + (2 ^ 34 - 1) % 2 ^ 34) 8 = false
    ∧ (w0.peerReaches 0x30000 8 = true ∧ w0.store.poisoned 0x30000 8 = false ∧ w0.peerReaches 0x3FFFC 4 = true)
    ∧ (let v := tabGet wPeer.dev.rwinBase 0 7
       bit v 63 = true ∧ bits v 57 56 = wPeer.dev.galSelf ∧ bits v 62 59 = 1 ∧ 4088 + 8 = tabGet wPeer.dev.rwinSize 0 7 * 4096
       ∧ wPeer.peerReaches (bits v 47 12 * 4096 + 4088) 8 = true ∧ wPeer.store.poisoned (bits v 47 12 * 4096 + 4088) 8 = false)
    ∧ bit wPeer.dev.galPresent 3 = true := by decide +kernel

/-- A wave at a load from peer 3, of which lane 0's first byte has not been returned. -/
def wFar : State :=
  { wv (fun v => { v with held := some { k := [], load := some {
      instr := .ld { mark := false, g := g0, attr := 0, scope := 0, cap := 1, a := n 8 8, sh := 0, d := n 40 16 }, mask := 1
      accs := [{ lane := 0, thread := 0, off := 0, keys := [(2 ^ 47 + 3 * 2 ^ 43, 0)] }], got := [] } } }) with
    dev := { w0.dev with galPresent := 8, galLinkup := 5 } }

theorem witness_HostAndPeers_loads :
    (∃ h x, (wFar.wave 0).held = some h ∧ h.load = some x ∧ ∃ a ∈ x.accs, ∃ key ∈ a.keys, isPeer key.1 = true ∧ peerOf key.1 = 3
      ∧ gotAt x.got a.lane key.1 = none)
    ∧ bit wFar.dev.galPresent 3 = true ∧ bit wFar.dev.galLinkup 2 = true :=
  ⟨⟨_, _, rfl, rfl, _, List.mem_singleton.mpr rfl, _, List.mem_singleton.mpr rfl, by decide +kernel⟩, by decide +kernel⟩

theorem witness_HostAndPeers_read :
    w0.hostReaches 0x30000 8 = true ∧ w0.store.poisoned 0x30000 8 = false
    ∧ (w0.store.poisonGranule (0x30000 / 16)).poisoned 0x30000 8 = true ∧ w0.hostReaches devBase 8 = false := by decide +kernel

theorem witness_HostAndPeers_plain (a k : Nat) : w0.plainBytes a k ∧ wPeer.plainBytes a k := ⟨fun _ _ => rfl, fun _ _ => rfl⟩

/-- The mailbox with a command. -/
def wMbox (cmd a : Nat) (done : Bool) : State :=
  { w0 with dev := { w0.dev with mboxBusy := true, mboxDone := done, mboxGo := (cmd, a) } }

theorem witness_StartsAndMailbox :
    ((wMbox 0 0 true).dev.mboxBusy = true ∧ (wMbox 0 0 true).dev.mboxDone = true)
    ∧ (∀ cmd ∈ [0, 1, 2, 3, 4], (wMbox cmd 0x30000 false).dev.mboxBusy = true ∧ (wMbox cmd 0x30000 false).dev.mboxDone = false
      ∧ (wMbox cmd 0x30000 false).dev.fwOk = true ∧ (wMbox cmd 0x30000 false).dev.mboxGo = (cmd, 0x30000))
    ∧ ((wMbox 0 0x30000 false).ctlReadable 0x30000 3568 = true)
    ∧ (match (wMbox 1 0x30000 false).signedImage 0x30000 with
      | .error st => st == 2
      | .ok _ => false) = true := by decide +kernel

theorem witness_StartsAndMailbox_stores :
    (wMbox 0 0x30000 false).fenced 2 = false
    ∧ (List.range 3568).all (fun j => (wMbox 0 0x30000 false).ctlStores 2 (0x30000 + j)) = true := by decide +kernel

theorem witness_StartsAndMailbox_plain (cmd : Nat) : (wMbox cmd 0x30000 false).plainBytes 0x30000 3568 := fun _ _ => rfl

/-! ### The hypotheses of the statements are met: a step -/

/-- What a wave fetches on its turn: the state, and the words. -/
def fetched (s : State) : State × Option (Nat × Nat) :=
  match s.waveTurn 0 with
  | none => (s, none)
  | some s1 =>
    match s1.fetchWave 0 with
    | (s2, .words x lit) => (s2, some (x, lit))
    | (s2, _) => (s2, none)

/-- What the sequencer of cluster 0 fetches on its turn. -/
def seqFetched (s : State) : State × Option (Nat × Nat) :=
  match s.fetchAt (s.seqEnv 0) 0 (s.seqOf 0).seg (s.seqOf 0).word with
  | (s2, .words x lit) => (s2, some (x, lit))
  | (s2, _) => (s2, none)

theorem witness_StepRunsDecoded :
    (let s := State.reset.withFetchWord 128 (0xBC00000240000000 + 7 * 2 ^ 64)
     s.agenda = [] ∧ s.cur = .wave 0 ∧ (fetched s).2 = some (0xBC00000240000000, 7)
     ∧ decodeThread 0xBC00000240000000 7 = .ok (.lit { mark := true, d := 9, v := 7 }) ∧ (fetched s).1.wdExpired 0 = false)
    ∧ (let s := State.reset.withFetchWord 64 (2 ^ 62 - 1)
       (fetched s).2 = some (2 ^ 62 - 1, 0)
       ∧ (match decodeThread (2 ^ 62 - 1) 0 with
         | .error _ => true
         | .ok _ => false) = true)
    ∧ (let s := { State.reset.withFetchWord 64 0x3400000000000000 with agenda := [.seq 0], cur := .idle }
       { s with agenda := [], cur := .seq 0 }.seqTurn 0 = true
       ∧ (seqFetched { s with agenda := [], cur := .seq 0 }).2 = some (0x3400000000000000, 0))
    ∧ (isEvent (.tlbInvContext 4095) = true ∧ (Instr.tlbInvContext 4095).wf = true) := by decide +kernel

theorem witness_StepRunsDecoded_part :
    (let s := { State.reset.withFetchWord 128 (0xBC00000240000000 + 7 * 2 ^ 64) with agenda := [.part 0 0] }
     let u := { s with agenda := [], cur := .wave 0 }
     (u.waveTurn 0).isSome = true ∧ (fetched u).2 = some (0xBC00000240000000, 7) ∧ (fetched u).1.wdExpired 0 = false
     ∧ (u.wave 0).sentLoad = none)
    ∧ (wFar.waveTurn 0).isSome = true
    ∧ (((wFar.waveTurn 0).getD w0).wave 0).sentLoad.isSome = true := by decide +kernel

theorem witness_StepRunsDecoded_clocks :
    w0.clocked (.poolDrainComplete 31) = true
    ∧ (wCl fun c => { c with brownout := true }).clocked (.poolDrainComplete 31) = false
    ∧ (wCl fun c => { c with brownout := true }).trapsFirst (.poolDrainComplete 31) = false
    ∧ isEvent (.poolDrainComplete 31) = true ∧ (Instr.poolDrainComplete 31).wf = true := by decide +kernel

/-- A wave whose watchdog has run out before a word that no agent decodes. -/
def wBad : State :=
  { w0 with
    mem := { w0.mem with store := placedStore w0.store (2 ^ 62 - 1) }
    launches := [(0, { tLaunch with rec_ := { LaunchRec.zero with segLim := 1 } })] }

theorem witness_StepRunsDecoded_event :
    w0.trapsFirst (.tlbInvContext 4095) = false ∧ wBad.trapsFirst (.segmentWatchdogExpiry 0) = true
    ∧ (Instr.segmentWatchdogExpiry 0).wf = true := by decide +kernel

/-- The word at the start of the placed code, and the lines that hold it. -/
def fetchRoom (s : State) (e : Env) : Option (Nat × Nat × Nat × Nat) :=
  match s.translate e placedCode .fetch with
  | .ok (s1, pa, _) => some (pa, s1.store.readNat pa 8, (s1.iLine 0 (pa / 64)).toList.length, (s1.bufLine 0 3 (pa / 64)).toList.length)
  | .error _ => none

theorem witness_StepRunsDecoded_fetch :
    fetchRoom w0 (w0.waveEnv 0) = some (0x10000, 0, 0, 0) ∧ (w0.waveEnv 0).core = some 0 ∧ (fetchRoom w0 (w0.seqEnv 0)).isSome = true
    ∧ (w0.seqEnv 0).core = none ∧ ((w0.launch 0).mod_.segOf 0).len = 16
    ∧ fetchRoom { w0 with cores := [(0, { CoreSt.reset with fbufs := [(3, [iLineOf w0.store 0x400])] })] } (w0.waveEnv 0)
      = some (0x10000, 0, 0, 1) := by decide +kernel

theorem witness_MemoryCanonicalKept :
    w2.memoryCanonical ∧ step { w2 with agenda := [.tick 5] } = .next { w2 with agenda := [], dt := 1005 } := by
  refine ⟨by unfold State.memoryCanonical; decide +kernel, rfl⟩

theorem witness_CisternFlush :
    (let s := wCis { Cistern.empty with openRows := [tRow 64] }
     s.cur = .wave 0 ∧ (s.wave 0).spec = none ∧ (s.wave 0).relGate = none ∧ (s.groupMod (groupOf 0)).cisternDecl 0 = some ⟨0, 2, 100, 128⟩
     ∧ (s.cistern (s.waveCluster 0) 0).openRows ≠ [] ∧ (s.groupMod (groupOf 0)).cisternDecl 7 = none ∧ (s.wave 0).level = .thread
     ∧ (s.waveMod 0).handlerOf .illegalOperand ≠ 4095)
    ∧ ((wCis Cistern.empty).cistern ((wCis Cistern.empty).waveCluster 0) 0).openRows = [] := by decide +kernel

theorem witness_NoHandler :
    ∀ c ∈ [Cause.deadline, .watchdog, .illegalOpcode],
      let s := { w0 with launches := [(0, { tLaunch with mod_ := { tMod with traps := [] } })] }
      (s.wave 0).spec = none ∧ (s.wave 0).level = .thread ∧ (s.waveMod 0).handlerOf c = 4095 := by decide +kernel

end Sys2Proof.Tests
end

section
/-! ## O57: every step keeps memory in its canonical form

The canonical form is the model's own (log entry 8): `State.memoryCanonical` says that no address stands twice among the stored bytes.
Memory changes only through the writes of `Store`, which keep it (`Store.wf_write`, `Store.wf_zero`). The lemmas below carry the fact
through every function that a step runs, one lemma per function under the function's own name, in the order of the model's text, so that
the proof for a function is the chain of the functions that it calls. A body that holds a literal address is opened by `delta`: an
equation lemma of it would have the kernel compute with that address. -/

namespace Sys2Proof.Machine

open Sys2Proof

/-! ### Results that carry states -/

/-- The state of every result, an error's too, has canonical memory. -/
def bothCanonical {α β : Type} (r : Except (State × α) (State × β)) : Prop :=
  match r with
  | .error x => x.1.memoryCanonical
  | .ok x => x.1.memoryCanonical

theorem bothCanonical.ok {α β : Type} {r : Except (State × α) (State × β)} {t : State} {x : β} (h : bothCanonical r)
    (e : r = .ok (t, x)) : t.memoryCanonical := by subst e; exact h

theorem bothCanonical.error {α β : Type} {r : Except (State × α) (State × β)} {t : State} {x : α} (h : bothCanonical r)
    (e : r = .error (t, x)) : t.memoryCanonical := by subst e; exact h

theorem bothCanonical.of_ok {α β : Type} {t : State} (h : t.memoryCanonical) (x : β) :
    bothCanonical (.ok (t, x) : Except (State × α) (State × β)) := h

theorem bothCanonical.ite {α β : Type} {c : Prop} [Decidable c] {p q : Except (State × α) (State × β)} (h : bothCanonical p)
    (k : bothCanonical q) : bothCanonical (if c then p else q) := by
  split
  · exact h
  · exact k

/-- The state that a pair carries has canonical memory. -/
def firstCanonical {α : Type} (p : State × α) : Prop := p.1.memoryCanonical

theorem firstCanonical.fst {α : Type} {p : State × α} (h : firstCanonical p) : p.1.memoryCanonical := h

theorem firstCanonical.of_eq {α : Type} {p : State × α} {t : State} {x : α} (h : firstCanonical p) (e : p = (t, x)) :
    t.memoryCanonical := by subst e; exact h

theorem firstCanonical.ite {α : Type} {c : Prop} [Decidable c] {p q : State × α} (h : firstCanonical p) (k : firstCanonical q) :
    firstCanonical (if c then p else q) := by
  split
  · exact h
  · exact k

/-- The next state that an answer gives, if it gives one, has canonical memory. -/
def Answer.canonical (r : Answer) : Prop := ∀ t, r = .next t → t.memoryCanonical

namespace State.memoryCanonical

section
variable {s : State} (h : s.memoryCanonical)
include h

/-! ### How states are put together -/

/-- The canonical form speaks of the bytes alone. -/
theorem of_bytes {t : State} (e : t.store.bytes = s.store.bytes) : t.memoryCanonical := by
  unfold State.memoryCanonical Store.wf at *
  rwa [e]

theorem of_store {t : State} (e : t.store = s.store) : t.memoryCanonical := h.of_bytes (by rw [e])

theorem of_mem {t : State} (e : t.mem = s.mem) : t.memoryCanonical := h.of_store (congrArg MemSys.store e)

theorem next : Answer.canonical (.next s) := by
  rintro t ⟨⟩
  exact h

theorem foldl {α : Type} {f : State → α → State} {l : List α} (step : ∀ x a, x.memoryCanonical → (f x a).memoryCanonical) :
    (l.foldl f s).memoryCanonical := foldl_keeps State.memoryCanonical f l s h step

theorem foldr {α : Type} {f : α → State → State} {l : List α} (step : ∀ x a, x.memoryCanonical → (f a x).memoryCanonical) :
    (l.foldr f s).memoryCanonical := by
  induction l with
  | nil => exact h
  | cons a rest ih => exact step _ a ih

theorem ite {t : State} {c : Prop} [Decidable c] (k : t.memoryCanonical) : (if c then s else t).memoryCanonical := by
  split
  · exact h
  · exact k

end

theorem setStore {s : State} {m : Store} (h : m.wf = true) : (s.setStore m).memoryCanonical := h

theorem answer_ite {c : Prop} [Decidable c] {a b : Answer} (h : a.canonical) (k : b.canonical) : Answer.canonical (if c then a else b) := by
  split
  · exact h
  · exact k

section
variable {s : State} (h : s.memoryCanonical)
include h

/-! ### Registers, waves and groups -/

theorem setWave {w v} : (s.setWave w v).memoryCanonical := h
theorem setGroup {g v} : (s.setGroup g v).memoryCanonical := h
theorem setCrew {c v} : (s.setCrew c v).memoryCanonical := h
theorem setCore {c v} : (s.setCore c v).memoryCanonical := h
theorem setCluster {k v} : (s.setCluster k v).memoryCanonical := h
theorem setLaunch {l v} : (s.setLaunch l v).memoryCanonical := h
theorem setAccount {a v} : (s.setAccount a v).memoryCanonical := h
theorem setSeq {k q} : (s.setSeq k q).memoryCanonical := h
theorem setThread {g t v} : (s.setThread g t v).memoryCanonical := h
theorem retime {k} : (s.retime k).memoryCanonical := h
theorem bumpFree : s.bumpFree.memoryCanonical := h
theorem setWaveS {w r v} : (s.setWaveS w r v).memoryCanonical := h
theorem setWaveK {w r v} : (s.setWaveK w r v).memoryCanonical := h
theorem setWaveVw {w r v} : (s.setWaveVw w r v).memoryCanonical := h
theorem orderRegs {w} : (s.orderRegs w).memoryCanonical := h
theorem releaseRegs {w} : (s.releaseRegs w).memoryCanonical := h

theorem logUndo {w t n k} : (s.logUndo w t n k).memoryCanonical := by
  unfold State.logUndo
  split
  · exact h
  · exact h.setWave

theorem setShort {w t o v} : (s.setShort w t o v).memoryCanonical := h.logUndo.setWave.setThread
theorem setPrd {w t p v} : (s.setPrd w t p v).memoryCanonical := h.ite h.setWave.setThread
theorem addLong {w r} : (s.addLong w r).memoryCanonical := h.ite h.setWave

/-! ### Writes at their homes -/

theorem writeAtHome {b cells tag} : (s.writeAtHome b cells tag).memoryCanonical := s.wf_writeAtHome b cells tag h
theorem touchRead {a n} : (s.touchRead a n).memoryCanonical := h.of_store (s.touchRead_store a n)
theorem spoil {ws gs} : (s.spoil ws gs).memoryCanonical := h.of_bytes (s.spoil_bytes ws gs)
theorem joinQueue {w} : (s.joinQueue w).memoryCanonical := h.of_store (s.store_joinQueue w)
theorem wakeSeq {g k} : (s.wakeSeq g k).memoryCanonical := h.of_store (s.store_wakeSeq g k)
theorem wakeGranule {g} : (s.wakeGranule g).memoryCanonical := h.of_store (s.store_wakeGranule g)
theorem noteGrid {a} : (s.noteGrid a).memoryCanonical := h.of_store (s.store_noteGrid a)
theorem markConflicts {b l} : (s.markConflicts b l).memoryCanonical := h

theorem barrierOp {a f} : (s.barrierOp a f).memoryCanonical := by
  have hm : ({ s.store with armed := memberAdd s.store.armed (a / 16) } : Store).wf = true := h
  exact (setStore (Store.wf_write _ _ none hm)).noteGrid.wakeGranule

/-- A change of the L2 tags is none of the bytes. -/
theorem foldMem {α : Type} {f : MemSys → α → MemSys} {l : List α} (step : ∀ m a, (f m a).store = m.store) :
    ({ s with mem := l.foldl f s.mem } : State).memoryCanonical :=
  h.of_store (foldl_fixed MemSys.store f l s.mem step)

end

end State.memoryCanonical

namespace State.memoryCanonical

variable {s : State} (h : s.memoryCanonical)
include h

/-! ### Translation (R35 to R41) -/

theorem keepPointer {p} : (s.keepPointer p).memoryCanonical := h
theorem setAD {a e st} : (s.setAD a e st).memoryCanonical := h.ite h.writeAtHome
theorem fillCoreTlb {c t} : (s.fillCoreTlb c t).memoryCanonical := h.setCore

theorem fillTlbs {e t} : (s.fillTlbs e t).memoryCanonical := by
  unfold State.fillTlbs
  dsimp only
  split
  · exact h.setCluster
  · exact h.setCluster.fillCoreTlb

theorem useLeaf {e ctx va t} : (s.useLeaf e ctx va t).memoryCanonical := by
  unfold State.useLeaf
  split
  · exact h.fillCoreTlb
  · exact h

theorem queuePref {c lvl pa cls} : (s.queuePref c lvl pa cls).memoryCanonical := h.ite h.setCore

omit h in
theorem walkLevels {ctx va n} {s : State} (h : s.memoryCanonical) {table level} :
    firstCanonical (s.walkLevels ctx va table level n) := by
  induction n generalizing s table level with
  | zero => exact h
  | succ n ih =>
    unfold State.walkLevels
    split
    · exact ih h
    · dsimp only
      split
      · exact h
      · split
        · exact h.touchRead
        · split
          · split
            · exact h.touchRead
            · split <;> exact h.touchRead
          · split
            · exact ih h.touchRead.keepPointer
            · exact h.touchRead

theorem walkOf {ctx va} : firstCanonical (s.walkOf ctx va) := by
  unfold State.walkOf
  dsimp only
  split
  · exact h
  · split
    · exact h.touchRead
    · exact h.touchRead.walkLevels

omit h in
theorem takeWalks {n} {s : State} (h : s.memoryCanonical) : (s.takeWalks n).memoryCanonical := by
  induction n generalizing s with
  | zero => exact h
  | succ n ih =>
    unfold State.takeWalks
    split
    · exact h
    · split
      · exact h
      · exact ih h.setCluster

theorem walkRaw {e ctx va st} : firstCanonical (s.walkRaw e ctx va st) := by
  rw [show @State.walkRaw = _ from by delta State.walkRaw; rfl]
  split
  · next heq => exact h.walkOf.of_eq heq
  · next heq => exact (h.walkOf.of_eq heq).setAD.fillTlbs

theorem serveWaiter {t x} : (State.serveWaiter t s x).memoryCanonical := by
  unfold State.serveWaiter
  dsimp only
  split
  · exact h.fillCoreTlb
  · exact h.fillCoreTlb.queuePref

theorem finishWalk {e m va st} : firstCanonical (s.finishWalk e m va st) := by
  rw [show @State.finishWalk = _ from by delta State.finishWalk; rfl]
  extract_lets +onlyGivenNames k
  split
  · next heq => exact (h.setCluster.walkRaw.of_eq heq).takeWalks
  · next heq => exact ((h.setCluster.walkRaw.of_eq heq).foldl fun _ _ h => h.serveWaiter).takeWalks

omit h in
theorem walkAhead {k ctx page n} {s : State} (h : s.memoryCanonical) : (s.walkAhead k ctx page n).memoryCanonical := by
  induction n generalizing s with
  | zero => exact h
  | succ n ih =>
    unfold State.walkAhead
    split
    · exact h
    · split
      · exact h
      · exact ih h.finishWalk.fst

theorem walkFill {e ctx va st} : firstCanonical (s.walkFill e ctx va st) := by
  unfold State.walkFill
  dsimp only
  split
  · exact h.setCluster.takeWalks.walkAhead.walkRaw
  · split
    · exact h.setCluster.takeWalks.walkAhead.walkRaw
    · exact h.setCluster.takeWalks.walkAhead.finishWalk

theorem leafFor {e ctx va acc} : firstCanonical (s.leafFor e ctx va acc) := by
  unfold State.leafFor
  split
  · exact h.walkFill
  · split
    · exact h.walkFill
    · exact h.useLeaf

theorem translateIn {e ctx va acc} : bothCanonical (s.translateIn e ctx va acc) := by
  unfold State.translateIn
  split
  · next heq => exact h.leafFor.of_eq heq
  · next heq =>
    have h1 := h.leafFor.of_eq heq
    split
    · exact h1
    · exact h1

theorem translate {e va acc} : bothCanonical (s.translate e va acc) := h.translateIn

omit h in
theorem vaKeys {e acc p} {s : State} (h : s.memoryCanonical) {va n} : bothCanonical (s.vaKeys e acc va n p) := by
  induction p generalizing s va n with
  | zero => exact h
  | succ p ih =>
    unfold State.vaKeys
    split
    · exact h
    · dsimp only
      split
      · next heq => exact h.translate.error heq
      · next heq =>
        have h1 := h.translate.ok heq
        split
        · next heq => exact (ih h1).error heq
        · next heq =>
          have h2 := (ih h1).ok heq
          exact h2

theorem capKeys {e c acc off n} : bothCanonical (s.capKeys e c acc off n) := by
  unfold State.capKeys
  split
  · split
    · exact h
    · exact h
  · exact h
  · exact h
  · exact h.vaKeys

/-! ### Writes in flight (R108 to R110) -/

theorem landWrite {b p} : (s.landWrite b p).memoryCanonical := h.ite h.writeAtHome
theorem performWrite {w p} : (s.performWrite w p).memoryCanonical := h.landWrite.setWave
theorem performLeft {a p} : (s.performLeft a p).memoryCanonical := h.landWrite.setAccount.setLaunch
theorem flushAccount {hs a} : (s.flushAccount hs a).memoryCanonical := h.setAccount.foldl fun _ _ h => h.performLeft
theorem emptyAccount {a} : (s.emptyAccount a).memoryCanonical := h.setAccount.foldl fun _ _ h => h.performLeft

theorem flushHomes {w hs} : (s.flushHomes w hs).memoryCanonical :=
  have h0 := h.foldl fun _ _ h => h.flushAccount
  h0.ite (h0.setWave.foldl fun _ _ h => h.performWrite)

theorem flushHome {w home} : (s.flushHome w home).memoryCanonical := h.flushHomes

theorem flushAll {w} : (s.flushAll w).memoryCanonical :=
  have h0 := h.foldl fun _ _ h => h.emptyAccount
  h0.ite (h0.setWave.foldl fun _ _ h => h.performWrite)

theorem dropL1 {c cells} : (s.dropL1 c cells).memoryCanonical := h.setCore

/-! ### Logs and the L1 (R46, R66 to R69) -/

theorem fireMsix {v} : (s.fireMsix v).memoryCanonical := h

theorem logAlarm {kind b} : (s.logAlarm kind b).memoryCanonical := by
  have h1 : (if b then s.fireMsix 17 else s).memoryCanonical := h.fireMsix.ite h
  exact h1.ite h1

theorem logNear {k kind unit place bank off} : (s.logNear k kind unit place bank off).memoryCanonical := h.setCluster.logAlarm

theorem fillL1 {core line cls} : (s.fillL1 core line cls).memoryCanonical := by
  have h1 : ({ s with mem := l2Grant s.mem s.dt (line / 2) cls } : State).memoryCanonical := h.of_store (l2Grant_store _ _ _ _)
  unfold State.fillL1
  dsimp only
  split
  · exact h1.ite h1.setCore
  · exact (h1.ite h1.setCore).logNear

theorem loadByte {w core key cls} : firstCanonical (s.loadByte w core key cls) := by
  unfold State.loadByte
  split
  · exact h.flushHome.touchRead
  · split
    · exact h
    · exact h.flushHome.fillL1

omit h in
theorem loadKeys {w core ks} {s : State} (h : s.memoryCanonical) : firstCanonical (s.loadKeys w core ks) := by
  induction ks generalizing s with
  | nil => exact h
  | cons k rest ih => exact ih h.loadByte.fst

/-! ### Words that end, parks (R196, R236, R366) -/

theorem noteEnd {l st info} : (s.noteEnd l st info).memoryCanonical := h
theorem park {w p} : (s.park w p).memoryCanonical := h
theorem parkRelease {w sc} : (s.parkRelease w sc).memoryCanonical := h
theorem unpark {w} : (s.unpark w).memoryCanonical := h
theorem passMark {w m} : (s.passMark w m).memoryCanonical := h
theorem finishN {w m n} : (s.finishN w m n).memoryCanonical := h
theorem finish {w m} : (s.finish w m).memoryCanonical := h
theorem setCc {w c} : (s.setCc w c).memoryCanonical := h
theorem setStatus {w n} : (s.setStatus w n).memoryCanonical := h
theorem setMz {w p} : (s.setMz w p).memoryCanonical := h

/-! ### The journal, grids, and crews that end (R140, R379, R436) -/

theorem jrnAdvance : s.jrnAdvance.memoryCanonical := h
theorem journal {kind slot} : (s.journal kind slot).memoryCanonical := s.store.wf_write _ none h
theorem gridTest {l key} : (s.gridTest l key).memoryCanonical := by
  unfold State.gridTest
  dsimp only
  split <;> exact h

theorem gridLeaveOne {c key} : (s.gridLeaveOne c key).memoryCanonical := .ite h.setLaunch.gridTest h
theorem gridLeave {c} : (s.gridLeave c).memoryCanonical := h.ite (h.foldl fun _ _ h => h.gridLeaveOne).setCrew
theorem raiseMaxw {l m} : (s.raiseMaxw l m).memoryCanonical := h
theorem dropWave {w} : (s.dropWave w).memoryCanonical := h

theorem leaveWave {w} : firstCanonical (s.leaveWave w) := by
  unfold State.leaveWave
  dsimp only
  split <;> exact h

theorem removeWave {w} : (s.removeWave w).memoryCanonical := h.flushAll.leaveWave.fst.dropWave
theorem endGroup {g} : (s.endGroup g).memoryCanonical := h

theorem killCrew {c} : (s.killCrew c).memoryCanonical :=
  ((h.foldl fun _ _ h => h.removeWave).foldl fun _ _ h => h.endGroup).setCrew.gridLeave

theorem endCrewWith {c st info} : (s.endCrewWith c st info).memoryCanonical := h.noteEnd.killCrew
theorem dropWaiting {l} : (s.dropWaiting l).memoryCanonical := h
theorem dropRecords {l} : (s.dropRecords l).memoryCanonical := h
theorem endSeq {k} : (s.endSeq k).memoryCanonical := h
theorem killSeqs {l} : (s.killSeqs l).memoryCanonical := h.foldl fun _ _ h => .ite h.endSeq h

theorem endLaunch {l st info} : (s.endLaunch l st info).memoryCanonical :=
  (h.noteEnd.dropRecords.killSeqs.foldl fun _ _ h => h.killCrew).setLaunch

/-! ### Traps (R372 to R375) -/

theorem enterHandler {w a x t} : (s.enterHandler w a x t).memoryCanonical := h

theorem takeTrap {w a t} : (s.takeTrap w a t).memoryCanonical := by
  unfold State.takeTrap
  dsimp only
  split
  · exact h.park
  · split
    · exact h.endCrewWith
    · exact .ite (.ite h.endCrewWith h.endCrewWith) h.enterHandler

theorem trapWord {w c} : (s.trapWord w c).memoryCanonical := h.takeTrap

theorem trapReturn {w sk} : (s.trapReturn w sk).memoryCanonical := by
  unfold State.trapReturn
  dsimp only
  split
  · exact h
  · exact h.setWave

theorem seqFault {k c} : (s.seqFault k c).memoryCanonical := by
  unfold State.seqFault
  dsimp only
  split
  · exact h.setSeq.endSeq
  · exact h.setSeq.endSeq.endLaunch

theorem seqFinish {k n} : (s.seqFinish k n).memoryCanonical := h

/-! ### Agents and what they wait for -/

omit h in
theorem onAgent {s : State} {fw fq : Nat → State} (hw : ∀ w, (fw w).memoryCanonical) (hq : ∀ k, (fq k).memoryCanonical) :
    Answer.canonical (s.onAgent fw fq) := by
  unfold State.onAgent
  split
  · rintro t ⟨⟩
  · next w _ => exact (hw w).next
  · next k _ => exact (hq k).next

theorem onWave {fw : Nat → State} (hw : ∀ w, (fw w).memoryCanonical) : Answer.canonical (s.onWave fw) :=
  onAgent hw fun _ => h.seqFault

theorem onSeq {fq : Nat → State} (hq : ∀ k, (fq k).memoryCanonical) : Answer.canonical (s.onSeq fq) :=
  onAgent (fun _ => h.trapWord) hq

theorem unlessSpec {w} {b : State} (hb : b.memoryCanonical) : (s.unlessSpec w b).memoryCanonical := .ite h.park hb
theorem afterRelease {w sc} {b : State} (hb : b.memoryCanonical) : (s.afterRelease w sc b).memoryCanonical := .ite hb h.parkRelease

theorem afterGate {w} {b : State → State} (hb : ∀ t, t.memoryCanonical → (b t).memoryCanonical) :
    (s.afterGate w b).memoryCanonical := by
  unfold State.afterGate
  split
  · exact hb s h
  · exact .ite (hb _ h.setWave) h.parkRelease

theorem seqAfterRelease {k sc} {b : State} (hb : b.memoryCanonical) : (s.seqAfterRelease k sc b).memoryCanonical := .ite hb h

theorem seqAfterGate {k} {b : State → State} (hb : ∀ t, t.memoryCanonical → (b t).memoryCanonical) :
    (s.seqAfterGate k b).memoryCanonical := by
  unfold State.seqAfterGate
  split
  · exact hb s h
  · exact .ite (hb _ h.setSeq) h

theorem outsideRegion {k} {b : State} (hb : b.memoryCanonical) : (s.outsideRegion k b).memoryCanonical := .ite h.seqFault hb
theorem seqWrite {k cells} : (s.seqWrite k cells).memoryCanonical := h.writeAtHome.setSeq

/-! ### Registers of the selected agent -/

theorem setSReg {r v} : (s.setSReg r v).memoryCanonical := by
  unfold State.setSReg
  split
  · exact h
  · exact h.setWaveS
  · exact h.setSeq

theorem setAgentCc {c} : (s.setAgentCc c).memoryCanonical := by
  unfold State.setAgentCc
  split
  · exact h
  · exact h.setCc
  · exact h.setSeq

theorem setLc {n v} : (s.setLc n v).memoryCanonical := by
  unfold State.setLc
  split
  · exact h
  · exact h.setWave
  · exact h.setSeq

theorem agentFinish {m n} : (s.agentFinish m n).memoryCanonical := by
  unfold State.agentFinish
  split
  · exact h
  · exact h.finishN
  · exact h.seqFinish

theorem agentTrap {c} : (s.agentTrap c).memoryCanonical := by
  unfold State.agentTrap
  split
  · exact h
  · exact h.trapWord
  · exact h.seqFault

theorem onBoth {b} {t : State} (ht : t.memoryCanonical) : Answer.canonical (s.onBoth b t) := onAgent (fun _ => .ite h.park ht) fun _ => ht

theorem scalarWord {m d r} : Answer.canonical (s.scalarWord m d r) := by
  unfold State.scalarWord
  dsimp only
  split
  · exact h.onBoth h.setAgentCc.agentFinish
  · exact h.onBoth h.setSReg.setAgentCc.agentFinish

/-! ### Per-lane words -/

theorem issueQuota {w x} {b : List (Nat × Nat) → State} (hb : ∀ act, (b act).memoryCanonical) :
    (s.issueQuota w x b).memoryCanonical := .ite h.takeTrap (.ite h.park (hb _))

theorem issueTested {w x bad} {b : List (Nat × Nat) → State} (hb : ∀ act, (b act).memoryCanonical) :
    (s.issueTested w x bad b).memoryCanonical := h.issueQuota fun act => .ite h.takeTrap (hb act)

theorem issueLanes {w x} {b : List (Nat × Nat) → State} (hb : ∀ act, (b act).memoryCanonical) :
    (s.issueLanes w x b).memoryCanonical := h.issueQuota fun act => .ite h.takeTrap (hb act)

theorem putShort {w act f} : (s.putShort w act f).memoryCanonical := h.foldl fun _ _ h => h.foldl fun _ _ h => h.setShort

theorem putLong {w act ws f} : (s.putLong w act ws f).memoryCanonical :=
  (h.foldl fun _ _ h => h.foldl fun _ _ h => h.logUndo).addLong

theorem shortWord {x f} : Answer.canonical (s.shortWord x f) := h.onWave fun _ => h.issueLanes fun _ => h.putShort.finish
theorem longWord {x f} : Answer.canonical (s.longWord x f) := h.onWave fun _ => h.issueLanes fun _ => h.putLong.finish

theorem prdWord {x d f} : Answer.canonical (s.prdWord x d f) :=
  h.onWave fun _ => h.issueLanes fun _ => (h.foldl fun _ _ h => h.setPrd).setMz.finish

theorem typedVV {o e ok useD long f} : Answer.canonical (s.typedVV o e ok useD long f) := answer_ite h.longWord h.shortWord
theorem typedVS {o e ok useD long f} : Answer.canonical (s.typedVS o e ok useD long f) := answer_ite h.longWord h.shortWord
theorem typedVI {o useD long f} : Answer.canonical (s.typedVI o useD long f) := answer_ite h.longWord h.shortWord
theorem typedU {o e ok long f} : Answer.canonical (s.typedU o e ok long f) := answer_ite h.longWord h.shortWord
theorem typedUS {o e ok long f} : Answer.canonical (s.typedUS o e ok long f) := answer_ite h.longWord h.shortWord

end State.memoryCanonical

namespace State.memoryCanonical

variable {s : State} (h : s.memoryCanonical)
include h

/-! ### Queues of tasks, successor counters (R336, R337, R360 to R363) -/

theorem setStaging {k l x} : (s.setStaging k l x).memoryCanonical := h
theorem pushHeadrace {c r} : (s.pushHeadrace c r).memoryCanonical := h.ite h.setCore
theorem pushStaging {k l x} : (s.pushStaging k l x).memoryCanonical := h.ite h.setStaging

theorem enqueue {c r} : firstCanonical (s.enqueue c r) := by
  unfold State.enqueue
  split
  · exact h.pushHeadrace
  · split
    · exact h.pushStaging
    · exact h

theorem placeRelease {c r t} (e : s.placeRelease c r = some t) : t.memoryCanonical := by
  unfold State.placeRelease at e
  dsimp only at e
  split at e
  · split at e
    · cases e; exact h
    · cases e
  · cases e; exact h.enqueue.fst

omit h in
theorem placeReleases {c rs} {s : State} (h : s.memoryCanonical) : firstCanonical (s.placeReleases c rs) := by
  induction rs generalizing s with
  | nil => exact h
  | cons r rest ih =>
    unfold State.placeReleases
    split
    · exact h
    · next heq => exact ih (h.placeRelease heq)

theorem touchKeys {ks} : (s.touchKeys ks).memoryCanonical := h.foldl fun _ _ h => h.touchRead

theorem readSuccessor {e c off} : firstCanonical (s.readSuccessor e c off) := by
  unfold State.readSuccessor
  split
  · next heq => exact (h.capKeys.ok heq).touchKeys
  · next heq => exact h.capKeys.error heq
  · exact h

theorem counterAdd {e c ks d} : firstCanonical (s.counterAdd e c ks d) := by
  unfold State.counterAdd
  dsimp only
  split
  · exact h.endLaunch
  · split
    · exact h.endLaunch
    · split
      · exact h.writeAtHome.readSuccessor
      · exact h.writeAtHome

theorem decrement {e g a} : firstCanonical (s.decrement e g a) := by
  unfold State.decrement
  split
  · exact h
  · dsimp only
    split
    · next heq => exact (h.capKeys.ok heq).counterAdd
    · next heq => exact (h.capKeys.error heq).endLaunch
    · exact h.endLaunch

theorem completeTask {g} : (s.completeTask g).memoryCanonical := by
  unfold State.completeTask
  split
  · exact h
  · dsimp only
    split
    · next heq => exact h.setGroup.decrement.of_eq heq
    · next heq =>
      have h2 := h.setGroup.decrement.of_eq heq
      split
      · next heq => exact h2.placeRelease heq
      · exact h2.setGroup

theorem afterDeaths {g} : (s.afterDeaths g).memoryCanonical := h.ite (.ite h.completeTask h.setGroup)

/-! ### Regrouping and the ends of segments (R163 to R182) -/

theorem meetRelease {g} : (s.meetRelease g).memoryCanonical := h.setGroup

theorem sortWave {w succs} : (s.sortWave w succs).memoryCanonical :=
  (h.leaveWave.fst.foldl fun _ _ h => h.setThread).dropWave.meetRelease.afterDeaths.bumpFree

theorem segmentEnd {w succs} : (s.segmentEnd w succs).memoryCanonical := .ite h.park (.ite h.takeTrap (.ite h.park h.sortWave))
theorem formWave {g slot seg ts} : (s.formWave g slot seg ts).memoryCanonical := (h.foldl fun _ _ h => h.setThread).setWave

theorem execWaveFormation {g} : Answer.canonical (execWaveFormation g s) := by
  unfold Machine.execWaveFormation
  split
  · exact h.next
  · split
    · exact h.formWave.next
    · exact h.next

theorem execBucketAgeMax {g seg} : Answer.canonical (execBucketAgeMax g seg s) := answer_ite h.execWaveFormation h.next
theorem atThread {w} {b : State} (hb : b.memoryCanonical) : (s.atThread w b).memoryCanonical := .ite h.trapWord (h.unlessSpec hb)

theorem execNext {o} : Answer.canonical (execNext o s) :=
  h.onWave fun _ => h.atThread (.ite h.park (h.issueTested fun _ => h.segmentEnd))

theorem continueWave {w seg} : (s.continueWave w seg).memoryCanonical :=
  .bumpFree (.ite (h.foldl fun _ _ h => h.setThread).setWave.meetRelease (h.foldl fun _ _ h => h.setThread).setWave)

theorem waveNextu {w succ} : (s.waveNextu w succ).memoryCanonical := .ite h.park (.ite h.continueWave h.segmentEnd)
theorem seqDrain {k} {b : State} (hb : b.memoryCanonical) : (s.seqDrain k b).memoryCanonical := .ite hb h
theorem seqExit {k} : (s.seqExit k).memoryCanonical := h
theorem seqNextu {k succ} : (s.seqNextu k succ).memoryCanonical := .ite h.seqExit (.ite h.setSeq.bumpFree h.seqFault)

theorem execNextu {o} : Answer.canonical (execNextu o s) :=
  onAgent (fun _ => h.atThread h.waveNextu) fun _ => h.outsideRegion (h.seqDrain h.seqNextu)

theorem execExit {o} : Answer.canonical (execExit o s) :=
  onAgent (fun _ => h.atThread h.segmentEnd) fun _ => h.outsideRegion (h.seqDrain h.seqExit)

theorem execMeet {o} : Answer.canonical (execMeet o s) :=
  h.onWave fun _ => h.atThread
    (.ite h.trapWord (.ite h.takeTrap (h.foldl fun _ _ h => h.setThread).meetRelease.finish))

/-! ### Jumps (R276 to R278) -/

theorem setWord {n} : (s.setWord n).memoryCanonical := by
  unfold State.setWord
  split
  · exact h
  · exact h.setWave
  · exact h.setSeq

theorem jump {m b d} : (s.jump m b d).memoryCanonical := .ite h.agentFinish (.ite h.agentFinish.setWord h.agentTrap)
theorem execJmp {o} : Answer.canonical (execJmp o s) := h.onBoth h.jump
theorem execJmz {o} : Answer.canonical (execJmz o s) := h.onBoth (.ite h.agentTrap h.jump)
theorem execJmnz {o} : Answer.canonical (execJmnz o s) := h.onBoth (.ite h.agentTrap h.jump)
theorem execLcset {o} : Answer.canonical (execLcset o s) := h.onBoth h.setLc.agentFinish

theorem execLoop {o} : Answer.canonical (execLoop o s) :=
  h.onBoth (.ite h.agentFinish (.ite h.setLc.agentFinish (.ite h.setLc.jump h.agentTrap)))

theorem execNop {o} : Answer.canonical (execNop o s) := h.onBoth h.agentFinish

/-! ### Loads (R91, R279, R280) -/

omit h in
theorem locate {e c r ls} {s : State} (h : s.memoryCanonical) : firstCanonical (s.locate e c r ls) := by
  induction ls generalizing s with
  | nil => exact h
  | cons x rest ih =>
    obtain ⟨l, t, off⟩ := x
    unfold State.locate
    split
    · exact (ih h).fst
    · split
      · next heq => exact (ih (h.capKeys.error heq)).fst
      · next heq =>
        have h1 := ih (h.capKeys.ok heq)
        dsimp only
        split
        · exact h1.fst
        · exact h1.fst

theorem memIssue {w x r off} {b : State → Nat → List LaneAcc → State}
    (hb : ∀ t a as, t.memoryCanonical → (b t a as).memoryCanonical) : (s.memIssue w x r off b).memoryCanonical :=
  h.issueQuota fun act => by
    dsimp only
    split
    · exact .ite (hb _ _ _ h) h.takeTrap
    · exact .ite h.locate.fst.takeTrap (hb _ _ _ h.locate.fst)

theorem partialTrap {w a b} : (s.partialTrap w a b).memoryCanonical := h.takeTrap

omit h in
theorem takeBytes {w core ks} {s : State} (h : s.memoryCanonical) : firstCanonical (s.takeBytes w core ks) := by
  induction ks generalizing s with
  | nil => exact h
  | cons k rest ih => exact (ih h.loadByte.fst).fst

theorem loadBytes {w core ks} : firstCanonical (s.loadBytes w core ks) := h.flushHomes.takeBytes

theorem laneBytes {w core a} : firstCanonical (s.laneBytes w core a) := by
  unfold State.laneBytes
  dsimp only
  split
  · exact h.loadBytes
  · exact h.loadBytes.fst

omit h in
theorem loadLanes {w core ci c as} {s : State} (h : s.memoryCanonical) : firstCanonical (s.loadLanes w core ci c as) := by
  induction as generalizing s with
  | nil => exact h
  | cons a rest ih =>
    unfold State.loadLanes
    dsimp only
    split
    · exact (ih h.laneBytes.fst).fst
    · exact (ih h.laneBytes.fst).fst

theorem putLoaded {w d vs} : (s.putLoaded w d vs).memoryCanonical := (h.foldl fun _ _ h => h.logUndo).addLong

theorem finishLoad {w am m d vs bad} : (s.finishLoad w am m d vs bad).memoryCanonical :=
  .ite (h.foldl fun _ _ h => h.setShort).partialTrap h.putLoaded.finish

theorem specLoad {w am m d o c p as} : (s.specLoad w am m d o c p as).memoryCanonical :=
  .ite h.park ((h.foldl fun _ _ h => h.foldl fun _ _ h => h.flushHome).foldl fun _ _ h =>
    h.foldl fun _ _ h => h.touchRead).setWave.finishLoad

theorem loadAll {w am ci m d o c as} : (s.loadAll w am ci m d o c as).memoryCanonical := by
  unfold State.loadAll
  split
  · exact h.specLoad
  · exact h.loadLanes.fst.finishLoad

theorem orSent {w} {i : State} {b : State → Nat → List LaneAcc → State} (hi : i.memoryCanonical)
    (hb : ∀ t a as, t.memoryCanonical → (b t a as).memoryCanonical) : (s.orSent w i b).memoryCanonical := by
  unfold State.orSent
  split
  · exact hi
  · split
    · exact hi
    · exact hb _ _ _ h

theorem ldIssue {w o} {b : State → Nat → List LaneAcc → State} (hb : ∀ t a as, t.memoryCanonical → (b t a as).memoryCanonical) :
    (s.ldIssue w o b).memoryCanonical := h.orSent (h.memIssue hb) hb

theorem execLd {o} : Answer.canonical (execLd o s) := h.onWave fun _ => h.ldIssue fun _ _ _ h => h.loadAll

/-! ### Stores (R91, R280) -/

theorem sendStores {w ps} : (s.sendStores w ps).memoryCanonical := h
theorem specStore {w m o p ps} : (s.specStore w m o p ps).memoryCanonical := .ite h.park h.setWave.finish

theorem storeAll {w m a sc ps} : (s.storeAll w m a sc ps).memoryCanonical := by
  have hb := h.afterGate (w := w) (b := fun t => (t.sendStores w ps).finish w m) fun _ h => h.sendStores.finish
  unfold State.storeAll
  split
  · exact h.specStore
  · exact .ite h.finish (.ite (h.afterRelease hb) hb)

theorem execSt {o} : Answer.canonical (execSt o s) := h.onWave fun _ => h.memIssue fun _ _ _ h => h.storeAll

theorem prefLane {w core lvl c off} : (s.prefLane w core lvl c off).memoryCanonical := by
  unfold State.prefLane
  dsimp only
  split
  · exact h
  · split
    · exact h
    · split
      · exact h.setCluster.takeWalks
      · split
        · next heq => exact h.translate.error heq
        · next heq => exact (h.translate.ok heq).queuePref

theorem execPref {o} : Answer.canonical (execPref o s) :=
  h.onWave fun _ => h.issueLanes fun _ => .ite h.finish (h.foldl fun _ _ h => h.prefLane).finish

theorem execSpill {o} : Answer.canonical (execSpill o s) := h.onWave fun _ => h.memIssue fun _ _ _ h => h.storeAll

theorem fillIssue {w o} {b : State → Nat → List LaneAcc → State}
    (hb : ∀ t a as, t.memoryCanonical → (b t a as).memoryCanonical) : (s.fillIssue w o b).memoryCanonical :=
  h.orSent (h.memIssue hb) hb

theorem execFill {o} : Answer.canonical (execFill o s) := h.onWave fun _ => h.fillIssue fun _ _ _ h => h.loadAll

/-! ### Loads in parts (R91) -/

theorem sendLoad {w i am as} : (s.sendLoad w i am as).memoryCanonical := h.ite h.setWave

theorem startLoad {w i} : (s.startLoad w i).memoryCanonical := by
  unfold State.startLoad
  split
  · exact h.ldIssue fun _ _ _ h => h.sendLoad
  · exact h.fillIssue fun _ _ _ h => h.sendLoad
  · exact h

theorem readPart {w x l n} : (s.readPart w x l n).memoryCanonical := by
  unfold State.readPart
  dsimp only
  split
  · exact h.loadBytes.fst
  · exact h.loadBytes.fst.setWave

theorem loadPart {w i n} : (s.loadPart w i n).memoryCanonical := by
  unfold State.loadPart
  dsimp only
  split
  · exact h.startLoad
  · split
    · exact h.startLoad
    · split
      · exact h.startLoad.bumpFree
      · exact h.startLoad.readPart.bumpFree

theorem unsend {w} : (s.unsend w).memoryCanonical := by
  unfold State.unsend
  split
  · exact h
  · exact .ite h.setWave h

/-! ### Capabilities in memory (R286) -/

theorem capIssue {w l r pre off} {b : State → List (Nat × Nat) → State}
    (hb : ∀ t ks, t.memoryCanonical → (b t ks).memoryCanonical) :
    (s.capIssue w l r pre off b).memoryCanonical := by
  unfold State.capIssue
  dsimp only
  split
  · exact h.trapWord
  · split
    · exact h.takeTrap
    · exact h.takeTrap
    · split
      · exact h.takeTrap
      · split
        · next heq => exact (h.capKeys.error heq).takeTrap
        · next heq => exact hb _ _ (h.capKeys.ok heq)

theorem execLdc {o} : Answer.canonical (execLdc o s) :=
  h.onWave fun _ => h.unlessSpec (h.capIssue fun _ _ h => .ite h.loadBytes.fst.takeTrap h.loadBytes.fst.setWaveK.finish)

theorem execStc {o} : Answer.canonical (execStc o s) := h.onWave fun _ => h.capIssue fun _ _ h => .ite h.takeTrap h.storeAll

/-! ### Atomics (R95, R287, R288) -/

theorem observeRmw {w p} : (s.observeRmw w p).memoryCanonical := (h.foldl fun _ _ h => h.touchRead).markConflicts.setWave

theorem rmwLane {w a f} : firstCanonical (s.rmwLane w a f) := by
  unfold State.rmwLane
  dsimp only
  split
  · exact h.flushHomes.touchRead
  · split
    · exact h.flushHomes.observeRmw
    · exact h.flushHomes.dropL1.performWrite

omit h in
theorem rmwLanes {w ci c as f} {s : State} (h : s.memoryCanonical) : firstCanonical (s.rmwLanes w ci c as f) := by
  induction as generalizing s with
  | nil => exact h
  | cons a rest ih =>
    unfold State.rmwLanes
    split
    · next heq => exact (ih (h.rmwLane.of_eq heq)).fst
    · next heq => exact (ih (h.rmwLane.of_eq heq)).fst

theorem rmwWord {w x ci n a sc off d f} : (s.rmwWord w x ci n a sc off d f).memoryCanonical :=
  h.unlessSpec (h.memIssue fun t am as ht => by
    have hb := ht.afterGate (w := w) (b := fun t =>
      let r := t.rmwLanes w ci (s.kUse ci) as f
      match d with
      | some dst => r.1.finishLoad w am x.mark dst r.2.1 r.2.2
      | none => if r.2.2 ≠ [] then r.1.partialTrap w am r.2.2 else r.1.finish w x.mark) fun u hu => by
        dsimp only
        split
        · exact hu.rmwLanes.fst.finishLoad
        · exact .ite hu.rmwLanes.fst.partialTrap hu.rmwLanes.fst.finish
    exact .ite ht.finish (.ite (ht.afterRelease hb) hb))

theorem execAtom {o} : Answer.canonical (execAtom o s) := h.onWave fun _ => h.rmwWord
theorem execRed {o} : Answer.canonical (execRed o s) := h.onWave fun _ => h.rmwWord
theorem execCas {o} : Answer.canonical (execCas o s) := h.onWave fun _ => h.rmwWord

/-! ### Fences and invalidation (R111 to R114, R289, R290) -/

theorem waveFence {w a sc} : (s.waveFence w a sc).memoryCanonical :=
  .ite h.park (.ite h.finish (.ite (.ite h.finish h.setWave.finish) (h.afterRelease h.finish)))

theorem seqFence {k a sc} : (s.seqFence k a sc).memoryCanonical :=
  h.seqDrain (.ite h.setSeq.seqFinish (.ite (h.seqAfterRelease h.seqFinish) h.seqFinish))

theorem execFence {o} : Answer.canonical (execFence o s) :=
  onAgent (fun _ => .ite h.trapWord (h.unlessSpec h.waveFence)) fun _ => .ite h.seqFault (h.outsideRegion h.seqFence)

theorem enterSpec {w sc} : (s.enterSpec w sc).memoryCanonical := h

theorem execFenceS {o} : Answer.canonical (execFenceS o s) :=
  h.onWave fun _ => .ite h.trapWord (h.unlessSpec (.ite h.park (.ite h.finish h.finish.enterSpec)))

theorem dropL1i {c} : (s.dropL1i c).memoryCanonical := h
theorem invalidate {c r} : (s.invalidate c r).memoryCanonical := .ite h.dropL1i (h.foldl fun _ _ h => h.dropL1i)

theorem execIinv {o} : Answer.canonical (execIinv o s) :=
  h.onWave fun _ => .ite h.invalidate.finish.park (h.afterRelease h.invalidate.finish.park)

/-! ### Capability words (R26 to R30) -/

theorem capForm {m st l} {r : Nat → Except Cause State} (hr : ∀ w t, r w = .ok t → t.memoryCanonical) :
    Answer.canonical (s.capForm m st l r) := h.onWave fun w => by
  split
  · exact h.trapWord
  · split
    · exact h.park
    · split
      · exact h.trapWord
      · next heq => exact (hr w _ heq).finish

/-- A capability that an operation derives goes to a capability register. -/
theorem capForm_derived {m st l d} {r : Except Cause Capv} : Answer.canonical (s.capForm m st l fun w => match r with
    | .error c => .error c
    | .ok v => .ok (s.setWaveK w d v)) :=
  h.capForm fun w t e => by
    split at e
    · cases e
    · cases e; exact h.setWaveK

theorem execCder {o} : Answer.canonical (execCder o s) := h.capForm_derived
theorem execCres {o} : Answer.canonical (execCres o s) := h.capForm_derived
theorem execCseal {o} : Answer.canonical (execCseal o s) := h.capForm_derived
theorem execCunseal {o} : Answer.canonical (execCunseal o s) := h.capForm_derived
theorem execCmov {o} : Answer.canonical (execCmov o s) := h.capForm fun _ _ e => by cases e; exact h.setWaveK
theorem execCget {o} : Answer.canonical (execCget o s) := h.capForm fun _ _ e => by cases e; exact h.setSReg
theorem execCgetn {o} : Answer.canonical (execCgetn o s) := h.longWord
theorem execCtest {o} : Answer.canonical (execCtest o s) := h.capForm fun _ _ e => by cases e; exact h.setCc

/-! ### Barrier objects (R128 to R145) -/

theorem barrierAt {e sp c off n} : bothCanonical (s.barrierAt e sp c off n) := by
  unfold State.barrierAt
  split
  · exact h
  · split
    · exact h
    · exact h.capKeys

theorem flushBytes {w a n} : (s.flushBytes w a n).memoryCanonical := h.flushHomes
theorem waveBarrier {w a f} : (s.waveBarrier w a f).memoryCanonical := h.flushBytes.barrierOp.setWave
theorem seqBarrier {k a f} : (s.seqBarrier k a f).memoryCanonical := h.barrierOp.setSeq

theorem barIssue {w o l n} {b : State → Nat → State} (hb : ∀ t a, t.memoryCanonical → (b t a).memoryCanonical) :
    (s.barIssue w o l n b).memoryCanonical :=
  h.unlessSpec (h.capIssue fun _ _ h => .ite h.flushBytes.takeTrap (hb _ _ h.flushBytes))

theorem seqBarIssue {k c off n} {b : State → Nat → State} (hb : ∀ t a, t.memoryCanonical → (b t a).memoryCanonical) :
    (s.seqBarIssue k c off n b).memoryCanonical :=
  h.outsideRegion (by
    split
    · next heq => exact (h.barrierAt.error heq).seqFault
    · next heq => exact .ite ((h.barrierAt.ok heq).seqFault) (hb _ _ (h.barrierAt.ok heq)))

theorem execBinit {o} : Answer.canonical (execBinit o s) :=
  onAgent
    (fun _ => h.barIssue fun _ _ h => h.afterGate fun _ h => (h.flushBytes.writeAtHome.ite h.flushBytes).waveBarrier.finish)
    fun _ => .ite h.seqFault (h.seqBarIssue fun _ _ h => h.seqDrain (h.seqAfterGate fun _ h => (h.writeAtHome.ite h).seqBarrier.seqFinish))

theorem execBarr {o} : Answer.canonical (execBarr o s) :=
  onAgent
    (fun _ => h.unlessSpec (h.memIssue fun _ _ as h => by
      split
      · exact h.finish
      · exact .ite h.flushBytes.partialTrap
          (h.flushBytes.afterGate fun _ h => h.afterRelease (h.foldl fun _ _ h => h.waveBarrier).finish)))
    fun _ => h.seqBarIssue fun _ _ h => h.seqDrain (h.seqAfterGate fun _ h => h.seqAfterRelease h.seqBarrier.seqFinish)

theorem execBexp {o} : Answer.canonical (execBexp o s) :=
  onAgent (fun _ => h.barIssue fun _ _ h => h.afterGate fun _ h => h.waveBarrier.finish)
    fun _ => h.seqBarIssue fun _ _ h => h.seqDrain (h.seqAfterGate fun _ h => h.seqBarrier.seqFinish)

theorem parkBwait {w a q m} : (s.parkBwait w a q m).memoryCanonical := h
theorem seqParkBwait {k a q} : (s.seqParkBwait k a q).memoryCanonical := h
theorem seqStatus {k n} : (s.seqStatus k n).memoryCanonical := h

theorem execBwait {o} : Answer.canonical (execBwait o s) :=
  onAgent (fun _ => h.barIssue fun _ _ h => .ite h.flushBytes.setStatus.finish h.flushBytes.parkBwait)
    fun _ => h.seqBarIssue fun _ _ h => .ite h.seqStatus.seqFinish (.ite h.seqStatus.seqFinish h.seqParkBwait)

theorem execBtst {o} : Answer.canonical (execBtst o s) :=
  onAgent (fun _ => h.barIssue fun _ _ h => h.flushBytes.setStatus.finish) fun _ => h.seqBarIssue fun _ _ h => h.seqStatus.seqFinish

theorem wakeWave {w st m} : (s.wakeWave w st m).memoryCanonical := (h.setWave.ite h.setWave.orderRegs).setStatus.finish

theorem releaseWave {w} : (s.releaseWave w).memoryCanonical := by
  unfold State.releaseWave
  split
  · exact h.wakeWave
  · exact h

theorem execSluiceReleaseStep {k} : Answer.canonical (execSluiceReleaseStep k s) :=
  answer_ite h.next (h.setCluster.foldl fun _ _ h => h.releaseWave).next

theorem setSched {v} : ({ s with sched := v } : State).memoryCanonical := h

theorem execGridCrewArrivalSend {c gid} : Answer.canonical (execGridCrewArrivalSend c gid s) := by
  unfold Machine.execGridCrewArrivalSend
  dsimp only
  split
  · split
    · exact h.next
    · split
      · exact h.next
      · exact (h.setCrew.setSched).next
  · exact h.next

theorem countArrival {c gid} : (s.countArrival c gid).memoryCanonical := by
  unfold State.countArrival
  split
  · exact h
  · exact h.setLaunch.gridTest

theorem execGridPortArrival : Answer.canonical (execGridPortArrival s) := by
  unfold Machine.execGridPortArrival
  split
  · exact h.next
  · exact answer_ite h.next h.setSched.countArrival.next

theorem journalGrid : s.journalGrid.memoryCanonical := .ite h.setSched.journal.jrnAdvance h

theorem execGridReleaseDelivery : Answer.canonical (execGridReleaseDelivery s) := by
  unfold Machine.execGridReleaseDelivery
  split
  · exact h.next
  · split
    · exact h.next
    · extract_lets +onlyGivenNames s0 r s1
      have h1 : s1.memoryCanonical := h.journalGrid.setSched
      split
      · exact h1.next
      · exact answer_ite h1.next h1.setCrew.barrierOp.next

end State.memoryCanonical

namespace State.memoryCanonical

variable {s : State} (h : s.memoryCanonical)
include h

/-! ### Votes and reads of one lane (R255, R272, R273) -/

theorem execVote {o} : Answer.canonical (execVote o s) :=
  h.onWave fun _ => h.issueLanes fun _ => .ite h.finish (h.setCc.ite h.setCc.addLong).finish

theorem execBallot {o} : Answer.canonical (execBallot o s) := h.onWave fun _ => h.unlessSpec h.setSReg.finish
theorem execPfirst {o} : Answer.canonical (execPfirst o s) := h.onWave fun _ => h.unlessSpec h.setSReg.finish
theorem execPcount {o} : Answer.canonical (execPcount o s) := h.onWave fun _ => h.unlessSpec h.setSReg.finish

theorem execSget {o} : Answer.canonical (execSget o s) :=
  h.onWave fun _ => h.unlessSpec (.ite h.trapWord (.ite h.takeTrap h.setSReg.setCc.finish))

/-! ### Error logs, prefetches and TLB invalidation (R41, R79, R107) -/

theorem setDev {v} : ({ s with dev := v } : State).memoryCanonical := h
theorem logFar {i kind unit sub off} : (s.logFar i kind unit sub off).memoryCanonical := (h.of_store (by rfl)).logAlarm
theorem logHome {kind pa} : (s.logHome kind pa).memoryCanonical := .ite h.logFar h.logFar
theorem servePref {c r} : (s.servePref c r).memoryCanonical := .ite h.fillL1 (h.of_store (l2Touch_store _ _ _ _))

theorem execL1LineFill {c} : Answer.canonical (execL1LineFill c s) := by
  unfold Machine.execL1LineFill
  split
  · exact h.next
  · exact h.setCore.servePref.next

theorem execLeaseExpiry {c} : Answer.canonical (execLeaseExpiry c s) := h.setCore.setCluster.next

theorem execPageWalkComplete {i} : Answer.canonical (execPageWalkComplete i s) := by
  unfold Machine.execPageWalkComplete
  split
  · exact h.next
  · exact answer_ite h.next h.finishWalk.fst.next

theorem tlbInv {m c v} : (s.tlbInv m c v).memoryCanonical := h.ite h.setDev
theorem execTlbInvAll : Answer.canonical (execTlbInvAll s) := h.tlbInv.next
theorem execTlbInvContext {c} : Answer.canonical (execTlbInvContext c s) := h.tlbInv.next
theorem execTlbInvPage {c v} : Answer.canonical (execTlbInvPage c v s) := h.tlbInv.next

theorem settleAll : s.settleAll.memoryCanonical :=
  ((h.foldl fun _ _ h => h.flushAll.unsend).foldl fun _ _ h => h.emptyAccount).foldl fun _ _ h =>
    h.setCore.foldl fun _ _ h => h.servePref

theorem execTlbInvComplete : Answer.canonical (execTlbInvComplete s) := by
  unfold Machine.execTlbInvComplete
  split
  · exact h.next
  · exact (h.settleAll.of_store (by rfl)).next

/-! ### Pool banks (R51 to R55) -/

theorem poolGo {k b m} : (s.poolGo k b m).memoryCanonical := by
  unfold State.poolGo
  dsimp only
  split
  · exact h
  · split
    · exact h.setCluster
    · split
      · exact h.setCluster
      · exact h.setCluster

theorem execPoolModeChange {k b m} : Answer.canonical (execPoolModeChange k b m s) := (h.poolGo.ite h).next

theorem execPoolDrainComplete {k} : Answer.canonical (execPoolDrainComplete k s) :=
  answer_ite h.next (setStore (Store.wf_zero _ _ _ h)).setCluster.next

/-! ### The tile cache and LDT (R56 to R61, R283) -/

omit h in
theorem tileRows {e d tx ty tz is} {s : State} (h : s.memoryCanonical) : bothCanonical (s.tileRows e d tx ty tz is) := by
  induction is generalizing s with
  | nil => exact h
  | cons i rest ih =>
    unfold State.tileRows
    split
    · next heq => exact h.vaKeys.error heq
    · next heq =>
      have h1 := ih (h.vaKeys.ok heq)
      split
      · next heq => exact h1.error heq
      · next heq =>
        have h2 := h1.ok heq
        exact h2

theorem tileReads {cls rows} : (s.tileReads cls rows).memoryCanonical :=
  h.foldMem fun m x => by
    split
    · exact l2Touch_store _ _ _ _
    · exact l2Grant_store _ _ _ _

theorem tileServe {k slot tx ty tz cls rows} : firstCanonical (s.tileServe k slot tx ty tz cls rows) := by
  unfold State.tileServe
  split
  · exact h.tileReads
  · split
    · exact h.setCluster
    · exact h
    · dsimp only
      split
      · exact h.tileReads
      · exact State.memoryCanonical.ite h.tileReads.setCluster h.tileReads.setCluster.logNear

theorem serveTile {w k slot tx ty tz cls rows} : firstCanonical (s.serveTile w k slot tx ty tz cls rows) :=
  (h.ite h.flushHomes).tileServe

theorem execTileFillComplete {k i} : Answer.canonical (execTileFillComplete k i s) := by
  unfold Machine.execTileFillComplete
  dsimp only
  split
  · exact h.next
  · exact answer_ite h.setCluster.next h.setCluster.next

omit h in
theorem tileLocate {e c ci n d ls} {s : State} (h : s.memoryCanonical) : firstCanonical (s.tileLocate e c ci n d ls) := by
  induction ls generalizing s with
  | nil => exact h
  | cons x rest ih =>
    obtain ⟨l, t, v⟩ := x
    unfold State.tileLocate
    dsimp only
    split
    · exact (ih h).fst
    · split
      · exact (ih h).fst
      · split
        · next heq => exact (ih (h.tileRows.error heq)).fst
        · next heq => exact (ih (h.tileRows.ok heq)).fst

omit h in
theorem tileLanes {w k ci n slot c d as} {s : State} (h : s.memoryCanonical) :
    firstCanonical (s.tileLanes w k ci n slot c d as) := by
  induction as generalizing s with
  | nil => exact h
  | cons a rest ih =>
    unfold State.tileLanes
    dsimp only
    split
    · split
      · exact (ih h).fst
      · exact (ih h.serveTile.fst).fst
    · split
      · exact (ih h).fst
      · exact (ih h.serveTile.fst).fst

theorem execLdt {o} : Answer.canonical (execLdt o s) :=
  h.onWave fun w => h.unlessSpec (h.issueQuota fun act => .ite h.finish (by
    split
    · exact h.takeTrap
    · exact h.takeTrap
    · exact .ite h.tileLocate.fst.takeTrap h.tileLocate.fst.tileLanes.fst.finishLoad))

theorem tileByte {e tid va} : firstCanonical (s.tileByte e tid va) := by
  unfold State.tileByte
  split
  · exact h
  · refine firstCanonical.ite h ?_
    split
    · next heq => exact h.tileRows.error heq
    · next heq => exact ((h.tileRows.ok heq).tileServe).fst

/-! ### Splits and scrubs (R45, R66, R67, R69) -/

theorem writeSplit {c v} : (s.writeSplit c v).memoryCanonical := h.ite h.setCore
theorem execCoreSramWrite {c v} : Answer.canonical (execCoreSramWrite c v s) := (h.writeSplit.ite h).next

theorem dropLine {k unit place off} : (s.dropLine k unit place off).memoryCanonical := by
  unfold State.dropLine
  split
  · exact h.setCore
  · exact h.setCore
  · exact h.setCluster

theorem scrubLoss {k unit place off} : (s.scrubLoss k unit place off).memoryCanonical := by
  unfold State.scrubLoss
  dsimp only
  split
  · exact setStore (Store.wf_poisonGranule _ _ h)
  · exact setStore (Store.wf_poisonGranule _ _ h)
  · exact setStore h
  · exact setStore h
  · exact setStore h
  · exact h.ite h.setCore
  · exact h

end State.memoryCanonical

namespace State.memoryCanonical

variable {s : State} (h : s.memoryCanonical)
include h

/-! ### Channels and their heads (R147, R155, R156, R296) -/

theorem setChannel {c ch x} : (s.setChannel c ch x).memoryCanonical := h
theorem setFls {c ch x} : (s.setFls c ch x).memoryCanonical := h
theorem flsClear {c ch v} : (s.flsClear c ch v).memoryCanonical := h
theorem setStopped {c ch} : (s.setStopped c ch).memoryCanonical := h

theorem kick {c ch x} : firstCanonical (s.kick c ch x) :=
  .ite h.setCrew.setChannel (.ite h.setCrew.pushStaging h)

theorem execFlk {o} : Answer.canonical (execFlk o s) :=
  h.onWave fun _ => h.unlessSpec (by
    dsimp only
    split
    · exact h.takeTrap
    · exact h.afterGate fun _ h => h.kick.fst.setStatus.finish)

theorem execFlq {o} : Answer.canonical (execFlq o s) := h.onWave fun _ => h.unlessSpec h.setSReg.setStatus.finish
theorem cancelChains {c ch} : (s.cancelChains c ch).memoryCanonical := h.setLaunch.setStaging.setChannel

theorem execFlc {o} : Answer.canonical (execFlc o s) :=
  h.onWave fun _ => h.unlessSpec (h.afterGate fun _ h => h.cancelChains.finish)

theorem execFlumeHeadForward {c ch} : Answer.canonical (execFlumeHeadForward c ch s) := by
  unfold Machine.execFlumeHeadForward
  dsimp only
  split
  · exact h.next
  · exact answer_ite h.next h.setChannel.next

omit h in
theorem refillHeads {c ch n} {s : State} (h : s.memoryCanonical) : (s.refillHeads c ch n).memoryCanonical := by
  induction n generalizing s with
  | zero => exact h
  | succ n ih =>
    unfold State.refillHeads
    dsimp only
    split
    · exact h
    · split
      · exact h
      · split
        · exact h
        · exact ih (h.setLaunch.ite h.setStaging).setChannel

theorem execFlumeChainStart {c ch} : Answer.canonical (execFlumeChainStart c ch s) := by
  unfold Machine.execFlumeChainStart
  dsimp only
  split
  · exact answer_ite h.refillHeads.setChannel.refillHeads.next h.refillHeads.next
  · exact h.refillHeads.next

/-! ### Rows of a transfer record (R149 to R153) -/

theorem engineTouch {ks} : (s.engineTouch ks).memoryCanonical := h.foldMem fun _ _ => l2Touch_store _ _ _ _

theorem chainCap {e c i} : bothCanonical (s.chainCap e c i) := by
  unfold State.chainCap
  split
  · exact h
  · split
    · next heq => exact h.capKeys.error heq
    · next heq => exact (h.capKeys.ok heq).touchKeys

omit h in
theorem vaPrefix {e acc va n p} {s : State} (h : s.memoryCanonical) : firstCanonical (s.vaPrefix e acc va n p) := by
  induction p generalizing s va n with
  | zero => exact h
  | succ p ih =>
    unfold State.vaPrefix
    split
    · exact h
    · dsimp only
      split
      · next heq => exact h.translate.error heq
      · next heq => exact (ih (h.translate.ok heq)).fst

theorem sidePrefix {e c acc off n} : firstCanonical (s.sidePrefix e c acc off n) := by
  unfold State.sidePrefix
  refine .ite h ?_
  extract_lets +onlyGivenNames o cap lim m out
  have inMem : firstCanonical (match s.capKeys e c acc o m with
      | .ok (s1, ks) => (s1, ks, out)
      | .error (s1, x, _) => (s1, [], some x)) := by
    split
    · next heq => exact h.capKeys.ok heq
    · next heq => exact h.capKeys.error heq
  split
  · exact inMem
  · exact inMem
  · exact inMem
  · exact h.vaPrefix.fst

omit h in
theorem sourceBytes {e c off ks} {s : State} (h : s.memoryCanonical) : firstCanonical (s.sourceBytes e c off ks) := by
  induction ks generalizing s off with
  | nil => exact h
  | cons k rest ih =>
    unfold State.sourceBytes
    extract_lets +onlyGivenNames r t
    have hr : firstCanonical r := .ite h.tileByte h
    have ht : t.memoryCanonical := by
      dsimp only [t]
      split
      · exact hr.fst
      · exact hr.fst.touchRead
    exact (ih ht).fst

theorem owePeers {l cells} : (s.owePeers l cells).memoryCanonical := by
  unfold State.owePeers
  split
  · exact h
  · exact (h.of_store (by rfl)).setAccount

theorem engineWrite {l ks bs} : firstCanonical (s.engineWrite l ks bs) :=
  .ite h (((h.foldl fun _ _ h => h.landWrite).ite (h.foldl fun _ _ h => h.landWrite).spoil).owePeers)

theorem indexError {j row} : (s.indexError j row).memoryCanonical := h.ite h.setFls

theorem flumeIndex {e j row} : bothCanonical (s.flumeIndex e j row) := by
  unfold State.flumeIndex
  split
  · exact h
  · split
    · next heq => exact h.capKeys.error heq
    · next heq => exact (h.capKeys.ok heq).touchKeys

theorem copyRow {e j so d} : firstCanonical (s.copyRow e j so d) := h.sidePrefix.fst.sidePrefix.fst.sourceBytes.fst.engineWrite.fst
theorem zeroRow {e j d} : firstCanonical (s.zeroRow e j d) := h.sidePrefix.fst.engineWrite.fst

theorem flumeRow {e j row} : firstCanonical (s.flumeRow e j row) := by
  unfold State.flumeRow
  refine .ite h.copyRow ?_
  split
  · next heq => exact h.flumeIndex.error heq
  · next heq =>
    have h1 := h.flumeIndex.ok heq
    exact .ite (.ite h1.indexError.zeroRow h1.copyRow) (.ite h1.indexError.sidePrefix.fst h1.copyRow)

omit h in
theorem flumeRows {e j row maxw n} {s : State} (h : s.memoryCanonical) : firstCanonical (s.flumeRows e j row maxw n) := by
  induction n generalizing s row maxw with
  | zero => exact h
  | succ n ih =>
    unfold State.flumeRows
    dsimp only
    split
    · exact h.flumeRow.fst
    · exact ih h.flumeRow.fst

/-! ### Transfer records (R150, R154, R156) -/

theorem endChain {c ch} : (s.endChain c ch).memoryCanonical := h
theorem setChain {c ch x} : (s.setChain c ch x).memoryCanonical := h

theorem recordBarrier {e c r} : bothCanonical (s.recordBarrier e c r) := by
  unfold State.recordBarrier
  split
  · next heq => exact h.chainCap.error heq
  · next heq =>
    have h1 := h.chainCap.ok heq
    split
    · next heq => exact h1.barrierAt.error heq
    · next heq =>
      have h2 := h1.barrierAt.ok heq
      split
      · exact h2
      · exact h2

theorem writeHdr {e c r st t g} (x : s.writeHdr e c r st = some (t, g)) : t.memoryCanonical := by
  unfold State.writeHdr at x
  split at x
  · cases x
  · next heq =>
    cases x
    exact (h.capKeys.ok heq).landWrite.owePeers

theorem closeRecord {e c ch r st maxw place b} : firstCanonical (s.closeRecord e c ch r st maxw place b) := by
  unfold State.closeRecord
  dsimp only
  have h1 : (if (st != 0) = true then s.setStopped c.crew ch else s).memoryCanonical := h.setStopped.ite h
  split
  · exact h1.setStopped
  · next heq => exact h1.writeHdr heq

theorem loseRecord {e c ch r cause} : (s.loseRecord e c ch r cause).memoryCanonical := by
  unfold State.loseRecord
  dsimp only
  split
  · exact h.setStopped.endLaunch
  · next heq => exact (h.writeHdr heq).raiseMaxw.setStopped.endLaunch

theorem readRecord {e c ch} : firstCanonical (s.readRecord e c ch) := by
  unfold State.readRecord
  split
  · next heq => exact (h.capKeys.ok heq).touchKeys
  · next heq => exact (h.capKeys.error heq).setStopped
  · exact h.setStopped

theorem recordJob {e c ch r} : bothCanonical (s.recordJob e c ch r) := by
  unfold State.recordJob
  split
  · next heq => exact h.chainCap.error heq
  · next heq =>
    have h1 := h.chainCap.ok heq
    split
    · next heq => exact h1.chainCap.error heq
    · next heq =>
      have h2 := h1.chainCap.ok heq
      have h3 : ∀ t x, (if r.mode = 0 then .ok (t, Capv.null) else t.chainCap e c.cap (r.capIdx 3)) = x →
          t.memoryCanonical → bothCanonical x := by
        rintro t x rfl ht
        exact .ite ht ht.chainCap
      split
      · next heq => exact (h3 _ _ heq h2).error rfl
      · next heq =>
        have h4 := (h3 _ _ heq h2).ok rfl
        split
        · exact h4
        · exact h4
        · exact h4
        · exact h4

theorem moveRecord {e c ch r} : firstCanonical (s.moveRecord e c ch r) := by
  unfold State.moveRecord
  refine .ite h ?_
  split
  · next heq => exact h.recordJob.error heq
  · next heq => exact (h.recordJob.ok heq).flumeRows.fst

theorem payCredit {l c} : (s.payCredit l c).memoryCanonical := h.endLaunch.ite h.barrierOp

theorem execFlumeRecordProcess {c ch} : Answer.canonical (execFlumeRecordProcess c ch s) := by
  unfold Machine.execFlumeRecordProcess
  dsimp only
  split
  · exact h.next
  · refine answer_ite h.next ?_
    split
    · exact answer_ite h.next (h.payCredit.endChain.ite h.payCredit.setChain).next
    · split
      · next heq => exact (h.readRecord.of_eq heq).endChain.next
      · next heq =>
        have h1 := h.readRecord.of_eq heq
        split
        · next heq => exact (h1.recordBarrier.error heq).loseRecord.endChain.next
        · next heq => exact (h1.recordBarrier.ok heq).moveRecord.fst.closeRecord.fst.setChain.next

theorem execFlumeCancelWalk {c ch} : Answer.canonical (execFlumeCancelWalk c ch s) := by
  unfold Machine.execFlumeCancelWalk
  dsimp only
  split
  · exact h.next
  · refine answer_ite h.next ?_
    split
    · exact answer_ite h.next h.payCredit.setChannel.next
    · split
      · next heq => exact (h.readRecord.of_eq heq).setChannel.next
      · next heq =>
        have h1 := h.readRecord.of_eq heq
        split
        · next heq => exact (h1.recordBarrier.error heq).loseRecord.setChannel.next
        · next heq => exact (h1.recordBarrier.ok heq).closeRecord.fst.setChannel.next

end State.memoryCanonical

namespace State.memoryCanonical

variable {s : State} (h : s.memoryCanonical)
include h

/-! ### Tasks: SPAWN, SUCC, CANCEL, starts (R181, R335 to R338, R361, R363) -/

omit h in
theorem spawnLanes {c rs} {s : State} (h : s.memoryCanonical) : firstCanonical (s.spawnLanes c rs) := by
  induction rs generalizing s with
  | nil => exact h
  | cons r rest ih => exact (ih h.enqueue.fst).fst

theorem execSpawn {o} : Answer.canonical (execSpawn o s) :=
  h.onWave fun _ => h.unlessSpec (h.issueTested fun _ => h.afterGate fun _ h => h.spawnLanes.fst.putLoaded.setStatus.finish)

omit h in
theorem succLanes {w c v as rs} {s : State} (h : s.memoryCanonical) : firstCanonical (s.succLanes w c v as rs) := by
  induction as generalizing s rs with
  | nil => exact h
  | cons a rest ih =>
    unfold State.succLanes
    dsimp only
    split
    · exact h.flushHomes.dropL1.counterAdd.fst
    · exact ih h.flushHomes.dropL1.counterAdd.fst.setWave

theorem finishSucc {w m rs} : (s.finishSucc w m rs).memoryCanonical :=
  .ite h.placeReleases.fst.finish h.placeReleases.fst.finish.setWave.park

theorem execSucc {o} : Answer.canonical (execSucc o s) :=
  h.onWave fun _ => h.unlessSpec (h.memIssue fun _ _ _ h => .ite h.finish (h.afterGate fun _ h => h.afterRelease
    (.ite h.succLanes.fst h.succLanes.fst.finishSucc)))

theorem cancelDrop {l v} : (s.cancelDrop l v).memoryCanonical := (h.of_store (by rfl)).setLaunch

omit h in
theorem cancelDecrements {e g ds rs} {s : State} (h : s.memoryCanonical) : firstCanonical (s.cancelDecrements e g ds rs) := by
  induction ds generalizing s rs with
  | nil => exact h
  | cons d rest ih => exact .ite h.decrement.fst (ih h.decrement.fst)

theorem execCancel {o} : Answer.canonical (execCancel o s) :=
  h.onWave fun _ => h.unlessSpec (h.afterGate fun _ h => h.afterRelease
    (.ite h.cancelDrop.cancelDecrements.fst h.cancelDrop.cancelDecrements.fst.placeReleases.fst.setWave.park))

theorem execCancelDropComplete {w} : Answer.canonical (execCancelDropComplete w s) := by
  unfold Machine.execCancelDropComplete
  split
  · exact answer_ite h.next h.setWaveS.setWave.finish.next
  · exact h.next

theorem placeGroup {c g} : (s.placeGroup c g).memoryCanonical := h.ite h.placeReleases.fst.setGroup

theorem placeWave {c w} : (s.placeWave c w).memoryCanonical := by
  unfold State.placeWave
  refine h.ite ?_
  dsimp only
  split
  · exact h.placeReleases.fst.setWave.passMark.ite h.placeReleases.fst.setWave
  · exact h.placeReleases.fst.setWave

theorem execSuccessorReleasePlace {c} : Answer.canonical (execSuccessorReleasePlace c s) :=
  ((h.foldl fun _ _ h => h.placeGroup).foldl fun _ _ h => h.placeWave).next

theorem execTaskStart {g} : Answer.canonical (execTaskStart g s) := by
  unfold Machine.execTaskStart
  refine answer_ite h.next ?_
  split
  · exact h.next
  · exact h.setCore.setGroup.next

/-! ### LAUNCH and node pools (R339 to R341) -/

theorem execLaunch {o} : Answer.canonical (execLaunch o s) :=
  h.onWave fun _ => h.unlessSpec (h.capIssue fun _ _ h => h.afterGate fun _ h =>
    .ite h.loadBytes.fst.takeTrap (.ite h.loadBytes.fst.setStatus.finish h.loadBytes.fst.setSched.setStatus.finish))

theorem setPool {l n p} : (s.setPool l n p).memoryCanonical := h
theorem setCache {k l n x} : (s.setCache k l n x).memoryCanonical := h

theorem takeNode {k l n} : firstCanonical (s.takeNode k l n) := by
  unfold State.takeNode
  dsimp only
  split
  · exact h.setCache
  · exact h.setPool
  · exact .ite h.setPool h

omit h in
theorem takeNodes {k l n ts} {s : State} (h : s.memoryCanonical) : firstCanonical (s.takeNodes k l n ts) := by
  induction ts generalizing s with
  | nil => exact h
  | cons t rest ih => exact (ih h.takeNode.fst).fst

theorem palloc {o b} : Answer.canonical (s.palloc o b) :=
  h.onWave fun _ => h.unlessSpec (h.issueLanes fun _ => h.afterGate fun _ h =>
    .ite h.takeTrap h.takeNodes.fst.putLoaded.setStatus.finish)

theorem execPalloc {o} : Answer.canonical (execPalloc o s) := h.palloc
theorem execPallocT {o} : Answer.canonical (execPallocT o s) := h.palloc

theorem scrambleNode {e d i} : (s.scrambleNode e d i).memoryCanonical := by
  unfold State.scrambleNode
  dsimp only
  split
  · next heq => exact h.capKeys.error heq
  · next heq => exact (h.capKeys.ok heq).writeAtHome
  · exact h

theorem pushNode {k l n i} : (s.pushNode k l n i).memoryCanonical := by
  unfold State.pushNode
  dsimp only
  split
  · exact h.setCache
  · exact h.setCache.setPool

theorem execPfree {o} : Answer.canonical (execPfree o s) :=
  h.onWave fun _ => h.unlessSpec (h.issueTested fun _ => .ite h.finish (h.afterGate fun _ h => h.afterRelease (by
    split
    · exact h
    · exact (h.foldl fun _ _ h => h.scrambleNode.pushNode).finish)))

/-! ### Futures and cisterns (R136, R137, R342, R343) -/

theorem setArrivals {x} : ({ s with mem := { s.mem with arrivals := x } } : State).memoryCanonical := h
theorem completeFuture {c a r st p} : (s.completeFuture c a r st p).memoryCanonical := h.writeAtHome.setArrivals

theorem arriveDue : s.arriveDue.memoryCanonical := h.setArrivals.foldl fun _ _ h => h.ite h.barrierOp
theorem setCistern {k c x} : (s.setCistern k c x).memoryCanonical := h

theorem closeTile {k c} : (s.closeTile k c).memoryCanonical := by
  unfold State.closeTile
  refine h.ite ?_
  dsimp only
  split
  · exact h.setCistern
  · exact .ite h.setCistern.barrierOp h.setCistern.setCistern

theorem reportTiles : s.reportTiles.memoryCanonical :=
  h.foldl fun _ _ h => h.foldl fun _ _ h => h.ite (h.setCistern.foldl fun _ _ h => h.barrierOp)

theorem deposit {k d r} : (s.deposit k d r).memoryCanonical := .ite h.setCistern.closeTile h.setCistern

omit h in
theorem depositLanes {k d rs} {s : State} (h : s.memoryCanonical) : firstCanonical (s.depositLanes k d rs) := by
  induction rs generalizing s with
  | nil => exact h
  | cons r rest ih => exact .ite (ih h.deposit) (ih h.completeFuture).fst

theorem execCput {o} : Answer.canonical (execCput o s) :=
  h.onWave fun _ => h.unlessSpec (by
    split
    · exact h.takeTrap
    · exact h.memIssue fun _ _ _ h => h.afterGate fun _ h => h.depositLanes.fst.setStatus.finish)

theorem execCflush {o} : Answer.canonical (execCflush o s) :=
  h.onWave fun _ => h.unlessSpec (by
    split
    · exact h.trapWord
    · exact h.afterGate fun _ h => h.closeTile.finish)

theorem execCisternFlushTimeout {k i} : Answer.canonical (execCisternFlushTimeout k i s) := by
  unfold Machine.execCisternFlushTimeout
  dsimp only
  split
  · exact h.next
  · split
    · exact h.next
    · exact answer_ite h.next h.closeTile.next

end State.memoryCanonical

namespace State.memoryCanonical

variable {s : State} (h : s.memoryCanonical)
include h

/-! ### Words of the matrix sequencer (R303 to R308, R311, R319) -/

theorem seqWord {b : Nat → State} (hb : ∀ k, (b k).memoryCanonical) : Answer.canonical (s.seqWord b) :=
  h.onSeq fun k => h.ite (hb k)

theorem logDamage {k rs} : (s.logDamage k rs).memoryCanonical := by
  unfold State.logDamage
  split
  · exact h
  · exact h.setSeq

theorem seqReturn {k n} : (s.seqReturn k n).memoryCanonical := h

theorem execMresv {o} : Answer.canonical (execMresv o s) :=
  h.seqWord fun _ => h.outsideRegion (.ite h.seqFault (by
    split
    · exact h.seqFault
    · exact h.seqFault
    · exact .ite h.seqFault (.ite h.seqReturn (.ite h.seqReturn h.setSeq.seqReturn))))

theorem execMrels {o} : Answer.canonical (execMrels o s) := h.seqWord fun _ => h.outsideRegion (h.seqDrain h.setSeq.seqFinish)

theorem mldb {k o} : (s.mldb k o).memoryCanonical := by
  unfold State.mldb
  refine .ite h.seqFault ?_
  split
  · exact h.seqFault
  · exact h.seqFault
  · refine .ite h ?_
    split
    · next heq => exact (h.capKeys.error heq).seqFault
    · next heq => exact (h.capKeys.ok heq).setSeq.seqFinish

theorem execMldb {o} : Answer.canonical (execMldb o s) := h.seqWord fun _ => .ite h.seqFault h.mldb

/-- The columns that an MLDB writes into its units. -/
theorem writeColumns {l : List Nat} {a : Nat → Nat} {bs : Nat → List Byte} {bad : Nat → List Bool} :
    (s.setStore (l.foldl (fun m c => m.writeColumn (a c) (bs c) (bad c)) s.store)).memoryCanonical :=
  setStore (foldl_keeps (fun m : Store => m.wf = true) _ l s.store h fun m c hm => Store.wf_writeColumn m (a c) (bs c) (bad c) hm)

theorem execMldbComplete {k} : Answer.canonical (execMldbComplete k s) := by
  unfold Machine.execMldbComplete
  dsimp only
  split
  · exact h.next
  · exact answer_ite h.next (h.writeColumns.setSeq.setCluster.foldl fun _ _ h => h.touchRead).bumpFree.next

/-! ### MMA and the loop nest (R309 to R315) -/

theorem writeAccRow {k row cells} : (s.writeAccRow k row cells).memoryCanonical :=
  (setStore (Store.wf_write s.store cells none h)).markConflicts

theorem applyMma {k o keep} : (s.applyMma k o keep).memoryCanonical := (h.foldl fun _ _ h => h.writeAccRow).logDamage

theorem execMmaComplete {k} : Answer.canonical (execMmaComplete k s) := by
  unfold Machine.execMmaComplete
  dsimp only
  split
  · exact h.next
  · exact answer_ite h.next h.setSeq.applyMma.bumpFree.next

theorem acceptMma {k o} : (s.acceptMma k o).memoryCanonical := h
theorem openReads : s.openReads.memoryCanonical := h

theorem mma {o z p} : Answer.canonical (s.mma o z p) :=
  h.seqWord fun _ => h.ite (by
    split
    · exact h.seqFault
    · exact .ite h.acceptMma h.setSeq)

theorem execMma {o} : Answer.canonical (execMma o s) := h.mma
theorem execMmaz {o} : Answer.canonical (execMmaz o s) := h.mma
theorem execMmap {o} : Answer.canonical (execMmap o s) := h.mma
theorem execMmazp {o} : Answer.canonical (execMmazp o s) := h.mma

theorem execMmaAccept {k} : Answer.canonical (execMmaAccept k s) := by
  unfold Machine.execMmaAccept
  dsimp only
  split
  · exact h.next
  · exact answer_ite h.acceptMma.next h.next

theorem execLnset {o} : Answer.canonical (execLnset o s) := h.seqWord fun _ => .ite h.seqFault h.setSeq.seqFinish
theorem execLncoef {o} : Answer.canonical (execLncoef o s) := h.seqWord fun _ => .ite h.seqFault h.setSeq.seqFinish
theorem execLnstep {o} : Answer.canonical (execLnstep o s) := h.seqWord fun _ => h.setSeq.seqFinish
theorem execIdemb {o} : Answer.canonical (execIdemb o s) := h.seqWord fun _ => h.outsideRegion h.setSeq.seqFinish
theorem execIdeme {o} : Answer.canonical (execIdeme o s) := h.seqWord fun _ => h.seqDrain h.setSeq.seqFinish

omit h in
theorem applyAbandoned {k ops old} {s : State} (h : s.memoryCanonical) : (s.applyAbandoned k ops old).memoryCanonical := by
  induction ops generalizing s old with
  | nil => exact h
  | cons o rest ih => exact .ite h.setSeq (ih h.applyMma.bumpFree)

theorem abandonRegion {k} : (s.abandonRegion k).memoryCanonical := by
  unfold State.abandonRegion
  dsimp only
  split
  · exact h
  · exact (h.setSeq.bumpFree.applyAbandoned.ite h.setSeq.bumpFree).setCluster

/-! ### The cistern's words (R316, R317) -/

theorem takeRow {k r row x} : (s.takeRow k r row x).memoryCanonical := by
  have h1 : Store.wf { s.store.write (wholeCells (opKey k (r.start + row * r.rb)) ((x.bytes ++ List.replicate r.rb 0).take r.rb)) none
      with poison := x.poison.foldl (fun p i => memberAdd p (opKey k (r.start + row * r.rb) / 8 + i)) (s.store.write (wholeCells
        (opKey k (r.start + row * r.rb)) ((x.bytes ++ List.replicate r.rb 0).take r.rb)) none).poison } = true := Store.wf_write _ _ _ h
  unfold State.takeRow
  dsimp only
  split
  · exact setStore (Store.wf_write _ _ _ h1)
  · exact setStore h1

omit h in
theorem takeRows {k r row xs} {s : State} (h : s.memoryCanonical) : (s.takeRows k r row xs).memoryCanonical := by
  induction xs generalizing s row with
  | nil => exact h
  | cons x rest ih => exact ih h.takeRow

theorem seqResult {k d v st} : (s.seqResult k d v st).memoryCanonical := h.setSeq.seqReturn

theorem execCtake {o} : Answer.canonical (execCtake o s) :=
  h.seqWord fun _ => h.outsideRegion (by
    dsimp only
    split
    · refine .ite h.seqFault (.ite h.seqResult ?_)
      split
      · exact h.seqResult
      · exact h.ite h.takeRows.setCistern.seqResult.setSeq
    · exact h.seqFault)

theorem execCtakeCopyComplete {k} : Answer.canonical (execCtakeCopyComplete k s) := h.setSeq.next

omit h in
theorem seqArrivals {k a n} {s : State} (h : s.memoryCanonical) : (s.seqArrivals k a n).memoryCanonical := by
  induction n generalizing s with
  | zero => exact h
  | succ n ih => exact ih h.seqBarrier

theorem execCtakeArm {o} : Answer.canonical (execCtakeArm o s) :=
  h.seqWord fun _ => by
    split
    · exact h.seqFault
    · exact h.seqBarIssue fun _ _ h => h.seqAfterGate fun _ h => h.ite h.setCistern.seqArrivals.seqFinish

omit h in
theorem giveRows {k row col xs} {s : State} (h : s.memoryCanonical) : (s.giveRows k row col xs).memoryCanonical := by
  induction xs generalizing s row with
  | nil => exact h
  | cons x rest ih => exact .ite (ih h) (ih h.logDamage.completeFuture.setSeq)

theorem execCgive {o} : Answer.canonical (execCgive o s) :=
  h.seqWord fun _ => h.outsideRegion (h.seqDrain (h.seqAfterGate fun _ h => by
    dsimp only
    split
    · exact h.seqReturn
    · exact .ite h.seqFault h.giveRows.setCistern.seqReturn))

/-! ### ADRN (R318) -/

theorem noteReads {k es} : (s.noteReads k es).memoryCanonical := h.ite h.setSeq
theorem fixReads {k rows} : (s.fixReads k rows).memoryCanonical := h.ite h.setSeq

theorem adrnLanes {w o v col act} : (s.adrnLanes w o v col act).memoryCanonical :=
  (h.fixReads.foldl fun _ _ h => h.foldl fun _ _ h => h.logUndo).noteReads.addLong.logDamage.finish

theorem execAdrn {o} : Answer.canonical (execAdrn o s) :=
  h.onWave fun _ => h.issueTested fun _ => by
    split
    · exact h.adrnLanes
    · exact .ite h.park h.setWave.adrnLanes

end State.memoryCanonical

namespace State.memoryCanonical

variable {s : State} (h : s.memoryCanonical)
include h

/-! ### Requests of the engines (R324, R325) -/

theorem forward {w m r} : (s.forward w m r).memoryCanonical := h.afterGate fun _ ht => h.ite ht.setCluster.finish

theorem engine {o kind} : Answer.canonical (s.engine o kind) :=
  h.onWave fun _ => h.unlessSpec (h.issueLanes fun _ => by
    dsimp only
    split
    · exact h.forward
    · exact h.takeTrap
    · exact h.takeTrap)

theorem execRcast {o} : Answer.canonical (execRcast o s) := h.engine
theorem execOcap {o} : Answer.canonical (execOcap o s) := h.engine
theorem execCbfk {o} : Answer.canonical (execCbfk o s) := h.engine
theorem execCbstep {o} : Answer.canonical (execCbstep o s) := h.engine

theorem engRead {e c off n} : firstCanonical (s.engRead e c off n) := by
  unfold State.engRead
  split
  · next heq => exact firstCanonical.ite (h.capKeys.ok heq).engineTouch (h.capKeys.ok heq).engineTouch
  · next heq => exact h.capKeys.error heq
  · exact h

theorem engWrite {e c off bs} : firstCanonical (s.engWrite e c off bs) := by
  unfold State.engWrite
  split
  · next heq => exact (h.capKeys.ok heq).engineWrite.fst
  · next heq => exact h.capKeys.error heq
  · exact h

/-! ### What the lanes of a request compute (R326 to R333) -/

theorem octNode {e c obj hd n side} : firstCanonical (s.octNode e c obj hd n side) := by
  unfold State.octNode
  split
  · next heq => exact h.engRead.of_eq heq
  · next heq => exact firstCanonical.ite (h.engRead.of_eq heq) (h.engRead.of_eq heq)

omit h in
theorem rayVisit {e kc obj hd r n node c best} {s : State} (h : s.memoryCanonical) :
    firstCanonical (s.rayVisit e kc obj hd r n node c best) := by
  induction n generalizing s node c best with
  | zero => exact h
  | succ n ih =>
    unfold State.rayVisit
    extract_lets +onlyGivenNames nd
    have h1 : firstCanonical nd := by
      dsimp only [nd]
      split
      · exact h
      · exact h.octNode
    clear_value nd
    split
    · exact h1.fst
    · refine foldl_keeps firstCanonical _ _ _ h1.fst fun acc kid hacc => ?_
      split
      · exact hacc.fst
      · dsimp only
        split
        · exact .ite hacc (.ite hacc (ih hacc))
        · exact .ite hacc (.ite hacc (ih hacc))

theorem rcastLane {e kc obj hd req} : firstCanonical (s.rcastLane e kc obj hd req) := by
  unfold State.rcastLane
  split
  · exact h
  · split
    · next heq => exact h.rayVisit.of_eq heq
    · next heq => exact h.rayVisit.of_eq heq

omit h in
theorem capVisit {e kc obj hd p lv node c n} {s : State} (h : s.memoryCanonical) :
    firstCanonical (s.capVisit e kc obj hd p lv node c n) := by
  induction lv generalizing s node c n with
  | zero => exact h
  | succ lv ih =>
    unfold State.capVisit
    split
    · next heq => exact h.octNode.of_eq heq
    · next heq =>
      refine foldl_keeps firstCanonical _ _ _ (h.octNode.of_eq heq) fun acc o hacc => ?_
      split
      · exact hacc.fst
      · exact .ite hacc (.ite hacc (ih hacc))

theorem ocapLane {e kc obj hd req} : firstCanonical (s.ocapLane e kc obj hd req) := by
  unfold State.ocapLane
  split
  · exact h
  · extract_lets +onlyGivenNames r
    have h1 : firstCanonical r := .ite h.capVisit h
    clear_value r
    split
    · exact h1.fst
    · exact h1.fst

omit h in
theorem chainJoints {e kc obj qs j f n} {s : State} (h : s.memoryCanonical) :
    firstCanonical (s.chainJoints e kc obj qs j f n) := by
  induction n generalizing s j f with
  | zero => exact h
  | succ n ih =>
    unfold State.chainJoints
    split
    · next heq => exact h.engRead.of_eq heq
    · next heq => exact firstCanonical.ite (h.engRead.of_eq heq) (ih (h.engRead.of_eq heq))

theorem cbfkLane {e kc obj hd req} : firstCanonical (s.cbfkLane e kc obj hd req) := by
  unfold State.cbfkLane
  refine firstCanonical.ite h ?_
  split
  · next heq => exact h.chainJoints.of_eq heq
  · next heq => exact h.chainJoints.of_eq heq

theorem engHeader {r} : firstCanonical (s.engHeader r) := by
  unfold State.engHeader
  split
  · next heq => exact h.engRead.of_eq heq
  · next heq => exact h.engRead.of_eq heq

theorem engLane {r hd req} : firstCanonical (s.engLane r hd req) := by
  unfold State.engLane
  split
  · split
    · exact h
    · exact h.rcastLane
  · split
    · exact h
    · exact h.ocapLane
  · exact h.cbfkLane
  · exact h

theorem engStore {r l x a} : firstCanonical (s.engStore r l x a) := by
  unfold State.engStore
  dsimp only
  split
  · split
    · next heq => exact h.engWrite.of_eq heq
    · next heq => exact h.engWrite.of_eq heq
  · split
    · next heq => exact h.engWrite.of_eq heq
    · next heq => exact h.engWrite.of_eq heq

omit h in
theorem engLanes {r hd ls a} {s : State} (h : s.memoryCanonical) : firstCanonical (s.engLanes r hd ls a) := by
  induction ls generalizing s a with
  | nil => exact h
  | cons l rest ih =>
    unfold State.engLanes
    extract_lets +onlyGivenNames x y
    have hx : firstCanonical x := by
      dsimp only [x]
      split
      · exact h
      · split
        · next heq => exact h.engRead.of_eq heq
        · next heq => exact (h.engRead.of_eq heq).engLane
    exact ih hx.fst.engStore.fst

theorem engServe {r} : firstCanonical (s.engServe r) := by
  unfold State.engServe
  extract_lets +onlyGivenNames ls hd
  have h1 : firstCanonical hd := .ite h h.engHeader
  exact h1.fst.engLanes.fst

theorem engFinish {r res st} : (s.engFinish r res st).memoryCanonical := by
  unfold State.engFinish
  split
  · next heq => exact (h.capKeys.ok heq).completeFuture
  · next heq => exact h.capKeys.error heq

theorem engStep {k kind} : (s.engStep k kind).memoryCanonical := by
  unfold State.engStep
  refine h.ite ?_
  split
  · split
    · split
      · exact h.setCluster.engFinish
      · exact h
    · exact h
  · split
    · exact .ite h.engServe.fst.setCluster h
    · exact h
  · exact h

theorem execRoeRcastService {k} : Answer.canonical (execRoeRcastService k s) := h.engStep.next
theorem execRoeOcapService {k} : Answer.canonical (execRoeOcapService k s) := h.engStep.next
theorem execCbeCbfkService {k} : Answer.canonical (execCbeCbfkService k s) := h.engStep.next
theorem execCbeCbstepService {k} : Answer.canonical (execCbeCbstepService k s) := h.engStep.next

end State.memoryCanonical

namespace State.memoryCanonical

variable {s : State} (h : s.memoryCanonical)
include h

/-! ### System registers, traps by program, TRET and RQUOTA (R200, R201, R344 to R348) -/

theorem seqStatWrite {k r v} : (s.seqStatWrite k r v).memoryCanonical := by
  unfold State.seqStatWrite
  dsimp only
  split
  · exact h.setSeq
  · exact .ite h.setSeq h
  · exact h

theorem setPoolLimit {l n v} : (s.setPoolLimit l n v).memoryCanonical := h.setPool

theorem execSrdScalar {o} : Answer.canonical (execSrdScalar o s) :=
  onAgent (fun _ => .ite h.park (.ite h.trapWord (.ite h.trapWord h.setSReg.finish)))
    fun _ => .ite h.seqFault (.ite h.seqFault h.setSReg.seqFinish)

theorem execSrdSlice {o} : Answer.canonical (execSrdSlice o s) :=
  onAgent (fun _ => h.issueLanes fun _ => .ite h.trapWord h.putShort.finish) fun _ => h.seqFault

theorem sysWrite {w r v} : (s.sysWrite w r v).memoryCanonical := .ite h.flsClear (.ite h.setWaveVw h.setPoolLimit)
theorem seqSysWrite {k r v} : (s.seqSysWrite k r v).memoryCanonical := .ite h.seqStatWrite h.setPoolLimit

theorem execSwr {o} : Answer.canonical (execSwr o s) :=
  onAgent (fun _ => .ite h.park (.ite h.trapWord (.ite h.trapWord h.sysWrite.finish)))
    fun _ => h.outsideRegion (.ite h.seqFault (.ite h.seqFault h.seqSysWrite.seqFinish))

theorem codeTrap {w c n} : (s.codeTrap w c n).memoryCanonical := h.takeTrap

theorem execTrap {o} : Answer.canonical (execTrap o s) :=
  h.onWave fun _ => .ite h.trapWord (.ite h.park (.ite h.codeTrap h.finish))

theorem execBrk {o} : Answer.canonical (execBrk o s) := h.onWave fun _ => h.codeTrap
theorem execEcall {o} : Answer.canonical (execEcall o s) := h.onWave fun _ => h.codeTrap

theorem tret {b : Nat → State} (hb : ∀ w, (b w).memoryCanonical) : Answer.canonical (s.tret b) :=
  h.onWave fun w => .ite h.trapWord (.ite h.park (hb w))

theorem execTretRetry {o} : Answer.canonical (execTretRetry o s) := h.tret fun _ => h.trapReturn.bumpFree
theorem execTretSkip {o} : Answer.canonical (execTretSkip o s) := h.tret fun _ => h.trapReturn.bumpFree

theorem endOtherWave {w x} : (s.endOtherWave w x).memoryCanonical := h.ite (h.flushAll.foldl fun _ _ h => h.setThread).dropWave
theorem endOthers {w} : (s.endOthers w).memoryCanonical := (h.foldl fun _ _ h => h.endOtherWave).setGroup

theorem execTretKilltask {o} : Answer.canonical (execTretKilltask o s) :=
  h.tret fun _ => .ite (.ite h.endOthers.park h.endOthers.trapReturn.sortWave) h.trapReturn.sortWave

theorem execTretKillcrew {o} : Answer.canonical (execTretKillcrew o s) :=
  h.tret fun _ => by
    split
    · exact h.endCrewWith
    · exact h.endCrewWith

theorem setQuota {g n q} : (s.setQuota g n q).memoryCanonical := h
theorem quotaResult {w d n st} : (s.quotaResult w d n st).memoryCanonical := h.setSReg.setStatus.finish

theorem execRquota {o} : Answer.canonical (execRquota o s) :=
  h.onWave fun _ => .ite h.trapWord (.ite h.park (.ite (.ite h.park h.setQuota.quotaResult)
    (.ite h.setQuota.quotaResult h.quotaResult)))

theorem execLit {o} : Answer.canonical (execLit o s) := h.onBoth h.setSReg.agentFinish

theorem execPairedWord {o} : Answer.canonical (execPairedWord o s) :=
  h.onWave fun _ => .ite h.takeTrap (.ite h.park (.ite h.takeTrap h.putShort.putShort.finish))

/-! ### The fetch of a word (R44, R47, R127, R392) -/

theorem fillL1i {c l} : (s.fillL1i c l).memoryCanonical := .ite h.touchRead.setCore h.touchRead.setCore.logNear
theorem fillBuf {c q x} : (s.fillBuf c q x).memoryCanonical := h.setCore

theorem fetchLine {c q l} : firstCanonical (s.fetchLine c q l) := by
  unfold State.fetchLine
  split
  · exact h
  · exact h.fillBuf
  · exact h.fillL1i.fillBuf

theorem fetchWord {e q va} : bothCanonical (s.fetchWord e q va) := by
  unfold State.fetchWord
  split
  · next heq => exact h.translate.error heq
  · next heq =>
    split
    · exact (h.translate.ok heq).touchRead
    · exact (h.translate.ok heq).fetchLine.fst

theorem fetchAt {e q seg w} : firstCanonical (s.fetchAt e q seg w) := by
  unfold State.fetchAt
  refine firstCanonical.ite h ?_
  split
  · next heq => exact h.fetchWord.error heq
  · next heq =>
    have h1 := h.fetchWord.ok heq
    refine firstCanonical.ite h1 (firstCanonical.ite h1 (firstCanonical.ite h1 ?_))
    split
    · next heq => exact h1.fetchWord.error heq
    · next heq => exact h1.fetchWord.ok heq

theorem fetchWave {w} : firstCanonical (s.fetchWave w) := h.fetchAt
theorem fetchTrap {w c va k} : (s.fetchTrap w c va k).memoryCanonical := h.takeTrap
theorem plainTrap {w c k} : (s.plainTrap w c k).memoryCanonical := h.takeTrap

end State.memoryCanonical

/-! ### Reads of the control processors, byte by byte (R433)

The kernel must not evaluate a translation to see one step of such a read, so the step is taken with the recursion opened by name. -/

/-- One step of a structural recursion over a number, whatever its body. -/
theorem brecOn_succ {α β γ : Type} (f : (n : Nat) → Nat.below (motive := fun _ => α → β → γ) n → α → β → γ)
    (n : Nat) (a : α) (b : β) :
    Nat.brecOn (motive := fun _ => α → β → γ) (n + 1) f a b = f (n + 1)
      ⟨Nat.brecOn (motive := fun _ => α → β → γ) n f, (Nat.brecOn.go (motive := fun _ => α → β → γ) n f).2⟩ a b := rfl

theorem State.ctlRead_succ {s t : State} {ctx va n : Nat} {bs : List Byte} (e : s.ctlRead ctx va (n + 1) = some (t, bs)) :
    ∃ s1 pa l, s.ctlTranslate ctx va .load = some (s1, pa) ∧ (s1.touchRead pa 1).ctlRead ctx (va + 1) n = some (t, l) := by
  rw [show @State.ctlRead = _ from by delta State.ctlRead; rfl] at e ⊢
  rw [brecOn_succ] at e
  generalize Nat.brecOn (motive := fun _ => State → Nat → Option (State × List Byte)) n (State.ctlRead._f ctx) = g at e ⊢
  generalize (Nat.brecOn.go (motive := fun _ => State → Nat → Option (State × List Byte)) n _).2 = b at e
  rw [show @State.ctlRead._f = _ from by delta State.ctlRead._f; rfl] at e
  generalize s.ctlTranslate ctx va .load = o at e ⊢
  obtain _ | ⟨s1, pa⟩ := o
  · cases e
  · dsimp only at e
    split at e
    · cases e
    · next heq =>
      cases e
      exact ⟨_, _, _, rfl, heq⟩

namespace State.memoryCanonical

variable {s : State} (h : s.memoryCanonical)
include h

/-! ### Results, writes at home, waits and the active set (R108, R111, R117 to R119, R177, R198, R290, R367) -/

theorem putCells {g cells} : (s.putCells g cells).memoryCanonical :=
  (h.foldr fun _ _ h => h.setThread).foldl fun _ _ h => h.ite h.setThread

theorem putPrds {g prds} : (s.putPrds g prds).memoryCanonical := h.foldr fun _ _ h => h.setThread

theorem endMarker {w} : (s.endMarker w).memoryCanonical := by
  unfold State.endMarker
  split
  · exact .ite h.unpark h
  · exact h

theorem retestQuota {g} : (s.retestQuota g).memoryCanonical := h

theorem execLongResultWrite {w i} : Answer.canonical (execLongResultWrite w i s) := by
  unfold Machine.execLongResultWrite
  dsimp only
  split
  · exact h.next
  · exact h.putCells.putPrds.setWave.endMarker.retestQuota.bumpFree.next

theorem performOut {w i} : (s.performOut w i).memoryCanonical := by
  unfold State.performOut
  dsimp only
  split
  · exact h
  · exact h.ite h.setWave.performWrite

theorem performAcct {a i} : (s.performAcct a i).memoryCanonical := by
  unfold State.performAcct
  dsimp only
  split
  · exact h
  · exact h.ite h.setAccount.performLeft

theorem execWritePerformAtHome {w i} : Answer.canonical (execWritePerformAtHome w i s) := (h.performOut.ite h.performAcct).next
theorem execPeerWriteAck {w} : Answer.canonical (execPeerWriteAck w s) := (h.setWave.ite (h.setDev.ite h.setAccount)).next

theorem execReleaseWaitEnd {w} : Answer.canonical (execReleaseWaitEnd w s) := by
  unfold Machine.execReleaseWaitEnd
  refine answer_ite h.next ?_
  extract_lets +onlyGivenNames v t
  have ht : t.memoryCanonical := by
    dsimp only [t]
    split
    · exact h
    · exact .ite h.setWave h
  split
  · exact (ht.unpark.ite ht).next
  · exact ht.next

theorem execSpecFenceComplete {w} : Answer.canonical (execSpecFenceComplete w s) := by
  unfold Machine.execSpecFenceComplete
  split
  · exact h.next
  · exact answer_ite h.next (.next (.ite (h.foldl fun _ _ h => h.sendStores.bumpFree).setWave.orderRegs.unpark
      (h.foldl fun _ _ h => h.sendStores.bumpFree).setWave.orderRegs))

theorem restoreUndo {g u} : (s.restoreUndo g u).memoryCanonical := h.foldl fun _ _ h => h.setThread
theorem restorePreds {g ck} : (s.restorePreds g ck).memoryCanonical := h.foldl fun _ _ h => h.setThread

theorem rollback {w b} : (s.rollback w b).memoryCanonical := by
  unfold State.rollback
  split
  · exact h
  · exact h.restoreUndo.restorePreds.setWave.retestQuota

theorem execSpecConflictRollback {w} : Answer.canonical (execSpecConflictRollback w s) := by
  unfold Machine.execSpecConflictRollback
  split
  · exact h.next
  · exact (h.rollback.bumpFree.ite h).next

theorem execIinvComplete {w} : Answer.canonical (execIinvComplete w s) := by
  unfold Machine.execIinvComplete
  split
  · exact (h.ite h.passMark).next
  · exact h.next

theorem wdTrap {w k} : (s.wdTrap w k).memoryCanonical := h.plainTrap

theorem execSegmentWatchdogExpiry {w} : Answer.canonical (execSegmentWatchdogExpiry w s) := by
  unfold Machine.execSegmentWatchdogExpiry
  refine answer_ite h.next ?_
  split
  · exact h.next
  · next heq => exact (h.fetchWave.of_eq heq).wdTrap.next
  · next heq => exact (h.fetchWave.of_eq heq).wdTrap.next

theorem exchange {a b} : (s.exchange a b).memoryCanonical := by
  unfold State.exchange
  dsimp only
  split
  · exact h.setWave
  · exact h.setWave.setWave

theorem execWaveParkExchange {c q} : Answer.canonical (execWaveParkExchange c q s) := by
  unfold Machine.execWaveParkExchange
  split
  · exact h.next
  · refine answer_ite h.exchange.next ?_
    split
    · exact h.next
    · exact h.exchange.next

theorem execPendingWaveExchange {c q} : Answer.canonical (execPendingWaveExchange c q s) := by
  unfold Machine.execPendingWaveExchange
  dsimp only
  split
  · exact h.exchange.next
  · exact h.next

/-! ### Memory as the control processors reach it (R43, R433) -/

theorem ctlTouch {a n} : (s.ctlTouch a n).memoryCanonical := .ite h.touchRead h
theorem ctlWrite {who a bs} : (s.ctlWrite who a bs).memoryCanonical := h.writeAtHome.setDev

theorem ctlTranslate {ctx va acc t pa} (e : s.ctlTranslate ctx va acc = some (t, pa)) : t.memoryCanonical := by
  rw [show @State.ctlTranslate = _ from by delta State.ctlTranslate; rfl] at e
  split at e
  · cases e
  · next heq =>
    extract_lets x y at e
    split at e
    · obtain ⟨rfl, -⟩ := Prod.mk.inj (Option.some.inj e)
      exact (h.walkOf.of_eq heq).setAD
    · cases e

omit h in
theorem ctlRead {ctx va n t bs} {s : State} (h : s.memoryCanonical) (e : s.ctlRead ctx va n = some (t, bs)) : t.memoryCanonical := by
  induction n generalizing s va bs with
  | zero => cases e; exact h
  | succ n ih =>
    obtain ⟨s1, pa, l, e1, e2⟩ := State.ctlRead_succ e
    exact ih (h.ctlTranslate e1).touchRead e2

/-! ### The loader (R31 to R38, R57, R249, R409) -/

theorem dropImages : s.dropImages.memoryCanonical := h
theorem keepImage {a n m} : (s.keepImage a n m).memoryCanonical := h.ite h.setDev
theorem renewImage {l} : (s.renewImage l).memoryCanonical := h.ite h.setLaunch.keepImage.ctlWrite
theorem touchModule {r} : (s.touchModule r).memoryCanonical := .ite h.touchRead h.ctlTouch

theorem readTensors {l r t ts} (e : s.readTensors l r = some (t, ts)) : t.memoryCanonical := by
  unfold State.readTensors at e
  split at e
  · cases e
  · next heq =>
    dsimp only at e
    split at e
    · cases e
      exact h.ctlRead heq
    · cases e

theorem alloc {k a n t x} (e : s.alloc k a n = some (t, x)) : t.memoryCanonical := by
  unfold State.alloc at e
  dsimp only at e
  split at e
  · cases e
    exact h.setDev
  · cases e

theorem zeroHome {a n} : (s.zeroHome a n).memoryCanonical :=
  (setStore (Store.wf_zero s.store a n h)).foldMem fun _ _ => l2Touch_store _ _ _ _

theorem newTable {who a t x} (e : s.newTable who a = some (t, x)) : t.memoryCanonical := by
  rw [show @State.newTable = _ from by delta State.newTable; rfl] at e
  split at e
  · cases e
  · next heq =>
    split at e
    · cases e
      exact (h.alloc heq).zeroHome.ctlWrite
    · cases e

theorem nextTable {who a t x} (e : s.nextTable who a = some (t, x)) : t.memoryCanonical := by
  unfold State.nextTable at e
  dsimp only at e
  split at e
  · cases e
  · split at e
    · split at e
      · cases e
      · cases e
        exact h.touchRead
    · exact h.touchRead.newTable e

theorem rootTable {who c t x} (e : s.rootTable who c = some (t, x)) : t.memoryCanonical := by
  rw [show @State.rootTable = _ from by delta State.rootTable; rfl] at e
  extract_lets a v at e
  split at e
  · cases e
  · split at e
    · cases e
      exact h.touchRead
    · exact h.touchRead.newTable e

theorem mapPage {who c va leaf t} (e : s.mapPage who c va leaf = some t) : t.memoryCanonical := by
  unfold State.mapPage at e
  split at e
  · cases e
  · next heq =>
    have h0 := h.rootTable heq
    split at e
    · cases e
    · next heq =>
      have h1 := h0.nextTable heq
      split at e
      · cases e
      · next heq =>
        have h2 := h1.nextTable heq
        split at e
        · cases e
        · next heq =>
          have h3 := h2.nextTable heq
          split at e
          · cases e
            exact h3.ctlWrite
          · cases e

omit h in
theorem mapPages {who c va pa place lease x w n t} {s : State} (h : s.memoryCanonical)
    (e : s.mapPages who c va pa place lease x w n = some t) : t.memoryCanonical := by
  induction n generalizing s va pa with
  | zero => cases e; exact h
  | succ n ih =>
    unfold State.mapPages at e
    split at e
    · cases e
    · next heq => exact ih (h.mapPage heq) e

theorem allocMapped {c k al n x w d t a} (e : s.allocMapped c k p al n x w d = some (t, a)) : t.memoryCanonical := by
  rw [show @State.allocMapped = _ from by delta State.allocMapped; rfl] at e
  obtain ⟨alloc, hAlloc⟩ : ∃ f, f = @State.alloc := ⟨_, rfl⟩
  obtain ⟨mapPages, hMap⟩ : ∃ f, f = @State.mapPages := ⟨_, rfl⟩
  rw [← hAlloc, ← hMap] at e
  split at e
  · cases e
  · next heq =>
    dsimp only at e
    split at e
    · cases e
    · next heq' =>
      cases e
      subst hAlloc hMap
      exact ((h.alloc heq).zeroHome.mapPages heq').ctlWrite

theorem setBind {l k a} : (s.setBind l k a).memoryCanonical := h

omit h in
theorem allocOwn {l i b ks t} {s : State} (h : s.memoryCanonical) (e : s.allocOwn l i b ks = some t) : t.memoryCanonical := by
  induction ks generalizing s with
  | nil => cases e; exact h
  | cons k rest ih =>
    rw [State.allocOwn] at e
    split at e
    · cases e
    · next heq => exact ih (h.allocMapped heq).setBind e

theorem allocBinding {l i a b t} (e : s.allocBinding l i a b = some t) : t.memoryCanonical := by
  unfold State.allocBinding at e
  extract_lets +onlyGivenNames v at e
  split at e
  · cases e; exact h
  · split at e
    · cases e; exact h.setBind
    · split at e
      · exact h.allocOwn e
      · extract_lets key at e
        split at e
        · cases e
        · next heq =>
          cases e
          exact (h.allocMapped heq).setBind

omit h in
theorem allocBindings {l a i bs t} {s : State} (h : s.memoryCanonical) (e : s.allocBindings l a i bs = some t) : t.memoryCanonical := by
  induction bs generalizing s i with
  | nil => cases e; exact h
  | cons b rest ih =>
    unfold State.allocBindings at e
    split at e
    · cases e
    · next heq => exact ih (h.allocBinding heq) e

theorem mapArgs {l t va} (e : s.mapArgs l = some (t, va)) : t.memoryCanonical := by
  rw [show @State.mapArgs = _ from by delta State.mapArgs; rfl] at e
  obtain ⟨alloc, hAlloc⟩ : ∃ f, f = @State.alloc := ⟨_, rfl⟩
  obtain ⟨mapPages, hMap⟩ : ∃ f, f = @State.mapPages := ⟨_, rfl⟩
  rw [← hAlloc, ← hMap] at e
  dsimp only at e
  split at e
  · cases e; exact h
  · split at e
    · cases e
    · next heq =>
      split at e
      · cases e
      · next heq' =>
        cases e
        subst hAlloc hMap
        exact (h.alloc heq).mapPages heq'

theorem storeCap {a c} : (s.storeCap a c).memoryCanonical := h.writeAtHome

omit h in
theorem fillTable {l k i bs} {s : State} (h : s.memoryCanonical) : (s.fillTable l k i bs).memoryCanonical := by
  induction bs generalizing s i with
  | nil => exact h
  | cons b rest ih =>
    unfold State.fillTable
    exact ih h.storeCap

theorem loadLaunch {l t} (e : s.loadLaunch l = some t) : t.memoryCanonical := by
  rw [show @State.loadLaunch = _ from by delta State.loadLaunch; rfl] at e
  obtain ⟨allocMapped, hMapped⟩ : ∃ f, f = @State.allocMapped := ⟨_, rfl⟩
  obtain ⟨mapArgs, hArgs⟩ : ∃ f, f = @State.mapArgs := ⟨_, rfl⟩
  obtain ⟨allocBindings, hBindings⟩ : ∃ f, f = @State.allocBindings := ⟨_, rfl⟩
  rw [← hMapped, ← hArgs, ← hBindings] at e
  dsimp only at e
  split at e
  · cases e
  · next heq =>
    split at e
    · cases e
    · next heq2 =>
      split at e
      · cases e
      · next heq3 =>
        split at e
        · cases e
        · next heq4 =>
          cases e
          subst hMapped hArgs hBindings
          exact ((((h.allocMapped heq).mapArgs heq2).allocBindings heq3).allocMapped heq4).setLaunch.fillTable.setLaunch

end State.memoryCanonical

namespace State.memoryCanonical

variable {s : State} (h : s.memoryCanonical)
include h

/-! ### Placement (R33, R52, R58, R139, R298, R356 to R359, R395) -/

theorem railGo {k n} : (s.railGo k n).memoryCanonical := h.ite (.ite h.setCluster (.ite h.setCluster h.setCluster.retime))
theorem railWant {k n} : (s.railWant k n).memoryCanonical := .ite h.setCluster h.railGo
theorem reserve {r c n b} : (s.reserve r c n b).memoryCanonical := h.foldl fun _ _ h => h.ite (h.of_store (by rfl))

theorem initSpace {m space base} : (s.initSpace m space base).memoryCanonical :=
  h.foldl fun t _ h => by
    split
    · exact h
    · exact .ite (setStore (Store.wf_write t.store _ none h)) h

theorem loadTensors {l k} : (s.loadTensors l k).memoryCanonical := h.setCluster

theorem takeBanks {l k} : (s.takeBanks l k).memoryCanonical :=
  (setStore (Store.wf_zero _ _ _ h.setCluster.setLaunch)).initSpace

theorem prepareSeq {l k} : (s.prepareSeq l k).memoryCanonical :=
  h.ite (setStore (Store.wf_zero _ _ _ (Store.wf_zero _ _ _ h))).initSpace.setSeq

theorem takeCluster {l k} : (s.takeCluster l k).memoryCanonical := h.loadTensors.takeBanks.prepareSeq
theorem placeCore {l c} : (s.placeCore l c).memoryCanonical := (h.writeSplit.foldl fun _ _ h => h.setCrew).reserve
theorem loadGrid {l b} : (s.loadGrid l b).memoryCanonical := h.foldl fun _ _ h => h.setLaunch

theorem clearHold {c} : (s.clearHold c).memoryCanonical := .ite (h.of_store (by rfl)) h

theorem placeAt {l o} : (s.placeAt l o).memoryCanonical := by
  unfold State.placeAt
  extract_lets +onlyGivenNames t r cores ks slot v s1 s2 s3 s4 s5 s6 s7 s8
  have ht : t.memoryCanonical := h.renewImage
  have h1 : s1.memoryCanonical := ht.setLaunch
  have h2 : s2.memoryCanonical := h1.journal.journal.journal
  have h3 : s3.memoryCanonical := h2.foldl fun _ _ h => h.clearHold
  have h4 : s4.memoryCanonical := h3.ite (h3.foldl fun _ _ h => h.railWant)
  have h5 : s5.memoryCanonical := h4.foldl fun _ _ h => h.takeCluster
  have h6 : s6.memoryCanonical := .ite h5.fillTable h5
  have h7 : s7.memoryCanonical := h6.foldl fun _ _ h => h.placeCore
  have h8 : s8.memoryCanonical := h7.foldl fun _ _ h => h.loadGrid
  exact h8.setDev

theorem setAside {l} : (s.setAside l).memoryCanonical := h.setLaunch.journal

theorem execLaunchPlacement {l} : Answer.canonical (execLaunchPlacement l s) := by
  unfold Machine.execLaunchPlacement
  refine answer_ite h.next ?_
  split
  · exact h.placeAt.jrnAdvance.next
  · exact h.setAside.jrnAdvance.next

/-! ### Saves, restores and pre-emption (R315, R382 to R387) -/

theorem stopSeq {k} : (s.stopSeq k).memoryCanonical := (State.memoryCanonical.ite h.abandonRegion h).setSeq

theorem startSave {c} : (s.startSave c).memoryCanonical :=
  h.ite (.ite h.setCore (.ite (h.setCore.foldl fun _ _ h => h.rollback).stopSeq (h.setCore.foldl fun _ _ h => h.rollback)))

theorem startRestore {c} : (s.startRestore c).memoryCanonical := by
  unfold State.startRestore
  refine h.ite (.ite h.setCore ?_)
  extract_lets s1 s2
  have h1 : s1.memoryCanonical := by
    dsimp only [s1]
    split
    · exact h
    · exact h.railWant
  have h2 : s2.memoryCanonical := h1.ite h1.writeSplit
  exact h2.setCore

theorem askRestore {c} : (s.askRestore c).memoryCanonical := .ite h.setCore h.startRestore
theorem restoreDecision {c} : (s.restoreDecision c).memoryCanonical := .ite h.journal.startRestore.jrnAdvance h
theorem endSaving {l} : (s.endSaving l).memoryCanonical := h.setLaunch.foldl fun _ _ h => h.restoreDecision

theorem afterSaves {l} : (s.afterSaves l).memoryCanonical := by
  unfold State.afterSaves
  refine h.ite ?_
  split
  · exact h.placeAt
  · exact h.endSaving

theorem preempt {l} : (s.preempt l).memoryCanonical := by
  unfold State.preempt
  refine h.ite ?_
  split
  · exact h
  · exact (h.setLaunch.foldl fun _ _ h => h.journal.startSave).jrnAdvance

theorem execPlacementRetry {l} : Answer.canonical (execPlacementRetry l s) := by
  unfold Machine.execPlacementRetry
  refine answer_ite h.next (answer_ite h.afterSaves.jrnAdvance.next ?_)
  split
  · exact h.placeAt.jrnAdvance.next
  · exact h.preempt.next

end State.memoryCanonical

namespace State.memoryCanonical

variable {s : State} (h : s.memoryCanonical)
include h

/-! ### Host queues (R349, R350, R356) -/

theorem setHostQ {q v} : (s.setHostQ q v).memoryCanonical := h
theorem setKick {q} : (s.setKick q).memoryCanonical := h
theorem kickIfAny {q} : (s.kickIfAny q).memoryCanonical := .ite h.setKick h
theorem ringDoorbell {q v} : (s.ringDoorbell q v).memoryCanonical := h.setHostQ.kickIfAny
theorem hostDoorbell {q v} : (s.hostDoorbell q v).memoryCanonical := .ite h.ringDoorbell h
theorem writeCqBase {q v} : (s.writeCqBase q v).memoryCanonical := .ite h.setHostQ h.setHostQ.kickIfAny
theorem execDoorbell {q v} : Answer.canonical (execDoorbell q v s) := (h.hostDoorbell.ite h).next
theorem execCqBaseWrite {q v} : Answer.canonical (execCqBaseWrite q v s) := (h.writeCqBase.ite h).next
theorem execCrHeadWrite {q v} : Answer.canonical (execCrHeadWrite q v s) := (h.setHostQ.ite h).next

/-! ### Completions (R354, R365, R436, R437) -/

theorem nowDue {l} : (s.nowDue l).memoryCanonical := h
theorem fallDue {l st} : (s.fallDue l st).memoryCanonical := h.noteEnd.nowDue

theorem bestCell {l} : firstCanonical (s.bestCell l) := by
  unfold State.bestCell
  refine .ite h (.ite h ?_)
  split
  · exact h
  · next heq => exact h.ctlRead heq

theorem signalAddr {l} : firstCanonical (s.signalAddr l) := by
  unfold State.signalAddr
  refine .ite h ?_
  split
  · exact h
  · next heq => exact h.ctlTranslate heq

theorem stage {l} : (s.stage l).memoryCanonical := by
  unfold State.stage
  split
  · exact (setStore (Store.wf_write _ _ _ h.bestCell.fst.signalAddr.fst)).setLaunch.journal
  · exact h

theorem stageDue : s.stageDue.memoryCanonical := h.foldl fun _ _ h => h.stage.ite h

theorem assistWrite {i} : firstCanonical (s.assistWrite i) := by
  unfold State.assistWrite
  extract_lets +onlyGivenNames a q v ev s1 s2 s3 s4 l s5
  have h2 : s2.memoryCanonical := h.ctlWrite.setHostQ
  have h3 : s3.memoryCanonical := h2.ite h2.ctlWrite
  have h4 : s4.memoryCanonical := h3.fireMsix
  have h5 : s5.memoryCanonical := setStore (Store.wf_write _ _ _ h4)
  clear_value s5
  exact .ite h (.ite h (State.memoryCanonical.ite h5.setLaunch h5))

theorem closeStage {i} : (s.closeStage i).memoryCanonical := h.foldl fun _ _ h => .ite h.journal.setLaunch.jrnAdvance h
theorem assistFields {a b} : (s.assistFields a b).memoryCanonical := h
theorem assistEnded {a b c} : (s.assistEnded a b c).memoryCanonical := h
theorem assistStarted {a b c} : (s.assistStarted a b c).memoryCanonical := h

theorem execCompletionRecordWrite {q} : Answer.canonical (execCompletionRecordWrite q s) := by
  unfold Machine.execCompletionRecordWrite
  split
  · exact h.next
  · refine answer_ite h.next ?_
    dsimp only
    split
    · exact h.next
    · exact h.stageDue.assistWrite.fst.assistEnded.closeStage.next

theorem execSchedAssistWrite {i} : Answer.canonical (execSchedAssistWrite i s) := answer_ite h.next h.assistWrite.fst.assistStarted.next
theorem commandCrews {i} : (s.commandCrews i).memoryCanonical := h
theorem execSchedAssistFinish {i} : Answer.canonical (execSchedAssistFinish i s) := answer_ite h.next h.commandCrews.assistStarted.next

theorem execSchedAssistComplete : Answer.canonical (execSchedAssistComplete s) :=
  answer_ite h.next (h.setSched.closeStage.ite h.setSched).next

/-! ### Records taken (R351 to R353, R355) -/

theorem enterRecord {l bs b} : (s.enterRecord l bs b).memoryCanonical := by
  rw [show @State.enterRecord = _ from by delta State.enterRecord; rfl]
  obtain ⟨readTensors, hTensors⟩ : ∃ f, f = @State.readTensors := ⟨_, rfl⟩
  obtain ⟨loadLaunch, hLoad⟩ : ∃ f, f = @State.loadLaunch := ⟨_, rfl⟩
  rw [← hTensors, ← hLoad]
  extract_lets +onlyGivenNames r v s0
  have h0 : s0.memoryCanonical := h.setLaunch
  refine .ite h0.fallDue ?_
  extract_lets s1
  have h1 : s1.memoryCanonical := h0.touchModule
  split
  · exact h1.fallDue
  · split
    · exact h1.fallDue
    · next heq =>
      subst hTensors
      extract_lets s2
      have h2 : s2.memoryCanonical := (h1.readTensors heq).keepImage
      split
      · exact h2.fallDue
      · next heq =>
        subst hLoad
        exact (h2.setLaunch.loadLaunch heq).setLaunch

theorem newLaunch {q a} : firstCanonical (s.newLaunch q a) := h.setLaunch
theorem advanceHead {q} : (s.advanceHead q).memoryCanonical := .ite h.setHostQ.setSched h.setHostQ
theorem takeHost {q} : (s.takeHost q).memoryCanonical := by
  unfold State.takeHost
  extract_lets v a at_ r
  have hr : firstCanonical r := h.advanceHead.journal.newLaunch
  exact hr.fst.ctlTouch.enterRecord

theorem execLaunchRecordTake {q} : Answer.canonical (execLaunchRecordTake q s) := by
  unfold Machine.execLaunchRecordTake
  refine answer_ite h.next (answer_ite (answer_ite h.takeHost.jrnAdvance.next h.next) ?_)
  split
  · exact h.next
  · exact answer_ite h.setSched.journal.newLaunch.fst.enterRecord.jrnAdvance.next h.next

theorem execWaitEventPoll {l} : Answer.canonical (execWaitEventPoll l s) := by
  unfold Machine.execWaitEventPoll
  refine answer_ite h.next ?_
  split
  · exact h.fallDue.next
  · next heq =>
    have h1 := h.ctlRead heq
    exact (h1.setLaunch.ite h1).next

/-! ### Crew start and crew end (R33, R34, R49, R52, R58, R157, R162, R180, R200, R387) -/

theorem closePlace {l} : (s.closePlace l).memoryCanonical := by
  unfold State.closePlace
  split
  · exact h
  · exact h.ite h.journal.setLaunch.jrnAdvance

theorem startWaves {g n e} : (s.startWaves g n e).memoryCanonical := h.foldl fun _ _ h => h.formWave
theorem zeroCrew {c} : (s.zeroCrew c).memoryCanonical := (setStore (Store.wf_zero _ _ _ h)).initSpace
theorem startCrew {c} : (s.startCrew c).memoryCanonical := (h.zeroCrew.setCrew.foldl fun _ _ h => h.setGroup.startWaves).closePlace
theorem execCrewStart {c} : Answer.canonical (execCrewStart c s) := (h.startCrew.ite h).next

theorem freeTensors {l k} : (s.freeTensors l k).memoryCanonical := h
theorem freeBanks {l k} : (s.freeBanks l k).memoryCanonical := h
theorem leaveCluster {l k} : (s.leaveCluster l k).memoryCanonical := h.ite (h.freeTensors.ite h.freeTensors.freeBanks)
theorem unsave {c x} : (s.unsave c x).memoryCanonical := .ite h.setCore h

theorem setGroups {v} : ({ s with groups := v } : State).memoryCanonical := h

theorem endCrew {c} : (s.endCrew c).memoryCanonical := by
  unfold State.endCrew
  extract_lets +onlyGivenNames x v s1 s2 s3 y s4 s5
  have h2 : s2.memoryCanonical := h.gridLeave.foldl fun _ _ h => h.dropWave
  have h3 : s3.memoryCanonical := h2.setGroups
  have h4 : s4.memoryCanonical := h3.setCrew
  have h5 : s5.memoryCanonical := h4.reserve.journal.journalGrid.unsave
  exact h5.leaveCluster.closePlace.jrnAdvance.restoreDecision

theorem execCrewEnd {c} : Answer.canonical (execCrewEnd c s) := (h.endCrew.ite h).next

/-! ### The end of a launch (R122, R301, R354, R365) -/

theorem clearLaunch {l} : (s.clearLaunch l).memoryCanonical :=
  State.memoryCanonical.setLaunch ((h.foldl fun _ _ h => h.freeTensors.freeBanks.setCluster).of_store (by rfl))

theorem execLaunchCompletion {l} : Answer.canonical (execLaunchCompletion l s) := by
  unfold Machine.execLaunchCompletion
  refine answer_ite h.next ?_
  extract_lets s0 s1
  have h0 : s0.memoryCanonical := h.closePlace.clearLaunch
  have h1 : s1.memoryCanonical := (h0.ite h0.journal.jrnAdvance).nowDue.dropImages
  exact (h1.ite h1.stageDue.jrnAdvance).next

/-! ### The spillway (R361, R363) -/

theorem mapSpill {l va f t} (e : s.mapSpill l va f = some t) : t.memoryCanonical := h.mapPage e

theorem reserveFrame {l va t} (e : s.reserveFrame l va = some t) : t.memoryCanonical := by
  rw [show @State.reserveFrame = _ from by delta State.reserveFrame; rfl] at e
  obtain ⟨alloc, hAlloc⟩ : ∃ f, f = @State.alloc := ⟨_, rfl⟩
  rw [← hAlloc] at e
  split at e
  · cases e
  · split at e
    · cases e
    · next heq =>
      dsimp only at e
      split at e
      · cases e
      · next heq' =>
        cases e
        subst hAlloc
        exact ((h.alloc heq).setDev.mapSpill heq').setLaunch.journal

theorem reuseFrame {l va t} (e : s.reuseFrame l va = some t) : t.memoryCanonical := by
  rw [show @State.reuseFrame = _ from by delta State.reuseFrame; rfl] at e
  extract_lets v gone used at e
  split at e
  · obtain ⟨u, hu, rfl⟩ := Option.map_eq_some_iff.mp e
    exact (h.ctlWrite.mapSpill hu).journal
  · cases e

theorem ringPage {l va t pa} (e : s.ringPage l va = some (t, pa)) : t.memoryCanonical := by
  rw [show @State.ringPage = _ from by delta State.ringPage; rfl] at e
  obtain ⟨ctlTranslate, hTranslate⟩ : ∃ f, f = @State.ctlTranslate := ⟨_, rfl⟩
  obtain ⟨reserveFrame, hReserve⟩ : ∃ f, f = @State.reserveFrame := ⟨_, rfl⟩
  obtain ⟨reuseFrame, hReuse⟩ : ∃ f, f = @State.reuseFrame := ⟨_, rfl⟩
  rw [← hTranslate, ← hReserve, ← hReuse] at e
  dsimp only at e
  split at e
  · next heq =>
    cases e
    subst hTranslate
    exact h.ctlTranslate heq
  · split at e
    · cases e
    · split at e
      · next heq =>
        subst hTranslate hReserve
        exact (h.reserveFrame heq).ctlTranslate e
      · split at e
        · next heq =>
          subst hTranslate hReuse
          exact (h.reuseFrame heq).ctlTranslate e
        · cases e

theorem execSpillStagingDrain {k l} : Answer.canonical (execSpillStagingDrain k l s) := by
  unfold Machine.execSpillStagingDrain
  split
  · exact h.next
  · refine answer_ite h.next ?_
    split
    · exact h.next
    · next heq => exact (h.ringPage heq).ctlWrite.setStaging.setLaunch.jrnAdvance.next

theorem execSpillRefill {l} : Answer.canonical (execSpillRefill l s) := by
  unfold Machine.execSpillRefill
  split
  · exact h.setLaunch.pushHeadrace.next
  · split
    · exact h.next
    · split
      · exact h.next
      · exact h.setStaging.pushHeadrace.next

/-! ### The deadline (R135, R182, R301, R364, R365) -/

theorem cutGroup {g} : (s.cutGroup g).memoryCanonical := .ite h.setGroup.afterDeaths h

theorem cutWave {w} : (s.cutWave w).memoryCanonical := by
  unfold State.cutWave
  dsimp only
  split
  · exact h.setWave.wakeWave
  · exact h.setWave

theorem cutCrew {c} : (s.cutCrew c).memoryCanonical :=
  (h.setCrew.foldl fun _ _ h => h.cutGroup).foldl fun _ _ h => h.cutWave

theorem cutSeq {k} : (s.cutSeq k).memoryCanonical := by
  unfold State.cutSeq
  dsimp only
  split
  · exact h.setSeq.seqReturn
  · exact h.setSeq

theorem cutCluster {k} : (s.cutCluster k).memoryCanonical := by
  unfold State.cutCluster
  refine h.ite ?_
  extract_lets crews s1 q
  have h1 : s1.memoryCanonical := h.foldl fun _ _ h => h.cutCrew
  split
  · exact h1
  · exact .ite h1.cutSeq h1

theorem fallDeadline {l} : (s.fallDeadline l).memoryCanonical :=
  h.ite (.ite (h.setLaunch.noteEnd.dropRecords.foldl fun _ _ h => h.cutCluster) h.setLaunch.noteEnd.endSaving.nowDue)

theorem execLaunchDeadline {l} : Answer.canonical (execLaunchDeadline l s) := h.fallDeadline.next

/-! ### Take-over (R371, R435 to R438, R442) -/

theorem execPrimaryFailure : Answer.canonical (execPrimaryFailure s) := (h.of_store (by rfl)).next
theorem take {who} : (s.take who).memoryCanonical := h.ite (h.setSched.fireMsix.foldl fun _ _ h => h.restoreDecision)
theorem execSchedCtlTake {who} : Answer.canonical (execSchedCtlTake who s) := h.take.next
theorem scanDecide : s.scanDecide.memoryCanonical := h.ite (.ite (h.of_store (by rfl)) (h.of_store (by rfl)))

theorem doneReplay {who} : (s.doneReplay who).memoryCanonical :=
  h.ite (h.setSched.foldl fun _ _ h => h.closePlace).scanDecide

theorem snapshot : s.snapshot.memoryCanonical :=
  State.memoryCanonical.foldl (setStore (Store.wf_write s.store _ none h)) fun t _ h => setStore (Store.wf_write t.store _ none h)

theorem execSchedCtlDone {who} : Answer.canonical (execSchedCtlDone who s) := (h.snapshot.doneReplay.ite h).next
theorem execJrnPtrWrite {who v} : Answer.canonical (execJrnPtrWrite who v s) := (h.setSched.ite h).next

end State.memoryCanonical

namespace State.memoryCanonical

variable {s : State} (h : s.memoryCanonical)
include h

/-! ### Saves and restores (R385 to R387) -/

theorem execSwapSave {c} : Answer.canonical (execSwapSave c s) := h.startSave.next
theorem execSwapSaveHaltEnd {c} : Answer.canonical (execSwapSaveHaltEnd c s) := answer_ite h.next h.setCore.next

theorem unqueue {w} : (s.unqueue w).memoryCanonical := by
  unfold State.unqueue
  split
  · exact h.setWave.setCluster
  · exact h.unsend

theorem execSwapSaveComplete {c} : Answer.canonical (execSwapSaveComplete c s) :=
  answer_ite h.next (h.foldl fun _ _ h => h.unqueue).setCore.next

theorem execSwapRestore {c} : Answer.canonical (execSwapRestore c s) := h.askRestore.next
theorem retestWaits {c} : (s.retestWaits c).memoryCanonical := State.memoryCanonical.foldl (h.of_store (by rfl)) fun _ _ h => h.joinQueue

theorem resumeSeq {k} : (s.resumeSeq k).memoryCanonical := by
  unfold State.resumeSeq
  refine h.ite ?_
  dsimp only
  split
  · exact h.setSeq.wakeSeq
  · exact h.setSeq

theorem execSwapRestoreComplete {c} : Answer.canonical (execSwapRestoreComplete c s) :=
  answer_ite h.next (h.setCore.foldl fun _ _ h => h.endCrewWith).retestWaits.resumeSeq.cutCluster.next

/-! ### Damaged partitions and queue entries, the scrub of near memories (R66 to R69, R388 to R393) -/

theorem logPartition {c q u off} : (s.logPartition c q u off).memoryCanonical := h.logNear
theorem execSliceRowPoison {g t r} : Answer.canonical (execSliceRowPoison g t r s) := answer_ite h.next h.setThread.logPartition.next

theorem execPartitionStateError {c q kind i} : Answer.canonical (execPartitionStateError c q kind i s) :=
  (h.logPartition.foldl fun _ _ h => h.endCrewWith).next

theorem logFifo {b k off} : (s.logFifo b k off).memoryCanonical := h.ite h.logNear
theorem taskLost {l i c} : (s.taskLost l i c).memoryCanonical := h.endLaunch

theorem spilledLost {l i x b} : (s.spilledLost l i x b).memoryCanonical := by
  unfold State.spilledLost
  split
  · exact h.taskLost
  · exact h.endLaunch

theorem headraceLost {c i b} : (s.headraceLost c i b).memoryCanonical := by
  unfold State.headraceLost
  split
  · exact h
  · exact h.setCore.logFifo.taskLost

theorem stagedLost {k l i a b} : (s.stagedLost k l i a b).memoryCanonical := by
  unfold State.stagedLost
  split
  · exact h
  · exact h.setStaging.logFifo.spilledLost

theorem ringLost {l i b} : (s.ringLost l i b).memoryCanonical := by
  unfold State.ringLost
  split
  · exact h
  · extract_lets +onlyGivenNames v va s1 s2
    have h2 : s2.memoryCanonical := by
      dsimp only [s2]
      split
      · exact h.setLaunch
      · next heq => exact (h.setLaunch.ctlTranslate heq).logHome
    exact h2.spilledLost

theorem kickLost {c ch i a b} : (s.kickLost c ch i a b).memoryCanonical := by
  unfold State.kickLost
  dsimp only
  split
  · exact h
  · exact h.setChannel.logFifo.endLaunch

theorem logRow {b k n row off r} : (s.logRow b k n row off r).memoryCanonical := h.ite h.logNear

theorem cisternPoison {k n row i b} : (s.cisternPoison k n row i b).memoryCanonical := by
  unfold State.cisternPoison
  dsimp only
  split
  · exact h
  · exact h.setCistern.logRow

theorem cisternLost {k n row} : (s.cisternLost k n row).memoryCanonical := by
  unfold State.cisternLost
  dsimp only
  split
  · exact h
  · exact h.logRow.taskLost

theorem devLost {i} : (s.devLost i).memoryCanonical := by
  unfold State.devLost
  split
  · exact h
  · exact h.setSched.logFar.newLaunch.fst.setLaunch.fallDue

theorem journalError {i} : (s.journalError i).memoryCanonical := h.logFar

theorem execQueueEntryError {kind c i} : Answer.canonical (execQueueEntryError kind c i s) := by
  unfold Machine.execQueueEntryError
  split
  · exact h.headraceLost.next
  · exact h.stagedLost.next
  · exact h.ringLost.next
  · exact h.kickLost.next
  · exact h.cisternPoison.next
  · exact h.cisternLost.next
  · exact h.devLost.next
  · exact h.stagedLost.next
  · exact h.ringLost.next
  · exact h.kickLost.next
  · exact h.journalError.next
  · exact h.next

theorem scrubBank31 {k off} : (s.scrubBank31 k off).memoryCanonical := by
  unfold State.scrubBank31
  refine .ite h.headraceLost (.ite h.kickLost ?_)
  dsimp only
  split
  · exact h
  · exact h.stagedLost

theorem scrubFifo {k b off} : (s.scrubFifo k b off).memoryCanonical := by
  unfold State.scrubFifo
  refine .ite h.scrubBank31 ?_
  split
  · exact h
  · exact h.cisternPoison

theorem execNearScrubStep {k u p off e} : Answer.canonical (execNearScrubStep k u p off e s) := by
  unfold Machine.execNearScrubStep
  refine answer_ite h.next (answer_ite h.logNear.next ?_)
  split
  · exact h.dropLine.logNear.next
  · exact h.dropLine.logNear.next
  · exact h.dropLine.logNear.next
  · exact h.logNear.scrubFifo.next
  · exact h.scrubLoss.logNear.next

/-! ### Power and clocks (R395 to R403) -/

theorem setPower {v} : ({ s with power := v } : State).memoryCanonical := h
theorem execRailSwitch {k v} : Answer.canonical (execRailSwitch k v s) := (h.railGo.ite h).next

theorem execRailSwitchDone {k} : Answer.canonical (execRailSwitchDone k s) := by
  unfold Machine.execRailSwitchDone
  refine answer_ite h.next ?_
  dsimp only
  split
  · exact h.setCluster.retime.cutCluster.next
  · exact h.setCluster.retime.railGo.cutCluster.next

theorem retimeAll : s.retimeAll.memoryCanonical := h.foldl fun _ _ h => h.retime
theorem assertSource {i} : (s.assertSource i).memoryCanonical := h.ite (.ite h.setPower.fireMsix h.setPower.fireMsix.retimeAll)
theorem clearSource {i} : (s.clearSource i).memoryCanonical := h.ite h.setPower
theorem updateCritical : s.updateCritical.memoryCanonical := .ite h.assertSource h.clearSource

theorem execAlarmSourceAssert {i} : Answer.canonical (execAlarmSourceAssert i s) := by
  unfold Machine.execAlarmSourceAssert
  split
  · exact h.assertSource.next
  · exact h.assertSource.next
  · exact (h.assertSource.ite h).next
  · exact (h.assertSource.ite h).next
  · exact h.next

theorem execAlarmSourceClear {i} : Answer.canonical (execAlarmSourceClear i s) := by
  unfold Machine.execAlarmSourceClear
  split
  · exact h.clearSource.next
  · exact h.clearSource.next
  · exact (h.ite h.clearSource).next
  · exact (h.ite h.clearSource).next
  · exact h.next

theorem execThrottleRelease : Answer.canonical (execThrottleRelease s) := answer_ite h.next h.setPower.retimeAll.next

omit h in
theorem killLevels {n} {s : State} (h : s.memoryCanonical) : (s.killLevels n).memoryCanonical := by
  induction n generalizing s with
  | zero => exact h
  | succ n ih => exact .ite h.setPower (.ite (ih h.setPower) (h.setPower.foldl fun _ _ h => h.endLaunch).setPower)

theorem execKillSequence : Answer.canonical (execKillSequence s) := answer_ite h.next h.killLevels.next
theorem execKillLevelStep : Answer.canonical (execKillLevelStep s) := answer_ite h.next h.killLevels.next

theorem execDroopStretch {k} : Answer.canonical (execDroopStretch k s) :=
  .next (.ite h.setCluster.retime.setPower.assertSource h.setCluster.retime.setPower)

theorem execDroopEnd {k} : Answer.canonical (execDroopEnd k s) := h.setCluster.retime.next
theorem execBrownoutStop {k} : Answer.canonical (execBrownoutStop k s) := h.setCluster.retime.next
theorem execBrownoutResume {k} : Answer.canonical (execBrownoutResume k s) := h.setCluster.retime.cutCluster.next

theorem loseCluster {k} : (s.loseCluster k).memoryCanonical :=
  (State.memoryCanonical.foldl (setStore (Store.wf_zero _ _ _ (Store.wf_zero _ _ _ (Store.wf_zero s.store _ _ h)))) fun t _ h =>
    (setStore (Store.wf_zero t.store _ _ h)).setCore).setCluster.retime

theorem execRetentionLoss {k} : Answer.canonical (execRetentionLoss k s) :=
  ((h.foldl fun _ _ h => h.endCrewWith).foldl fun _ _ h => h.endLaunch).loseCluster.next

theorem execClusterRecovery {k} : Answer.canonical (execClusterRecovery k s) := answer_ite h.next h.setCluster.retime.setDev.next
theorem execFaultNPulseEnd : Answer.canonical (execFaultNPulseEnd s) := h.setDev.next
theorem countEnergy {k} : (s.countEnergy k).memoryCanonical := h.setCluster.setPower
theorem execEnergyUpdate : Answer.canonical (execEnergyUpdate s) := (h.foldl fun _ _ h => h.countEnergy).setPower.bumpFree.next

/-! ### Vaults, DRAM and the L2's own errors (R78 to R87) -/

theorem setVault {v x} : (s.setVault v x).memoryCanonical := h
theorem execVaultTempSample {v z} : Answer.canonical (execVaultTempSample v z s) := answer_ite h.next h.setVault.updateCritical.next
theorem execVaultRefresh {v} : Answer.canonical (execVaultRefresh v s) := (h.setVault.ite h).next
theorem execDramTempPoll {z} : Answer.canonical (execDramTempPoll z s) := (h.of_store (by rfl)).next
theorem execPerBankRefresh {c} : Answer.canonical (execPerBankRefresh c s) := (h.of_store (by rfl)).next
theorem loseGranule {a} : (s.loseGranule a).memoryCanonical := h.spoil

theorem vaultError {v off e} : (s.vaultError v off e).memoryCanonical := (h.setVault.ite (h.ite h.loseGranule)).logFar
theorem setDramCe {x} : ({ s with mem := { s.mem with dramCe := x } } : State).memoryCanonical := h
theorem dramError {v off e} : (s.dramError v off e).memoryCanonical := (h.setDramCe.ite (h.ite h.loseGranule)).logFar
theorem countL2 {k} : (s.countL2 k).memoryCanonical := h
theorem frameError {k a e} : (s.frameError k a e).memoryCanonical := h.ite (h.countL2.ite h.spoil).logFar

theorem loseLine {t} : (s.loseLine t).memoryCanonical := by
  unfold State.loseLine
  extract_lets +onlyGivenNames s1 m
  have h1 : s1.memoryCanonical := h.of_store (evictTag_store _ _ _)
  have hm : m.wf = true := Store.wf_putCells _ _ h1
  split
  · exact hm
  · exact h1

theorem tagError {k a e} : (s.tagError k a e).memoryCanonical :=
  (h.countL2.ite (State.memoryCanonical.ite (h.foldl fun _ _ h => h.loseLine) h.spoil)).logFar

theorem execVaultScrubStep {v off e} : Answer.canonical (execVaultScrubStep v off e s) :=
  answer_ite h.next (answer_ite (h.vaultError.ite h).next (answer_ite (h.frameError.ite h).next
    (answer_ite (h.tagError.ite h).next (answer_ite (h.dramError.ite h).next h.next))))

theorem execClTempRefresh {k z} : Answer.canonical (execClTempRefresh k z s) := (h.setCluster.updateCritical.ite h).next

/-! ### Holds and scan tests (R439 to R442) -/

theorem execHoldSet {c} : Answer.canonical (execHoldSet c s) := h.setPower.next
theorem execCoreHoldClear {c} : Answer.canonical (execCoreHoldClear c s) := h.clearHold.next
theorem scanGo {c p q} : (s.scanGo c p q).memoryCanonical := h.ite (.ite h.setPower h.setPower)
theorem execScanTestStart {c p q} : Answer.canonical (execScanTestStart c p q s) := h.scanGo.next
theorem scanWipe {c} : (s.scanWipe c).memoryCanonical := (setStore (Store.wf_zero s.store _ _ h)).setCore
theorem execScanTestComplete : Answer.canonical (execScanTestComplete s) := answer_ite h.next h.scanWipe.setPower.scanDecide.next

end State.memoryCanonical

namespace State.memoryCanonical

variable {s : State} (h : s.memoryCanonical)
include h

/-! ### Writes of registers and windows (R7, R31, R42, R144, R403 to R405, R408, R412, R433 to R444) -/

theorem writeCslr {k v} : (s.writeCslr k v).memoryCanonical := h.setCluster
theorem writeSplitMiB {v} : (s.writeSplitMiB v).memoryCanonical := h.ite h.setDev
theorem mint {a b} : (s.mint a b).memoryCanonical := by
  unfold State.mint
  dsimp only
  split
  · split
    · exact setStore h
    · exact h
  · exact setStore h

theorem writeRwin {r v} : (s.writeRwin r v).memoryCanonical := h.setDev
theorem writeMbox {v} : (s.writeMbox v).memoryCanonical := h.ite (.ite h.setDev (.ite h.setDev h.setDev))
theorem writeTlbInv {v} : (s.writeTlbInv v).memoryCanonical := h.ite (.ite h.tlbInv h.setDev)
theorem writeSchedCtl {w v} : (s.writeSchedCtl w v).memoryCanonical := .ite (h.take.ite h).doneReplay (h.take.ite h)

theorem writeAssist {v} : (s.writeAssist v).memoryCanonical :=
  h.ite (.ite h.assistFields (.ite h.commandCrews.assistStarted (.ite h.assistStarted h.assistWrite.fst.assistStarted)))

theorem writeScan {v} : (s.writeScan v).memoryCanonical := .ite h.scanGo h.setPower
theorem writeHold {b v} : (s.writeHold b v).memoryCanonical := h.foldl fun _ _ h => .ite h.clearHold h
theorem writeSwap {c v} : (s.writeSwap c v).memoryCanonical := .ite (.ite h.askRestore h.startSave) h.setCore
theorem writeRail {k v} : (s.writeRail k v).memoryCanonical := .ite h.railGo h.setCluster
theorem writePoolCmd {k v} : (s.writePoolCmd k v).memoryCanonical := .ite h.poolGo h.setCluster

theorem hostReg {r v} : (s.hostReg r v).memoryCanonical := by
  unfold State.hostReg
  split
  · exact h.writeCqBase
  · exact h.hostDoorbell
  · exact h.setHostQ
  · exact h.setHostQ
  · exact h.setDev
  · exact h.writeMbox
  · exact h

theorem mgmtReg {r v} : (s.mgmtReg r v).memoryCanonical := by
  unfold State.mgmtReg
  split
  · exact h.hostReg
  · exact h.ringDoorbell
  · exact h.hostReg
  · exact h.hostReg
  · exact h.ite h.setDev
  · exact h.ite h.setDev
  · exact h.setPower
  · exact h.setPower
  · exact h.writeCslr
  · exact h.setCluster
  · exact h.writePoolCmd
  · exact h.setCluster
  · exact h.setCluster
  · exact h.of_store rfl
  · exact h.setDev
  · exact h.writeTlbInv
  · exact h.writeSplitMiB
  · exact h.mint
  · exact h.writeRwin
  · exact h.setDev
  · exact h.seqStatWrite
  · exact h.seqStatWrite
  · exact h

theorem schedReg {w r v} : (s.schedReg w r v).memoryCanonical := by
  unfold State.schedReg
  split
  · exact h.setSched.ite h
  · exact h.setVault.ite h
  · exact h.writeSplit
  · exact h.writeSwap
  · exact h

theorem cpReg {w r v} : (s.cpReg w r v).memoryCanonical := by
  unfold State.cpReg
  split
  · exact h.writeSchedCtl
  · exact h.writeAssist
  · exact h.setPower
  · exact h.setSched
  · exact h.writeHold
  · exact h.writeHold
  · exact h.writeScan
  · exact h.setPower
  · exact h.writeRail
  · exact h

theorem writeReg {w r v} : (s.writeReg w r v).memoryCanonical := by
  unfold State.writeReg
  split
  · exact h.schedReg.cpReg
  · exact h.schedReg.cpReg
  · exact h.mgmtReg.cpReg
  · exact h.hostReg

theorem windowStore {w off v n} : (s.windowStore w off v n).memoryCanonical := setStore (Store.wf_write s.store _ none h)
theorem offWindow {w off} : (s.offWindow w off).memoryCanonical := h.setDev.ite h

theorem execRegisterWrite {w off v} : Answer.canonical (execRegisterWrite w off v s) := by
  unfold Machine.execRegisterWrite
  refine answer_ite h.next ?_
  split
  · exact h.writeReg.next
  · exact (h.windowStore.ite h.offWindow).next

theorem execWindowLowHalfWrite {w off v} : Answer.canonical (execWindowLowHalfWrite w off v s) := by
  unfold Machine.execWindowLowHalfWrite
  refine answer_ite h.next ?_
  split
  · exact (h.windowStore.ite h.offWindow).next
  · exact answer_ite h.writeReg.next (answer_ite h.next (answer_ite h.writeReg.next h.setDev.next))

theorem execWindowHighHalfWrite {w off v} : Answer.canonical (execWindowHighHalfWrite w off v s) := by
  unfold Machine.execWindowHighHalfWrite
  refine answer_ite h.next ?_
  split
  · exact (h.windowStore.ite h.offWindow).next
  · exact h.setDev.writeReg.next

theorem latchHigh {w off r} : (s.latchHigh w off r).memoryCanonical := h.setDev

theorem windowRead {w off n} : firstCanonical (s.windowRead w off n) := by
  unfold State.windowRead
  refine .ite h ?_
  split
  · exact h.offWindow
  · exact .ite h.latchHigh (.ite h h)

theorem execWindowLowHalfRead {w off} : Answer.canonical (execWindowLowHalfRead w off s) := answer_ite h.next h.windowRead.fst.setDev.next
theorem execEnergyLoRead {w i} : Answer.canonical (execEnergyLoRead w i s) := h.execWindowLowHalfRead
theorem execVaultSplitWrite {v} : Answer.canonical (execVaultSplitWrite v s) := h.writeSplitMiB.next
theorem execCslrWrite {k v} : Answer.canonical (execCslrWrite k v s) := (h.writeCslr.ite h).next
theorem execPoolLimitWrite {l n v} : Answer.canonical (execPoolLimitWrite l n v s) := (h.setPoolLimit.ite h).next
theorem execCapMintSet {a} : Answer.canonical (execCapMintSet a s) := h.mint.next
theorem execCapMintClear {a} : Answer.canonical (execCapMintClear a s) := h.mint.next
theorem execRwinBaseWrite {r v} : Answer.canonical (execRwinBaseWrite r v s) := (h.writeRwin.ite h).next

/-- One byte of management RAM written, as `therm` counts in it (R443). -/
theorem putByte {a x} : (s.setStore (s.store.write (wholeCells a (bytesOf x 1)) none)).memoryCanonical :=
  setStore (Store.wf_write s.store _ none h)

theorem therm {k} : (s.therm k).memoryCanonical :=
  .ite (h.ite h.setCluster).putByte (.ite h.putByte (.ite h.putByte (h.ite h.setCluster).putByte))

theorem execTickInterrupt : Answer.canonical (execTickInterrupt s) :=
  answer_ite (h.setPower.foldl fun _ _ h => h.therm).next (h.setPower.ite h).next

theorem execTickCmpWrite {v} : Answer.canonical (execTickCmpWrite v s) := h.setPower.next

/-! ### The host and the peers (R121 to R125, R405 to R408) -/

theorem aerReport {r} : (s.aerReport r).memoryCanonical := h.setDev

theorem execHostWrite {a bs} : Answer.canonical (execHostWrite a bs s) :=
  answer_ite h.aerReport.next (answer_ite h.next h.writeAtHome.setDev.next)

theorem touchLines {a n} : (s.touchLines a n).memoryCanonical := h.foldMem fun _ _ => l2Touch_store _ _ _ _
theorem hostAnswer {bs b} : (s.hostAnswer bs b).memoryCanonical := h.setDev

theorem execHostRead {a n} : Answer.canonical (execHostRead a n s) :=
  answer_ite h.hostAnswer.aerReport.next (.next (.ite h.touchLines.hostAnswer.aerReport h.touchLines.hostAnswer))

theorem execCpFence {w} : Answer.canonical (execCpFence w s) := (h.setDev.ite h.setDev).next
theorem homeRmw {a n f} : (s.homeRmw a n f).memoryCanonical := .ite h.touchLines h.writeAtHome
theorem owePeer {g} : (s.owePeer g).memoryCanonical := h.setDev

theorem execPeerAccess {op a n v} : Answer.canonical (execPeerAccess op a n v s) := by
  unfold Machine.execPeerAccess
  refine answer_ite h.next ?_
  split
  · exact h.touchLines.next
  · exact h.writeAtHome.owePeer.next
  · exact (h.homeRmw.ite h.touchLines.markConflicts).owePeer.next
  · exact (h.homeRmw.owePeer.ite h).next

theorem execReductionMergedWrite {r off vs} : Answer.canonical (execReductionMergedWrite r off vs s) :=
  answer_ite h.next (h.homeRmw.foldl fun _ _ h => h.owePeer).next

theorem logPeer {d a} : (s.logPeer d a).memoryCanonical := h.logFar
theorem settleWave {d w} : (s.settleWave d w).memoryCanonical := h.setWave.foldl fun _ _ h => h.logPeer
theorem settleAccount {d a} : (s.settleAccount d a).memoryCanonical := h.setAccount.foldl fun _ _ h => h.logPeer

theorem execPeerUnreachable {n} : Answer.canonical (execPeerUnreachable n s) := by
  unfold Machine.execPeerUnreachable
  extract_lets +onlyGivenNames d port g t
  have ht : t.memoryCanonical := .ite h.setDev h
  refine answer_ite ht.next ?_
  exact (((ht.setDev.foldl fun _ _ h => h.settleWave).setDev.foldl fun _ _ h => h.logPeer).foldl fun _ _ h => h.settleAccount).next

theorem execPeerReachable {d p} : Answer.canonical (execPeerReachable d p s) := h.setDev.next

/-! ### Starts and the mailbox (R409 to R414) -/

theorem logVaultsOut : s.logVaultsOut.memoryCanonical := h.foldl fun _ _ h => h.logFar

omit h in
theorem coldStart : s.coldStart.memoryCanonical := by
  have hr : State.reset.memoryCanonical := State.reset_memoryCanonical
  exact (hr.of_store (by rfl)).logVaultsOut

theorem warmStart : s.warmStart.memoryCanonical := Store.wf_zero s.store (2 ^ 52) (2 ^ 52) h
omit h in
theorem execColdStart : Answer.canonical (execColdStart s) := coldStart.next
theorem execMgmtWatchdogWarmStart : Answer.canonical (execMgmtWatchdogWarmStart s) := h.warmStart.next
theorem mboxStatus {n} : (s.mboxStatus n).memoryCanonical := h.setDev

theorem execAttest : Answer.canonical (execAttest s) :=
  answer_ite h.next (answer_ite (h.ctlTouch.ite h).mboxStatus.next (h.ctlTouch.ite h).ctlWrite.mboxStatus.next)

theorem touchImage {a} : (s.touchImage a).memoryCanonical := h.ite (.ite h.ctlTouch h.ctlTouch.ctlTouch)

theorem execLoadTranslator : Answer.canonical (execLoadTranslator s) := by
  unfold Machine.execLoadTranslator
  refine answer_ite h.next ?_
  dsimp only
  split
  · exact h.touchImage.mboxStatus.next
  · exact h.touchImage.setDev.mboxStatus.next

theorem execEnroll : Answer.canonical (execEnroll s) := by
  unfold Machine.execEnroll
  refine answer_ite h.next ?_
  dsimp only
  split
  · exact h.touchImage.mboxStatus.next
  · exact answer_ite h.touchImage.mboxStatus.next (answer_ite h.touchImage.setDev.mboxStatus.next
      (answer_ite h.touchImage.mboxStatus.next h.touchImage.setDev.mboxStatus.next))

theorem execWarmStart : Answer.canonical (execWarmStart s) := (h.warmStart.ite h).next

theorem execLoadFirmware : Answer.canonical (execLoadFirmware s) := by
  unfold Machine.execLoadFirmware
  refine answer_ite h.next ?_
  dsimp only
  split
  · exact h.touchImage.mboxStatus.next
  · exact coldStart.setDev.next

theorem execMboxCommandComplete : Answer.canonical (execMboxCommandComplete s) := (h.setDev.ite h).next

end State.memoryCanonical

/-! ### Every instruction and every step of the device -/

/-- An instruction keeps memory canonical: the words that only compute are one of the shared word forms of R254 to R272, and the other
rows have a lemma of their own. -/
theorem State.memoryCanonical.exec {s : State} (h : s.memoryCanonical) {i : Instr} : Answer.canonical (exec i s) := by
  cases i with
  | saddReg | saddImm | ssubReg | ssubImm | smulReg | smulImm | smulhReg | smulhImm | smulhuReg | smulhuImm | sdivReg | sdivImm |
    sdivuReg | sdivuImm | sremReg | sremImm | sremuReg | sremuImm | sandReg | sandImm | sorReg | sorImm | sxorReg | sxorImm |
    sshlReg | sshlImm | sshrReg | sshrImm | sshaReg | sshaImm | sminReg | sminImm | sminuReg | sminuImm | smaxReg | smaxImm |
    smaxuReg | smaxuImm | scmpReg | scmpImm | smovReg | smovImm | spopc | sclz =>
    unfold Machine.exec
    exact h.scalarWord
  | addVV | subVV | mulVV | madVV | addSatIVV | addSatBVV | subSatIVV | subSatBVV | mulhIVV | mulhBVV | divIVV | divBVV | remIVV |
    remBVV | minIVV | minBVV | maxIVV | maxBVV | absdI | absdB | faddVV | fsubVV | fmulVV | fmaVV | fminVV | fmaxVV | fdivVV |
    andVV | orVV | xorVV | andnVV | shlVV | shrVV | shaVV | rotVV =>
    unfold Machine.exec
    exact h.typedVV
  | addVS | subVS | mulVS | madVS | addSatIVS | addSatBVS | subSatIVS | subSatBVS | mulhIVS | mulhBVS | divIVS | divBVS | remIVS |
    remBVS | minIVS | minBVS | maxIVS | maxBVS | faddVS | fsubVS | fmulVS | fmaVS | fminVS | fmaxVS | fdivVS | andVS | orVS |
    xorVS | andnVS | shlVS | shrVS | shaVS | rotVS =>
    unfold Machine.exec
    exact h.typedVS
  | addVI | subVI | mulVI | madVI | addSatIVI | addSatBVI | subSatIVI | subSatBVI | mulhIVI | mulhBVI | divIVI | divBVI | remIVI |
    remBVI | minIVI | minBVI | maxIVI | maxBVI | andVI | orVI | xorVI | andnVI | shlVI | shrVI | shaVI | rotVI =>
    unfold Machine.exec
    exact h.typedVI
  | abs | neg | frcpVV | frsqVV | fex2VV | flg2VV | fsinVV | fcosVV | fabsVV | fnegVV | frintVV | fclassVV | movVV | notB | popc |
    clz | brev =>
    unfold Machine.exec
    exact h.typedU
  | frcpVS | frsqVS | fex2VS | flg2VS | fsinVS | fcosVS | fabsVS | fnegVS | frintVS | fclassVS | movVS =>
    unfold Machine.exec
    exact h.typedUS
  | movVI | bfe | bfi | zip | unzip | cvt | cvtfi | cvtif | cvtef | cvte8 | pton =>
    unfold Machine.exec
    exact h.shortWord
  | pand | por | pxor | pandn | pnot | pset | pbit | cmpVV | cmpVS | cmpVI | fcmpVV | fcmpVS =>
    unfold Machine.exec
    exact h.prdWord
  | shfl | shflx | bcast | reduce | scan =>
    unfold Machine.exec
    exact h.longWord
  | sget => exact h.execSget
  | vote => exact h.execVote
  | ballot => exact h.execBallot
  | pfirst => exact h.execPfirst
  | pcount => exact h.execPcount
  | next => exact h.execNext
  | nextu => exact h.execNextu
  | exit o => exact h.execExit (o := o)
  | meet => exact h.execMeet
  | jmp => exact h.execJmp
  | jmz => exact h.execJmz
  | jmnz => exact h.execJmnz
  | lcset => exact h.execLcset
  | loop => exact h.execLoop
  | nop => exact h.execNop
  | ld => exact h.execLd
  | st => exact h.execSt
  | ldt => exact h.execLdt
  | pref => exact h.execPref
  | spill => exact h.execSpill
  | fill => exact h.execFill
  | ldc => exact h.execLdc
  | stc => exact h.execStc
  | adrn => exact h.execAdrn
  | atom => exact h.execAtom
  | red => exact h.execRed
  | cas => exact h.execCas
  | fence => exact h.execFence
  | fenceS => exact h.execFenceS
  | iinv => exact h.execIinv
  | cder => exact h.execCder
  | cres => exact h.execCres
  | cseal => exact h.execCseal
  | cunseal => exact h.execCunseal
  | cmov => exact h.execCmov
  | cget => exact h.execCget
  | cgetn => exact h.execCgetn
  | ctest => exact h.execCtest
  | binit => exact h.execBinit
  | barr => exact h.execBarr
  | bexp => exact h.execBexp
  | bwait => exact h.execBwait
  | btst => exact h.execBtst
  | flk => exact h.execFlk
  | flq => exact h.execFlq
  | flc => exact h.execFlc
  | spawn => exact h.execSpawn
  | succ => exact h.execSucc
  | cancel => exact h.execCancel
  | launch => exact h.execLaunch
  | palloc => exact h.execPalloc
  | pallocT => exact h.execPallocT
  | pfree => exact h.execPfree
  | cput => exact h.execCput
  | cflush => exact h.execCflush
  | rcast => exact h.execRcast
  | ocap => exact h.execOcap
  | cbfk => exact h.execCbfk
  | cbstep => exact h.execCbstep
  | mresv => exact h.execMresv
  | mrels => exact h.execMrels
  | mldb => exact h.execMldb
  | mma => exact h.execMma
  | mmaz => exact h.execMmaz
  | mmap => exact h.execMmap
  | mmazp => exact h.execMmazp
  | lnset => exact h.execLnset
  | lncoef => exact h.execLncoef
  | lnstep o => exact h.execLnstep (o := o)
  | ctake => exact h.execCtake
  | ctakeArm => exact h.execCtakeArm
  | cgive => exact h.execCgive
  | idemb o => exact h.execIdemb (o := o)
  | ideme o => exact h.execIdeme (o := o)
  | srdScalar => exact h.execSrdScalar
  | srdSlice => exact h.execSrdSlice
  | swr => exact h.execSwr
  | trap => exact h.execTrap
  | brk => exact h.execBrk
  | ecall => exact h.execEcall
  | tretRetry o => exact h.execTretRetry (o := o)
  | tretSkip o => exact h.execTretSkip (o := o)
  | tretKilltask o => exact h.execTretKilltask (o := o)
  | tretKillcrew o => exact h.execTretKillcrew (o := o)
  | rquota => exact h.execRquota
  | lit => exact h.execLit
  | pairedWord => exact h.execPairedWord
  | longResultWrite => exact h.execLongResultWrite
  | writePerformAtHome => exact h.execWritePerformAtHome
  | l1LineFill => exact h.execL1LineFill
  | leaseExpiry => exact h.execLeaseExpiry
  | tileFillComplete => exact h.execTileFillComplete
  | pageWalkComplete => exact h.execPageWalkComplete
  | specFenceComplete => exact h.execSpecFenceComplete
  | specConflictRollback => exact h.execSpecConflictRollback
  | iinvComplete => exact h.execIinvComplete
  | waveFormation => exact h.execWaveFormation
  | bucketAgeMax => exact h.execBucketAgeMax
  | segmentWatchdogExpiry => exact h.execSegmentWatchdogExpiry
  | sluiceReleaseStep => exact h.execSluiceReleaseStep
  | pendingWaveExchange => exact h.execPendingWaveExchange
  | waveParkExchange => exact h.execWaveParkExchange
  | flumeHeadForward => exact h.execFlumeHeadForward
  | flumeChainStart => exact h.execFlumeChainStart
  | flumeRecordProcess => exact h.execFlumeRecordProcess
  | flumeCancelWalk => exact h.execFlumeCancelWalk
  | gridCrewArrivalSend => exact h.execGridCrewArrivalSend
  | gridPortArrival => exact h.execGridPortArrival
  | gridReleaseDelivery => exact h.execGridReleaseDelivery
  | roeRcastService => exact h.execRoeRcastService
  | roeOcapService => exact h.execRoeOcapService
  | cbeCbfkService => exact h.execCbeCbfkService
  | cbeCbstepService => exact h.execCbeCbstepService
  | successorReleasePlace => exact h.execSuccessorReleasePlace
  | taskStart => exact h.execTaskStart
  | cisternFlushTimeout => exact h.execCisternFlushTimeout
  | mldbComplete => exact h.execMldbComplete
  | mmaComplete => exact h.execMmaComplete
  | ctakeCopyComplete => exact h.execCtakeCopyComplete
  | doorbell => exact h.execDoorbell
  | cqBaseWrite => exact h.execCqBaseWrite
  | crHeadWrite => exact h.execCrHeadWrite
  | launchRecordTake => exact h.execLaunchRecordTake
  | waitEventPoll => exact h.execWaitEventPoll
  | placementRetry => exact h.execPlacementRetry
  | launchPlacement => exact h.execLaunchPlacement
  | crewStart => exact h.execCrewStart
  | crewEnd => exact h.execCrewEnd
  | launchCompletion => exact h.execLaunchCompletion
  | completionRecordWrite => exact h.execCompletionRecordWrite
  | spillStagingDrain => exact h.execSpillStagingDrain
  | spillRefill => exact h.execSpillRefill
  | launchDeadline => exact h.execLaunchDeadline
  | primaryFailure => exact h.execPrimaryFailure
  | schedCtlTake => exact h.execSchedCtlTake
  | schedCtlDone => exact h.execSchedCtlDone
  | schedAssistWrite => exact h.execSchedAssistWrite
  | schedAssistFinish => exact h.execSchedAssistFinish
  | jrnPtrWrite => exact h.execJrnPtrWrite
  | swapSave => exact h.execSwapSave
  | swapSaveHaltEnd => exact h.execSwapSaveHaltEnd
  | swapSaveComplete => exact h.execSwapSaveComplete
  | swapRestore => exact h.execSwapRestore
  | swapRestoreComplete => exact h.execSwapRestoreComplete
  | partitionStateError => exact h.execPartitionStateError
  | sliceRowPoison => exact h.execSliceRowPoison
  | queueEntryError => exact h.execQueueEntryError
  | nearScrubStep => exact h.execNearScrubStep
  | vaultScrubStep => exact h.execVaultScrubStep
  | vaultTempSample => exact h.execVaultTempSample
  | vaultRefresh => exact h.execVaultRefresh
  | dramTempPoll => exact h.execDramTempPoll
  | capMintSet => exact h.execCapMintSet
  | capMintClear => exact h.execCapMintClear
  | tlbInvAll => exact h.execTlbInvAll
  | tlbInvContext => exact h.execTlbInvContext
  | tlbInvPage => exact h.execTlbInvPage
  | tlbInvComplete => exact h.execTlbInvComplete
  | vaultSplitWrite => exact h.execVaultSplitWrite
  | coreSramWrite => exact h.execCoreSramWrite
  | poolModeChange => exact h.execPoolModeChange
  | poolDrainComplete => exact h.execPoolDrainComplete
  | cslrWrite => exact h.execCslrWrite
  | poolLimitWrite => exact h.execPoolLimitWrite
  | railSwitch => exact h.execRailSwitch
  | railSwitchDone => exact h.execRailSwitchDone
  | alarmSourceAssert => exact h.execAlarmSourceAssert
  | throttleRelease => exact h.execThrottleRelease
  | killSequence => exact h.execKillSequence
  | killLevelStep => exact h.execKillLevelStep
  | droopStretch => exact h.execDroopStretch
  | brownoutStop => exact h.execBrownoutStop
  | brownoutResume => exact h.execBrownoutResume
  | retentionLoss => exact h.execRetentionLoss
  | clusterRecovery => exact h.execClusterRecovery
  | energyUpdate => exact h.execEnergyUpdate
  | energyLoRead => exact h.execEnergyLoRead
  | windowLowHalfWrite => exact h.execWindowLowHalfWrite
  | windowHighHalfWrite => exact h.execWindowHighHalfWrite
  | windowLowHalfRead => exact h.execWindowLowHalfRead
  | hostWrite => exact h.execHostWrite
  | hostRead => exact h.execHostRead
  | peerAccess => exact h.execPeerAccess
  | peerWriteAck => exact h.execPeerWriteAck
  | reductionMergedWrite => exact h.execReductionMergedWrite
  | peerUnreachable => exact h.execPeerUnreachable
  | rwinBaseWrite => exact h.execRwinBaseWrite
  | cpFence => exact h.execCpFence
  | attest => exact h.execAttest
  | loadTranslator => exact h.execLoadTranslator
  | enroll => exact h.execEnroll
  | warmStart => exact h.execWarmStart
  | loadFirmware => exact h.execLoadFirmware
  | mboxCommandComplete => exact h.execMboxCommandComplete
  | coldStart => exact State.memoryCanonical.execColdStart
  | mgmtWatchdogWarmStart => exact h.execMgmtWatchdogWarmStart
  | holdSet => exact h.execHoldSet
  | coreHoldClear => exact h.execCoreHoldClear
  | scanTestStart => exact h.execScanTestStart
  | scanTestComplete => exact h.execScanTestComplete
  | tickInterrupt => exact h.execTickInterrupt
  | tickCmpWrite => exact h.execTickCmpWrite
  | registerWrite => exact h.execRegisterWrite
  | alarmSourceClear => exact h.execAlarmSourceClear
  | releaseWaitEnd => exact h.execReleaseWaitEnd
  | mmaAccept => exact h.execMmaAccept
  | peerReachable => exact h.execPeerReachable
  | perBankRefresh => exact h.execPerBankRefresh
  | droopEnd => exact h.execDroopEnd
  | clTempRefresh => exact h.execClTempRefresh
  | schedAssistComplete => exact h.execSchedAssistComplete
  | cancelDropComplete => exact h.execCancelDropComplete
  | faultNPulseEnd => exact h.execFaultNPulseEnd

namespace State.memoryCanonical

variable {s : State} (h : s.memoryCanonical)
include h

/-! ### The issue of an agent and one step (R234, R235, R364, R366, R367, R376) -/

theorem ordered {w i} : (s.ordered w i).memoryCanonical := .ite (h.orderRegs.ite h).releaseRegs (h.orderRegs.ite h)

theorem activate {w t} (e : s.activate w = some t) : t.memoryCanonical := by
  unfold State.activate at e
  split at e
  · cases e
    exact h
  · dsimp only at e
    split at e
    · cases e
    · split at e
      · cases e
        exact h.setWave
      · cases e

theorem waveTurn {w t} (e : s.waveTurn w = some t) : t.memoryCanonical := by
  unfold State.waveTurn at e
  split at e
  · exact h.activate e
  · cases e

theorem rest : s.rest.memoryCanonical := h

theorem issueWave {w} : firstCanonical (s.issueWave w) := by
  unfold State.issueWave
  split
  · exact h.rest
  · next s1 e1 =>
    have h1 := h.waveTurn e1
    split
    · exact h1.ordered
    · split
      · next e2 => exact (h1.fetchWave.of_eq e2).trapWord
      · next e2 => exact State.memoryCanonical.ite (h1.fetchWave.of_eq e2).wdTrap (h1.fetchWave.of_eq e2).fetchTrap
      · next e2 =>
        split
        · exact (h1.fetchWave.of_eq e2).plainTrap
        · exact .ite (h1.fetchWave.of_eq e2).wdTrap (h1.fetchWave.of_eq e2).ordered

theorem issueSeq {k} : firstCanonical (s.issueSeq k) := by
  unfold State.issueSeq
  refine .ite h.rest ?_
  split
  · next e => exact (h.fetchAt.of_eq e).seqFault
  · next e => exact (h.fetchAt.of_eq e).seqFault
  · next e =>
    split
    · exact (h.fetchAt.of_eq e).seqFault
    · exact h.fetchAt.of_eq e

theorem issue : firstCanonical s.issue := by
  unfold State.issue
  split
  · exact h
  · exact h.issueWave
  · exact h.issueSeq

theorem setCur {c} : ({ s with cur := c } : State).memoryCanonical := h
theorem setDt {n} : ({ s with dt := n } : State).memoryCanonical := h
theorem setAgenda {l} : ({ s with agenda := l } : State).memoryCanonical := h

theorem fallDeadlines : s.fallDeadlines.memoryCanonical := h.foldl fun _ _ h => h.fallDeadline
theorem tick {n} : (s.tick n).memoryCanonical := h.setDt.openReads.arriveDue.reportTiles.fallDeadlines
theorem runEvent {i} : Answer.canonical (s.runEvent i) := answer_ite h.exec h.next

omit h in
theorem runIssued {r : State × Option Instr} (h : firstCanonical r) : Answer.canonical (runIssued r) := by
  unfold Machine.runIssued
  split
  · exact next h
  · exact exec h

theorem runChoice {c} : Answer.canonical (s.runChoice c) := by
  unfold State.runChoice
  split
  · exact h.tick.next
  · exact runIssued h.setCur.issue
  · exact runIssued h.setCur.issue
  · exact h.runEvent
  · refine next ?_
    split
    · next e => exact h.setCur.issue.of_eq e
    · next e => exact (h.setCur.issue.of_eq e).loadPart

theorem runCurrent : Answer.canonical s.runCurrent := by
  unfold State.runCurrent
  split
  · exact h.tick.next
  · exact runIssued h.issue

theorem step : Answer.canonical (step s) := by
  unfold Machine.step
  split
  · exact h.runCurrent
  · exact h.setAgenda.runChoice

end State.memoryCanonical

/-- Settles O57: no function that a step runs writes memory but through the writes of `Store`, which keep its form. -/
theorem memoryCanonicalKept : Obligations.MemoryCanonicalKept := by
  unfold Obligations.MemoryCanonicalKept
  exact fun _ t h e => h.step t e

end Sys2Proof.Machine
end

section
/-! ## O52: what an access of a register or of the window does -/

namespace Sys2Proof.Machine

open Sys2Proof

/-! ### Tables and rising lists -/

theorem tabGet_tabDel_same {α : Type} (t : Tab α) (d : α) (k : Nat) : tabGet (tabDel t k) d k = d := by simp [tabGet]

theorem tabGet_tabDel_other {α : Type} (t : Tab α) (d : α) {k i : Nat} (h : i ≠ k) : tabGet (tabDel t k) d i = tabGet t d i := by
  simp [tabGet, tabFind_tabDel_other t k i h]

theorem tabDel_tabPut {α : Type} (t : Tab α) (k : Nat) (v : α) : tabDel (tabPut t k v) k = tabDel t k := by
  induction t with
  | nil => simp [tabPut, tabDel]
  | cons e rest ih =>
    obtain ⟨j, w⟩ := e
    by_cases hj : j = k
    · simp [tabPut, tabDel, hj]
    · by_cases hl : k < j
      · simp [tabPut, tabDel, hl]
      · simp [tabPut, tabDel, hl, hj, Ne.symm hj, ih]

theorem mem_memberAdd {l : List Nat} {k x : Nat} : x ∈ memberAdd l k ↔ x ∈ l ∨ x = k := by
  induction l with
  | nil => simp [memberAdd]
  | cons j rest ih =>
    unfold memberAdd
    split
    · simp [or_comm]
    · split
      · next h => simp +contextual [h]
      · simp [ih, or_assoc]

theorem mem_memberDel {l : List Nat} {k x : Nat} : x ∈ memberDel l k ↔ x ∈ l ∧ x ≠ k := by
  induction l with
  | nil => simp [memberDel]
  | cons j rest ih =>
    unfold memberDel
    split
    · next h =>
      subst h
      rw [ih]
      simp +contextual
    · next h =>
      rw [List.mem_cons, ih, List.mem_cons]
      constructor
      · rintro (rfl | ⟨hx, hk⟩)
        · exact ⟨.inl rfl, h⟩
        · exact ⟨.inr hx, hk⟩
      · rintro ⟨rfl | hx, hk⟩
        · exact .inl rfl
        · exact .inr ⟨hx, hk⟩

theorem memberAdd_contains (l : List Nat) (k x : Nat) : (memberAdd l k).contains x = (l.contains x || x == k) := by
  rw [Bool.eq_iff_iff]
  simp [mem_memberAdd]

theorem memberDel_contains (l : List Nat) (k x : Nat) : (memberDel l k).contains x = (l.contains x && x != k) := by
  rw [Bool.eq_iff_iff]
  simp [mem_memberDel]

/-! ### Where the registers stand (R405, R433) -/

theorem ownReg_lt {n : Nat} {r : Reg} (h : ownReg n = some r) : n < 192 := by
  unfold ownReg at h
  split_ifs at h <;> omega

/-- The listed offsets of the window are aligned, and lie below its memories, between them and a scheduler core's own ones, or
among the model's own numbers. -/
theorem windowReg_place {off : Nat} {r : Reg} (h : windowReg off = some r) :
    off % 8 = 0 ∧ (off < 0x1400 ∨ 0x1000000 ≤ off ∧ off < 0x2080000 ∨ 2 ^ 40 ≤ off ∧ off < 2 ^ 40 + 0x600) := by
  unfold windowReg at h
  split_ifs at h with h1 h2 h3 h4 h5 h6
  · have := ownReg_lt h
    omega
  · omega
  · omega
  · omega
  · split at h
    case h_16 => cases h
    all_goals omega

theorem barReg_aligned {off : Nat} {r : Reg} (h : barReg off = some r) : off % 8 = 0 := by
  unfold barReg at h
  split_ifs at h <;> omega

theorem regOf_host (off : Nat) : regOf 3 off = barReg off := rfl

theorem regOf_window {who off : Nat} (hw : who ≠ 3) {r : Reg} (h : regOf who off = some r) : windowReg off = some r := by
  unfold regOf at h
  rw [if_neg hw, Option.filter_eq_some_iff] at h
  exact h.1

theorem regOf_aligned {who off : Nat} {r : Reg} (h : regOf who off = some r) : off % 8 = 0 := by
  by_cases hw : who = 3
  · subst hw
    exact barReg_aligned h
  · exact (windowReg_place (regOf_window hw h)).1

/-- No byte of a listed register is a byte of a memory. -/
theorem windowMemory_of_regOf {who off : Nat} {r : Reg} (h : regOf who off = some r) {d n : Nat} (hd : d < 8) (hn : 0 < n) :
    windowMemory who (off + d) n = false := by
  by_cases hw : who = 3
  · subst hw
    rfl
  · obtain ⟨ha, hp⟩ := windowReg_place (regOf_window hw h)
    simp only [windowMemory, Bool.or_eq_false_iff, Bool.and_eq_false_iff, decide_eq_false_iff_not]
    omega

/-! ### One access of a whole register or of a memory (R7, R433) -/

theorem Answer.gives_next {t : State} {P : State → Prop} (h : P t) : Answer.gives (.next t) P := ⟨t, rfl, h⟩

section
variable {s : State} {who off : Nat}

theorem execRegisterWrite_fenced (h : s.fenced who = true) (v : Nat) : execRegisterWrite who off v s = .next s := if_pos h

theorem execRegisterWrite_reg (h : s.fenced who = false) {r : Reg} (hr : regOf who off = some r) (v : Nat) :
    execRegisterWrite who off v s = .next (s.writeReg who r (v % 2 ^ 64)) := by
  simp [execRegisterWrite, h, hr]

theorem execRegisterWrite_unlisted (h : s.fenced who = false) (hr : regOf who off = none) (v : Nat) :
    execRegisterWrite who off v s = .next (if windowMemory who off 8 then s.windowStore who off v 8 else s.offWindow who off) := by
  simp [execRegisterWrite, h, hr]

theorem offWindow_own (h : who < 2 ∧ 2 ^ 41 ≤ off) : s.onlyDev (s.offWindow who off)
    ∧ (s.offWindow who off).dev = { s.dev with cpFaults := s.dev.cpFaults ++ [who] } := by
  rw [State.offWindow, if_pos h]
  exact ⟨⟨rfl, fun _ => rfl⟩, rfl⟩

theorem offWindow_other (h : ¬(who < 2 ∧ 2 ^ 41 ≤ off)) : s.offWindow who off = s := if_neg h

theorem windowStore_only (v n : Nat) :
    s.windowStore who off v n = { s with mem := { s.mem with store := (s.windowStore who off v n).store } } := rfl

theorem windowStore_byte (v n a : Nat) :
    (s.windowStore who off v n).store.byte a = (s.store.putCells (wholeCells (windowPlace who off) (bytesOf v n))).byte a :=
  Store.byte_write _ _ _ _

theorem windowStore_nowHolds (v n : Nat) : s.nowHolds (s.windowStore who off v n) (windowPlace who off) (bytesOf v n) := by
  constructor
  · intro j b h
    rw [windowStore_byte, Store.byte_putWhole _ _ _ _ _ h]
  · intro x h
    rw [windowStore_byte, Store.byte_putWhole_other _ _ _ _ h]

end

/-- The state with other latches of half writes. -/
def State.withWriteLatch (s : State) (l : Tab Nat) : State := { s with dev := { s.dev with writeLatch := l } }

theorem withWriteLatch_writeLatch (s : State) (l : Tab Nat) : (s.withWriteLatch l).dev.writeLatch = l := rfl
theorem withWriteLatch_withWriteLatch (s : State) (l m : Tab Nat) : (s.withWriteLatch l).withWriteLatch m = s.withWriteLatch m := rfl

/-! ### Narrow accesses (R403, R434, log entry 44) -/

theorem accessOff_of_width {off : Nat} (h : off < 2 ^ 44) (x : Nat) : accessOff (x * 2 ^ 44 + off) = off := by
  unfold accessOff
  omega

theorem accessBytes_of_width {off x : Nat} (h : off < 2 ^ 44) : accessBytes (x * 2 ^ 44 + off) = accessBytes (x * 2 ^ 44) := by
  have e : (x * 2 ^ 44 + off) / 2 ^ 44 % 4 = x * 2 ^ 44 / 2 ^ 44 % 4 := by omega
  rw [accessBytes, e, accessBytes]

theorem accessOff_plain {off : Nat} (h : off < 2 ^ 44) : accessOff off = off := Nat.mod_eq_of_lt h

theorem accessBytes_plain {off : Nat} (h : off < 2 ^ 44) : accessBytes off = 4 := by
  have e : off / 2 ^ 44 % 4 = 0 := by omega
  simp only [accessBytes, e]

section
variable {s : State} {who off a n : Nat} (ha : accessOff a = off) (hn : accessBytes a = n)
include ha hn

theorem execWindowLowHalfWrite_whole (h8 : n = 8) (v : Nat) : execWindowLowHalfWrite who a v s = execRegisterWrite who off v s := by
  subst ha h8
  unfold execWindowLowHalfWrite execRegisterWrite
  dsimp only
  rw [hn]
  split
  · rfl
  · cases regOf who (accessOff a) <;> rfl

theorem execWindowLowHalfWrite_memory (h : s.fenced who = false) (hr : regOf who off = none)
    (hm : windowMemory who off n = true) (v : Nat) : execWindowLowHalfWrite who a v s = .next (s.windowStore who off v n) := by
  simp [execWindowLowHalfWrite, ha, hn, h, hr, hm]

theorem execWindowLowHalfWrite_narrow {r : Reg} (hr : regOf who off = some r) (h4 : n < 4) (v : Nat) :
    execWindowLowHalfWrite who a v s = .next s := by
  have h8 : n ≠ 8 := by omega
  simp [execWindowLowHalfWrite, ha, hn, hr, h4, h8]

/-- A low half goes into the writer's latch, unless it acts at once (R405, R434). -/
theorem execWindowLowHalfWrite_latch (h4 : n = 4) (h : s.fenced who = false) {r : Reg} (hr : regOf who off = some r)
    (hl : ¬(who = 3 ∧ r.lowActs = true)) (lo : Nat) : execWindowLowHalfWrite who a lo s =
      .next (s.withWriteLatch (tabPut s.dev.writeLatch (latchKey who off) (lo % 2 ^ 32))) := by
  simp [State.withWriteLatch, execWindowLowHalfWrite, ha, hn, h4, h, hr, hl]

end

section
variable {s : State} {who off : Nat}

/-- A high half makes one write with what stands in the latch, and clears the latch. -/
theorem execWindowHighHalfWrite_reg (h : s.fenced who = false) {r : Reg} (hr : regOf who off = some r) (hi : Nat) :
    execWindowHighHalfWrite who off hi s = .next
      ((s.withWriteLatch (tabDel s.dev.writeLatch (latchKey who off))).writeReg who r
        (hi % 2 ^ 32 * 2 ^ 32 + tabGet s.dev.writeLatch 0 (latchKey who off))) := by
  simp [State.withWriteLatch, execWindowHighHalfWrite, h, hr]

/-- Two halves make one write of the whole register. -/
theorem halfWrites (ho : off < 2 ^ 44) (h : s.fenced who = false) {r : Reg} (hr : regOf who off = some r)
    (hl : ¬(who = 3 ∧ r.lowActs = true)) {lo : Nat} (hlo : lo < 2 ^ 32) :
    Answer.gives (execWindowLowHalfWrite who off lo s) (fun t => s.onlyDev t
      ∧ t.dev = { s.dev with writeLatch := t.dev.writeLatch }
      ∧ (∀ k, k ≠ latchKey who off → tabGet t.dev.writeLatch 0 k = tabGet s.dev.writeLatch 0 k)
      ∧ ∀ hi, hi < 2 ^ 32 → Answer.gives (execWindowHighHalfWrite who off hi t) (fun u =>
        execRegisterWrite who off (hi * 2 ^ 32 + lo)
          (s.withWriteLatch (tabDel s.dev.writeLatch (latchKey who off))) = .next u)) := by
  rw [execWindowLowHalfWrite_latch (accessOff_plain ho) (accessBytes_plain ho) rfl h hr hl, Nat.mod_eq_of_lt hlo]
  refine Answer.gives_next ⟨⟨rfl, fun _ => rfl⟩, rfl, fun k hk => tabGet_tabPut_other _ _ _ _ _ hk, fun hi hhi => ?_⟩
  have hv : hi * 2 ^ 32 + lo < 2 ^ 64 := by omega
  have hf (l : Tab Nat) : (s.withWriteLatch l).fenced who = false := h
  rw [execWindowHighHalfWrite_reg (hf _) hr, execRegisterWrite_reg (hf _) hr, withWriteLatch_withWriteLatch,
    withWriteLatch_writeLatch, tabGet_tabPut_same, tabDel_tabPut, Nat.mod_eq_of_lt hhi, Nat.mod_eq_of_lt hv]
  exact Answer.gives_next rfl

end

/-! ### Reads (R403, R405, R434) -/

section
variable {s : State} {who off a n : Nat}

theorem execWindowLowHalfRead_eq (ha : accessOff a = off) (hn : accessBytes a = n) (h : s.fenced who = false) {t : State} {v : Nat}
    (e : s.windowRead who off n = (t, v)) :
    execWindowLowHalfRead who a s = .next { t with dev := { t.dev with lastRead := tabPut t.dev.lastRead who v } } := by
  simp [execWindowLowHalfRead, ha, hn, h, e]

variable {r : Reg} (hr : regOf who off = some r)
include hr

theorem windowRead_low : s.windowRead who off 4 = (s.latchHigh who off r, s.regValue r % 2 ^ 32) := by
  have hm : windowMemory who off 4 = false := windowMemory_of_regOf (d := 0) hr (by decide) (by decide)
  have ha := regOf_aligned hr
  have ho : off / 8 * 8 = off := by omega
  simp [State.windowRead, hm, ha, ho, hr]

theorem windowRead_high : s.windowRead who (off + 4) 4 = (s, tabGet s.dev.readLatch 0 (latchKey who off)) := by
  have hm : windowMemory who (off + 4) 4 = false := windowMemory_of_regOf hr (by decide) (by decide)
  have ha := regOf_aligned hr
  have h4 : (off + 4) % 8 = 4 := by omega
  have ho : (off + 4) / 8 * 8 = off := by omega
  simp [State.windowRead, hm, h4, ho, hr]

theorem windowRead_whole : s.windowRead who off 8 = (s, s.regValue r % 2 ^ 64) := by
  have hm : windowMemory who off 8 = false := windowMemory_of_regOf (d := 0) hr (by decide) (by decide)
  have ha := regOf_aligned hr
  have ho : off / 8 * 8 = off := by omega
  simp [State.windowRead, hm, ha, ho, hr]

end

section
variable {s : State} {who off : Nat} (ho : off < 2 ^ 44) (h : s.fenced who = false) {r : Reg} (hr : regOf who off = some r)
include ho h hr

/-- A read of a low half latches the high one. -/
theorem lowHalfRead : Answer.gives (execWindowLowHalfRead who off s) (fun t => s.onlyDev t
    ∧ t.dev = { s.dev with readLatch := t.dev.readLatch, lastRead := t.dev.lastRead }
    ∧ (∀ k, k ≠ latchKey who off → tabGet t.dev.readLatch 0 k = tabGet s.dev.readLatch 0 k)
    ∧ tabGet t.dev.readLatch 0 (latchKey who off) = s.regValue r / 2 ^ 32 % 2 ^ 32
    ∧ tabGet t.dev.lastRead 0 who = s.regValue r % 2 ^ 32) := by
  rw [execWindowLowHalfRead_eq (accessOff_plain ho) (accessBytes_plain ho) h (windowRead_low hr)]
  exact Answer.gives_next ⟨⟨rfl, fun _ => rfl⟩, rfl, fun k hk => tabGet_tabPut_other _ _ _ _ _ hk, tabGet_tabPut_same _ _ _ _,
    tabGet_tabPut_same _ _ _ _⟩

/-- A read of the high half returns the latch. -/
theorem highHalfRead : Answer.gives (execWindowLowHalfRead who (off + 4) s) (fun t => s.onlyDev t
    ∧ t.dev = { s.dev with lastRead := t.dev.lastRead }
    ∧ tabGet t.dev.lastRead 0 who = tabGet s.dev.readLatch 0 (latchKey who off)) := by
  have ha := regOf_aligned hr
  have h4 : off + 4 < 2 ^ 44 := by omega
  rw [execWindowLowHalfRead_eq (accessOff_plain h4) (accessBytes_plain h4) h (windowRead_high hr)]
  exact Answer.gives_next ⟨⟨rfl, fun _ => rfl⟩, rfl, tabGet_tabPut_same _ _ _ _⟩

theorem wholeRead : Answer.gives (execWindowLowHalfRead who (3 * 2 ^ 44 + off) s) (fun t => s.onlyDev t
    ∧ t.dev = { s.dev with lastRead := t.dev.lastRead } ∧ tabGet t.dev.lastRead 0 who = s.regValue r % 2 ^ 64) := by
  have hb : accessBytes (3 * 2 ^ 44 + off) = 8 := accessBytes_of_width ho
  rw [execWindowLowHalfRead_eq (accessOff_of_width ho 3) hb h (windowRead_whole hr)]
  exact Answer.gives_next ⟨⟨rfl, fun _ => rfl⟩, rfl, tabGet_tabPut_same _ _ _ _⟩

end

/-- The register of an energy accumulator by number (R403). -/
def energyReg (i : Nat) : Reg :=
  match i with
  | 0 => .energyDev
  | 1 => .energyHigh
  | 2 => .energyLow
  | k + 3 => .energyCl k

theorem regValue_energyReg (s : State) (i : Nat) : s.regValue (energyReg i) = s.energyOf i := by
  unfold energyReg
  split <;> rfl

theorem energyOff_lt {who i : Nat} (hi : i < 35) : energyOff who i < 2 ^ 44 := by
  unfold energyOff
  split_ifs <;> omega

/-- Every processor and the host reach the accumulators. -/
theorem regOf_energyOff : ∀ who < 4, ∀ i < 35, regOf who (energyOff who i) = some (energyReg i) := by decide

theorem energyRead {s : State} {who i : Nat} (hw : who < 4) (hi : i < 35) (h : s.fenced who = false) :
    Answer.gives (execEnergyLoRead who i s) (fun t => s.onlyDev t
      ∧ tabGet t.dev.readLatch 0 (latchKey who (energyOff who i)) = s.energyOf i / 2 ^ 32 % 2 ^ 32
      ∧ tabGet t.dev.lastRead 0 who = s.energyOf i % 2 ^ 32) := by
  obtain ⟨t, e, ho, -, -, hl, hr⟩ := lowHalfRead (energyOff_lt hi) h (regOf_energyOff who hw i hi)
  rw [regValue_energyReg] at hl hr
  exact ⟨t, e, ho, hl, hr⟩

/-! ### RWIN_k_BASE and the FENCE of a processor (R121, R408) -/

theorem rwinBaseWrite_gives (s : State) {r : Nat} (v : Nat) (h : r < 8) : Answer.gives (execRwinBaseWrite r v s) (fun t => s.onlyDev t
    ∧ t.dev = { s.dev with rwinBase := t.dev.rwinBase } ∧ (∀ x, x ≠ r → tabGet t.dev.rwinBase 0 x = tabGet s.dev.rwinBase 0 x)
    ∧ tabGet t.dev.rwinBase 0 r = (if bits v 62 59 ≤ 6 then bits v 63 63 * 2 ^ 63 else 0) + bits v 62 59 * 2 ^ 59
      + bits v 57 56 * 2 ^ 56 + bits v 47 12 * 4096) := by
  rw [execRwinBaseWrite, if_pos h]
  exact Answer.gives_next ⟨⟨rfl, fun _ => rfl⟩, rfl, fun x hx => tabGet_tabPut_other _ _ _ _ _ hx, tabGet_tabPut_same _ _ _ _⟩

theorem cpFence_ends {s : State} {who : Nat} (h : tabGet s.dev.fences 0 who < s.dt) (hp : s.dev.cpPeer.all (fun x => x.1 != who) = true) :
    Answer.gives (execCpFence who s) (fun t => s.onlyDev t
      ∧ t.dev = { s.dev with fences := t.dev.fences, fencing := t.dev.fencing } ∧ tabGet t.dev.fences 0 who = 0
      ∧ (∀ x, x ≠ who → tabGet t.dev.fences 0 x = tabGet s.dev.fences 0 x)
      ∧ ∀ x, t.fenced x = (s.fenced x && x != who)) := by
  rw [execCpFence]
  dsimp only
  rw [if_pos ⟨h, hp⟩]
  exact Answer.gives_next ⟨⟨rfl, fun _ => rfl⟩, rfl, tabGet_tabDel_same _ _ _, fun x hx => tabGet_tabDel_other _ _ hx,
    memberDel_contains _ _⟩

theorem cpFence_waits {s : State} {who : Nat} (h : s.dt ≤ tabGet s.dev.fences 0 who ∨ s.dev.cpPeer.any (fun x => x.1 == who) = true) :
    Answer.gives (execCpFence who s) (fun t => s.onlyDev t ∧ t.dev = { s.dev with fencing := t.dev.fencing }
      ∧ ∀ x, t.fenced x = (s.fenced x || x == who)) := by
  have hc : ¬(tabGet s.dev.fences 0 who < s.dt ∧ s.dev.cpPeer.all (fun x => x.1 != who) = true) := by
    rintro ⟨hd, hp⟩
    obtain h | h := h
    · omega
    · obtain ⟨x, hx, hw⟩ := List.any_eq_true.mp h
      exact absurd (List.all_eq_true.mp hp x hx) (by simp_all)
  rw [execCpFence]
  dsimp only
  rw [if_neg hc]
  exact Answer.gives_next ⟨⟨rfl, fun _ => rfl⟩, rfl, memberAdd_contains _ _⟩

/-! ### Registers that read back as they were written (R405, R433, R435 to R443) -/

section
variable (s : State) (v : Nat)

theorem writeReg_coreMapLo (h : s.mapHeld = false) : (s.writeReg 2 .coreMapLo v).regValue .coreMapLo = v := by
  simp [State.writeReg, State.mgmtReg, State.cpReg, State.regValue, h]

theorem writeReg_coreMapHi (h : s.mapHeld = false) : (s.writeReg 2 .coreMapHi v).regValue .coreMapHi = v := by
  simp [State.writeReg, State.mgmtReg, State.cpReg, State.regValue, h]

theorem writeReg_tickCmp : (s.writeReg 2 .tickCmp v).regValue .tickCmp = v := rfl

theorem writeReg_pwrCfg : (s.writeReg 2 .pwrCfg v).regValue .pwrCfg = v % 2 ^ 48 := by
  change bits v 47 32 % 65536 * 2 ^ 32 + bits v 31 16 % 65536 * 65536 + bits v 15 0 % 65536 = v % 2 ^ 48
  simp only [bits]
  omega

theorem writeReg_aperBase : (s.writeReg 3 .aperBase v).regValue .aperBase = bits v 47 34 * 2 ^ 34 := by
  change bits v 47 34 % 2 ^ 14 * 2 ^ 34 = bits v 47 34 * 2 ^ 34
  simp [bits]

theorem writeReg_issueThr (k : Nat) : (s.writeReg 2 (.issueThr k) v).regValue (.issueThr k) = v % 16 := by
  simp [State.writeReg, State.mgmtReg, State.cpReg, State.regValue]

theorem hostQ_setHostQ (q : Nat) (x : HostQ) : (s.setHostQ q x).hostQ q = x := tabGet_tabPut_same _ _ _ _

theorem writeReg_crHead (q : Nat) : (s.writeReg 3 (.crHead q) v).regValue (.crHead q) = v % 2 ^ 16 := by
  simp [State.writeReg, State.hostReg, State.regValue, hostQ_setHostQ]

theorem writeReg_crBase (q : Nat) : (s.writeReg 3 (.crBase q) v).regValue (.crBase q) = v / 32 * 32 := by
  simp [State.writeReg, State.hostReg, State.regValue, hostQ_setHostQ]

end

theorem regOf_issueThr : ∀ k ∈ List.range 32, regOf 2 (0x1000000 + k * 0x10000 + 8) = some (.issueThr k) := by decide
theorem regOf_crHead : ∀ q ∈ List.range 16, regOf 3 (64 * q + 0x28) = some (.crHead q) := by decide
theorem regOf_crBase : ∀ q ∈ List.range 16, regOf 3 (64 * q + 0x18) = some (.crBase q) := by decide

theorem readsBack {s : State} {who off : Nat} {g : Reg} {v x : Nat} (hr : regOf who off = some g) (h : s.fenced who = false)
    (hv : v < 2 ^ 64) (e : (s.writeReg who g v).regValue g = x) :
    ∃ g, regOf who off = some g ∧ Answer.gives (execRegisterWrite who off v s) (fun t => t.regValue g = x) := by
  refine ⟨g, hr, ?_⟩
  rw [execRegisterWrite_reg h hr, Nat.mod_eq_of_lt hv]
  exact Answer.gives_next e

theorem writtenBack_readsBack {s : State} {r : Nat × Nat × (Nat → Nat)} (hr : r ∈ writtenBack) {v : Nat} (hv : v < 2 ^ 64)
    (h : s.fenced r.1 = false) (hm : r.1 = 2 ∧ (r.2.1 = 0x28 ∨ r.2.1 = 0x30) → s.mapHeld = false) :
    ∃ g, regOf r.1 r.2.1 = some g ∧ Answer.gives (execRegisterWrite r.1 r.2.1 v s) (fun t => t.regValue g = r.2.2 v) := by
  simp only [writtenBack, List.mem_append, List.mem_cons, List.not_mem_nil, or_false, List.mem_map] at hr
  obtain (((rfl | rfl | rfl | rfl | rfl) | ⟨k, hk, rfl⟩) | ⟨q, hq, rfl⟩) | ⟨q, hq, rfl⟩ := hr
  · exact readsBack (by decide) h hv (writeReg_coreMapLo s v (hm ⟨rfl, .inl rfl⟩))
  · exact readsBack (by decide) h hv (writeReg_coreMapHi s v (hm ⟨rfl, .inr rfl⟩))
  · exact readsBack (g := .tickCmp) (by decide) h hv (writeReg_tickCmp s v)
  · exact readsBack (by decide) h hv (writeReg_pwrCfg s v)
  · exact readsBack (by decide) h hv (writeReg_aperBase s v)
  · exact readsBack (regOf_issueThr k hk) h hv (writeReg_issueThr s v k)
  · exact readsBack (regOf_crHead q hq) h hv (writeReg_crHead s v q)
  · exact readsBack (regOf_crBase q hq) h hv (writeReg_crBase s v q)

/-- Settles O52: a write or a read goes by what stands at its offset, a register, a memory or nothing, and by the width
that the operand names. -/
theorem registerAccess : Obligations.RegisterAccess := by
  unfold Obligations.RegisterAccess
  intro s
  refine ⟨fun _ _ v h => execRegisterWrite_fenced h v, fun who off v h hr => ⟨fun hm => ?_, fun hm => ?_⟩,
    fun who off v ho => execWindowLowHalfWrite_whole (accessOff_of_width ho 3) (accessBytes_of_width ho) rfl v,
    fun who off v n x ho h hr hx hm => ?_, fun who off r v x ho hr hx => ?_, fun r hr v hv h hm => writtenBack_readsBack hr hv h hm,
    fun who off r lo ho h hr hl hlo => halfWrites ho h hr hl hlo,
    fun who off r ho h hr => ⟨lowHalfRead ho h hr, highHalfRead ho h hr, wholeRead ho h hr⟩,
    fun who i hw hi h => energyRead hw hi h, fun r v hr => rwinBaseWrite_gives s v hr, fun who h hp => cpFence_ends h hp,
    fun who h => cpFence_waits h⟩
  · have e := execRegisterWrite_unlisted h hr v
    rw [hm] at e
    exact ⟨_, e, offWindow_own, offWindow_other⟩
  · have e := execRegisterWrite_unlisted h hr v
    rw [hm] at e
    exact ⟨_, e, windowStore_only v 8, windowStore_nowHolds v 8⟩
  · have hb : accessBytes (x * 2 ^ 44) = n := by
      simp only [List.mem_cons, Prod.mk.injEq, List.not_mem_nil, or_false] at hx
      obtain ⟨rfl, rfl⟩ | ⟨rfl, rfl⟩ | ⟨rfl, rfl⟩ := hx <;> rfl
    exact ⟨_, execWindowLowHalfWrite_memory (accessOff_of_width ho x) ((accessBytes_of_width ho).trans hb) h hr hm v,
      windowStore_only v n, windowStore_nowHolds v n⟩
  · have hb : accessBytes (x * 2 ^ 44) < 4 := by
      obtain rfl | rfl := hx <;> decide
    exact execWindowLowHalfWrite_narrow (accessOff_of_width ho x) (accessBytes_of_width ho) hr hb v

end Sys2Proof.Machine
end

section
/-! ## O41: what the scrubs of near memories and of vaults log and lose, and what their sensors and refreshes count -/

namespace Sys2Proof.Machine

open Sys2Proof

/-! ### Kinds and records of errors (R68, R79) -/

theorem errCorrected_iff {err : Nat} : errCorrected err = true ↔ kindOf err = 0 := by
  unfold errCorrected kindOf
  by_cases h : err = 1 ∨ err = 3
  · simp [h]
  · by_cases h2 : err = 2 <;> simp [h, h2]

theorem errKind_eq_kindOf (err : Nat) : errKind err = kindOf err := by
  by_cases h : err = 1 ∨ err = 3 <;> simp [errKind, errCorrected, kindOf, h]

theorem le_of_bit {x i : Nat} (h : bit x i = true) : 2 ^ i ≤ x := by
  by_contra hx
  simp [bit, Nat.div_eq_of_lt (Nat.lt_of_not_le hx)] at h

theorem bit_add_pow {x i : Nat} (h : bit x i = false) : bit (x + 2 ^ i) i = true := by
  simp only [bit, beq_eq_false_iff_ne, beq_iff_eq, Nat.add_div_right _ (Nat.two_pow_pos i)] at h ⊢
  omega

/-- A log register follows R68: a free one takes the record, and what arrives while VALID is 1 goes by the two kinds. -/
theorem loggedIn_logErr (old kind rec_ : Nat) : loggedIn old (logErr old kind rec_) kind rec_ := by
  refine ⟨fun hv => ?_, fun hv hk => ?_, fun hv hk hc => ?_, fun hv hk hc => ?_⟩
  · simp [logErr, errRecord, hv]
  · cases h : bit old 62
    · simp [logErr, hv, hk, h]
    · simpa [logErr, hv, hk, h] using Nat.sub_add_cancel (le_of_bit h)
  · simp [logErr, errRecord, hv, hk, hc]
  · cases h : bit old 62
    · simp [logErr, hv, hk, hc, h]
    · simpa [logErr, hv, hk, hc, h] using Nat.sub_add_cancel (le_of_bit h)

/-! ### Errors logged (R68, R79, R405) -/

section
variable (s : State)

theorem State.logAlarm_frame (kind : Nat) (b : Bool) : s.logAlarm kind b = { s with dev := (s.logAlarm kind b).dev } := by
  unfold State.logAlarm
  cases b <;> (dsimp only; split <;> rfl)

theorem State.logAlarm_dev (kind : Nat) (b : Bool) :
    (s.logAlarm kind b).dev = { s.dev with msix := (s.logAlarm kind b).dev.msix, memIrq := s.dev.memIrq || kind != 0 } := by
  unfold State.logAlarm
  by_cases hk : kind = 0 <;> cases b <;> simp [hk, State.fireMsix]

theorem State.logNear_frame (k kind unit place bank off : Nat) : s.logNear k kind unit place bank off =
    { s with clusters := (s.logNear k kind unit place bank off).clusters, dev := (s.logNear k kind unit place bank off).dev } := by
  unfold State.logNear
  rw [State.logAlarm_frame]
  rfl

theorem State.logNear_cluster (k kind unit place bank off x : Nat) : (s.logNear k kind unit place bank off).cluster x =
    if x = k then { s.cluster k with
      nearErr := logErr (s.cluster k).nearErr kind (nearRec unit place bank off)
      nearCe := if kind = 0 then min ((s.cluster k).nearCe + 1) (2 ^ 32 - 1) else (s.cluster k).nearCe } else s.cluster x := by
  unfold State.logNear
  rw [State.logAlarm_frame]
  exact s.setCluster_cluster _ _ _

theorem State.logFar_frame (slice kind unit sub off : Nat) : s.logFar slice kind unit sub off =
    { s with mem := { s.mem with farErr := (s.logFar slice kind unit sub off).mem.farErr }
             dev := (s.logFar slice kind unit sub off).dev } := by
  unfold State.logFar
  rw [State.logAlarm_frame]

theorem State.logFar_farErr (slice kind unit sub off : Nat) : (s.logFar slice kind unit sub off).mem.farErr =
    tabPut s.mem.farErr slice (logErr (tabGet s.mem.farErr 0 slice) kind (unit % 16 * 2 ^ 56 + sub % 16 * 2 ^ 48 + off % 2 ^ 48)) := by
  unfold State.logFar
  rw [State.logAlarm_frame]

end

/-- What an error does to its memory before it is logged: of the clusters' logs, of the device and of the bytes of memory nothing has
changed. -/
def State.lossKept (s u : State) (k : Nat) : Prop :=
  (∀ j, j ≠ k → u.cluster j = s.cluster j) ∧ (u.cluster k).nearErr = (s.cluster k).nearErr ∧ (u.cluster k).nearCe = (s.cluster k).nearCe
    ∧ u.dev = s.dev ∧ ∀ a, u.store.byte a = s.store.byte a

theorem State.lossKept_of_clusters {s u : State} (k : Nat) (hc : u.clusters = s.clusters) (hd : u.dev = s.dev)
    (hb : ∀ a, u.store.byte a = s.store.byte a) : s.lossKept u k := by
  have e : ∀ j, u.cluster j = s.cluster j := fun j => by simp [State.cluster, hc]
  exact ⟨fun j _ => e j, by rw [e], by rw [e], hd, hb⟩

/-- One error of a near memory: its loss, and then its log (R68). -/
theorem State.lossKept.nearLogged {s u : State} {k : Nat} (h : s.lossKept u k) (kind unit place bank off : Nat) :
    s.nearLogged (u.logNear k kind unit place bank off) k kind (nearRec unit place bank off) := by
  obtain ⟨hj, he, hn, hd, hb⟩ := h
  refine ⟨fun j hjk => ?_, ?_, ?_, ?_, fun a => ?_⟩
  · rw [State.logNear_cluster, if_neg hjk, hj j hjk]
  · rw [State.logNear_cluster, if_pos rfl, he]
    exact loggedIn_logErr _ _ _
  · rw [State.logNear_cluster, if_pos rfl, hn]
  · rw [← hd]
    exact State.logAlarm_dev _ _ _
  · rw [State.logNear_frame]
    exact hb a

/-- One error of an outer memory: its loss, which leaves the logs alone, and then its log (R79). -/
theorem State.farLogged_logFar {s u : State} (hf : u = { s with mem := u.mem }) (he : u.mem.farErr = s.mem.farErr)
    (hb : ∀ a, u.store.byte a = s.store.byte a) (slice kind unit sub off : Nat) :
    s.farLogged (u.logFar slice kind unit sub off) slice kind (unit % 16 * 2 ^ 56 + sub % 16 * 2 ^ 48 + off % 2 ^ 48) := by
  have hd : u.dev = s.dev := by rw [hf]
  refine ⟨?_, ?_, fun x hx => ?_, ?_, fun a => ?_⟩
  · rw [State.logFar_frame, hf]
  · rw [State.logFar_farErr, tabGet_tabPut_same, he]
    exact loggedIn_logErr _ _ _
  · rw [State.logFar_farErr, tabGet_tabPut_other _ _ _ _ _ hx, he]
  · rw [← hd]
    exact State.logAlarm_dev _ _ _
  · rw [State.logFar_frame]
    exact hb a

theorem State.logFar_store (s : State) (slice kind unit sub off : Nat) : (s.logFar slice kind unit sub off).store = s.store := by
  rw [State.logFar_frame]
  rfl

theorem State.logFar_vault (s : State) (slice kind unit sub off v : Nat) :
    (s.logFar slice kind unit sub off).vault v = s.vault v := by
  rw [State.logFar_frame]
  rfl

/-! ### Poison and tags (R24, R66, R67) -/

theorem Store.poisoned_of_mem {m : Store} {a : Nat} (h : a / 8 ∈ m.poison) : m.poisoned a 1 = true := by
  rw [Store.poisoned, List.any_eq_true]
  refine ⟨a / 8, h, ?_⟩
  simp only [Bool.and_eq_true, decide_eq_true_eq]
  omega

theorem Store.tagAt_of_notMem {m : Store} {a : Nat} (h : a / 16 ∉ m.tags) : m.tagAt a = false := by simpa [Store.tagAt] using h

/-- Either word of a granule. -/
theorem wordOf_granule (a : Nat) : a / 8 = 2 * (a / 16) ∨ a / 8 = 2 * (a / 16) + 1 := by omega

theorem Store.poisonGranule_poisoned (m : Store) (a : Nat) : (m.poisonGranule (a / 16)).poisoned a 1 = true := by
  refine Store.poisoned_of_mem ?_
  simp only [Store.poisonGranule, mem_memberAdd]
  exact (wordOf_granule a).elim (fun h => .inl (.inr h)) .inr

theorem Store.poisonGranule_tagAt (m : Store) (a : Nat) : (m.poisonGranule (a / 16)).tagAt a = false :=
  Store.tagAt_of_notMem (fun h => (mem_memberDel.mp h).2 rfl)

theorem State.spoil_frame (s : State) (ws gs : List Nat) : s.spoil ws gs = { s with mem := (s.spoil ws gs).mem } := rfl

theorem State.spoil_store (s : State) (ws gs : List Nat) :
    (s.spoil ws gs).store = { s.store with poison := ws.foldl memberAdd s.store.poison, tags := gs.foldl memberDel s.store.tags } := by
  unfold State.spoil
  dsimp only
  rw [State.store, foldl_fixed MemSys.store _ _ _ (fun x l => l2Refit_store x s.dt l)]
  rfl

theorem l2Refit_farErr (ms : MemSys) (dt line : Nat) : (l2Refit ms dt line).farErr = ms.farErr := by
  unfold l2Refit
  split
  · rfl
  · dsimp only
    split
    · rfl
    · split
      · rfl
      · split <;> rfl

theorem State.spoil_farErr (s : State) (ws gs : List Nat) : (s.spoil ws gs).mem.farErr = s.mem.farErr :=
  foldl_fixed MemSys.farErr _ _ _ (fun x l => l2Refit_farErr x s.dt l)

theorem State.byte_spoil (s : State) (ws gs : List Nat) (a : Nat) : (s.spoil ws gs).store.byte a = s.store.byte a := by
  rw [State.spoil_store]
  rfl

theorem State.loseGranule_poisoned (s : State) (a : Nat) : (s.loseGranule a).store.poisoned a 1 = true := by
  refine Store.poisoned_of_mem ?_
  rw [State.loseGranule, State.spoil_store]
  simpa [mem_memberAdd, or_assoc] using Or.inr (wordOf_granule a)

theorem State.loseGranule_tagAt (s : State) (a : Nat) : (s.loseGranule a).store.tagAt a = false := by
  refine Store.tagAt_of_notMem ?_
  rw [State.loseGranule, State.spoil_store]
  simp [mem_memberDel]

/-! ### The scrub of a near memory by its unit (R66 to R69) -/

theorem exec_nearScrubStep (k unit place off err : Nat) (s : State) :
    exec (.nearScrubStep k unit place off err) s = execNearScrubStep k unit place off err s := rfl

/-- The core place of a record (R68): units 0 to 2 stand in a core. -/
def scrubPlace (unit place : Nat) : Nat := if unit = 0 ∨ unit = 1 ∨ unit = 2 then place else 0

/-- The pool bank of a record (R68): units 3 to 5 stand in a bank. -/
def scrubBank (unit place : Nat) : Nat := if unit = 3 ∨ unit = 4 ∨ unit = 5 then place % 32 else 0

/-- The fields of a record below its KIND (R68), as the claim writes them. -/
def scrubRecord (unit place off : Nat) : Nat :=
  unit * 2 ^ 56 + (if unit < 3 then place % 4 else 0) * 2 ^ 54 + (if 3 ≤ unit ∧ unit ≤ 5 then place % 32 else 0) * 2 ^ 49 + off % 2 ^ 48

theorem nearRec_scrub {unit : Nat} (h : unit < 10) (place off : Nat) :
    nearRec unit (scrubPlace unit place) (scrubBank unit place) off = scrubRecord unit place off := by
  have hp : scrubPlace unit place % 4 = if unit < 3 then place % 4 else 0 := by
    unfold scrubPlace
    split_ifs <;> omega
  have hb : scrubBank unit place % 32 = if 3 ≤ unit ∧ unit ≤ 5 then place % 32 else 0 := by
    unfold scrubBank
    split_ifs <;> omega
  rw [nearRec, hp, hb, Nat.mod_eq_of_lt (show unit < 16 by omega), scrubRecord]

theorem State.lossKept.nearLogged_scrub {s u : State} {k unit : Nat} (h : s.lossKept u k) (hu : unit < 10) (kind place off : Nat) :
    s.nearLogged (u.logNear k kind unit (scrubPlace unit place) (scrubBank unit place) off) k kind (scrubRecord unit place off) :=
  nearRec_scrub hu place off ▸ h.nearLogged _ _ _ _ _

section
variable {s : State} {k unit place off err : Nat}

theorem execNearScrubStep_corrected (h0 : 0 < err) (hk : kindOf err = 0) : execNearScrubStep k unit place off err s =
    .next (s.logNear k 0 unit (scrubPlace unit place) (scrubBank unit place) off) := by
  unfold execNearScrubStep
  rw [if_neg (by omega), if_pos (errCorrected_iff.mpr hk)]
  rfl

theorem execNearScrubStep_cache (h0 : 0 < err) (hk : kindOf err ≠ 0) (hu : unit = 0 ∨ unit = 1 ∨ unit = 4) :
    execNearScrubStep k unit place off err s =
      .next ((s.dropLine k unit place off).logNear k 0 unit (scrubPlace unit place) (scrubBank unit place) off) := by
  unfold execNearScrubStep
  rw [if_neg (by omega), if_neg (fun h => hk (errCorrected_iff.mp h))]
  obtain rfl | rfl | rfl := hu <;> rfl

theorem execNearScrubStep_fifo (h0 : 0 < err) (hk : kindOf err ≠ 0) : execNearScrubStep k 5 place off err s =
    .next ((s.logNear k (kindOf err) 5 (scrubPlace 5 place) (scrubBank 5 place) off).scrubFifo k (place % 32) off) := by
  unfold execNearScrubStep
  rw [if_neg (by omega), if_neg (fun h => hk (errCorrected_iff.mp h)), errKind_eq_kindOf]
  rfl

theorem execNearScrubStep_lost (h0 : 0 < err) (hk : kindOf err ≠ 0) (hu : unit ∈ [2, 3, 6, 7, 8, 9]) :
    execNearScrubStep k unit place off err s =
      .next ((s.scrubLoss k unit place off).logNear k (kindOf err) unit (scrubPlace unit place) (scrubBank unit place) off) := by
  unfold execNearScrubStep
  rw [if_neg (by omega), if_neg (fun h => hk (errCorrected_iff.mp h)), errKind_eq_kindOf]
  simp only [List.mem_cons, List.not_mem_nil, or_false] at hu
  obtain rfl | rfl | rfl | rfl | rfl | rfl := hu <;> rfl

end

/-! ### What a parity error of a cache drops (R66) -/

theorem tabGet_map_filter {α : Type} (t : Tab (List α)) (p : α → Bool) (k : Nat) :
    tabGet (t.map (fun e => (e.1, e.2.filter p))) [] k = (tabGet t [] k).filter p := by
  induction t with
  | nil => rfl
  | cons e rest ih =>
    obtain ⟨j, x⟩ := e
    simp only [tabGet, List.map_cons, tabFind] at ih ⊢
    by_cases h : j = k
    · simp [h]
    · simpa [h] using ih

section
variable (s : State) (k place off : Nat)

theorem State.dropLine_code : s.dropLine k 0 place off = s.setCore (coreAt k (place % 4)) { s.core (coreAt k (place % 4)) with
    l1i := (s.core (coreAt k (place % 4))).l1i.filter
      (fun l => (s.core (coreAt k (place % 4))).codeLines[off / 64]? != some l.line)
    fbufs := (s.core (coreAt k (place % 4))).fbufs.map (fun e => (e.1, e.2.filter
      (fun l => (s.core (coreAt k (place % 4))).codeLines[off / 64]? != some l.line))) } := rfl

theorem State.dropLine_data : s.dropLine k 1 place off = s.setCore (coreAt k (place % 4)) { s.core (coreAt k (place % 4)) with
    l1d := listDel (s.core (coreAt k (place % 4))).l1d (off / 64) } := rfl

theorem State.dropLine_tile : s.dropLine k 4 place off = s.setCluster k { s.cluster k with
    tiles := (s.cluster k).tiles.filter
      (fun t => !(t.bank == place % 32 && tileSet t.slot t.tx t.ty t.tz == off / 1024 % 128)) } := rfl

end

theorem State.lossKept_setCore (s : State) (c k : Nat) (v : CoreSt) : s.lossKept (s.setCore c v) k :=
  State.lossKept_of_clusters k rfl rfl (fun _ => rfl)

theorem State.lossKept_dropTile (s : State) (k place off : Nat) : s.lossKept (s.dropLine k 4 place off) k := by
  rw [State.dropLine_tile]
  refine ⟨fun j hj => ?_, ?_, ?_, rfl, fun _ => rfl⟩
  · rw [State.setCluster_cluster, if_neg hj]
  · rw [State.setCluster_cluster_same]
  · rw [State.setCluster_cluster_same]

theorem State.logNear_core (s : State) (k kind unit place bank off x : Nat) :
    (s.logNear k kind unit place bank off).core x = s.core x := by
  rw [State.logNear_frame]
  rfl

theorem State.logNear_store (s : State) (k kind unit place bank off : Nat) : (s.logNear k kind unit place bank off).store = s.store := by
  rw [State.logNear_frame]
  rfl

/-! ### What an uncorrectable error loses (R65 to R67, R390) -/

section
variable (s : State) (k place off : Nat)

/-- The log of an error leaves the rows of the cisterns where they stand. -/
theorem State.logNear_rowAt (kind unit pl bank o b : Nat) : (s.logNear k kind unit pl bank o).rowAt k b off = s.rowAt k b off := by
  have hm : (s.logNear k kind unit pl bank o).bankMode k = s.bankMode k := funext fun j => by
    rw [State.bankMode, State.logNear_cluster, if_pos rfl]
    rfl
  have hp : (s.logNear k kind unit pl bank o).cisternPlace k = s.cisternPlace k := funext₂ fun l x => by
    rw [State.cisternPlace, State.cisternBanksOf, hm, State.logNear_cluster, if_pos rfl]
    rfl
  have hl : (s.logNear k kind unit pl bank o).launch = s.launch := funext fun x => by rw [State.logNear_frame]; rfl
  have hc : (s.logNear k kind unit pl bank o).crew = s.crew := funext fun x => by rw [State.logNear_frame]; rfl
  rw [State.rowAt, hp, hl, hc, State.logNear_cluster, if_pos rfl]
  rfl

theorem State.scrubFifo_empty {bank : Nat} (hb : bank ≠ 31) (hr : s.rowAt k bank off = none) : s.scrubFifo k bank off = s := by
  simp [State.scrubFifo, hb, hr]

/-- Outside the shadow memory a loss is of tags and poison alone. -/
theorem State.scrubLoss_memory {unit : Nat} (h : unit ≠ 9) :
    s.scrubLoss k unit place off = { s with mem := (s.scrubLoss k unit place off).mem }
      ∧ (s.scrubLoss k unit place off).store.bytes = s.store.bytes := by
  unfold State.scrubLoss
  split
  case h_6 => exact absurd rfl h
  all_goals exact ⟨rfl, rfl⟩

theorem State.scrubLoss_shadow : s.scrubLoss k 9 place off =
    if (s.core (shadowOwner k off).1).swap.saved = [] then s
    else s.setCore (shadowOwner k off).1 { s.core (shadowOwner k off).1 with
      swap := { (s.core (shadowOwner k off).1).swap with
        lost := memberAdd (s.core (shadowOwner k off).1).swap.lost (shadowOwner k off).2 } } := rfl

theorem State.scrubLoss_shadow_frame : s.scrubLoss k 9 place off = { s with cores := (s.scrubLoss k 9 place off).cores } := by
  rw [State.scrubLoss_shadow]
  split <;> rfl

theorem State.lossKept_scrubLoss (unit : Nat) : s.lossKept (s.scrubLoss k unit place off) k := by
  by_cases h : unit = 9
  · subst h
    rw [State.scrubLoss_shadow_frame]
    exact State.lossKept_of_clusters k rfl rfl (fun _ => rfl)
  · obtain ⟨hf, hb⟩ := s.scrubLoss_memory k place off h
    refine State.lossKept_of_clusters k ?_ ?_ (fun a => by rw [Store.byte, hb]; rfl)
    · rw [hf]
    · rw [hf]

/-- A core with a saved context has lost the slot of its shadow that the error lies in. -/
theorem State.scrubLoss_lost (hs : (s.core (shadowOwner k off).1).swap.saved ≠ []) :
    (shadowOwner k off).2 ∈ ((s.scrubLoss k 9 place off).core (shadowOwner k off).1).swap.lost := by
  rw [State.scrubLoss_shadow, if_neg hs, State.setCore_core_same]
  exact mem_memberAdd.mpr (.inr rfl)

theorem State.scrubLoss_scratchpad : (s.scrubLoss k 2 place off).store.poisoned (spKey (coreAt k (place % 4)) off) 1 = true
    ∧ (s.scrubLoss k 2 place off).store.tagAt (spKey (coreAt k (place % 4)) off) = false :=
  ⟨Store.poisonGranule_poisoned _ _, Store.poisonGranule_tagAt _ _⟩

theorem State.scrubLoss_pool : (s.scrubLoss k 3 place off).store.poisoned (poolKey k (place % 32 * 131072 + off)) 1 = true
    ∧ (s.scrubLoss k 3 place off).store.tagAt (poolKey k (place % 32 * 131072 + off)) = false :=
  ⟨Store.poisonGranule_poisoned _ _, Store.poisonGranule_tagAt _ _⟩

/-- A buffer of the matrix unit loses the word. -/
theorem State.scrubLoss_matrix {unit : Nat} (h : unit = 6 ∨ unit = 7 ∨ unit = 8) :
    (s.scrubLoss k unit place off).store.poisoned (scrubKey k unit place off) 1 = true := by
  refine Store.poisoned_of_mem ?_
  obtain rfl | rfl | rfl := h <;> exact mem_memberAdd.mpr (.inr rfl)

end

/-! ### The scrub of a near memory, unit by unit -/

section
variable {s : State} {k unit place off err : Nat} (h0 : 0 < err)
include h0

theorem nearScrub_corrected (hu : unit < 10) (hk : kindOf err = 0) :
    Answer.gives (exec (.nearScrubStep k unit place off err) s) (fun t =>
      t = { s with clusters := t.clusters, dev := t.dev } ∧ s.nearLogged t k 0 (scrubRecord unit place off)
      ∧ t.cluster k = { s.cluster k with nearErr := (t.cluster k).nearErr, nearCe := (t.cluster k).nearCe }) := by
  rw [exec_nearScrubStep, execNearScrubStep_corrected h0 hk]
  refine Answer.gives_next ⟨State.logNear_frame _ _ _ _ _ _ _,
    (State.lossKept_of_clusters k rfl rfl (fun _ => rfl)).nearLogged_scrub hu 0 place off, ?_⟩
  rw [State.logNear_cluster, if_pos rfl]

/-- A parity error of code drops the line it names from the cache and from every fetch buffer. -/
theorem nearScrub_code (hk : kindOf err ≠ 0) : Answer.gives (exec (.nearScrubStep k 0 place off err) s) (fun t =>
    t = { s with cores := t.cores, clusters := t.clusters, dev := t.dev } ∧ s.nearLogged t k 0 (scrubRecord 0 place off)
    ∧ (∀ x, x ≠ coreAt k (place % 4) → t.core x = s.core x)
    ∧ t.core (coreAt k (place % 4)) = { s.core (coreAt k (place % 4)) with
        l1i := (t.core (coreAt k (place % 4))).l1i, fbufs := (t.core (coreAt k (place % 4))).fbufs }
    ∧ (∀ l, l ∈ (t.core (coreAt k (place % 4))).l1i ↔
      l ∈ (s.core (coreAt k (place % 4))).l1i ∧ (s.core (coreAt k (place % 4))).codeLines[off / 64]? ≠ some l.line)
    ∧ ∀ q l, l ∈ tabGet (t.core (coreAt k (place % 4))).fbufs [] q ↔
      l ∈ tabGet (s.core (coreAt k (place % 4))).fbufs [] q ∧ (s.core (coreAt k (place % 4))).codeLines[off / 64]? ≠ some l.line) := by
  rw [exec_nearScrubStep, execNearScrubStep_cache h0 hk (.inl rfl), State.dropLine_code]
  refine Answer.gives_next ⟨?_, (s.lossKept_setCore _ k _).nearLogged_scrub (by omega) 0 place off, fun x hx => ?_, ?_, fun l => ?_,
    fun q l => ?_⟩
  · rw [State.logNear_frame]
    rfl
  · rw [State.logNear_core, State.setCore_core, if_neg hx]
  · rw [State.logNear_core, State.setCore_core_same]
  · rw [State.logNear_core, State.setCore_core_same]
    simp
  · rw [State.logNear_core, State.setCore_core_same, tabGet_map_filter]
    simp

/-- A parity error of data drops its line. -/
theorem nearScrub_data (hk : kindOf err ≠ 0) : Answer.gives (exec (.nearScrubStep k 1 place off err) s) (fun t =>
    t = { s with cores := t.cores, clusters := t.clusters, dev := t.dev } ∧ s.nearLogged t k 0 (scrubRecord 1 place off)
    ∧ (∀ x, x ≠ coreAt k (place % 4) → t.core x = s.core x)
    ∧ t.core (coreAt k (place % 4)) = { s.core (coreAt k (place % 4)) with
        l1d := listDel (s.core (coreAt k (place % 4))).l1d (off / 64) }) := by
  rw [exec_nearScrubStep, execNearScrubStep_cache h0 hk (.inr (.inl rfl)), State.dropLine_data]
  refine Answer.gives_next ⟨?_, (s.lossKept_setCore _ k _).nearLogged_scrub (by omega) 0 place off, fun x hx => ?_, ?_⟩
  · rw [State.logNear_frame]
    rfl
  · rw [State.logNear_core, State.setCore_core, if_neg hx]
  · rw [State.logNear_core, State.setCore_core_same]

/-- A parity error of the tile cache drops the line of its bank and set. -/
theorem nearScrub_tile (hk : kindOf err ≠ 0) : Answer.gives (exec (.nearScrubStep k 4 place off err) s) (fun t =>
    t = { s with clusters := t.clusters, dev := t.dev } ∧ s.nearLogged t k 0 (scrubRecord 4 place off)
    ∧ ∀ x, x ∈ (t.cluster k).tiles ↔
      x ∈ (s.cluster k).tiles ∧ ¬(x.bank = place % 32 ∧ tileSet x.slot x.tx x.ty x.tz = off / 1024 % 128)) := by
  rw [exec_nearScrubStep, execNearScrubStep_cache h0 hk (.inr (.inr rfl))]
  refine Answer.gives_next ⟨?_, (s.lossKept_dropTile k place off).nearLogged_scrub (by omega) 0 place off, fun x => ?_⟩
  · rw [State.logNear_frame]
    rfl
  · rw [State.logNear_cluster, if_pos rfl, State.dropLine_tile, State.setCluster_cluster_same]
    simp [imp_iff_not_or]

/-- An error of a FIFO bank where no row stands is logged alone. -/
theorem nearScrub_fifo (hk : kindOf err ≠ 0) (hb : place % 32 ≠ 31) (hr : s.rowAt k (place % 32) off = none) :
    Answer.gives (exec (.nearScrubStep k 5 place off err) s) (fun t =>
      t = { s with clusters := t.clusters, mem := t.mem, dev := t.dev } ∧ s.nearLogged t k (kindOf err) (scrubRecord 5 place off)
      ∧ t.cluster k = { s.cluster k with nearErr := (t.cluster k).nearErr }) := by
  rw [exec_nearScrubStep, execNearScrubStep_fifo h0 hk, State.scrubFifo_empty _ _ _ hb ((s.logNear_rowAt k off _ _ _ _ _ _).trans hr)]
  refine Answer.gives_next ⟨?_, (State.lossKept_of_clusters k rfl rfl (fun _ => rfl)).nearLogged_scrub (by omega) _ place off, ?_⟩
  · rw [State.logNear_frame]
  · rw [State.logNear_cluster, if_pos rfl, if_neg hk]

/-- What cannot be corrected outside the caches and the queues is lost: its words are poisoned, or its slot of the shadow has lost data. -/
theorem nearScrub_lost (hk : kindOf err ≠ 0) (hu : unit ∈ [2, 3, 6, 7, 8, 9]) :
    Answer.gives (exec (.nearScrubStep k unit place off err) s) (fun t =>
      (unit ≠ 9 → t = { s with clusters := t.clusters, mem := t.mem, dev := t.dev }
        ∧ s.nearLogged t k (kindOf err) (scrubRecord unit place off)
        ∧ t.cluster k = { s.cluster k with nearErr := (t.cluster k).nearErr })
      ∧ (unit = 9 → t = { s with clusters := t.clusters, cores := t.cores, dev := t.dev }
        ∧ s.nearLogged t k (kindOf err) (scrubRecord unit place off)
        ∧ ∀ x, (s.core x).swap.saved ≠ [] → x = coreAt k (off / 196608 / 8 % 4) → off / 196608 % 8 ∈ (t.core x).swap.lost)
      ∧ (unit = 2 → t.store.poisoned (spKey (coreAt k (place % 4)) off) 1 = true
        ∧ t.store.tagAt (spKey (coreAt k (place % 4)) off) = false)
      ∧ (unit = 3 → t.store.poisoned (poolKey k (place % 32 * 131072 + off)) 1 = true
        ∧ t.store.tagAt (poolKey k (place % 32 * 131072 + off)) = false)
      ∧ (unit = 6 → t.store.poisoned (opKey k off) 1 = true) ∧ (unit = 7 → t.store.poisoned (accKey k off) 1 = true)
      ∧ (unit = 8 → t.store.poisoned (weightKey k (off / 40960) (off % 40960)) 1 = true)) := by
  have hl : unit < 10 := by
    simp only [List.mem_cons, List.not_mem_nil, or_false] at hu
    omega
  have hlog := (s.lossKept_scrubLoss k place off unit).nearLogged_scrub hl (kindOf err) place off
  rw [exec_nearScrubStep, execNearScrubStep_lost h0 hk hu]
  refine Answer.gives_next ⟨fun h9 => ⟨?_, hlog, ?_⟩, ?_, ?_, ?_, ?_, ?_, ?_⟩
  · rw [State.logNear_frame, (s.scrubLoss_memory k place off h9).1]
  · rw [State.logNear_cluster, if_pos rfl, if_neg hk, (s.scrubLoss_memory k place off h9).1]
    rfl
  · rintro rfl
    refine ⟨?_, hlog, fun x hs hx => ?_⟩
    · rw [State.logNear_frame, State.scrubLoss_shadow_frame]
    · subst hx
      rw [State.logNear_core]
      exact s.scrubLoss_lost k place off hs
  all_goals
    rintro rfl
    rw [State.logNear_store]
  · exact s.scrubLoss_scratchpad k place off
  · exact s.scrubLoss_pool k place off
  · exact s.scrubLoss_matrix k place off (.inl rfl)
  · exact s.scrubLoss_matrix k place off (.inr (.inl rfl))
  · exact s.scrubLoss_matrix k place off (.inr (.inr rfl))

end

/-! ### The scrub of a vault (R79, R85) -/

/-- What an error of a vault does before it is logged: a corrected one counts for its row, and one that no line of the L2 stands before
loses its granule. -/
def State.vaultLoss (s : State) (v off err : Nat) : State :=
  if kindOf err = 0 then s.setVault v { s.vault v with
    rowErrs := tabPut (s.vault v).rowErrs (off / vaultRow) (tabGet (s.vault v).rowErrs 0 (off / vaultRow) + 1) }
  else if s.inL2 (s.vaultAddr v off) then s else s.loseGranule (s.vaultAddr v off)

section
variable (s : State) {v off err : Nat}

theorem exec_vaultScrubStep_vault (hv : v < 32) (ho : off < 384 * 1048576) (h0 : 0 < err) : exec (.vaultScrubStep v off err) s =
    .next ((s.vaultLoss v off err).logFar v (kindOf err) 12 0 (s.vaultAddr v off / 8 * 8)) := by
  change execVaultScrubStep v off err s = _
  unfold execVaultScrubStep State.vaultError State.vaultLoss
  rw [if_neg (by omega), if_pos hv, if_pos ho, errKind_eq_kindOf]
  simp only [errCorrected_iff]

theorem State.vaultLoss_kept (v off err : Nat) : s.vaultLoss v off err = { s with mem := (s.vaultLoss v off err).mem }
    ∧ (s.vaultLoss v off err).mem.farErr = s.mem.farErr ∧ ∀ a, (s.vaultLoss v off err).store.byte a = s.store.byte a := by
  unfold State.vaultLoss
  split
  · exact ⟨rfl, rfl, fun _ => rfl⟩
  · split
    · exact ⟨rfl, rfl, fun _ => rfl⟩
    · exact ⟨State.spoil_frame _ _ _, State.spoil_farErr _ _ _, State.byte_spoil _ _ _⟩

theorem State.setVault_vault (v : Nat) (x : Vault) (y : Nat) : (s.setVault v x).vault y = if y = v then x else s.vault y :=
  tabGet_tabPut _ _ _ _ _

theorem vaultScrub_gives (hv : v < 32) (ho : off < 384 * 1048576) (h0 : 0 < err) :
    Answer.gives (exec (.vaultScrubStep v off err) s) (fun t =>
      s.farLogged t v (kindOf err) (12 * 2 ^ 56 + s.vaultAddr v off / 8 * 8 % 2 ^ 48)
      ∧ (kindOf err ≠ 0 → s.inL2 (s.vaultAddr v off) = true → t.store = s.store)
      ∧ (kindOf err ≠ 0 → s.inL2 (s.vaultAddr v off) = false →
        t.store.poisoned (s.vaultAddr v off) 1 = true ∧ t.store.tagAt (s.vaultAddr v off) = false)
      ∧ (kindOf err = 0 → t.store = s.store
        ∧ tabGet (t.vault v).rowErrs 0 (off / 2048) = tabGet (s.vault v).rowErrs 0 (off / 2048) + 1)) := by
  obtain ⟨hf, he, hb⟩ := s.vaultLoss_kept v off err
  rw [exec_vaultScrubStep_vault s hv ho h0]
  refine Answer.gives_next ⟨State.farLogged_logFar hf he hb _ _ _ _ _, fun hk hi => ?_, fun hk hi => ?_, fun hk => ?_⟩
  · rw [State.logFar_store, State.vaultLoss, if_neg hk, if_pos hi]
  · rw [State.logFar_store, State.vaultLoss, if_neg hk, if_neg (by simp [hi])]
    exact ⟨s.loseGranule_poisoned _, s.loseGranule_tagAt _⟩
  · rw [State.logFar_store, State.logFar_vault, State.vaultLoss, if_pos hk]
    refine ⟨rfl, ?_⟩
    rw [State.setVault_vault, if_pos rfl]
    exact tabGet_tabPut_same _ _ _ _

end

/-! ### Sensors, alarm source 3 and refreshes (R81, R86, R397, R398) -/

section
variable (s : State)

theorem State.retimeAll_frame : s.retimeAll = { s with clusters := s.retimeAll.clusters } :=
  foldl_keeps (fun t : State => t = { s with clusters := t.clusters }) State.retime (List.range 32) s rfl
    (fun x k hx => by rw [State.retime, State.setCluster, hx])

/-- Only the alarms, the clocks and the interrupts have changed. -/
def State.alarmKept (t : State) : Prop := t = { s with power := t.power, clusters := t.clusters, dev := t.dev }

theorem State.alarmKept.retimeAll {s t : State} (h : s.alarmKept t) : s.alarmKept t.retimeAll := by
  unfold State.alarmKept at *
  rw [State.retimeAll_frame, h]

theorem State.assertSource_frame (i : Nat) : s.alarmKept (s.assertSource i) := by
  unfold State.assertSource
  dsimp only
  split
  · rfl
  · split
    · rfl
    · exact State.alarmKept.retimeAll rfl

theorem State.assertSource_bit (i : Nat) : bit (s.assertSource i).power.sources i = true := by
  unfold State.assertSource
  dsimp only
  split
  · next h => exact h
  · next h =>
    have hb := bit_add_pow (eq_false_of_ne_true h)
    split
    · exact hb
    · rw [State.retimeAll_frame]
      exact hb

theorem State.clearSource_frame (i : Nat) : s.clearSource i = { s with power := (s.clearSource i).power } := by
  unfold State.clearSource
  dsimp only
  split <;> rfl

theorem State.updateCritical_frame : s.alarmKept s.updateCritical := by
  unfold State.updateCritical
  split
  · exact s.assertSource_frame 3
  · unfold State.alarmKept
    rw [State.clearSource_frame]

theorem mem_tabPut_self {α : Type} (t : Tab α) (k : Nat) (v : α) : (k, v) ∈ tabPut t k v := by
  induction t with
  | nil => simp [tabPut]
  | cons e rest ih =>
    unfold tabPut
    split
    · exact List.mem_cons_self
    · split
      · exact List.mem_cons_self
      · exact List.mem_cons_of_mem _ ih

/-- A reading of 115 degrees or more asserts source 3 (R397). -/
theorem State.updateCritical_hot (v : Nat) (x : Vault) (h : 115 ≤ x.temp) :
    bit (s.setVault v x).updateCritical.power.sources 3 = true := by
  have hc : (s.setVault v x).critical = true := by
    rw [State.critical, Bool.or_eq_true, List.any_eq_true]
    exact .inl ⟨_, mem_tabPut_self _ v x, by simpa using h⟩
  rw [State.updateCritical, if_pos hc]
  exact State.assertSource_bit _ 3

theorem leaveReading_eq (cls : Nat) : leaveReading cls = if cls = 1 then 82 else if cls = 2 then 92 else 102 := by
  unfold leaveReading
  split
  · rfl
  · rfl
  · next h1 h2 => rw [if_neg h1, if_neg h2]

theorem vaultTempSample_gives (v : Nat) (z : Int) (hv : v < 32) : Answer.gives (exec (.vaultTempSample v z) s) (fun t =>
    t = { s with mem := t.mem, power := t.power, dev := t.dev, clusters := t.clusters } ∧ t.store = s.store
    ∧ (∀ x, x ≠ v → t.vault x = s.vault x) ∧ t.vault v = { s.vault v with temp := z, cls := nextClass (s.vault v).cls z }
    ∧ (115 ≤ z → bit t.power.sources 3 = true)) := by
  have e : exec (.vaultTempSample v z) s =
      .next (s.setVault v { s.vault v with temp := z, cls := nextClass (s.vault v).cls z }).updateCritical :=
    if_neg (by omega)
  rw [e]
  refine Answer.gives_next ⟨?_, ?_, fun x hx => ?_, ?_, fun h => s.updateCritical_hot v _ h⟩
  · rw [State.updateCritical_frame]
    rfl
  · rw [State.updateCritical_frame]
    rfl
  · rw [State.updateCritical_frame]
    exact (s.setVault_vault v _ x).trans (if_neg hx)
  · rw [State.updateCritical_frame]
    exact (s.setVault_vault v _ v).trans (if_pos rfl)

theorem vaultRefresh_gives (v : Nat) (hv : v < 32) : Answer.gives (exec (.vaultRefresh v) s) (fun t =>
    t = { s with mem := t.mem } ∧ t.store = s.store ∧ (∀ x, x ≠ v → t.vault x = s.vault x)
    ∧ t.vault v = { s.vault v with refreshes := (s.vault v).refreshes + 1 }) := by
  have e : exec (.vaultRefresh v) s = .next (s.setVault v { s.vault v with refreshes := (s.vault v).refreshes + 1 }) :=
    congrArg Host.Outcome.next (if_pos hv)
  rw [e]
  exact Answer.gives_next ⟨rfl, rfl, fun x hx => (s.setVault_vault v _ x).trans (if_neg hx), (s.setVault_vault v _ v).trans (if_pos rfl)⟩

theorem perBankRefresh_gives (n : Nat) (hn : n < 16) : Answer.gives (exec (.perBankRefresh n) s) (fun t =>
    t = { s with mem := { s.mem with dramRefreshes := t.mem.dramRefreshes } }
    ∧ ∀ x, tabGet t.mem.dramRefreshes 0 x = tabGet s.mem.dramRefreshes 0 x + if x = n then 1 else 0) := by
  change Answer.gives (execPerBankRefresh n s) _
  unfold execPerBankRefresh
  rw [Nat.mod_eq_of_lt hn]
  refine Answer.gives_next ⟨rfl, fun x => ?_⟩
  dsimp only
  rw [tabGet_tabPut]
  split
  · next h => rw [h]
  · rfl

end

/-- Settles O41: each error is one loss, which leaves the logs alone, followed by its log; the loss is told by the unit. -/
theorem scrubsAndSensors : Obligations.ScrubsAndSensors := by
  unfold Obligations.ScrubsAndSensors
  intro s
  refine ⟨fun _ _ _ _ => rfl, fun k unit place off err hu h0 => ⟨nearScrub_corrected h0 hu, ?_, ?_, ?_, ?_, nearScrub_lost h0⟩,
    fun _ _ => rfl, fun v off err hv ho h0 => vaultScrub_gives s hv ho h0, fun v z hv => ?_, vaultRefresh_gives s,
    fun z => Answer.gives_next rfl, perBankRefresh_gives s⟩
  · rintro hk rfl
    exact nearScrub_code h0 hk
  · rintro hk rfl
    exact nearScrub_data h0 hk
  · rintro hk rfl
    exact nearScrub_tile h0 hk
  · rintro hk rfl hb hr
    exact nearScrub_fifo h0 hk hb hr
  · have h := vaultTempSample_gives s v z hv
    simp only [nextClass, leaveReading_eq] at h
    exact h

end Sys2Proof.Machine
end

section
/-! ## O55: a step runs the decoded instruction -/

namespace Sys2Proof.Machine

open Sys2Proof

/-! ### Which agent a step issues (R234, log entries 1 and 2) -/

section
variable {s u : State}

/-- The wave that is selected, or that heads the schedule, issues. -/
theorem step_wave {w : Nat} (h : (s.agenda = [] ∧ s.cur = .wave w ∧ u = s)
    ∨ (∃ rest, s.agenda = .wave w :: rest ∧ u = { s with agenda := rest, cur := .wave w })) : step s = runIssued (u.issueWave w) := by
  obtain ⟨ha, hc, rfl⟩ | ⟨rest, ha, rfl⟩ := h
  · simp only [step, ha, State.runCurrent, hc, State.issue]
  · simp only [step, ha, State.runChoice, State.issue]

/-- The sequencer that is selected, or that heads the schedule, issues. -/
theorem step_seq {k : Nat} (h : (s.agenda = [] ∧ s.cur = .seq k ∧ u = s)
    ∨ (∃ rest, s.agenda = .seq k :: rest ∧ u = { s with agenda := rest, cur := .seq k })) : step s = runIssued (u.issueSeq k) := by
  obtain ⟨ha, hc, rfl⟩ | ⟨rest, ha, rfl⟩ := h
  · simp only [step, ha, State.runCurrent, hc, State.issue]
  · simp only [step, ha, State.runChoice, State.issue]

/-- A load that performs in part does so where its issue would execute it (R91, log entry 27). -/
theorem step_part {w n : Nat} {rest : List Choice} {t : State} {i : Instr} (ha : s.agenda = .part w n :: rest)
    (hi : ({ s with agenda := rest, cur := .wave w } : State).issueWave w = (t, some i)) : step s = .next (t.loadPart w i n) := by
  simp only [step, ha, State.runChoice, State.issue, hi]

theorem step_tick {n : Nat} {rest : List Choice} (ha : s.agenda = .tick n :: rest) :
    step s = .next (({ s with agenda := rest } : State).tick n) := by
  simp only [step, ha, State.runChoice]

theorem step_event {i : Instr} {rest : List Choice} (ha : s.agenda = .event i :: rest) :
    step s = ({ s with agenda := rest } : State).runEvent i := by
  simp only [step, ha, State.runChoice]

end

/-! ### What the issue of an agent gives (R234, R235, R376) -/

section
variable {u s1 s2 : State} {w k x lit va : Nat} {i : Instr} {c : Cause}

/-- A load that has performed in part goes on. -/
theorem issueWave_sent (ht : u.waveTurn w = some s1) (hl : (s1.wave w).sentLoad = some i) :
    u.issueWave w = (s1.ordered w i, some i) := by
  simp only [State.issueWave, ht, hl]

/-- A decoded word is executed, unless the watchdog has expired and the word has no operand fault of its own. -/
theorem issueWave_word (ht : u.waveTurn w = some s1) (hl : (s1.wave w).sentLoad = none) (hf : s1.fetchWave w = (s2, .words x lit))
    (hd : decodeThread x lit = .ok i) (hw : s2.wdExpired w = false ∨ s2.badOperand w i = true) :
    u.issueWave w = (s2.ordered w i, some i) := by
  have h : ¬(s2.wdExpired w = true ∧ s2.badOperand w i = false) := by
    rintro ⟨h1, h2⟩
    simp [h1, h2] at hw
  simp only [State.issueWave, ht, hl, hf, hd, if_neg h]

/-- A word that does not decode traps in the occupied lanes (log entry 35). -/
theorem issueWave_undecoded (ht : u.waveTurn w = some s1) (hl : (s1.wave w).sentLoad = none)
    (hf : s1.fetchWave w = (s2, .words x lit)) (hd : decodeThread x lit = .error c) :
    u.issueWave w = (s2.plainTrap w c (wordSkip x), none) := by
  simp only [State.issueWave, ht, hl, hf, hd]

/-- A word that cannot be fetched traps (R376, log entry 24). -/
theorem issueWave_bad (ht : u.waveTurn w = some s1) (hl : (s1.wave w).sentLoad = none) (hf : s1.fetchWave w = (s2, .bad c va k))
    (hw : s2.wdExpired w = false) : u.issueWave w = (s2.fetchTrap w c va k, none) := by
  simp [State.issueWave, ht, hl, hf, hw]

theorem issueSeq_word (ht : u.seqTurn k = true)
    (hf : u.fetchAt (u.seqEnv k) 0 (u.seqOf k).seg (u.seqOf k).word = (s2, .words x lit)) (hd : decodeSequencer x lit = .ok i) :
    u.issueSeq k = (s2, some i) := by
  simp [State.issueSeq, ht, hf, hd]

theorem issueSeq_undecoded (ht : u.seqTurn k = true)
    (hf : u.fetchAt (u.seqEnv k) 0 (u.seqOf k).seg (u.seqOf k).word = (s2, .words x lit)) (hd : decodeSequencer x lit = .error c) :
    u.issueSeq k = (s2.seqFault k c, none) := by
  simp [State.issueSeq, ht, hf, hd]

end

/-! ### Time on a machine that holds no unit (R2) -/

section
variable {s : State}

theorem State.openReads_empty (h : s.clusters = []) : s.openReads = s := by
  cases s
  cases h
  rfl

theorem State.arriveDue_empty (h : s.mem.arrivals = []) : s.arriveDue = s := by
  unfold State.arriveDue
  rw [h, List.filter_nil, List.filter_nil]
  change ({ s with mem := { s.mem with arrivals := [] } } : State) = s
  rw [← h]

theorem State.reportTiles_empty (h : s.clusters = []) : s.reportTiles = s := by
  unfold State.reportTiles
  rw [h]
  rfl

theorem State.fallDeadlines_empty (h : s.launches = []) : s.fallDeadlines = s := by
  unfold State.fallDeadlines
  rw [h]
  rfl

theorem State.tick_empty (n : Nat) (hc : s.clusters = []) (hl : s.launches = []) (ha : s.mem.arrivals = []) :
    s.tick n = { s with dt := s.dt + n } := by
  have h : ∀ t : State, t.clusters = [] → t.launches = [] → t.mem.arrivals = [] →
      t.openReads.arriveDue.reportTiles.fallDeadlines = t := fun t hc hl ha => by
    rw [State.openReads_empty hc, State.arriveDue_empty ha, State.reportTiles_empty hc, State.fallDeadlines_empty hl]
  exact h { s with dt := s.dt + n } hc hl ha

end

/-! ### The word of a line (R44, R47, R127) -/

/-- A number that is put together bit by bit lies below the next power. -/
theorem foldl_bits_lt (p : Nat → Bool) (n : Nat) :
    (List.range n).foldl (fun x i => if p i then x + 2 ^ i else x) 0 < 2 ^ n := by
  induction n with
  | zero => simp
  | succ n ih =>
    rw [List.range_succ, List.foldl_append, List.foldl_cons, List.foldl_nil, pow_succ]
    split <;> omega

/-- Each bit of it is the one that was put in. -/
theorem bit_foldl_bits (p : Nat → Bool) {n j : Nat} (h : j < n) :
    bit ((List.range n).foldl (fun x i => if p i then x + 2 ^ i else x) 0) j = p j := by
  induction n with
  | zero => omega
  | succ n ih =>
    have hlt := foldl_bits_lt p n
    rw [List.range_succ, List.foldl_append, List.foldl_cons, List.foldl_nil]
    generalize (List.range n).foldl (fun x i => if p i then x + 2 ^ i else x) 0 = y at hlt ih ⊢
    obtain rfl | hj := Nat.eq_or_lt_of_le (Nat.le_of_lt_succ h)
    · cases hp : p j
      · simp [bit, Nat.div_eq_of_lt hlt]
      · exact bit_add_pow (by simp [bit, Nat.div_eq_of_lt hlt])
    · rw [← ih hj]
      split
      · have ht : (2 ^ n + y).testBit j = y.testBit j := Nat.testBit_two_pow_add_gt hj y
        simpa [Nat.testBit_eq_decide_div_mod_eq, bit, Nat.add_comm] using ht
      · rfl

theorem drop_readBytes (m : Store) (a i n : Nat) : (m.readBytes a (i + n)).drop i = m.readBytes (a + i) n := by
  induction i generalizing a with
  | zero => simp
  | succ i ih => rw [Nat.add_right_comm, Store.readBytes, List.drop_succ_cons, ih, Nat.add_assoc, Nat.add_comm 1]

theorem natOfBytes_take_readBytes (m : Store) (a k n : Nat) : natOfBytes ((m.readBytes a (k + n)).take k) = m.readNat a k := by
  induction k generalizing a with
  | zero => simp [natOfBytes, Store.readNat]
  | succ k ih => rw [Nat.add_right_comm, Store.readBytes, List.take_succ_cons, natOfBytes, ih, Store.readNat]

/-- A line filled from memory gives each of its words as memory holds it. -/
theorem iLineOf_word (m : Store) {pa : Nat} (h : pa % 8 = 0) : (iLineOf m (pa / 64)).word pa = m.codeWord pa := by
  have hb : 64 * (pa / 64) + 8 * (pa % 64 / 8) = pa := by omega
  have hw : 64 * (pa / 64) + pa % 64 = pa := by omega
  have hr : natOfBytes (((m.readBytes (64 * (pa / 64)) 64).drop (pa % 64)).take 8) = m.readNat pa 8 := by
    have hs : 64 = pa % 64 + (8 + (56 - pa % 64)) := by omega
    rw [congrArg (m.readBytes (64 * (pa / 64))) hs, drop_readBytes, hw, natOfBytes_take_readBytes]
  have hp := bit_foldl_bits (fun i => m.poisoned (64 * (pa / 64) + 8 * i) 8) (show pa % 64 / 8 < 8 by omega)
  simp only [hb] at hp
  rw [ILine.word, Store.codeWord, iLineOf, hr]
  exact congrArg (Prod.mk _) hp

section
variable (s : State) {c q pa : Nat}

theorem State.fillL1i_frame (line : Nat) : (s.fillL1i c line).store = s.store ∧ (s.fillL1i c line).waves = s.waves
    ∧ (s.fillL1i c line).groups = s.groups := by
  unfold State.fillL1i
  dsimp only
  split
  · exact ⟨s.touchRead_store _ _, rfl, rfl⟩
  · rw [State.logNear_frame]
    exact ⟨s.touchRead_store _ _, rfl, rfl⟩

theorem State.fetchLine_held {l : ILine} (h : s.bufLine c q (pa / 64) = some l) : s.fetchLine c q (pa / 64) = (s, l) := by
  simp only [State.fetchLine, h]

/-- A line that neither a fetch buffer nor the cache holds is filled with what memory holds. -/
theorem State.fetchLine_missed (hb : s.bufLine c q (pa / 64) = none) (hi : s.iLine c (pa / 64) = none) :
    ∃ t, s.fetchLine c q (pa / 64) = (t, iLineOf s.store (pa / 64))
      ∧ t.store = s.store ∧ t.waves = s.waves ∧ t.groups = s.groups := by
  obtain ⟨hs, hw, hg⟩ := s.fillL1i_frame (c := c) (pa / 64)
  refine ⟨(s.fillL1i c (pa / 64)).fillBuf c q (iLineOf s.store (pa / 64)), ?_, hs, hw, hg⟩
  simp only [State.fetchLine, hb, hi, hs]

theorem State.chosenWord_cases (x : ILine) (pa : Nat) : s.chosenWord x pa = x.word pa ∨ s.chosenWord x pa = s.store.codeWord pa := by
  unfold State.chosenWord
  split
  · exact .inl rfl
  · split
    · exact .inr rfl
    · exact .inl rfl

theorem State.chosenWord_current {x : ILine} (h : x.word pa = s.store.codeWord pa) : s.chosenWord x pa = s.store.codeWord pa :=
  (s.chosenWord_cases x pa).elim (fun e => e.trans h) id

end

/-! ### The fetch of a word and of an instruction (R47, R127, R164, R228) -/

section
variable {s s1 : State} {e : Env} {q va pa cls : Nat}

/-- A sequencer reads at the home (log entry 23). -/
theorem fetchWord_home (ht : s.translate e va .fetch = .ok (s1, pa, cls)) (he : e.core = none) :
    s.fetchWord e q va = .ok (s1.touchRead pa 8, s1.store.codeWord pa) := by
  simp only [State.fetchWord, ht, he]

theorem fetchWord_core {c : Nat} (ht : s.translate e va .fetch = .ok (s1, pa, cls)) (he : e.core = some c) {t : State} {l : ILine}
    (hl : s1.fetchLine c q (pa / 64) = (t, l)) : s.fetchWord e q va = .ok (t, t.chosenWord l pa) := by
  simp only [State.fetchWord, ht, he, hl]

theorem fetchWord_missed {c : Nat} (ht : s.translate e va .fetch = .ok (s1, pa, cls)) (he : e.core = some c)
    (hb : s1.bufLine c q (pa / 64) = none) (hi : s1.iLine c (pa / 64) = none) (ha : pa % 8 = 0) :
    ∃ s2, s.fetchWord e q va = .ok (s2, s1.store.codeWord pa) ∧ s2.store = s1.store ∧ s2.waves = s1.waves ∧ s2.groups = s1.groups := by
  obtain ⟨t, hl, hs, hw, hg⟩ := s1.fetchLine_missed hb hi
  have hx : (iLineOf s1.store (pa / 64)).word pa = t.store.codeWord pa := hs ▸ iLineOf_word _ ha
  exact ⟨t, by rw [fetchWord_core ht he hl, t.chosenWord_current hx, hs], hs, hw, hg⟩

theorem fetchWord_held {c : Nat} {l : ILine} (ht : s.translate e va .fetch = .ok (s1, pa, cls)) (he : e.core = some c)
    (hb : s1.bufLine c q (pa / 64) = some l) :
    ∃ x, s.fetchWord e q va = .ok (s1, x) ∧ (x = l.word pa ∨ x = s1.store.codeWord pa) :=
  ⟨_, fetchWord_core ht he (s1.fetchLine_held hb), s1.chosenWord_cases l pa⟩

end

/-- The address of a word of a segment (R164). -/
def State.codeVa (s : State) (e : Env) (seg word : Nat) : Nat :=
  ((s.launch e.launch).codeBase + 8 * (((s.launch e.launch).mod_.segOf seg).first + word)) % 2 ^ 48

section
variable {s s1 s2 : State} {e : Env} {q seg word x y : Nat}

theorem fetchAt_outside (h : ((s.launch e.launch).mod_.segOf seg).len ≤ word) : s.fetchAt e q seg word = (s, .outside) := by
  simp only [State.fetchAt, if_pos h]

theorem fetchAt_word (h : word < ((s.launch e.launch).mod_.segOf seg).len)
    (hf : s.fetchWord e q (s.codeVa e seg word) = .ok (s1, x, false)) (hx : isLitWord x = false) :
    s.fetchAt e q seg word = (s1, .words x 0) := by
  rw [State.codeVa] at hf
  simp only [State.fetchAt, if_neg (Nat.not_le.mpr h), hf, hx]
  rfl

theorem fetchAt_poisoned (h : word < ((s.launch e.launch).mod_.segOf seg).len)
    (hf : s.fetchWord e q (s.codeVa e seg word) = .ok (s1, x, true)) :
    s.fetchAt e q seg word = (s1, .bad .poison (s.codeVa e seg word) 1) := by
  rw [State.codeVa] at hf ⊢
  simp only [State.fetchAt, if_neg (Nat.not_le.mpr h), hf]
  rfl

/-- A LIT comes with the word behind it (R228). -/
theorem fetchAt_literal (h : word + 1 < ((s.launch e.launch).mod_.segOf seg).len)
    (hf : s.fetchWord e q (s.codeVa e seg word) = .ok (s1, x, false)) (hx : isLitWord x = true)
    (hl : s1.fetchWord e q ((s.codeVa e seg word + 8) % 2 ^ 48) = .ok (s2, y, false)) :
    s.fetchAt e q seg word = (s2, .words x y) := by
  rw [State.codeVa] at hf hl
  have h0 : ¬((s.launch e.launch).mod_.segOf seg).len ≤ word := by omega
  simp only [State.fetchAt, if_neg h0, if_neg (Nat.not_le.mpr h), hf, hx, hl]
  rfl

end

/-- Settles O55: a step is the issue of its agent, and each of the cases of an issue is told by its turn, its fetch and its decoding. -/
theorem stepRunsDecoded : Obligations.StepRunsDecoded := by
  unfold Obligations.StepRunsDecoded
  intro s
  refine ⟨fun w u hu s1 ht => ⟨fun i hl => ?_, fun hl s2 =>
      ⟨fun x lit hf => ⟨fun i hd hw => ?_, fun c hd => ?_⟩, fun c va k hf hw => ?_⟩⟩,
    fun w n rest s1 ha => ?_, fun k u hu s2 x lit ht hf => ⟨fun i hd => ?_, fun c hd => ?_⟩,
    fun i rest u ha hu he hwf => ⟨fun hn hk => ?_, fun hn => ?_⟩, fun n rest u ha hu => ⟨?_, fun hc hl hm => ?_⟩,
    fun e q va s1 pa cls ht => ⟨fetchWord_home ht, fun c => fetchWord_missed ht, fun c l => fetchWord_held ht⟩,
    fun e q seg word => ⟨fetchAt_outside, fun s1 x => fetchAt_word, fun s1 x => fetchAt_poisoned, fun s1 x s2 y => fetchAt_literal⟩⟩
  · rw [step_wave hu, issueWave_sent ht hl]
    rfl
  · rw [step_wave hu, issueWave_word ht hl hf hd hw]
    rfl
  · rw [step_wave hu, issueWave_undecoded ht hl hf hd]
    rfl
  · rw [step_wave hu, issueWave_bad ht hl hf hw]
    rfl
  · exact fun ht => ⟨fun i hl => step_part ha (issueWave_sent ht hl),
      fun hl s2 x lit i hf hd hw => step_part ha (issueWave_word ht hl hf hd (.inl hw))⟩
  · rw [step_seq hu, issueSeq_word ht hf hd]
    rfl
  · rw [step_seq hu, issueSeq_undecoded ht hf hd]
    rfl
  · rw [step_event ha, ← hu]
    exact if_pos ⟨he, hwf, hn, hk⟩
  · rw [step_event ha, ← hu]
    exact if_neg (fun ⟨_, _, h1, h2⟩ => by simp [h1, h2] at hn)
  · rw [step_tick ha, hu]
  · subst hu
    rw [step_tick ha]
    exact congrArg Host.Outcome.next (State.tick_empty n hc hl hm)

end Sys2Proof.Machine
end

section
/-! ## O56: what the registers read after reset -/

namespace Sys2Proof.Machine

open Sys2Proof

/-! ### The units of the machine at reset -/

theorem State.reset_cluster (k : Nat) : State.reset.cluster k = ClusterSt.reset := rfl
theorem State.reset_core (c : Nat) : State.reset.core c = CoreSt.reset := rfl
theorem State.reset_vault (v : Nat) : State.reset.vault v = Vault.reset := rfl
theorem State.reset_hostQ (q : Nat) : State.reset.hostQ q = HostQ.reset := rfl

/-! ### Registers of a cluster, a core and a vault -/

/-- CSLR, ISSUE_THR, RAIL_CTL, POOL_CMD, the near-memory log and the energy count of a cluster (R51, R144, R369, R370, R395). -/
theorem State.reset_clusterRegs (k : Nat) :
    State.reset.regValue (.cslr k) = 30 * 2 ^ 16 + 7 * 2 ^ 8 + 60 ∧ State.reset.regValue (.issueThr k) = 8
    ∧ State.reset.regValue (.railCtl k) = 0 ∧ State.reset.regValue (.poolCmd k) = 0 ∧ State.reset.regValue (.nearErr k) = 0
    ∧ State.reset.regValue (.nearCe k) = 0 ∧ State.reset.regValue (.energyCl k) = 0 := by
  simp only [State.regValue, State.reset_cluster]
  decide

/-- The modes of the pool banks (R51). -/
theorem State.reset_bankMode (k b : Nat) : State.reset.bankMode k b = if b < 8 then 0 else if b < 30 then 1 else 2 := rfl

/-- VAULT_STAT: nothing is reserved, and the whole capacity of class 0 is free (R81, R82). -/
theorem State.reset_vaultStat (v : Nat) : State.reset.regValue (.vaultStat v) = 122880 := by
  simp only [State.regValue, State.vaultStat, State.reset_vault]
  decide

/-- CORE_SRAM with the split of 224 KiB, and SWAP_CTL (R45, R384). -/
theorem State.reset_coreRegs (c : Nat) :
    State.reset.regValue (.coreSram c) = 224 * 2 ^ 8 ∧ State.reset.regValue (.swapCtl c) = 0 := by
  have hl : State.reset.coreCrews c = [] := rfl
  simp only [State.regValue, State.coreSram, State.reset_core, hl]
  decide

/-- A host queue and its completion ring (R349, R405). -/
theorem State.reset_queueRegs (q : Nat) :
    State.reset.regValue (.cqBase q) = 0 ∧ State.reset.regValue (.cqTail q) = 0 ∧ State.reset.regValue (.cqHead q) = 0
    ∧ State.reset.regValue (.crBase q) = 0 ∧ State.reset.regValue (.crTail q) = 0 ∧ State.reset.regValue (.crHead q) = 0 := by
  simp only [State.regValue, State.reset_hostQ]
  decide

/-! ### Memory and the units that hold nothing -/

theorem State.reset_byte (a : Nat) : State.reset.store.byte a = 0 := rfl
theorem State.reset_noWave (w : Nat) : tabFind State.reset.waves w = none := rfl
theorem State.reset_noLaunch (l : Nat) : tabFind State.reset.launches l = none := rfl

/-- Settles O56: every unit reads its reset value whatever its number; the registers of the device are closed values. -/
theorem resetValues : Obligations.ResetValues := by
  unfold Obligations.ResetValues
  refine ⟨rfl, State.reset_memoryCanonical, State.reset_noWave, State.reset_noLaunch, State.reset_byte, State.reset_queueRegs,
    fun k => ?_, State.reset_vaultStat, State.reset_coreRegs, ?_⟩
  · obtain ⟨hcslr, hthr, hrail, hpool, herr, hce, henergy⟩ := State.reset_clusterRegs k
    exact ⟨hcslr, hthr, hrail, hpool, herr, hce, henergy, fun b _ => State.reset_bankMode k b⟩
  · decide

end Sys2Proof.Machine
end

section
/-! ## O60: what an error of the L2, of its tag entries and of the external DRAM loses, and where it is logged -/

namespace Sys2Proof.Machine

open Sys2Proof

/-! ### Words and granules of a line (R24, R66) -/

/-- A run of bytes that begins in a poisoned word is poisoned. -/
theorem Store.poisoned_of_mem_pos {m : Store} {a n : Nat} (hn : 0 < n) (h : a / 8 ∈ m.poison) : m.poisoned a n = true := by
  rw [Store.poisoned, List.any_eq_true]
  refine ⟨a / 8, h, ?_⟩
  simp only [Bool.and_eq_true, decide_eq_true_eq]
  omega

theorem mem_foldl_memberAdd {ws l : List Nat} {x : Nat} : x ∈ ws.foldl memberAdd l ↔ x ∈ l ∨ x ∈ ws := by
  induction ws generalizing l with
  | nil => simp
  | cons w rest ih => rw [List.foldl_cons, ih, mem_memberAdd, List.mem_cons, or_assoc]

theorem mem_foldl_memberDel {gs l : List Nat} {x : Nat} : x ∈ gs.foldl memberDel l ↔ x ∈ l ∧ x ∉ gs := by
  induction gs generalizing l with
  | nil => simp
  | cons g rest ih => rw [List.foldl_cons, ih, mem_memberDel, List.mem_cons, not_or, and_assoc]

/-- The word of an address that an error spoils is poisoned. -/
theorem State.spoil_poisoned (s : State) {ws : List Nat} (gs : List Nat) {a n : Nat} (hn : 0 < n) (h : a / 8 ∈ ws) :
    (s.spoil ws gs).store.poisoned a n = true := by
  refine Store.poisoned_of_mem_pos hn ?_
  rw [State.spoil_store]
  exact mem_foldl_memberAdd.mpr (.inr h)

/-- The granule of an address whose tag an error clears is untagged. -/
theorem State.spoil_tagAt (s : State) (ws : List Nat) {gs : List Nat} {a : Nat} (h : a / 16 ∈ gs) :
    (s.spoil ws gs).store.tagAt a = false := by
  refine Store.tagAt_of_notMem ?_
  rw [State.spoil_store]
  exact fun hm => (mem_foldl_memberDel.mp hm).2 h

theorem wordOf_line_mem (line : Nat) {i : Nat} (hi : i < 16) : (128 * line + 8 * i) / 8 ∈ lineWordNos line :=
  List.mem_map.mpr ⟨i, List.mem_range.mpr hi, by omega⟩

theorem granuleOf_line_mem (line : Nat) {i : Nat} (hi : i < 16) : (128 * line + 8 * i) / 16 ∈ lineGranules line :=
  List.mem_map.mpr ⟨i / 2, List.mem_range.mpr (by omega), by omega⟩

/-- The word of an address stands in the line of the address. -/
theorem wordOf_mem_lineWordNos (a : Nat) : a / 8 ∈ lineWordNos (a / 128) :=
  List.mem_map.mpr ⟨a / 8 % 16, List.mem_range.mpr (by omega), by omega⟩

/-! ### A loss leaves the logs alone (R79) -/

/-- What an error of an outer memory does before it is logged: it is within memory, and the logs and the bytes stay. -/
def State.farKept (s u : State) : Prop :=
  u = { s with mem := u.mem } ∧ u.mem.farErr = s.mem.farErr ∧ ∀ a, u.store.byte a = s.store.byte a

theorem State.farKept.refl (s : State) : s.farKept s := ⟨rfl, rfl, fun _ => rfl⟩

theorem State.farKept_spoil (s : State) (ws gs : List Nat) : s.farKept (s.spoil ws gs) :=
  ⟨s.spoil_frame ws gs, s.spoil_farErr ws gs, s.byte_spoil ws gs⟩

theorem State.farKept_countL2 (s : State) (slice : Nat) : s.farKept (s.countL2 slice) := ⟨rfl, rfl, fun _ => rfl⟩

theorem State.farKept.logged {s u : State} (h : s.farKept u) (slice kind unit sub off : Nat) :
    s.farLogged (u.logFar slice kind unit sub off) slice kind (unit % 16 * 2 ^ 56 + sub % 16 * 2 ^ 48 + off % 2 ^ 48) := by
  obtain ⟨hf, he, hb⟩ := h
  exact State.farLogged_logFar hf he hb _ _ _ _ _

theorem State.logFar_mem (s : State) (slice kind unit sub off : Nat) :
    (s.logFar slice kind unit sub off).mem = { s.mem with farErr := (s.logFar slice kind unit sub off).mem.farErr } := by
  rw [State.logFar_frame]

theorem State.countL2_l2Ce (s : State) (slice : Nat) :
    tabGet (s.countL2 slice).mem.l2Ce 0 slice = tabGet s.mem.l2Ce 0 slice + 1 := tabGet_tabPut_same _ _ _ _

/-! ### Stored bytes of a line (R73, R74, R78) -/

section
variable (s : State) {k pa err : Nat} {e : L2Tag}

theorem exec_vaultScrubStep_frame (hk : k < 32) (h0 : 0 < err) (he : e ∈ s.mem.l2) (hl : e.line = pa / 128) (hs : l2Slice pa = k) :
    exec (.vaultScrubStep (32 + k) pa err) s = .next (s.frameError k pa err) := by
  have hin : s.mem.l2.any (fun t => t.line == pa / 128) = true := List.any_eq_true.mpr ⟨e, he, by simpa using hl⟩
  change execVaultScrubStep (32 + k) pa err s = _
  rw [execVaultScrubStep, if_neg (by omega), if_neg (by omega), if_pos (by omega), Nat.add_sub_cancel_left, if_pos ⟨hin, hs⟩]

/-- The words that an error of the stored bytes loses: of a compressed line all. -/
def State.frameWords (pa : Nat) : List Nat := if footprint s.store (pa / 128) = 128 then [pa / 8] else lineWordNos (pa / 128)

theorem State.wordOf_mem_frameWords (pa : Nat) : pa / 8 ∈ s.frameWords pa := by
  unfold State.frameWords
  split
  · exact List.mem_singleton_self _
  · exact wordOf_mem_lineWordNos pa

/-- What an error of the stored bytes of a line does before it is logged. -/
def State.frameLoss (slice pa err : Nat) : State :=
  if kindOf err = 0 then s.countL2 slice else s.spoil (s.frameWords pa) []

theorem State.frameError_zeroLine (hz : footprint s.store (pa / 128) = 0) : s.frameError k pa err = s := if_pos hz

theorem State.frameError_stored (hz : footprint s.store (pa / 128) ≠ 0) :
    s.frameError k pa err = (s.frameLoss k pa err).logFar k (kindOf err) 10 0 (pa / 8 * 8) := by
  unfold State.frameError State.frameLoss State.frameWords
  simp only [if_neg hz, errKind_eq_kindOf, errCorrected_iff]

theorem State.farKept_frameLoss (slice pa err : Nat) : s.farKept (s.frameLoss slice pa err) := by
  unfold State.frameLoss
  split
  · exact s.farKept_countL2 slice
  · exact s.farKept_spoil _ _

theorem frameScrub_stored (hk : k < 32) (h0 : 0 < err) (he : e ∈ s.mem.l2) (hl : e.line = pa / 128) (hs : l2Slice pa = k)
    (hz : footprint s.store (pa / 128) ≠ 0) : Answer.gives (exec (.vaultScrubStep (32 + k) pa err) s) (fun t =>
      s.farLogged t k (kindOf err) (10 * 2 ^ 56 + pa / 8 * 8 % 2 ^ 48)
      ∧ (kindOf err = 0 → t.store = s.store ∧ tabGet t.mem.l2Ce 0 k = tabGet s.mem.l2Ce 0 k + 1)
      ∧ (kindOf err ≠ 0 → t.store.poisoned (pa / 8 * 8) 8 = true
        ∧ (footprint s.store (pa / 128) ≠ 128 → ∀ i, i < 16 → t.store.poisoned (pa / 128 * 128 + 8 * i) 8 = true)
        ∧ t.store.tags = s.store.tags)) := by
  rw [exec_vaultScrubStep_frame s hk h0 he hl hs, State.frameError_stored s hz]
  refine Answer.gives_next ⟨(s.farKept_frameLoss k pa err).logged _ _ _ _ _, fun hc => ?_, fun hc => ?_⟩
  · rw [State.logFar_store, State.logFar_mem, State.frameLoss, if_pos hc]
    exact ⟨rfl, s.countL2_l2Ce k⟩
  · rw [State.logFar_store, State.frameLoss, if_neg hc]
    refine ⟨s.spoil_poisoned [] (by decide) ?_, fun hz' i hi => s.spoil_poisoned [] (by decide) ?_, by rw [State.spoil_store]; rfl⟩
    · rw [Nat.mul_div_cancel _ (by decide)]
      exact s.wordOf_mem_frameWords pa
    · rw [State.frameWords, if_neg hz', Nat.mul_comm]
      exact wordOf_line_mem _ hi

end

/-! ### Lines whose tag entry cannot be read back (R77, R78) -/

section
variable (s : State) (t : L2Tag)

theorem State.loseLine_l2 : (s.loseLine t).mem.l2 = s.mem.l2.filter (fun x => x.line != t.line) := by
  unfold State.loseLine
  dsimp only
  split <;> rfl

theorem State.loseLine_farErr : (s.loseLine t).mem.farErr = s.mem.farErr := by
  unfold State.loseLine
  dsimp only
  split <;> rfl

/-- Only the bytes of a dirty line change. -/
theorem State.loseLine_byte {a : Nat} (h : t.dirty = true → a / 128 ≠ t.line) : (s.loseLine t).store.byte a = s.store.byte a := by
  unfold State.loseLine
  dsimp only
  split
  · next hd =>
    refine Store.byte_putWhole_other _ _ _ _ ?_
    have := h hd
    simp only [List.length_map, List.length_range]
    omega
  · rfl

theorem State.foldl_loseLine_farErr (ts : List L2Tag) : (ts.foldl State.loseLine s).mem.farErr = s.mem.farErr :=
  foldl_fixed (fun u : State => u.mem.farErr) _ _ _ State.loseLine_farErr

theorem State.mem_foldl_loseLine_l2 {ts : List L2Tag} {e : L2Tag} :
    e ∈ (ts.foldl State.loseLine s).mem.l2 ↔ e ∈ s.mem.l2 ∧ ∀ t ∈ ts, e.line ≠ t.line := by
  induction ts generalizing s with
  | nil => simp
  | cons t rest ih => simp [ih, State.loseLine_l2, and_assoc]

theorem State.foldl_loseLine_byte {ts : List L2Tag} {a : Nat} (h : ∀ t ∈ ts, t.dirty = true → a / 128 ≠ t.line) :
    (ts.foldl State.loseLine s).store.byte a = s.store.byte a := by
  induction ts generalizing s with
  | nil => rfl
  | cons t rest ih =>
    rw [List.foldl_cons, ih _ (fun x hx => h x (List.mem_cons_of_mem _ hx)), State.loseLine_byte _ _ (h t List.mem_cons_self)]

end

/-! ### The tag entry of a frame (R78, R79) -/

section
variable (s : State) {k x err : Nat}

/-- The tags of the entry of a frame of a slice, by set and way. -/
def State.entryTags (slice x : Nat) : List L2Tag :=
  s.mem.l2.filter (fun t => l2SetOf t.line == slice * 1024 + x / 16 && t.frame == x % 16)

theorem State.mem_entryTags {slice x : Nat} {e : L2Tag} :
    e ∈ s.entryTags slice x ↔ e ∈ s.mem.l2 ∧ l2SetOf e.line = slice * 1024 + x / 16 ∧ e.frame = x % 16 := by
  simp [State.entryTags]

/-- What an error of a tag entry does before it is logged. -/
def State.tagLoss (slice x err : Nat) : State :=
  if kindOf err = 0 then s.countL2 slice
  else if err = 5 then (s.entryTags slice x).foldl State.loseLine s
  else s.spoil ((s.entryTags slice x).flatMap (fun t => lineWordNos t.line)) ((s.entryTags slice x).flatMap (fun t => lineGranules t.line))

theorem exec_vaultScrubStep_tag (hk : k < 32) (hx : x < 16384) (h0 : 0 < err) : exec (.vaultScrubStep (64 + k) x err) s =
    .next ((s.tagLoss k x err).logFar k (kindOf err) 11 0 x) := by
  change execVaultScrubStep (64 + k) x err s = _
  unfold execVaultScrubStep State.tagError State.tagLoss State.entryTags
  rw [if_neg (by omega), if_neg (by omega), if_neg (by omega), if_pos (by omega), if_pos hx, Nat.add_sub_cancel_left,
    errKind_eq_kindOf]
  simp only [errCorrected_iff]

theorem State.tagLoss_corrected (hc : kindOf err = 0) : s.tagLoss k x err = s.countL2 k := if_pos hc

theorem State.tagLoss_gone : s.tagLoss k x 5 = (s.entryTags k x).foldl State.loseLine s := rfl

theorem State.tagLoss_spoiled (hc : kindOf err ≠ 0) (h5 : err ≠ 5) : s.tagLoss k x err =
    s.spoil ((s.entryTags k x).flatMap (fun t => lineWordNos t.line)) ((s.entryTags k x).flatMap (fun t => lineGranules t.line)) := by
  rw [State.tagLoss, if_neg hc, if_neg h5]

theorem State.tagLoss_farErr (slice x err : Nat) : (s.tagLoss slice x err).mem.farErr = s.mem.farErr := by
  unfold State.tagLoss
  split
  · rfl
  · split
    · exact s.foldl_loseLine_farErr _
    · exact s.spoil_farErr _ _

/-- A lost entry that can be read back leaves every word of its lines poisoned and untagged. -/
theorem State.tagLoss_word (hc : kindOf err ≠ 0) (h5 : err ≠ 5) {e : L2Tag} (he : e ∈ s.entryTags k x) {i : Nat} (hi : i < 16) :
    (s.tagLoss k x err).store.poisoned (128 * e.line + 8 * i) 8 = true
      ∧ (s.tagLoss k x err).store.tagAt (128 * e.line + 8 * i) = false := by
  rw [s.tagLoss_spoiled hc h5]
  exact ⟨s.spoil_poisoned _ (by decide) (List.mem_flatMap.mpr ⟨e, he, wordOf_line_mem _ hi⟩),
    s.spoil_tagAt _ (List.mem_flatMap.mpr ⟨e, he, granuleOf_line_mem _ hi⟩)⟩

theorem tagScrub_gives (hk : k < 32) (hx : x < 16384) (h0 : 0 < err) :
    let mine := fun (e : L2Tag) => l2SetOf e.line = k * 1024 + x / 16 ∧ e.frame = x % 16
    Answer.gives (exec (.vaultScrubStep (64 + k) x err) s) (fun t =>
      (∀ y, y ≠ k → tabGet t.mem.farErr 0 y = tabGet s.mem.farErr 0 y)
      ∧ loggedIn (tabGet s.mem.farErr 0 k) (tabGet t.mem.farErr 0 k) (kindOf err) (11 * 2 ^ 56 + x)
      ∧ (kindOf err = 0 → t.store = s.store ∧ tabGet t.mem.l2Ce 0 k = tabGet s.mem.l2Ce 0 k + 1)
      ∧ (kindOf err ≠ 0 → err ≠ 5 → (∀ a, t.store.byte a = s.store.byte a) ∧ ∀ e ∈ s.mem.l2, mine e → ∀ i, i < 16 →
        t.store.poisoned (128 * e.line + 8 * i) 8 = true ∧ t.store.tagAt (128 * e.line + 8 * i) = false)
      ∧ (err = 5 → (∀ e ∈ t.mem.l2, e ∈ s.mem.l2 ∧ ¬mine e)
        ∧ ∀ a, (∀ e ∈ s.mem.l2, mine e → e.dirty = true → a / 128 ≠ e.line) → t.store.byte a = s.store.byte a)) := by
  intro mine
  rw [exec_vaultScrubStep_tag s hk hx h0]
  refine Answer.gives_next ⟨fun y hy => ?_, ?_, fun hc => ?_, fun hc h5 => ?_, ?_⟩
  · rw [State.logFar_farErr, tabGet_tabPut_other _ _ _ _ _ hy, State.tagLoss_farErr]
  · have hrec : 11 % 16 * 2 ^ 56 + 0 % 16 * 2 ^ 48 + x % 2 ^ 48 = 11 * 2 ^ 56 + x := by omega
    rw [State.logFar_farErr, tabGet_tabPut_same, State.tagLoss_farErr, hrec]
    exact loggedIn_logErr _ _ _
  · rw [State.logFar_store, State.logFar_mem, s.tagLoss_corrected hc]
    exact ⟨rfl, s.countL2_l2Ce k⟩
  · rw [State.logFar_store]
    refine ⟨fun a => ?_, fun e he hm i hi => s.tagLoss_word hc h5 (s.mem_entryTags.mpr ⟨he, hm⟩) hi⟩
    rw [s.tagLoss_spoiled hc h5, State.byte_spoil]
  · rintro rfl
    rw [State.logFar_store, State.logFar_mem, s.tagLoss_gone]
    refine ⟨fun e he => ?_, fun a ha => s.foldl_loseLine_byte fun e he => ?_⟩
    · obtain ⟨hold, hline⟩ := s.mem_foldl_loseLine_l2.mp he
      exact ⟨hold, fun hm => hline e (s.mem_entryTags.mpr ⟨hold, hm⟩) rfl⟩
    · obtain ⟨hold, hm⟩ := s.mem_entryTags.mp he
      exact ha e hold hm

end

/-! ### The external DRAM (R79, R87) -/

section
variable (s : State) {c x err : Nat}

/-- What an error of the external DRAM does before it is logged: a corrected one counts in its subchannel, and one that no line of the L2
stands before loses its granule. -/
def State.dramLoss (sub x err : Nat) : State :=
  if kindOf err = 0 then { s with mem := { s.mem with dramCe := tabPut s.mem.dramCe sub (tabGet s.mem.dramCe 0 sub + 1) } }
  else if s.inL2 (0x001000000000 + x) then s else s.loseGranule (0x001000000000 + x)

theorem exec_vaultScrubStep_dram (hc : c < 16) (hx : x < usableDram) (h0 : 0 < err) (ho : s.mem.dramOut = false)
    (hs : extSub (0x001000000000 + x) = c) : exec (.vaultScrubStep (96 + c) x err) s =
      .next ((s.dramLoss c x err).logFar (2 * c) (kindOf err) 13 c ((0x001000000000 + x) / 8 * 8)) := by
  change execVaultScrubStep (96 + c) x err s = _
  unfold execVaultScrubStep State.dramError State.dramLoss
  rw [if_neg (by omega), if_neg (by omega), if_neg (by omega), if_neg (by omega), if_pos (by omega), Nat.add_sub_cancel_left,
    if_pos ⟨hx, hs, ho⟩, errKind_eq_kindOf]
  simp only [errCorrected_iff]

theorem State.farKept_dramLoss (sub x err : Nat) : s.farKept (s.dramLoss sub x err) := by
  unfold State.dramLoss
  split
  · exact ⟨rfl, rfl, fun _ => rfl⟩
  · split
    · exact State.farKept.refl s
    · exact s.farKept_spoil _ _

theorem dramScrub_gives (hc : c < 16) (hx : x < usableDram) (h0 : 0 < err) (ho : s.mem.dramOut = false)
    (hs : extSub (0x001000000000 + x) = c) : Answer.gives (exec (.vaultScrubStep (96 + c) x err) s) (fun t =>
      s.farLogged t (2 * c) (kindOf err) (13 * 2 ^ 56 + c * 2 ^ 48 + (0x001000000000 + x) / 8 * 8 % 2 ^ 48)
      ∧ (kindOf err = 0 → t.store = s.store ∧ tabGet t.mem.dramCe 0 c = tabGet s.mem.dramCe 0 c + 1)
      ∧ (kindOf err ≠ 0 → s.inL2 (0x001000000000 + x) = true → t.store = s.store)
      ∧ (kindOf err ≠ 0 → s.inL2 (0x001000000000 + x) = false →
        t.store.poisoned (0x001000000000 + x) 1 = true ∧ t.store.tagAt (0x001000000000 + x) = false)) := by
  have hlog := (s.farKept_dramLoss c x err).logged (2 * c) (kindOf err) 13 c ((0x001000000000 + x) / 8 * 8)
  rw [Nat.mod_eq_of_lt hc] at hlog
  rw [exec_vaultScrubStep_dram s hc hx h0 ho hs]
  refine Answer.gives_next ⟨hlog, fun hk => ?_, fun hk hi => ?_, fun hk hi => ?_⟩
  · rw [State.logFar_store, State.logFar_mem, State.dramLoss, if_pos hk]
    exact ⟨rfl, tabGet_tabPut_same _ _ _ _⟩
  · rw [State.logFar_store, State.dramLoss, if_neg hk, if_pos hi]
  · rw [State.logFar_store, State.dramLoss, if_neg hk, if_neg (by simp [hi])]
    exact ⟨s.loseGranule_poisoned _, s.loseGranule_tagAt _⟩

end

/-- Settles O60: each error is one loss, told by the unit that found it, followed by its log; the loss leaves the log registers alone. -/
theorem outerMemoryErrors : Obligations.OuterMemoryErrors := by
  unfold Obligations.OuterMemoryErrors
  intro s
  refine ⟨fun k pa err e hk h0 he hl hs => ⟨fun hz => ?_, frameScrub_stored s hk h0 he hl hs⟩,
    fun k x err hk hx h0 => tagScrub_gives s hk hx h0, fun c x err hc hx h0 ho hs => dramScrub_gives s hc hx h0 ho hs⟩
  rw [exec_vaultScrubStep_frame s hk h0 he hl hs, State.frameError_zeroLine s hz]

end Sys2Proof.Machine
end

section
/-! ## O19: where the bytes of a store go -/

namespace Sys2Proof.Machine

open Sys2Proof

/-! ### A per-lane memory form whose lanes pass every check (R27, R28, R377) -/

/-- A word whose operands are in order passes step 3 of R234, and no lane reads a poisoned row (R185, R388). -/
theorem State.lanesOk.issue {s : State} {w : Nat} {x : LaneWord} (h : s.lanesOk w x.g x.reads x.writes) (hl : x.legal = true) :
    (∀ body, s.issueQuota w x body = body (s.activeLanes w x.g)) ∧ s.poisonLanes w (s.activeLanes w x.g) x.reads = [] := by
  obtain ⟨-, hfile, hquota, hpoison, hspec⟩ := h
  have hf : (x.reads ++ x.writes).all slcInFile = true := by
    rw [List.all_eq_true]
    intro o ho
    simpa [slcInFile] using hfile o ho
  have hq : s.overQuota w (s.activeLanes w x.g) (x.reads ++ x.writes) = false := by
    rw [State.overQuota, List.any_eq_false]
    intro e he
    rw [Bool.not_eq_true, List.any_eq_false]
    intro o ho
    simpa [slcInQuota] using hquota e he o ho
  refine ⟨fun body => ?_, filterMap_none _ _ fun e he => by rw [hpoison e he]⟩
  simp [State.issueQuota, hl, hf, hq, hspec]

theorem capCheck_of_grants {c : Capv} {spaces : List Nat} {mask : Nat} (h : c.grants spaces mask) : capCheck c spaces mask = none := by
  obtain ⟨htag, hseal, hspace, hperm⟩ := h
  have hh : c.holds mask = true := by simpa [Capv.holds] using hperm
  simp [capCheck, htag, hseal, hspace, hh]

/-- A form whose lanes all pass reaches its body with their accesses. -/
theorem State.reaches.memIssue {s s1 : State} {w : Nat} {x : LaneWord} {r : MemReq} {off : Nat → Nat} {as : List LaneAcc}
    (h : s.reaches w x.g r off s1 as) (hk : s.lanesOk w x.g x.reads x.writes) (hl : x.legal = true)
    (body : State → Nat → List LaneAcc → State) :
    s.memIssue w x r (fun _ t => off t) body = body s1 (laneMask (s.activeLanes w x.g)) as := by
  obtain ⟨hg, hloc⟩ := h
  obtain ⟨hissue, hpoison⟩ := hk.issue hl
  rw [State.memIssue, hissue]
  simp only [capCheck_of_grants hg, hpoison, hloc]
  rfl

theorem State.onWave_wave {s : State} {w : Nat} (h : s.cur = .wave w) (f : Nat → State) : s.onWave f = .next (f w) := by
  rw [State.onWave, State.onAgent, h]

/-! ### The pieces of a store (R91, R280) -/

/-- The cells that the model writes are those of the rule. -/
theorem opCells_eq_storeCells (ks : List (Nat × Nat)) (v n : Nat) : opCells ks v n = storeCells ks v n := by
  fun_induction opCells ks v n with
  | case1 => rfl
  | case2 => rfl
  | case3 v k cls rest => simp [storeCells, opBytes]
  | case4 v n => simp [storeCells]
  | case5 v n k cls rest ih =>
    have hb : opBytes (n + 2) = opBytes n + 1 := by unfold opBytes; omega
    rw [ih, storeCells, storeCells, hb, List.take_succ_cons, List.zipIdx_cons', List.map_cons, List.map_map]
    congr 1
    · simp
    · refine List.map_congr_left fun e _ => ?_
      have hi : (2 * (e.2 + 1) + 1 = n + 2) = (2 * e.2 + 1 = n) := by
        rw [eq_iff_iff]; omega
      simp only [Function.comp_apply, Prod.map_fst, Prod.map_snd, id_eq, hi, pow_succ, Nat.mul_comm _ 256, Nat.div_div_eq_div_mul]

theorem splitCells_flatten (cells : List (Nat × Byte × Byte)) : (splitCells cells).flatten = cells := by
  fun_induction splitCells cells with
  | case1 => rfl
  | case2 c rest d ds more hsplit hsame ih => simpa [hsplit] using ih
  | case3 c rest d ds more hsplit hother ih => simpa [hsplit] using ih
  | case4 c rest hne ih => simpa using ih

/-- A piece lies in one aligned 8-byte word (R91). -/
theorem splitCells_oneWord {cells p : List (Nat × Byte × Byte)} (hp : p ∈ splitCells cells) :
    p ≠ [] ∧ ∃ n, ∀ c ∈ p, c.1 / 8 = n := by
  fun_induction splitCells cells generalizing p with
  | case1 => simp at hp
  | case2 c rest d ds more hsplit hsame ih =>
    rw [hsplit] at ih
    rcases List.mem_cons.mp hp with rfl | hm
    · obtain ⟨-, n, hn⟩ := ih (List.mem_cons_self ..)
      refine ⟨by simp, n, fun e he => ?_⟩
      rcases List.mem_cons.mp he with rfl | he
      · rw [hsame, hn d (List.mem_cons_self ..)]
      · exact hn e he
    · exact ih (List.mem_cons_of_mem _ hm)
  | case3 c rest d ds more hsplit hother ih =>
    rw [hsplit] at ih
    rcases List.mem_cons.mp hp with rfl | hm
    · exact ⟨by simp, c.1 / 8, by simp⟩
    · exact ih hm
  | case4 c rest hne ih =>
    rcases List.mem_cons.mp hp with rfl | hm
    · exact ⟨by simp, c.1 / 8, by simp⟩
    · exact ih hm

/-- The cells that the pieces of all lanes write, in ascending lane order. -/
theorem lanePieces_cells (as : List LaneAcc) (f : Nat → Nat) (n : Nat) :
    (lanePieces as f n).flatMap (fun p => p.cells) = as.flatMap (fun a => storeCells a.keys (f a.thread) n) := by
  induction as with
  | nil => rfl
  | cons a rest ih =>
    have hp : (piecesOf a.lane (opCells a.keys (f a.thread) n)).flatMap (fun p => p.cells) = storeCells a.keys (f a.thread) n := by
      rw [piecesOf, List.flatMap_map, ← opCells_eq_storeCells]
      simpa [pieceOf, List.flatMap_def] using splitCells_flatten _
    rw [List.flatMap_cons, ← ih, ← hp, lanePieces, List.flatMap_cons, List.flatMap_append]
    rfl

theorem lanePieces_piece {as : List LaneAcc} {f : Nat → Nat} {n : Nat} {p : PWrite} (hp : p ∈ lanePieces as f n) :
    p.tag = none ∧ p.cells ≠ [] ∧ ∀ c ∈ p.cells, ∀ c' ∈ p.cells, c.1 / 8 = c'.1 / 8 := by
  obtain ⟨a, -, ha⟩ := List.mem_flatMap.mp hp
  obtain ⟨q, hq, rfl⟩ := List.mem_map.mp ha
  obtain ⟨hne, n, hn⟩ := splitCells_oneWord hq
  exact ⟨rfl, hne, fun c hc c' hc' => (hn c hc).trans (hn c' hc').symm⟩

/-! ### Stores set out (R46, R108, R109) -/

/-- The state in which some writes of a wave have set out and the wave has passed the word that sent them. -/
theorem State.sendStores_frame (s : State) (w : Nat) (mark : Bool) (ps : List PWrite) :
    s.sendFrame ((s.sendStores w ps).finish w mark) w
      ∧ (((s.sendStores w ps).finish w mark).wave w).out = (s.wave w).out ++ ps.map (fun p => { p with ser := s.free }) := by
  set t := (s.sendStores w ps).finish w mark with ht
  have hwave : t.wave w = { s.wave w with
      word := (s.wave w).word + 1, retry := none, held := none, park := (t.wave w).park, lastPark := (t.wave w).lastPark
      out := (s.wave w).out ++ ps.map (fun p => { p with ser := s.free }) } := by
    simp [ht, State.finish, State.finishN, State.bumpFree, State.sendStores, State.dropL1, State.wave, State.setWave, State.setCore]
  refine ⟨⟨rfl, fun _ => rfl, fun c => ?_, fun x hx => ?_, ?_⟩, by rw [hwave]⟩
  · rw [show t.core c = (s.dropL1 (s.waveCore w) (ps.flatMap (fun p => p.cells))).core c from rfl, State.dropL1, State.setCore_core]
    split
    · rename_i hc; rw [hc]
    · rfl
  · simp [ht, State.finish, State.finishN, State.bumpFree, State.sendStores, State.dropL1, State.wave, State.setWave, State.setCore,
      tabGet_tabPut_other _ _ _ _ _ hx]
  · rw [hwave]

/-- A store with nothing to wait for sets out in one step (R94, R111, R113). -/
theorem State.mayStore.storeAll {s : State} {w attr scope : Nat} (h : s.mayStore w attr scope) (mark : Bool) {ps : List PWrite}
    (hps : ps ≠ []) : s.storeAll w mark attr scope ps = (s.sendStores w ps).finish w mark := by
  obtain ⟨hspec, hgate, hrel⟩ := h
  unfold State.storeAll State.afterGate State.afterRelease
  simp only [hspec, hgate, hps, if_false]
  split
  · rw [if_pos (hrel.resolve_left (by omega))]
  · rfl

theorem State.mayStore.storeAll_nil {s : State} {w attr scope : Nat} (h : s.mayStore w attr scope) (mark : Bool) :
    s.storeAll w mark attr scope [] = s.finish w mark := by
  simp [State.storeAll, h.1]

theorem State.finish_sendFrame (s : State) (w : Nat) (mark : Bool) :
    s.sendFrame (s.finish w mark) w ∧ ((s.finish w mark).wave w).out = (s.wave w).out := by
  have hwave : (s.finish w mark).wave w = { s.wave w with
      word := (s.wave w).word + 1, retry := none, held := none, park := ((s.finish w mark).wave w).park
      lastPark := ((s.finish w mark).wave w).lastPark } := by
    simp [State.finish, State.finishN, State.bumpFree, State.wave, State.setWave]
  refine ⟨⟨rfl, fun _ => rfl, fun _ => rfl, fun x hx => (State.setWave_wave s w _ x).trans (if_neg hx), ?_⟩, by rw [hwave]⟩
  rw [hwave]

/-- The store of all lanes sends their pieces out. -/
theorem State.mayStore.sends {s : State} {w attr scope : Nat} (h : s.mayStore w attr scope) (mark : Bool) (as : List LaneAcc)
    (f : Nat → Nat) (n : Nat) : s.sendFrame (s.storeAll w mark attr scope (lanePieces as f n)) w
      ∧ s.sent (s.storeAll w mark attr scope (lanePieces as f n)) w (as.flatMap (fun a => storeCells a.keys (f a.thread) n)) none := by
  by_cases hps : lanePieces as f n = []
  · have hcells : as.flatMap (fun a => storeCells a.keys (f a.thread) n) = [] := by rw [← lanePieces_cells, hps]; rfl
    obtain ⟨hframe, hout⟩ := s.finish_sendFrame w mark
    rw [hps, hcells, h.storeAll_nil]
    exact ⟨hframe, [], by rw [hout, List.append_nil], rfl, by simp⟩
  · obtain ⟨hframe, hout⟩ := s.sendStores_frame w mark (lanePieces as f n)
    rw [h.storeAll mark hps]
    refine ⟨hframe, _, hout, by rw [List.flatMap_map]; exact lanePieces_cells as f n, fun p hp => ?_⟩
    obtain ⟨q, hq, rfl⟩ := List.mem_map.mp hp
    obtain ⟨htag, hne, hword⟩ := lanePieces_piece hq
    exact ⟨htag, rfl, hne, .inl hword⟩

/-- Settles O19: the lanes pass their checks, and the pieces of their stores set out, each in one aligned word. -/
theorem stores : Obligations.Stores := by
  unfold Obligations.Stores
  intro s s1 w as
  refine ⟨fun o hattr hscope hk hr hst => ?_, fun o hk hr hst => ?_⟩
  · have hl : attrOk [0, 2] o.attr o.scope = true := by
      rcases hattr with h | h <;> simp [attrOk, h, hscope]
    refine ⟨_, State.onWave_wave hk.1 _, ?_⟩
    rw [State.reaches.memIssue (x := ⟨o.mark, o.g, attrOk [0, 2] o.attr o.scope, [o.a, o.d], []⟩) hr hk hl]
    exact hst.sends o.mark as _ o.d.width
  · refine ⟨_, State.onWave_wave hk.1 _, ?_⟩
    dsimp only [spillOff]
    rw [State.reaches.memIssue (x := ⟨o.mark, o.g, true, [{ start := o.a, width := o.c }], []⟩) hr hk rfl]
    exact hst.sends o.mark as _ o.c

end Sys2Proof.Machine
end

section
/-! ## What a write at its home reaches (R25, R66, R72, R76, R118, R130, R133) -/

namespace Sys2Proof.Machine

open Sys2Proof

/-! ### The L2 (R70 to R77) -/

/-- Of the memory system only the L2 has changed. -/
def MemSys.sameButL2 (ms ns : MemSys) : Prop := ns = { ms with l2 := ns.l2, floors := ns.floors }

theorem MemSys.sameButL2.trans {a b c : MemSys} (h : a.sameButL2 b) (k : b.sameButL2 c) : a.sameButL2 c := by
  unfold MemSys.sameButL2 at *
  rw [k, h]

theorem MemSys.sameButL2_foldl {α : Type} {f : MemSys → α → MemSys} (h : ∀ ms a, MemSys.sameButL2 ms (f ms a)) (l : List α) (ms : MemSys) :
    ms.sameButL2 (l.foldl f ms) :=
  foldl_keeps (fun ns => ms.sameButL2 ns) f l ms rfl fun x a hx => hx.trans (h x a)

theorem placeLine_sameButL2 (dt : Nat) (t : L2Tag) (n : Nat) (ms : MemSys) : ms.sameButL2 (placeLine dt t n ms) := by
  induction n generalizing ms with
  | zero => rfl
  | succ n ih =>
    rw [placeLine]
    split
    · rfl
    · split
      · rfl
      · exact MemSys.sameButL2.trans (b := evictTag ms dt _) rfl (ih _)

theorem l2Touch_sameButL2 (ms : MemSys) (dt line : Nat) (write : Bool) : ms.sameButL2 (l2Touch ms dt line write) := by
  unfold l2Touch
  split
  · rfl
  · exact placeLine_sameButL2 dt _ 33 ms

theorem l2Refit_sameButL2 (ms : MemSys) (dt line : Nat) : ms.sameButL2 (l2Refit ms dt line) := by
  unfold l2Refit
  split
  · rfl
  · dsimp only
    split
    · rfl
    · split
      · rfl
      · split <;> rfl

theorem l2Write_sameButL2 (ms : MemSys) (dt : Nat) (cells : List (Nat × Byte × Byte)) : ms.sameButL2 (l2Write ms dt cells) :=
  MemSys.sameButL2_foldl (fun x l => l2Touch_sameButL2 x dt l true) _ _

/-! ### Waiters that look again (R133, R145) -/

/-- Waits on barrier objects may have ended: parks of waves, release queues and sequencers. A wave that runs goes on, and none is formed. -/
structure State.woke (s t : State) : Prop where
  machine : t = { s with waves := t.waves, clusters := t.clusters }
  waves : ∀ x, t.wave x = { s.wave x with park := (t.wave x).park }
  run : ∀ x, (s.wave x).park = .run → (t.wave x).park = .run
  absent : ∀ x, tabFind s.waves x = none → tabFind t.waves x = none
  clusters : ∀ k, t.cluster k = { s.cluster k with relQ := (t.cluster k).relQ, seq := (t.cluster k).seq }

theorem State.woke.refl (s : State) : s.woke s := ⟨rfl, fun _ => rfl, fun _ h => h, fun _ h => h, fun _ => rfl⟩

theorem State.woke.trans {s t u : State} (h : s.woke t) (k : t.woke u) : s.woke u where
  machine := by rw [k.machine, h.machine]
  waves x := by rw [k.waves x, h.waves x]
  run x hx := k.run x (h.run x hx)
  absent x hx := k.absent x (h.absent x hx)
  clusters c := by rw [k.clusters c, h.clusters c]

theorem State.woke_foldl {α : Type} {f : State → α → State} (h : ∀ (s : State) a, s.woke (f s a)) (l : List α) (s : State) :
    s.woke (l.foldl f s) := foldl_keeps (fun t => s.woke t) f l s (State.woke.refl s) fun x a hx => hx.trans (h x a)

/-- A wave that does not read as an empty slot is formed. -/
theorem State.formed_of_park {s : State} {w : Nat} (h : (s.wave w).park ≠ .run) : tabFind s.waves w ≠ none := by
  intro hn
  exact h (by rw [State.wave, tabGet, hn]; rfl)

theorem State.woke_setPark (s : State) (w : Nat) (p : Park) (h : (s.wave w).park ≠ .run) : s.woke (s.setWave w { s.wave w with park := p }) where
  machine := rfl
  waves x := by
    rw [State.setWave_wave]
    split
    · rename_i hx; rw [hx]
    · rfl
  run x hx := by
    have hne : x ≠ w := by rintro rfl; exact h hx
    rw [State.setWave_wave, if_neg hne]
    exact hx
  absent x hx := by
    have hne : x ≠ w := by rintro rfl; exact State.formed_of_park h hx
    exact (tabFind_tabPut_other _ _ _ _ hne).trans hx
  clusters _ := rfl

theorem State.woke_setCluster (s : State) (k : Nat) (v : ClusterSt) (h : v = { s.cluster k with relQ := v.relQ, seq := v.seq }) :
    s.woke (s.setCluster k v) where
  machine := rfl
  waves _ := rfl
  run _ hx := hx
  absent _ hx := hx
  clusters c := by
    rw [State.setCluster_cluster]
    split
    · rename_i hc; rw [hc]; exact h
    · rfl

theorem State.woke_joinQueue (s : State) (w : Nat) : s.woke (s.joinQueue w) := by
  unfold State.joinQueue
  split
  · rename_i hp
    exact (s.woke_setPark w _ (by rw [hp]; simp)).trans (State.woke_setCluster _ _ _ rfl)
  · exact State.woke.refl s

theorem State.woke_setSeq (s : State) (k : Nat) (q : Seq) : s.woke (s.setSeq k q) := s.woke_setCluster k _ rfl

theorem State.woke_wakeSeq (s : State) (g k : Nat) : s.woke (s.wakeSeq g k) := by
  unfold State.wakeSeq
  dsimp only
  split
  · split
    · exact s.woke_setSeq k _
    · exact State.woke.refl s
  · exact State.woke.refl s

theorem State.woke_wakeGranule (s : State) (g : Nat) : s.woke (s.wakeGranule g) :=
  (State.woke_foldl State.woke_joinQueue _ s).trans (State.woke_foldl (fun t k => t.woke_wakeSeq g k) _ _)

/-! ### The write itself -/

/-- A write has been performed at its home: memory with the L2, waiters, watches, and grid objects of crews. -/
structure State.homeStep (s t : State) : Prop where
  machine : t = { s with waves := t.waves, crews := t.crews, clusters := t.clusters, mem := t.mem }
  mem : t.mem = { s.mem with store := t.mem.store, l2 := t.mem.l2, floors := t.mem.floors }
  waves : ∀ x, t.wave x = { s.wave x with park := (t.wave x).park, spec := (t.wave x).spec }
  run : ∀ x, (s.wave x).park = .run → (t.wave x).park = .run
  unspec : ∀ x, (s.wave x).spec = none → (t.wave x).spec = none
  absent : ∀ x, tabFind s.waves x = none → tabFind t.waves x = none
  crews : ∀ c, t.crew c = { s.crew c with gridHeld := (t.crew c).gridHeld }
  clusters : ∀ k, t.cluster k = { s.cluster k with relQ := (t.cluster k).relQ, seq := (t.cluster k).seq }

theorem State.woke.homeStep {s t : State} (h : s.woke t) : s.homeStep t where
  machine := by rw [h.machine]
  mem := by rw [h.machine]
  waves x := by rw [h.waves x]
  run := h.run
  unspec x hx := by rw [h.waves x]; exact hx
  absent := h.absent
  crews c := by rw [h.machine]; rfl
  clusters := h.clusters

theorem State.homeStep.refl (s : State) : s.homeStep s := (State.woke.refl s).homeStep

theorem State.homeStep.trans {s t u : State} (h : s.homeStep t) (k : t.homeStep u) : s.homeStep u where
  machine := by rw [k.machine, h.machine]
  mem := by rw [k.mem, h.mem]
  waves x := by rw [k.waves x, h.waves x]
  run x hx := k.run x (h.run x hx)
  unspec x hx := k.unspec x (h.unspec x hx)
  absent x hx := k.absent x (h.absent x hx)
  crews c := by rw [k.crews c, h.crews c]
  clusters c := by rw [k.clusters c, h.clusters c]

theorem State.homeStep_foldl {α : Type} {f : State → α → State} (h : ∀ (s : State) a, s.homeStep (f s a)) (l : List α) (s : State) :
    s.homeStep (l.foldl f s) := foldl_keeps (fun t => s.homeStep t) f l s (State.homeStep.refl s) fun x a hx => hx.trans (h x a)

theorem State.homeStep_setMem (s : State) (ms : MemSys) (h : ms = { s.mem with store := ms.store, l2 := ms.l2, floors := ms.floors }) :
    s.homeStep { s with mem := ms } where
  machine := rfl
  mem := h
  waves _ := rfl
  run _ hx := hx
  unspec _ hx := hx
  absent _ hx := hx
  crews _ := rfl
  clusters _ := rfl

/-- A list of entries changed in their values alone. -/
theorem tabFind_map {α β : Type} (t : Tab α) (f : Nat → α → β) (k : Nat) :
    tabFind (t.map (fun e => (e.1, f e.1 e.2))) k = (tabFind t k).map (f k) := by
  induction t with
  | nil => rfl
  | cons e rest ih =>
    rw [List.map_cons, tabFind, tabFind, ih]
    split
    · rename_i he; rw [he]; rfl
    · rfl

/-- A wave that watches a line which another agent has written notes a conflict (R118). -/
def Wave.conflicted (v : Wave) (other : Bool) (lines : List Nat) : Wave :=
  match v.spec with
  | none => v
  | some p =>
    if other = true ∧ p.watches.any (fun l => lines.contains l) = true then { v with spec := some { p with conflict := true } } else v

theorem Wave.conflicted_frame (v : Wave) (other : Bool) (lines : List Nat) :
    v.conflicted other lines = { v with spec := (v.conflicted other lines).spec } := by
  unfold Wave.conflicted
  split
  · rfl
  · split <;> rfl

theorem Wave.conflicted_unspec {v : Wave} (h : v.spec = none) (other : Bool) (lines : List Nat) : v.conflicted other lines = v := by
  unfold Wave.conflicted
  rw [h]

theorem State.markConflicts_find (s : State) (by_ : Option Nat) (lines : List Nat) (x : Nat) :
    tabFind (s.markConflicts by_ lines).waves x = (tabFind s.waves x).map (fun v => v.conflicted (by_ != some x) lines) := by
  rw [← tabFind_map s.waves (fun x v => v.conflicted (by_ != some x) lines)]
  unfold State.markConflicts
  refine congrArg (fun l => tabFind l x) (List.map_congr_left fun e _ => ?_)
  obtain ⟨k, v⟩ := e
  unfold Wave.conflicted
  cases hp : v.spec with
  | none => simp
  | some p =>
    simp only [bne_iff_ne, ne_eq]
    split <;> rfl

theorem State.markConflicts_wave (s : State) (by_ : Option Nat) (lines : List Nat) (x : Nat) :
    (s.markConflicts by_ lines).wave x = (s.wave x).conflicted (by_ != some x) lines := by
  unfold State.wave tabGet
  rw [State.markConflicts_find]
  cases tabFind s.waves x with
  | none => rfl
  | some v => rfl

theorem State.homeStep_markConflicts (s : State) (by_ : Option Nat) (lines : List Nat) : s.homeStep (s.markConflicts by_ lines) where
  machine := rfl
  mem := rfl
  waves x := by rw [State.markConflicts_wave, Wave.conflicted_frame]
  run x hx := by rw [State.markConflicts_wave, Wave.conflicted_frame]; exact hx
  unspec x hx := by rw [State.markConflicts_wave, Wave.conflicted_unspec hx]; exact hx
  absent x hx := by rw [State.markConflicts_find, hx]; rfl
  crews _ := rfl
  clusters _ := rfl

theorem State.homeStep_setGridHeld (s : State) (c : Nat) (v : Crew) (h : v = { s.crew c with gridHeld := v.gridHeld }) :
    s.homeStep (s.setCrew c v) where
  machine := rfl
  mem := rfl
  waves _ := rfl
  run _ hx := hx
  unspec _ hx := hx
  absent _ hx := hx
  crews x := by
    rw [State.setCrew_crew]
    split
    · rename_i hx; rw [hx]; exact h
    · rfl
  clusters _ := rfl

theorem State.homeStep_noteGrid (s : State) (a : Nat) : s.homeStep (s.noteGrid a) := by
  unfold State.noteGrid
  dsimp only
  split
  · exact State.homeStep.refl s
  · exact State.homeStep_foldl (fun t c => t.homeStep_setGridHeld c _ rfl) _ _

theorem State.homeStep_testArmed (s : State) (g : Nat) : s.homeStep (s.testArmed g) := by
  unfold State.testArmed
  split
  · dsimp only
    split
    · exact s.homeStep_noteGrid _
    · exact s.homeStep_setMem _ rfl
  · exact State.homeStep.refl s

/-- The L2 and memory after a write, before armed objects, waiters and watches look at it. -/
def State.written (s : State) (cells : List (Nat × Byte × Byte)) (tag : Option Bool) : State :=
  let ms := { l2Write s.mem s.dt cells with store := s.store.write cells tag }
  { s with mem := (linesOf cells).foldl (fun ms l => l2Refit ms s.dt l) ms }

theorem State.writeAtHome_eq (s : State) (by_ : Option Nat) (cells : List (Nat × Byte × Byte)) (tag : Option Bool) :
    s.writeAtHome by_ cells tag = ((granulesOf cells).foldl State.wakeGranule ((granulesOf cells).foldl State.testArmed (s.written cells tag))
      ).markConflicts by_ (linesOf cells) := rfl

theorem State.written_store (s : State) (cells : List (Nat × Byte × Byte)) (tag : Option Bool) :
    (s.written cells tag).store = s.store.write cells tag := foldl_fixed MemSys.store _ _ _ (fun x l => l2Refit_store x s.dt l)

theorem State.homeStep_written (s : State) (cells : List (Nat × Byte × Byte)) (tag : Option Bool) : s.homeStep (s.written cells tag) := by
  have hr := MemSys.sameButL2_foldl (fun ms l => l2Refit_sameButL2 ms s.dt l) (linesOf cells)
    { l2Write s.mem s.dt cells with store := s.store.write cells tag }
  have hw := l2Write_sameButL2 s.mem s.dt cells
  unfold MemSys.sameButL2 at hr hw
  exact s.homeStep_setMem _ (by rw [hr, hw])

theorem State.homeStep_writeAtHome (s : State) (by_ : Option Nat) (cells : List (Nat × Byte × Byte)) (tag : Option Bool) :
    s.homeStep (s.writeAtHome by_ cells tag) := by
  refine State.homeStep.trans ?_ (State.homeStep_markConflicts _ _ _)
  refine State.homeStep.trans ?_ (State.homeStep_foldl (fun t g => (t.woke_wakeGranule g).homeStep) _ _)
  exact (s.homeStep_written cells _).trans (State.homeStep_foldl State.homeStep_testArmed _ _)

theorem State.homeStep_touchLinesAt (s : State) (ls : List Nat) : s.homeStep { s with mem := ls.foldl (fun ms l => l2Touch ms s.dt l false) s.mem } := by
  have h := MemSys.sameButL2_foldl (fun ms l => l2Touch_sameButL2 ms s.dt l false) ls s.mem
  exact s.homeStep_setMem _ (by unfold MemSys.sameButL2 at h; rw [h])

theorem State.homeStep_touchRead (s : State) (a n : Nat) : s.homeStep (s.touchRead a n) := s.homeStep_touchLinesAt _

/-! ### Plain memory: no armed granule (R130) -/

theorem Store.putCells_frame (m : Store) (cells : List (Nat × Byte × Byte)) : m.putCells cells = { m with bytes := (m.putCells cells).bytes } := by
  induction cells generalizing m with
  | nil => rfl
  | cons c rest ih => rw [Store.putCells, ih]; rfl

theorem Store.putCells_bytes_congr {m n : Store} (h : m.bytes = n.bytes) (cells : List (Nat × Byte × Byte)) :
    (m.putCells cells).bytes = (n.putCells cells).bytes := by
  induction cells generalizing m n with
  | nil => exact h
  | cons c rest ih =>
    rw [Store.putCells, Store.putCells]
    exact ih (by simp only [Store.setByte, Store.byte, h])

theorem Store.retag_frame (m : Store) (gs : List Nat) (tag : Option Bool) : m.retag gs tag = { m with tags := (m.retag gs tag).tags } := by
  induction gs generalizing m with
  | nil => rfl
  | cons g rest ih =>
    rw [Store.retag, ih]
    split <;> rfl

theorem Store.unpoison_frame (m : Store) (cells : List (Nat × Byte × Byte)) (ws : List Nat) :
    m.unpoison cells ws = { m with poison := (m.unpoison cells ws).poison } := by
  induction ws generalizing m with
  | nil => rfl
  | cons w rest ih =>
    rw [Store.unpoison, ih]
    split <;> rfl

theorem Store.mem_unpoison {m : Store} {cells : List (Nat × Byte × Byte)} {ws : List Nat} {x : Nat} (h : x ∈ (m.unpoison cells ws).poison) :
    x ∈ m.poison := by
  induction ws generalizing m with
  | nil => exact h
  | cons w rest ih =>
    rw [Store.unpoison] at h
    have hx := ih h
    split at hx
    · exact (mem_memberDel.mp hx).1
    · exact hx

theorem Store.write_armed (m : Store) (cells : List (Nat × Byte × Byte)) (tag : Option Bool) : (m.write cells tag).armed = m.armed := by
  rw [Store.write, Store.unpoison_frame, Store.retag_frame, Store.putCells_frame]

/-- A write poisons nothing (R66). -/
theorem Store.mem_write_poison {m : Store} {cells : List (Nat × Byte × Byte)} {tag : Option Bool} {x : Nat}
    (h : x ∈ (m.write cells tag).poison) : x ∈ m.poison := by
  have hx := Store.mem_unpoison h
  rwa [Store.retag_frame, Store.putCells_frame] at hx

theorem mem_granulesOf {cells : List (Nat × Byte × Byte)} {g : Nat} (h : g ∈ granulesOf cells) : ∃ c ∈ cells, c.1 / 16 = g := by
  induction cells with
  | nil => simp [granulesOf] at h
  | cons c rest ih =>
    rcases mem_memberAdd.mp h with hr | rfl
    · obtain ⟨d, hd, hg⟩ := ih hr
      exact ⟨d, List.mem_cons_of_mem _ hd, hg⟩
    · exact ⟨c, List.mem_cons_self .., rfl⟩

theorem State.foldl_testArmed_plain {s : State} {gs : List Nat} (h : ∀ g ∈ gs, s.store.armed.contains g = false) : gs.foldl State.testArmed s = s := by
  induction gs with
  | nil => rfl
  | cons g rest ih =>
    rw [List.foldl_cons, s.testArmed_plain g (h g (List.mem_cons_self ..))]
    exact ih fun x hx => h x (List.mem_cons_of_mem _ hx)

/-- Some cells lie in no armed granule. -/
def State.plainCells (s : State) (cells : List (Nat × Byte × Byte)) : Prop := ∀ c ∈ cells, s.store.armed.contains (c.1 / 16) = false

/-- A write to plain memory writes its bytes alone, and no crew has a grid object there. -/
theorem State.plainCells.writeAtHome {s : State} {cells : List (Nat × Byte × Byte)} (h : s.plainCells cells) (by_ : Option Nat) (tag : Option Bool) :
    (s.writeAtHome by_ cells tag).store = s.store.write cells tag ∧ (s.writeAtHome by_ cells tag).crews = s.crews := by
  have harmed : ∀ g ∈ granulesOf cells, (s.written cells tag).store.armed.contains g = false := fun g hg => by
    obtain ⟨c, hc, rfl⟩ := mem_granulesOf hg
    rw [State.written_store, Store.write_armed]
    exact h c hc
  have hwoke := State.woke_foldl State.woke_wakeGranule (granulesOf cells) (s.written cells tag)
  rw [State.writeAtHome_eq, State.foldl_testArmed_plain harmed, State.store_markConflicts, State.store, hwoke.machine]
  refine ⟨s.written_store cells tag, ?_⟩
  rw [State.markConflicts, hwoke.machine]
  rfl

end Sys2Proof.Machine
end

section
/-! ## O21: atomics and reductions in memory -/

namespace Sys2Proof.Machine

open Sys2Proof

/-! ### The twelve operations (R287) -/

theorem atomTable_eq_map : atomTable = (List.range 12).map atomOp := by
  have h5 : atomOp 5 = fun n m x => if sInt n m < sInt n x then m else x := by funext n m x; exact min_sig n m x
  have h6 : atomOp 6 = fun _ m x => min m x := by funext n m x; exact min_uns n m x
  have h7 : atomOp 7 = fun n m x => if sInt n m < sInt n x then x else m := by funext n m x; exact max_sig n m x
  have h8 : atomOp 8 = fun _ m x => max m x := by funext n m x; exact max_uns n m x
  unfold atomTable
  rw [← h5, ← h6, ← h7, ← h8]
  rfl

theorem atomOp_of_atomTable {op : Nat} {f : Nat → Nat → Nat → Nat} (h : atomTable[op]? = some f) : op < 12 ∧ atomOp op = f := by
  rw [atomTable_eq_map, List.getElem?_map, Option.map_eq_some_iff] at h
  obtain ⟨i, hi, rfl⟩ := h
  obtain ⟨hlt, rfl⟩ := List.getElem?_eq_some_iff.mp hi
  exact ⟨by simpa using hlt, by rw [List.getElem_range]⟩

/-! ### Memory under RMWs one after another (R102) -/

theorem keysNat_congr {m n : Store} (h : m.bytes = n.bytes) (ks : List (Nat × Nat)) : keysNat m ks = keysNat n ks := by
  induction ks with
  | nil => rfl
  | cons k rest ih => rw [keysNat, keysNat, ih, Store.byte, Store.byte, h]

/-- What RMWs give and leave depends on the bytes of memory alone. -/
theorem rmwRun_congr {m n : Store} (h : m.bytes = n.bytes) (f : Nat → Nat → Option Nat) (as : List LaneAcc) :
    (rmwRun m f as).1.bytes = (rmwRun n f as).1.bytes ∧ (rmwRun m f as).2 = (rmwRun n f as).2 := by
  induction as generalizing m n with
  | nil => exact ⟨h, rfl⟩
  | cons a rest ih =>
    rw [rmwRun, rmwRun, keysNat_congr h]
    dsimp only
    split
    · obtain ⟨hb, hv⟩ := ih h
      exact ⟨hb, by rw [hv]⟩
    · obtain ⟨hb, hv⟩ := ih (Store.putCells_bytes_congr h (keyCells a.keys _))
      exact ⟨hb, by rw [hv]⟩

theorem rmwRun_threads (m : Store) (f : Nat → Nat → Option Nat) (as : List LaneAcc) :
    (rmwRun m f as).2.map (fun v => v.1) = as.map (fun a => a.thread) := by
  induction as generalizing m with
  | nil => rfl
  | cons a rest ih => rw [rmwRun, List.map_cons, List.map_cons, ih]

/-! ### One lane's RMW at plain places (R102, R109) -/

/-- RMWs of a wave have been performed: memory and caches, what the writes set off, and the wave's MAXW. -/
structure State.rmwStep (s t : State) (w : Nat) : Prop where
  machine : t = { s with waves := t.waves, cores := t.cores, mem := t.mem, clusters := t.clusters }
  mem : t.mem = { s.mem with store := t.store, l2 := t.mem.l2, floors := t.mem.floors }
  cores : ∀ c, t.core c = { s.core c with l1d := (t.core c).l1d }
  clusters : ∀ k, t.cluster k = { s.cluster k with relQ := (t.cluster k).relQ, seq := (t.cluster k).seq }
  waves : ∀ x, x ≠ w → t.wave x = { s.wave x with park := (t.wave x).park, spec := (t.wave x).spec }
  own : t.wave w = { s.wave w with park := (t.wave w).park, maxw := (t.wave w).maxw }

theorem State.rmwStep.refl (s : State) (w : Nat) : s.rmwStep s w := ⟨rfl, rfl, fun _ => rfl, fun _ => rfl, fun _ _ => rfl, rfl⟩

theorem State.rmwStep.trans {s t u : State} {w : Nat} (h : s.rmwStep t w) (k : t.rmwStep u w) : s.rmwStep u w where
  machine := by rw [k.machine, h.machine]
  mem := by rw [k.mem, h.mem]
  cores c := by rw [k.cores c, h.cores c]
  clusters c := by rw [k.clusters c, h.clusters c]
  waves x hx := by rw [k.waves x hx, h.waves x hx]
  own := by rw [k.own, h.own]

/-- A write at its home that leaves the crews alone is such a step of a wave that is not speculative. -/
theorem State.homeStep.rmwStep {s t : State} {w : Nat} (h : s.homeStep t) (hc : t.crews = s.crews) (hs : (s.wave w).spec = none) :
    s.rmwStep t w where
  machine := by rw [h.machine, hc]
  mem := h.mem
  cores c := by rw [h.machine]; rfl
  clusters := h.clusters
  waves x _ := h.waves x
  own := by
    have hw := h.waves w
    rw [h.unspec w hs, ← hs] at hw
    rw [hw]

theorem State.rmwStep_dropL1 (s : State) (w core : Nat) (cells : List (Nat × Byte × Byte)) : s.rmwStep (s.dropL1 core cells) w where
  machine := rfl
  mem := rfl
  cores c := by
    rw [State.dropL1, State.setCore_core]
    split
    · rename_i hc; rw [hc]
    · rfl
  clusters _ := rfl
  waves _ _ := rfl
  own := rfl

theorem State.rmwStep_setWave (s : State) (w : Nat) (v : Wave) (h : v = { s.wave w with maxw := v.maxw }) : s.rmwStep (s.setWave w v) w where
  machine := rfl
  mem := rfl
  cores _ := rfl
  clusters _ := rfl
  waves x hx := by rw [State.setWave_wave, if_neg hx]
  own := by rw [State.setWave_wave_same, h]

/-- An access to plain memory, whose cells are not of PLACE 3 and in no armed granule. -/
def State.plainKeys (s : State) (ks : List (Nat × Nat)) : Prop :=
  ∀ k ∈ ks, isPlace3 k.1 = false ∧ s.store.armed.contains (k.1 / 16) = false

theorem keyCells_key {ks : List (Nat × Nat)} {v : Nat} {c : Nat × Byte × Byte} (h : c ∈ keyCells ks v) : ∃ k ∈ ks, k.1 = c.1 := by
  induction ks generalizing v with
  | nil => simp [keyCells] at h
  | cons k rest ih =>
    rcases List.mem_cons.mp h with rfl | h
    · exact ⟨k, List.mem_cons_self .., rfl⟩
    · obtain ⟨x, hx, e⟩ := ih h
      exact ⟨x, List.mem_cons_of_mem _ hx, e⟩

theorem isPeer_of_isPlace3 {a : Nat} (h : isPlace3 a = false) : isPeer a = false := by
  simp only [isPlace3, isPeer, Bool.or_eq_false_iff, Bool.and_eq_false_iff, decide_eq_false_iff_not] at h ⊢
  omega

/-- Nothing of an access to plain memory goes to a peer. -/
theorem State.plainKeys.cells {s : State} {ks : List (Nat × Nat)} (h : s.plainKeys ks) (v : Nat) :
    s.plainCells (keyCells ks v) ∧ ∀ c ∈ keyCells ks v, isPeer c.1 = false := by
  refine ⟨fun c hc => ?_, fun c hc => ?_⟩ <;> obtain ⟨k, hk, hkc⟩ := keyCells_key hc <;> rw [← hkc]
  · exact (h k hk).2
  · exact isPeer_of_isPlace3 (h k hk).1

theorem State.peerAcks_plain {s : State} {p : PWrite} (h : ∀ c ∈ p.cells, isPeer c.1 = false) : s.peerAcks p = [] := by
  unfold State.peerAcks
  split
  · rfl
  · rename_i c rest hp
    have hc := h c (by rw [hp]; exact List.mem_cons_self ..)
    simp [hc]

theorem State.landWrite_plain {s : State} {p : PWrite} (h : ∀ c ∈ p.cells, isPeer c.1 = false) (by_ : Option Nat) :
    s.landWrite by_ p = s.writeAtHome by_ p.cells p.tag := by
  unfold State.landWrite
  rw [if_neg]
  rw [Bool.not_eq_true, List.any_eq_false]
  intro c hc
  rw [h c hc, Bool.false_and]
  exact Bool.false_ne_true

/-- A wave with nothing on its way has nothing to wait for at a home (R109). -/
theorem State.flushHomes_none {s : State} {w : Nat} (ho : (s.wave w).out = []) (ha : (s.wave w).accts = []) (hs : List Nat) :
    s.flushHomes w hs = s := by
  simp [State.flushHomes, ho, ha, neededFor]

/-- A wave that is not speculative and has nothing on its way: its RMWs perform at once. -/
structure State.rmwReady (s : State) (w : Nat) : Prop where
  spec : (s.wave w).spec = none
  out : (s.wave w).out = []
  accts : (s.wave w).accts = []

theorem State.rmwStep.ready {s t : State} {w : Nat} (h : s.rmwStep t w) (k : s.rmwReady w) : t.rmwReady w := by
  obtain ⟨hs, ho, ha⟩ := k
  constructor <;> rw [h.own] <;> assumption

/-- What the RMW of a lane makes of memory. -/
def rmwStore (m : Store) (ks : List (Nat × Nat)) (v : Option Nat) : Store :=
  match v with
  | none => m
  | some x => m.write (keyCells ks x) none

theorem rmwStore_armed (m : Store) (ks : List (Nat × Nat)) (v : Option Nat) : (rmwStore m ks v).armed = m.armed := by
  unfold rmwStore
  split
  · rfl
  · exact Store.write_armed ..

theorem mem_rmwStore_poison {m : Store} {ks : List (Nat × Nat)} {v : Option Nat} {x : Nat} (h : x ∈ (rmwStore m ks v).poison) : x ∈ m.poison := by
  unfold rmwStore at h
  split at h
  · exact h
  · exact Store.mem_write_poison h

/-- An RMW that writes nothing reads its line and notes a conflict (R118, R288). -/
theorem State.observeRmw_plain {s : State} {w : Nat} {p : PWrite} (h : ∀ c ∈ p.cells, isPeer c.1 = false) (hs : (s.wave w).spec = none) :
    s.rmwStep (s.observeRmw w p) w ∧ (s.observeRmw w p).store = s.store := by
  set u := p.cells.foldl (fun t c => t.touchRead c.1 1) s with hu
  have hstep : s.homeStep u := State.homeStep_foldl (fun t (c : Nat × Byte × Byte) => t.homeStep_touchRead c.1 1) p.cells s
  have hcrews : u.crews = s.crews := foldl_fixed State.crews _ _ _ (fun x c => rfl)
  have hmark : s.rmwStep (u.markConflicts (some w) (linesOf p.cells)) w :=
    (hstep.trans (u.homeStep_markConflicts _ _)).rmwStep hcrews hs
  have ho : s.observeRmw w p = (u.markConflicts (some w) (linesOf p.cells)).setWave w
      { (u.markConflicts (some w) (linesOf p.cells)).wave w with
        peerOut := ((u.markConflicts (some w) (linesOf p.cells)).wave w).peerOut ++ s.peerAcks p } := rfl
  rw [ho, State.peerAcks_plain h, List.append_nil]
  refine ⟨hmark.trans (State.rmwStep_setWave _ _ _ rfl), ?_⟩
  rw [State.setWave_store_frame, State.store_markConflicts]
  exact foldl_fixed State.store _ _ _ (fun x c => x.touchRead_store c.1 1)

/-- A write of a wave performed in plain memory (R108). -/
theorem State.performWrite_plain {s : State} {w : Nat} {p : PWrite} (h : ∀ c ∈ p.cells, isPeer c.1 = false) (hp : s.plainCells p.cells)
    (hs : (s.wave w).spec = none) : s.rmwStep (s.performWrite w p) w ∧ (s.performWrite w p).store = s.store.write p.cells p.tag := by
  obtain ⟨hstore, hcrews⟩ := hp.writeAtHome (some w) p.tag
  have hp : s.performWrite w p = (s.writeAtHome (some w) p.cells p.tag).setWave w
      { (s.writeAtHome (some w) p.cells p.tag).wave w with
        maxw := max ((s.writeAtHome (some w) p.cells p.tag).wave w).maxw (gwctOf s.mem s.dt p.cells) } := by
    rw [← State.landWrite_plain h, State.performWrite, State.peerAcks_plain h]
    simp only [List.append_nil]
  rw [hp]
  exact ⟨((s.homeStep_writeAtHome _ _ _).rmwStep hcrews hs).trans (State.rmwStep_setWave _ _ _ rfl), hstore⟩

/-- One lane's RMW at plain places gives the old value and leaves the new one. -/
theorem State.rmwLane_plain {s : State} {w : Nat} (hr : s.rmwReady w) {a : LaneAcc} (hk : s.plainKeys a.keys)
    (hp : keysPoisoned s.store a.keys = false) (f : Nat → Option Nat) :
    (s.rmwLane w a f).2 = some (keysNat s.store a.keys) ∧ s.rmwStep (s.rmwLane w a f).1 w
      ∧ (s.rmwLane w a f).1.store = rmwStore s.store a.keys (f (keysNat s.store a.keys)) := by
  unfold State.rmwLane
  rw [State.flushHomes_none hr.out hr.accts]
  simp only [hp, Bool.false_eq_true, if_false]
  cases hv : f (keysNat s.store a.keys) with
  | none =>
    obtain ⟨hstep, hstore⟩ := State.observeRmw_plain (s := s) (w := w)
      (p := { lane := a.lane, ser := 0, cells := keyCells a.keys (keysNat s.store a.keys), tag := none }) (hk.cells _).2 hr.spec
    exact ⟨rfl, hstep, hstore⟩
  | some v =>
    have hd := s.rmwStep_dropL1 w (s.waveCore w) (keyCells a.keys v)
    obtain ⟨hstep, hstore⟩ := State.performWrite_plain (s := s.dropL1 (s.waveCore w) (keyCells a.keys v)) (w := w)
      (p := { lane := a.lane, ser := 0, cells := keyCells a.keys v, tag := none }) (hk.cells v).2 (hk.cells v).1 hr.spec
    exact ⟨rfl, hd.trans hstep, hstore⟩

/-! ### The lanes one after another (R102) -/

theorem keysPoisoned_mono {m n : Store} (h : ∀ x ∈ n.poison, x ∈ m.poison) {ks : List (Nat × Nat)} (hp : keysPoisoned m ks = false) :
    keysPoisoned n ks = false := by
  simp only [keysPoisoned, Store.poisoned, List.any_eq_false] at hp ⊢
  intro k hk hn
  obtain ⟨x, hx, hb⟩ := List.any_eq_true.mp hn
  exact hp k hk (List.any_eq_true.mpr ⟨x, h x hx, hb⟩)

theorem State.plainPlaces_mono {s t : State} {as : List LaneAcc} (h : s.plainPlaces as) (harmed : t.store.armed = s.store.armed)
    (hpoison : ∀ x ∈ t.store.poison, x ∈ s.store.poison) : t.plainPlaces as := fun a ha =>
  ⟨keysPoisoned_mono hpoison (h a ha).1, fun k hk => by rw [harmed]; exact (h a ha).2 k hk⟩

/-- RMWs of some lanes at plain places run as the rule says. -/
theorem State.rmwLanes_plain {s : State} {w : Nat} (hr : s.rmwReady w) {as : List LaneAcc} (hp : s.plainPlaces as) (ci : Nat) (c : Capv)
    (f : Nat → Nat → Option Nat) : s.rmwStep (s.rmwLanes w ci c as f).1 w
      ∧ (s.rmwLanes w ci c as f).1.store.bytes = (rmwRun s.store f as).1.bytes
      ∧ (s.rmwLanes w ci c as f).2 = ((rmwRun s.store f as).2, []) := by
  induction as generalizing s with
  | nil => exact ⟨State.rmwStep.refl s w, rfl, rfl⟩
  | cons a rest ih =>
    obtain ⟨hpois, hplain⟩ := hp a (List.mem_cons_self ..)
    obtain ⟨hold, hstep, hstore⟩ := State.rmwLane_plain hr hplain hpois (f a.thread)
    obtain ⟨s1, o, hs1⟩ : ∃ s1 o, s.rmwLane w a (f a.thread) = (s1, o) := ⟨_, _, rfl⟩
    rw [hs1] at hold hstep hstore
    dsimp only at hold hstep hstore
    have hnext : s1.plainPlaces rest := State.plainPlaces_mono (fun x hx => hp x (List.mem_cons_of_mem _ hx))
      (by rw [hstore, rmwStore_armed]) (fun x hx => mem_rmwStore_poison (by rw [← hstore]; exact hx))
    obtain ⟨kstep, kbytes, kvals⟩ := ih (hstep.ready hr) hnext
    have hbytes : s1.store.bytes = (match f a.thread (keysNat s.store a.keys) with
        | none => s.store
        | some v => s.store.putCells (keyCells a.keys v)).bytes := by
      rw [hstore]
      cases f a.thread (keysNat s.store a.keys) <;> simp [rmwStore]
    obtain ⟨cbytes, cvals⟩ := rmwRun_congr hbytes f rest
    rw [State.rmwLanes, hs1, hold]
    refine ⟨hstep.trans kstep, ?_, ?_⟩
    · rw [kbytes, cbytes]
      rfl
    · dsimp only
      rw [kvals, cvals]
      rfl

/-! ### The word (R287, R288) -/

/-- The wave passes its word after RMWs, with results that are written later. -/
theorem State.rmwStep.rmwFrame {s t u : State} {w : Nat} (h : s.rmwStep t w) (k : LaneStep t u w) (mark : Bool)
    (hspec : (u.wave w).spec = (t.wave w).spec) : s.rmwFrame (u.finish w mark) w := by
  obtain ⟨⟨hmach, -⟩, ⟨hothers, -⟩, hpass, hcc, -, -⟩ := finishN_frame t u w 1 mark k
  have hmem : (u.finish w mark).mem = t.mem := by rw [State.finish_mem, k.machine]
  have hcores : ∀ c, (u.finish w mark).core c = t.core c := fun c => by rw [State.finish, hmach]; rfl
  have hclus : ∀ c, (u.finish w mark).cluster c = t.cluster c := fun c => by rw [State.finish, hmach]; rfl
  have hsp : ((u.finish w mark).wave w).spec = (u.wave w).spec := by simp [State.finish, State.finishN, State.bumpFree, State.wave, State.setWave]
  refine ⟨?_, ?_, fun c => by rw [hcores, h.cores c], fun c => by rw [hclus, h.clusters c], fun x hx => ?_, ?_⟩
  · rw [State.finish, hmach, h.machine]
  · rw [State.store, hmem, h.mem]
  · rw [State.finish, hothers x hx, h.waves x hx]
  · rw [State.finish] at hsp ⊢
    unfold Wave.passed at hpass
    rw [hpass, hcc, hsp, hspec, h.own]

/-- A wave that is not speculative logs no old value. -/
theorem State.logUndo_unspec {s : State} {w : Nat} (h : (s.wave w).spec = none) (t n k : Nat) : s.logUndo w t n k = s := by
  rw [State.logUndo, h]

theorem State.putLoaded_unspec {s : State} {w : Nat} (h : (s.wave w).spec = none) (d : Slc) (vs : List (Nat × Nat)) :
    s.putLoaded w d vs = s.addLong w { cells := vs.flatMap (fun v => cellsOf v.1 d.start v.2 d.width), prds := [] } := by
  have hu : vs.foldl (fun t v => t.logUndo w v.1 d.start d.width) s = s := by
    induction vs with
    | nil => rfl
    | cons v rest ih => rw [List.foldl_cons, State.logUndo_unspec h, ih]
  rw [State.putLoaded, hu]

theorem State.addLong_spec (s : State) (w : Nat) (r : LongRes) : ((s.addLong w r).wave w).spec = (s.wave w).spec := by
  unfold State.addLong
  split
  · rfl
  · rw [State.setWave_wave_same]

/-- The result cells of some lanes: the first lane of a thread gives its operand. -/
theorem find_resultCells (vs : List (Nat × Nat)) (d : Slc) (x j : Nat) :
    (vs.flatMap (fun v => cellsOf v.1 d.start v.2 d.width)).find? (fun c => c.1 == x && c.2.1 == j)
      = match vs.find? (fun v => v.1 == x) with
        | none => none
        | some v => if d.start ≤ j ∧ j < d.start + d.width then some (x, j, BitVec.ofNat 4 (v.2 / 16 ^ (j - d.start) % 16)) else none := by
  have h := find_laneCells (vs.map Prod.swap) d (fun l _ => l) x j
  have hcells : laneCells (vs.map Prod.swap) (fun l _ => [(d, l)]) = vs.flatMap (fun v => cellsOf v.1 d.start v.2 d.width) := by
    simp [laneCells, List.flatMap_map]
  rw [hcells, List.find?_map] at h
  rw [h]
  show (match Option.map Prod.swap (vs.find? (fun v => v.1 == x)) with
    | none => none
    | some e => _) = _
  cases vs.find? (fun v => v.1 == x) <;> rfl

/-- What RMW results leave and give: the operand of each lane's thread holds an old value of that thread, and no other register changes. -/
theorem State.rmwStep.results {s t : State} {w : Nat} (h : s.rmwStep t w) (hspec : (t.wave w).spec = none) (mark : Bool) (d : Slc)
    (vs : List (Nat × Nat)) : s.rmwFrame ((t.putLoaded w d vs).finish w mark) w
      ∧ s.operandFrame ((t.putLoaded w d vs).finish w mark) w (vs.map (fun v => v.1)) d
      ∧ ∀ x ∈ vs.map (fun v => v.1), ∃ v, (x, v) ∈ vs
        ∧ ((t.putLoaded w d vs).finish w mark).progOpnd w x d = v % 2 ^ (4 * d.width) := by
  rw [State.putLoaded_unspec hspec]
  set r : LongRes := { cells := vs.flatMap (fun v => cellsOf v.1 d.start v.2 d.width), prds := [] } with hr
  have hstep := addLong_step t w r
  obtain ⟨-, ⟨-, hgroups⟩, -, hcc, hregs, hrest⟩ := finishN_frame t _ w 1 mark hstep
  have hg : t.groups = s.groups := by rw [h.machine]
  have hgroup : ∀ g, t.group g = s.group g := fun g => by rw [State.group, State.group, hg]
  have hthread : ∀ g x, t.thread g x = s.thread g x := fun g x => by rw [State.thread, State.thread, hgroup]
  have hpend : (t.wave w).pend = (s.wave w).pend := by rw [h.own]
  have hnib : ∀ x n, ((t.addLong w r).finish w mark).progNib w x n = (match vs.find? (fun v => v.1 == x) with
      | none => s.progNib w x n
      | some v => if d.start ≤ n ∧ n < d.start + d.width then BitVec.ofNat 4 (v.2 / 16 ^ (n - d.start) % 16) else s.progNib w x n) := by
    intro x n
    have hs : t.progNib w x n = s.progNib w x n := by rw [State.progNib, State.progNib, hpend, hthread]
    rw [State.finish, finishN_progNib, addLong_progNib, hr]
    simp only [find_resultCells, hs]
    cases vs.find? (fun v => v.1 == x) with
    | none => rfl
    | some v =>
      dsimp only
      by_cases hd : d.start ≤ n ∧ n < d.start + d.width
      · rw [if_pos hd, if_pos hd]
      · rw [if_neg hd, if_neg hd]
  refine ⟨h.rmwFrame hstep mark (State.addLong_spec ..), ⟨fun g hne => ?_, ?_, ?_, fun x p => ?_, fun x n hn => ?_, fun x => ?_⟩, fun x hx => ?_⟩
  · rw [State.finish, hgroups g hne, hgroup]
  · rw [State.sameGroupRegs, ← hgroup]
    exact hregs
  · rw [State.finish, hcc, h.own]
  · rw [State.finish, finishN_progPrd, addLong_progPrd _ _ _ _ _ rfl, State.progPrd, State.progPrd, hpend, hthread]
  · rw [hnib]
    cases hf : vs.find? (fun v => v.1 == x) with
    | none => rfl
    | some v =>
      have hv : v.1 = x := by simpa using List.find?_some hf
      exact if_neg fun hd => hn ⟨List.mem_map.mpr ⟨v, List.mem_of_find?_eq_some hf, hv⟩, hd⟩
  · have := hrest x
    rwa [hthread] at this
  · obtain ⟨e, he, rfl⟩ := List.mem_map.mp hx
    obtain ⟨v, hv⟩ := Option.isSome_iff_exists.mp (List.find?_isSome (p := fun v : Nat × Nat => v.1 == e.1).mpr ⟨e, he, beq_self_eq_true _⟩)
    have hx : v.1 = e.1 := by simpa using List.find?_some hv
    refine ⟨v.2, hx ▸ List.mem_of_find?_eq_some hv, ?_⟩
    rw [two_pow_four, State.progOpnd]
    apply progSlices_eq
    intro j hj
    rw [hnib, hv]
    dsimp only
    rw [if_pos ⟨by omega, by omega⟩, Nat.add_sub_cancel_left]

/-- The end of an RMW word whose lanes have been performed: the old values go to an operand, or nowhere. -/
def State.rmwEnd (w am : Nat) (mark : Bool) (d : Option Slc) (r : State × List (Nat × Nat) × Tab TrapLane) : State :=
  match d with
  | some dst => r.1.finishLoad w am mark dst r.2.1 r.2.2
  | none => if r.2.2 ≠ [] then r.1.partialTrap w am r.2.2 else r.1.finish w mark

section
variable {s s1 : State} {w : Nat} {as : List LaneAcc} {x : LaneWord} {ci n attr scope : Nat} {off : Nat → Nat}

/-- An RMW word whose lanes pass their checks and that has nothing to wait for performs them in its step. -/
theorem State.reaches.rmwWord (hs : (s.wave w).spec = none) (hk : s.lanesOk w x.g x.reads x.writes) (hl : x.legal = true)
    (hr : s.reaches w x.g { ci := ci, spaces := rmwSpaces, mask := permAT, acc := .store, n := n, align := n, host := false } off s1 as)
    (hm : s1.mayStore w attr scope) (d : Option Slc) (f : Nat → Nat → Option Nat) :
    s.rmwWord w x ci n attr scope (fun _ t => off t) d f
      = State.rmwEnd w (laneMask (s.activeLanes w x.g)) x.mark d (s1.rmwLanes w ci (s.kUse ci) as f) := by
  obtain ⟨-, hgate, hrel⟩ := hm
  rw [State.rmwWord, State.unlessSpec, hs, Option.isSome_none, if_neg Bool.false_ne_true]
  dsimp only
  rw [hr.memIssue hk hl]
  unfold State.afterGate State.afterRelease
  simp only [hgate]
  by_cases ha : as = []
  · rw [if_pos ha, ha]
    cases d <;> rfl
  · rw [if_neg ha]
    by_cases h2 : 2 ≤ attr
    · rw [if_pos h2, if_pos (hrel.resolve_left (by omega))]
      rfl
    · rw [if_neg h2]
      rfl

/-- A form that gives each lane the old value. -/
theorem State.reaches.fetching (hs : (s.wave w).spec = none) (hk : s.lanesOk w x.g x.reads x.writes) (hl : x.legal = true)
    (hr : s.reaches w x.g { ci := ci, spaces := rmwSpaces, mask := permAT, acc := .store, n := n, align := n, host := false } off s1 as)
    (hm : s1.mayStore w attr scope) (hready : s1.rmwReady w) (hp : s1.plainPlaces as) (d : Slc) (f : Nat → Nat → Option Nat) :
    let t := s.rmwWord w x ci n attr scope (fun _ t => off t) (some d) f
    s1.rmwFrame t w ∧ s1.operandFrame t w (as.map (fun a => a.thread)) d
      ∧ (∀ a, t.store.byte a = (rmwRun s1.store f as).1.byte a)
      ∧ ∀ a ∈ as, ∃ v, (a.thread, v) ∈ (rmwRun s1.store f as).2 ∧ t.progOpnd w a.thread d = v % 2 ^ (4 * d.width) := by
  obtain ⟨hstep, hbytes, hvals⟩ := State.rmwLanes_plain hready hp ci (s.kUse ci) f
  obtain ⟨hframe, hopnd, hres⟩ := hstep.results (hstep.ready hready).spec x.mark d (rmwRun s1.store f as).2
  rw [rmwRun_threads] at hopnd hres
  have ht : s.rmwWord w x ci n attr scope (fun _ t => off t) (some d) f
      = ((s1.rmwLanes w ci (s.kUse ci) as f).1.putLoaded w d (rmwRun s1.store f as).2).finish w x.mark := by
    rw [hr.rmwWord hs hk hl hm, State.rmwEnd, hvals]
    rfl
  rw [ht]
  refine ⟨hframe, hopnd, fun a => ?_, fun a ha => hres a.thread (List.mem_map_of_mem ha)⟩
  rw [Store.byte, State.store, State.finish_mem, State.putLoaded_unspec (hstep.ready hready).spec, State.addLong_mem, ← State.store, hbytes]
  rfl

/-- A form that gives no lane anything. -/
theorem State.reaches.reducing (hs : (s.wave w).spec = none) (hk : s.lanesOk w x.g x.reads x.writes) (hl : x.legal = true)
    (hr : s.reaches w x.g { ci := ci, spaces := rmwSpaces, mask := permAT, acc := .store, n := n, align := n, host := false } off s1 as)
    (hm : s1.mayStore w attr scope) (hready : s1.rmwReady w) (hp : s1.plainPlaces as) (f : Nat → Nat → Option Nat) :
    let t := s.rmwWord w x ci n attr scope (fun _ t => off t) none f
    s1.rmwFrame t w ∧ (t.wave w).pend = (s1.wave w).pend ∧ t.groups = s1.groups
      ∧ ∀ a, t.store.byte a = (rmwRun s1.store f as).1.byte a := by
  obtain ⟨hstep, hbytes, hvals⟩ := State.rmwLanes_plain hready hp ci (s.kUse ci) f
  have ht : s.rmwWord w x ci n attr scope (fun _ t => off t) none f = (s1.rmwLanes w ci (s.kUse ci) as f).1.finish w x.mark := by
    rw [hr.rmwWord hs hk hl hm, State.rmwEnd, hvals]
    rfl
  rw [ht]
  set t := (s1.rmwLanes w ci (s.kUse ci) as f).1 with hu
  refine ⟨hstep.rmwFrame (LaneStep.refl _ w) x.mark rfl, ?_, ?_, fun a => ?_⟩
  · have hp : ((t.finish w x.mark).wave w).pend = (t.wave w).pend := by
      simp [State.finish, State.finishN, State.bumpFree, State.wave, State.setWave]
    rw [hp, hstep.own]
  · rw [State.finish_groups, hstep.machine]
  · rw [Store.byte, State.store, State.finish_mem, ← State.store, hbytes]
    rfl

end

/-- Settles O21: each lane's RMW at plain places is one read and one write of memory, and the lanes run one after another as `rmwRun`. -/
theorem atomics : Obligations.Atomics := by
  unfold Obligations.Atomics
  intro s s1 w as hfly hplain hspec
  have hready : s1.rmwReady w := ⟨hfly.1, hfly.2.2.1, hfly.2.2.2⟩
  refine ⟨fun o f hf hscope hwidth hm hr => ?_, fun o hattr hscope hwidth hm hk hr => ?_⟩
  · obtain ⟨hop, rfl⟩ := atomOp_of_atomTable hf
    refine ⟨fun hattr hk => ?_, fun hattr hk => ?_⟩
    · have hl : atmOk o [0, 1, 2, 3] = true := by
        have : o.attr ∈ [0, 1, 2, 3] := by simp; omega
        simp [atmOk, attrOk, this, hscope, hop, hwidth]
      exact ⟨_, State.onWave_wave hk.1 _, State.reaches.fetching (x := ⟨o.mark, o.g, atmOk o [0, 1, 2, 3], [o.a, o.d], [o.d]⟩)
        hspec hk hl hr hm hready hplain o.d _⟩
    · have hl : atmOk o [0, 2] = true := by
        have : o.attr ∈ [0, 2] := by simp; omega
        simp [atmOk, attrOk, this, hscope, hop, hwidth]
      exact ⟨_, State.onWave_wave hk.1 _, State.reaches.reducing (x := ⟨o.mark, o.g, atmOk o [0, 2], [o.a, o.d], []⟩)
        hspec hk hl hr hm hready hplain _⟩
  · have hl : (attrOk [0, 1, 2, 3] o.attr o.scope && (o.d.width == 8 || o.d.width == 16)) = true := by
      have : o.attr ∈ [0, 1, 2, 3] := by simp; omega
      simp [attrOk, this, hscope, hwidth]
    exact ⟨_, State.onWave_wave hk.1 _, State.reaches.fetching
      (x := ⟨o.mark, o.g, _, [o.a, o.d, { start := o.d.start + o.d.width, width := o.d.width }], [o.d]⟩)
      hspec hk hl hr hm hready hplain o.d _⟩

end Sys2Proof.Machine
end

section
/-! ## O23: fences, the speculative fence, IINV and prefetches -/

namespace Sys2Proof.Machine

open Sys2Proof

/-! ### A wave that passes its word with no result outstanding (R196) -/

/-- A wave passes its word; a marker parks it where a result is outstanding. -/
theorem State.finish_wave (s : State) (w : Nat) (mark : Bool) : (s.finish w mark).wave w = { s.wave w with
    word := (s.wave w).word + 1, retry := none, held := none, park := (s.wave w).afterWait mark
    lastPark := if mark = true ∧ (s.wave w).pend ≠ [] then s.coreCycles (s.waveCore w) else (s.wave w).lastPark } := by
  simp [State.finish, State.finishN, State.bumpFree, State.wave, State.setWave]

theorem State.finish_wave_other (s : State) {w x : Nat} (h : x ≠ w) (mark : Bool) : (s.finish w mark).wave x = s.wave x :=
  (State.setWave_wave s w _ x).trans (if_neg h)

theorem Wave.afterWait_of_pend {v : Wave} (h : v.pend = []) (mark : Bool) : v.afterWait mark = .run := by simp [Wave.afterWait, h]

theorem State.finish_wave_settled {s : State} {w : Nat} (h : (s.wave w).pend = []) (mark : Bool) : (s.finish w mark).wave w = { s.wave w with
    word := (s.wave w).word + 1, retry := none, held := none, park := .run } := by
  rw [State.finish_wave, Wave.afterWait_of_pend h, if_neg fun e => e.2 h]

/-- Passing a word is a jump to the next one. -/
theorem State.finish_jumpFrame {s : State} {w : Nat} (hc : s.cur = .wave w) (hp : (s.wave w).pend = []) (mark : Bool) :
    s.jumpFrame (s.finish w mark) mark ((s.wave w).word + 1) ∧ ∀ n, (s.finish w mark).lcReg n = s.lcReg n := by
  have hw := State.finish_wave_settled hp mark
  refine ⟨⟨rfl, fun _ => rfl, ?_⟩, fun n => ?_⟩
  · split
    · rename_i hx
      cases hc.symm.trans hx
    · rename_i x hx
      cases hc.symm.trans hx
      refine ⟨rfl, fun v hv => s.finish_wave_other hv mark, ?_⟩
      rw [hw, if_neg fun e => e.2 hp]
    · rename_i hx
      cases hc.symm.trans hx
  · have hcur : (s.finish w mark).cur = .wave w := by rw [State.finish_cur, hc]
    rw [State.lcReg, State.lcReg, hcur, hc]
    dsimp only
    rw [hw]
    rfl

/-! ### FENCE (R113, R289) -/

theorem State.onAgent_wave {s : State} {w : Nat} (h : s.cur = .wave w) (fw fq : Nat → State) : s.onAgent fw fq = .next (fw w) := by
  rw [State.onAgent, h]

theorem State.onAgent_seq {s : State} {k : Nat} (h : s.cur = .seq k) (fw fq : Nat → State) : s.onAgent fw fq = .next (fq k) := by
  rw [State.onAgent, h]

theorem fence_attrOk {attr scope : Nat} (ha : attr = 1 ∨ attr = 2 ∨ attr = 3) (hs : scope < 6) : attrOk [1, 2, 3] attr scope = true := by
  have : attr ∈ [1, 2, 3] := by simp; omega
  simp [attrOk, this, hs]

theorem execFence_wave {s : State} {w : Nat} {o : Fence} (hc : s.cur = .wave w) (hn : (s.wave w).spec = none)
    (ha : o.attr = 1 ∨ o.attr = 2 ∨ o.attr = 3) (hs : o.scope < 6) : exec (.fence o) s = .next (s.waveFence w o.attr o.scope) := by
  have h : exec (.fence o) s = .next _ := State.onAgent_wave hc _ _
  rw [h, fence_attrOk ha hs, State.unlessSpec, hn]
  rfl

theorem State.waveFence_acquire {s : State} {w : Nat} (hp : (s.wave w).pend = []) (scope : Nat) : s.waveFence w 1 scope = s.finish w true := by
  simp [State.waveFence, hp]

theorem State.waveFence_release {s : State} {w : Nat} (hp : (s.wave w).pend = []) (scope : Nat) : s.waveFence w 2 scope =
    if s.releaseDone w scope then s.finish w true
    else (s.setWave w { s.wave w with relGate := some (max scope (((s.wave w).relGate).getD 0)) }).finish w true := by
  simp [State.waveFence, hp]

theorem State.waveFence_both {s : State} {w scope : Nat} (hp : (s.wave w).pend = []) (hd : s.releaseDone w scope = true) :
    s.waveFence w 3 scope = s.finish w true := by
  simp [State.waveFence, hp, State.afterRelease, hd]

theorem State.waveFence_release_frame {s : State} {w : Nat} (hp : (s.wave w).pend = []) (scope : Nat) :
    let t := s.waveFence w 2 scope
    t = { s with waves := t.waves, free := t.free } ∧ (∀ v, v ≠ w → t.wave v = s.wave v)
      ∧ t.wave w = { s.wave w with
          word := (s.wave w).word + 1, retry := none, held := none, park := .run
          relGate := if s.releaseDone w scope then (s.wave w).relGate else some (max scope ((s.wave w).relGate.getD 0)) } := by
  dsimp only
  rw [State.waveFence_release hp]
  by_cases hd : s.releaseDone w scope = true
  · rw [if_pos hd, if_pos hd]
    exact ⟨rfl, fun v hv => s.finish_wave_other hv true, State.finish_wave_settled hp true⟩
  · rw [if_neg hd, if_neg hd]
    have hset : (s.setWave w { s.wave w with relGate := some (max scope (((s.wave w).relGate).getD 0)) }).wave w
        = { s.wave w with relGate := some (max scope (((s.wave w).relGate).getD 0)) } := State.setWave_wave_same ..
    refine ⟨rfl, fun v hv => ?_, ?_⟩
    · rw [State.finish_wave_other _ hv, State.setWave_wave, if_neg hv]
    · rw [State.finish_wave_settled (by rw [hset]; exact hp), hset]

/-- A sequencer passes its word. -/
theorem State.seqFinish_cluster (s : State) (k n : Nat) : (s.seqFinish k n).cluster k = { s.cluster k with
    seq := { s.seqOf k with word := (s.seqOf k).word + n, park := .run } } := by
  simp [State.seqFinish, State.bumpFree, State.setSeq, State.setCluster, State.cluster]

theorem State.seqFinish_cluster_other (s : State) {k j : Nat} (h : j ≠ k) (n : Nat) : (s.seqFinish k n).cluster j = s.cluster j :=
  (State.setCluster_cluster s k _ j).trans (if_neg h)

theorem execFence_seq {s : State} {k : Nat} {o : Fence} (hc : s.cur = .seq k) (hd : (s.seqOf k).drained = true) (hi : (s.seqOf k).idem = false)
    (hs : o.scope < 6) (ha : o.attr = 1 ∨ o.attr = 2 ∨ (o.attr = 3 ∧ s.seqReleaseDone k o.scope = true)) :
    exec (.fence o) s = .next (if o.attr = 2 ∧ s.seqReleaseDone k o.scope = false then
      (s.setSeq k { s.seqOf k with relGate := some (max o.scope (((s.seqOf k).relGate).getD 0)) }).seqFinish k 1 else s.seqFinish k 1) := by
  have h : exec (.fence o) s = .next _ := State.onAgent_seq hc _ _
  rw [h, fence_attrOk (by omega) hs]
  simp only [Bool.true_eq_false, if_false, State.outsideRegion, hi, Bool.false_eq_true, State.seqFence, State.seqDrain, hd, if_true]
  rcases ha with ha | ha | ⟨ha, hr⟩
  · simp [ha]
  · simp [ha]
  · simp [ha, State.seqAfterRelease, hr]

theorem seqFence_gives {s : State} {k : Nat} {o : Fence} (hc : s.cur = .seq k) (hd : (s.seqOf k).drained = true) (hi : (s.seqOf k).idem = false)
    (hs : o.scope < 6) (ha : o.attr = 1 ∨ o.attr = 2 ∨ (o.attr = 3 ∧ s.seqReleaseDone k o.scope = true)) :
    Answer.gives (exec (.fence o) s) (fun t =>
      t = { s with clusters := t.clusters, free := t.free } ∧ (∀ j, j ≠ k → t.cluster j = s.cluster j)
      ∧ t.cluster k = { s.cluster k with seq := { s.seqOf k with
          word := (s.seqOf k).word + 1, park := .run
          relGate := if o.attr = 2 ∧ s.seqReleaseDone k o.scope = false then some (max o.scope ((s.seqOf k).relGate.getD 0))
            else (s.seqOf k).relGate } }) := by
  refine ⟨_, execFence_seq hc hd hi hs ha, ?_⟩
  by_cases hg : o.attr = 2 ∧ s.seqReleaseDone k o.scope = false
  · rw [if_pos hg, if_pos hg]
    refine ⟨rfl, fun j hj => ?_, ?_⟩
    · rw [State.seqFinish_cluster_other _ hj, State.setSeq, State.setCluster_cluster, if_neg hj]
    · rw [State.seqFinish_cluster, State.setSeq_seqOf_same, State.setSeq, State.setCluster_cluster_same]
  · rw [if_neg hg, if_neg hg]
    exact ⟨rfl, fun j hj => s.seqFinish_cluster_other hj 1, s.seqFinish_cluster k 1⟩

/-! ### FENCE.S (R114, R289) -/

/-- The checkpoint holds the predicates of every thread that it names. -/
theorem tabFind_foldl_tabPut {α : Type} (f : Nat → α) (l : List (Nat × Nat)) (t : Tab α) {x : Nat}
    (h : (∃ e ∈ l, e.2 = x) ∨ tabFind t x = some (f x)) :
    tabFind (l.foldl (fun t e => tabPut t e.2 (f e.2)) t) x = some (f x) := by
  induction l generalizing t with
  | nil => exact h.resolve_left (by simp)
  | cons e rest ih =>
    rw [List.foldl_cons]
    refine ih _ ?_
    by_cases hx : x = e.2
    · exact .inr (by rw [hx, tabFind_tabPut_same])
    · rcases h with ⟨d, hd, hdx⟩ | h
      · rcases List.mem_cons.mp hd with rfl | hd
        · exact absurd hdx.symm hx
        · exact .inl ⟨d, hd, hdx⟩
      · exact .inr (by rw [tabFind_tabPut_other _ _ _ _ hx, h])

theorem State.finish_occupied (s : State) (w : Nat) (mark : Bool) : (s.finish w mark).occupied w = s.occupied w := by
  rw [State.occupied, State.finish_wave]
  rfl

theorem execFenceS_eq {s : State} {w : Nat} {o : FenceS} (hc : s.cur = .wave w) (hn : (s.wave w).spec = none) (hs : o.scope < 6)
    (hp : (s.wave w).pend = []) : exec (.fenceS o) s
      = .next (if s.releaseDone w o.scope then s.finish w true else (s.finish w true).enterSpec w o.scope) := by
  have h : exec (.fenceS o) s = .next _ := State.onWave_wave hc _
  rw [h, if_neg (by omega), State.unlessSpec, hn]
  simp [hp]

theorem fenceS_gives {s : State} {w : Nat} {o : FenceS} (hc : s.cur = .wave w) (hn : (s.wave w).spec = none) (hs : o.scope < 6)
    (hp : (s.wave w).pend = []) : Answer.gives (exec (.fenceS o) s) (fun t =>
        t = { s with waves := t.waves, free := t.free } ∧ (∀ v, v ≠ w → t.wave v = s.wave v)
        ∧ t.wave w = { s.wave w with word := (s.wave w).word + 1, retry := none, held := none, park := .run, spec := (t.wave w).spec }
        ∧ (s.releaseDone w o.scope = true → (t.wave w).spec = none)
        ∧ (s.releaseDone w o.scope = false → ∃ p, (t.wave w).spec = some p ∧ p.scope = o.scope ∧ p.ckCc = (s.wave w).cc
          ∧ p.ckLc = (s.wave w).lc ∧ p.seg = (s.wave w).seg ∧ p.word = (s.wave w).word + 1 ∧ p.undo = [] ∧ p.watches = []
          ∧ p.stores = [] ∧ p.rollbacks = 0 ∧ p.conflict = false
          ∧ ∀ e ∈ s.occupied w, tabFind p.ckPreds e.2 = some (s.thread (groupOf w) e.2).preds)) := by
  have hw := State.finish_wave_settled hp true
  refine ⟨_, execFenceS_eq hc hn hs hp, ?_⟩
  by_cases hd : s.releaseDone w o.scope = true
  · rw [if_pos hd]
    refine ⟨rfl, fun v hv => s.finish_wave_other hv true, ?_, fun _ => ?_, fun h => by simp [hd] at h⟩
    · rw [hw]
    · rw [hw]
      exact hn
  · rw [if_neg hd]
    have hspec : ((s.finish w true).enterSpec w o.scope).wave w = _ := State.setWave_wave_same ..
    rw [hw] at hspec
    refine ⟨rfl, fun v hv => ?_, ?_, fun h => absurd h hd, fun _ => ⟨_, congrArg Wave.spec hspec, rfl, rfl, rfl, rfl, rfl, rfl, rfl, rfl, rfl, rfl, ?_⟩⟩
    · rw [State.enterSpec, State.setWave_wave, if_neg hv, s.finish_wave_other hv]
    · rw [hspec]
    · intro e he
      rw [State.finish_occupied]
      exact tabFind_foldl_tabPut (fun x => (s.thread (groupOf w) x).preds) _ _ (.inl ⟨e, he, rfl⟩)

/-! ### IINV (R290) -/

/-- The instruction lines of some cores have been dropped. -/
structure State.linesDropped (s t : State) (hit : Nat → Prop) : Prop where
  machine : t = { s with cores := t.cores }
  cores : ∀ c, t.core c = { s.core c with l1i := (t.core c).l1i, fbufs := (t.core c).fbufs }
  dropped : ∀ c, hit c → (t.core c).l1i = [] ∧ (t.core c).fbufs = []
  other : ∀ c, ¬hit c → t.core c = s.core c

theorem State.linesDropped_dropL1i (s : State) (core : Nat) : s.linesDropped (s.dropL1i core) (fun c => c = core) where
  machine := rfl
  cores c := by
    rw [State.dropL1i, State.setCore_core]
    split
    · rename_i hc; rw [hc]
    · rfl
  dropped c hc := by
    subst hc
    rw [State.dropL1i, State.setCore_core_same]
    exact ⟨rfl, rfl⟩
  other c hc := by rw [State.dropL1i, State.setCore_core, if_neg hc]

theorem State.linesDropped_foldl (l : List Nat) (s : State) : s.linesDropped (l.foldl State.dropL1i s) (fun c => c ∈ l) := by
  induction l generalizing s with
  | nil => exact ⟨rfl, fun _ => rfl, by simp, fun _ _ => rfl⟩
  | cons x rest ih =>
    have h := s.linesDropped_dropL1i x
    have k := ih (s.dropL1i x)
    rw [List.foldl_cons]
    refine ⟨by rw [k.machine, h.machine], fun c => by rw [k.cores c, h.cores c], fun c hc => ?_, fun c hc => ?_⟩
    · by_cases hr : c ∈ rest
      · exact k.dropped c hr
      · rw [k.other c hr]
        exact h.dropped c ((List.mem_cons.mp hc).resolve_right hr)
    · rw [k.other c (fun hr => hc (List.mem_cons_of_mem _ hr)), h.other c (fun e => hc (e ▸ List.mem_cons_self ..))]

/-- A table lists the keys that it finds. -/
theorem tabFind_isSome_iff {α : Type} (t : Tab α) (k : Nat) : (tabFind t k).isSome = true ↔ k ∈ t.map (fun e => e.1) := by
  induction t with
  | nil => simp [tabFind]
  | cons e rest ih =>
    rw [tabFind, List.map_cons, List.mem_cons]
    by_cases he : e.1 = k
    · simp [he]
    · rw [if_neg he, ih]
      exact ⟨.inr, fun h => h.resolve_left (fun hk => he hk.symm)⟩

theorem State.core_of_notListed {s : State} {c : Nat} (h : c ∉ s.cores.map (fun e => e.1)) : s.core c = CoreSt.reset := by
  have hn : tabFind s.cores c = none := Option.not_isSome_iff_eq_none.mp (fun k => h ((tabFind_isSome_iff _ _).mp k))
  rw [State.core, tabGet, hn]

theorem State.linesDropped_invalidate (s : State) (core reach : Nat) :
    s.linesDropped (s.invalidate core reach) (fun c => if reach = 0 then c = core else c ∈ s.cores.map (fun e => e.1)) := by
  unfold State.invalidate
  split
  · exact s.linesDropped_dropL1i core
  · exact s.linesDropped_foldl _

theorem execIinv_eq {s : State} {w : Nat} {o : Iinv} (hc : s.cur = .wave w) (hn : (s.wave w).spec = none) (hd : s.releaseDone w 0 = true) :
    exec (.iinv o) s = .next (((s.invalidate (s.waveCore w) o.reach).finish w o.mark).park w (.iinv o.reach o.mark)) := by
  have h : exec (.iinv o) s = .next _ := State.onWave_wave hc _
  rw [h, hn]
  simp [State.afterRelease, hd]

theorem iinv_gives {s : State} {w : Nat} {o : Iinv} (hc : s.cur = .wave w) (hn : (s.wave w).spec = none) (hd : s.releaseDone w 0 = true) :
    Answer.gives (exec (.iinv o) s) (fun t =>
        t = { s with waves := t.waves, free := t.free, cores := t.cores } ∧ (∀ v, v ≠ w → t.wave v = s.wave v)
        ∧ (t.core (s.waveCore w)).l1i = [] ∧ (t.core (s.waveCore w)).fbufs = []
        ∧ (∀ c, t.core c = { s.core c with l1i := (t.core c).l1i, fbufs := (t.core c).fbufs })
        ∧ (o.reach ≠ 0 → ∀ c, (tabFind s.cores c).isSome = true → (t.core c).l1i = [] ∧ (t.core c).fbufs = [])
        ∧ (o.reach = 0 → ∀ c, c ≠ s.waveCore w → t.core c = s.core c)
        ∧ (t.wave w).word = (s.wave w).word + 1 ∧ (t.wave w).park = .iinv o.reach o.mark) := by
  refine ⟨_, execIinv_eq hc hn hd, ?_⟩
  have h := s.linesDropped_invalidate (s.waveCore w) o.reach
  set u := s.invalidate (s.waveCore w) o.reach with hu
  set t := (u.finish w o.mark).park w (.iinv o.reach o.mark) with ht
  have hcore : ∀ c, t.core c = u.core c := fun _ => rfl
  have hwave : ∀ x, u.wave x = s.wave x := fun x => by rw [h.machine]; rfl
  have hown : (t.core (s.waveCore w)).l1i = [] ∧ (t.core (s.waveCore w)).fbufs = [] := by
    rw [hcore]
    by_cases hr : o.reach = 0
    · exact h.dropped _ (by rw [if_pos hr])
    · by_cases hl : s.waveCore w ∈ s.cores.map (fun e => e.1)
      · exact h.dropped _ (by rw [if_neg hr]; exact hl)
      · rw [h.other _ (by rw [if_neg hr]; exact hl), State.core_of_notListed hl]
        exact ⟨rfl, rfl⟩
  refine ⟨?_, fun v hv => ?_, hown.1, hown.2, fun c => ?_, fun hr c hl => ?_, fun hr c hne => ?_, ?_, ?_⟩
  · show ({ u with waves := t.waves, free := t.free } : State) = { s with waves := t.waves, free := t.free, cores := u.cores }
    rw [h.machine]
  · rw [ht, State.park, State.setWave_wave, if_neg hv, u.finish_wave_other hv, hwave]
  · rw [hcore]
    exact h.cores c
  · rw [hcore]
    exact h.dropped c (by rw [if_neg hr]; exact (tabFind_isSome_iff _ _).mp hl)
  · rw [hcore]
    exact h.other c (by rw [if_pos hr]; exact hne)
  · rw [ht, State.park_wave, State.finish_wave, hwave]
  · rw [ht, State.park_wave]

/-! ### PREF (R284) -/

/-- Lines have been asked for and walks have begun: TLBs and prefetch queues of cores, miss tables of clusters, and the walker's turn. -/
structure State.asked (s t : State) : Prop where
  machine : t = { s with cores := t.cores, clusters := t.clusters, mem := t.mem }
  mem : t.mem = { s.mem with walkTurn := t.mem.walkTurn }
  cores : ∀ c, t.core c = { s.core c with tlb := (t.core c).tlb, prefs := (t.core c).prefs }
  clusters : ∀ k, t.cluster k = { s.cluster k with misses := (t.cluster k).misses }

theorem State.asked.refl (s : State) : s.asked s := ⟨rfl, rfl, fun _ => rfl, fun _ => rfl⟩

theorem State.asked.trans {s t u : State} (h : s.asked t) (k : t.asked u) : s.asked u where
  machine := by rw [k.machine, h.machine]
  mem := by rw [k.mem, h.mem]
  cores c := by rw [k.cores c, h.cores c]
  clusters c := by rw [k.clusters c, h.clusters c]

theorem State.asked_setCore (s : State) (c : Nat) (v : CoreSt) (h : v = { s.core c with tlb := v.tlb, prefs := v.prefs }) : s.asked (s.setCore c v) where
  machine := rfl
  mem := rfl
  cores x := by
    rw [State.setCore_core]
    split
    · rename_i hx; rw [hx]; exact h
    · rfl
  clusters _ := rfl

theorem State.asked_setCluster (s : State) (k : Nat) (v : ClusterSt) (h : v = { s.cluster k with misses := v.misses }) : s.asked (s.setCluster k v) where
  machine := rfl
  mem := rfl
  cores _ := rfl
  clusters x := by
    rw [State.setCluster_cluster]
    split
    · rename_i hx; rw [hx]; exact h
    · rfl

theorem State.asked_walkTurn (s : State) (k : Nat) : s.asked { s with mem := { s.mem with walkTurn := k } } :=
  ⟨rfl, rfl, fun _ => rfl, fun _ => rfl⟩

theorem State.asked_takeWalks (s : State) (n : Nat) : s.asked (s.takeWalks n) := by
  induction n generalizing s with
  | zero => exact State.asked.refl s
  | succ n ih =>
    rw [State.takeWalks]
    split
    · exact State.asked.refl s
    · split
      · exact State.asked.refl s
      · rename_i k _
        have h := s.asked_setCluster k { s.cluster k with misses := missTake (s.cluster k).misses } rfl
        exact (h.trans (State.asked_walkTurn _ _)).trans (ih _)

theorem State.asked_queuePref (s : State) (core lvl pa cls : Nat) : s.asked (s.queuePref core lvl pa cls) := by
  unfold State.queuePref
  split
  · exact State.asked.refl s
  · exact s.asked_setCore core _ rfl

theorem State.asked_useLeaf (s : State) (e : Env) (ctx va : Nat) (t : TlbEntry) : s.asked (s.useLeaf e ctx va t) := by
  unfold State.useLeaf
  split
  · exact s.asked_setCore _ _ rfl
  · exact State.asked.refl s

/-- A load through a cached translation changes TLBs alone. -/
theorem State.translate_cached {s : State} {e : Env} {va : Nat} {t : TlbEntry} (h : s.cachedLeaf e (s.ctxOf e) va = some t) :
    s.translate e va .load = match (s.useLeaf e (s.ctxOf e) va t).leafPlace t va .load with
      | .error c => .error (s.useLeaf e (s.ctxOf e) va t, c)
      | .ok (pa, cls) => .ok (s.useLeaf e (s.ctxOf e) va t, pa, cls) := by
  unfold State.translate State.translateIn State.leafFor
  simp only [h]
  rfl

theorem State.asked_prefLane (s : State) (w core lvl : Nat) (c : Capv) (off : Nat) : s.asked (s.prefLane w core lvl c off) := by
  unfold State.prefLane
  dsimp only
  split
  · exact State.asked.refl s
  · split
    · exact State.asked.refl s
    · split
      · exact (s.asked_setCluster _ _ rfl).trans (State.asked_takeWalks _ 64)
      · rename_i t ht
        have hu := s.asked_useLeaf (s.waveEnv w) (s.ctxOf (s.waveEnv w)) ((c.base + off) % 2 ^ 48) t
        rw [State.translate_cached ht]
        cases (s.useLeaf (s.waveEnv w) (s.ctxOf (s.waveEnv w)) ((c.base + off) % 2 ^ 48) t).leafPlace t ((c.base + off) % 2 ^ 48) .load with
        | error _ => exact hu
        | ok r => exact hu.trans (State.asked_queuePref _ _ _ _ _)

/-- The lines and walks that some lanes ask for. -/
def State.prefAll (s : State) (w : Nat) (o : Pref) : State :=
  (s.activeLanes w o.g).foldl (fun t e => t.prefLane w (s.waveCore w) o.lvl (s.kReg o.cap) (s.opnd w e.2 o.a * 2 ^ o.sh)) s

theorem execPref_eq {s : State} {w : Nat} {o : Pref} (h : s.lanesOk w o.g [o.a] []) : exec (.pref o) s = .next
    (if (s.wave w).spec.isSome ∨ capCheck (s.kReg o.cap) loadSpaces permLD ≠ none then s.finish w o.mark else (s.prefAll w o).finish w o.mark) := by
  have he : exec (.pref o) s = .next _ := State.onWave_wave h.1 _
  rw [he, issueLanes_ok s w ⟨o.mark, o.g, true, [o.a], []⟩ _ h rfl]
  rfl

theorem State.asked.passed {s u : State} (h : s.asked u) (w : Nat) (mark : Bool) :
    let t := u.finish w mark
    t = { s with waves := t.waves, free := t.free, cores := t.cores, clusters := t.clusters, mem := t.mem }
      ∧ t.mem = { s.mem with walkTurn := t.mem.walkTurn } ∧ (∀ x, x ≠ w → t.wave x = s.wave x)
      ∧ t.wave w = { s.wave w with word := (s.wave w).word + 1, retry := none, held := none, park := (t.wave w).park, lastPark := (t.wave w).lastPark }
      ∧ (∀ c, t.core c = { s.core c with tlb := (t.core c).tlb, prefs := (t.core c).prefs })
      ∧ ∀ k, t.cluster k = { s.cluster k with misses := (t.cluster k).misses } := by
  have hwave : ∀ x, u.wave x = s.wave x := fun x => by rw [h.machine]; rfl
  refine ⟨?_, h.mem, fun x hx => ?_, ?_, h.cores, h.clusters⟩
  · show ({ u with waves := (u.finish w mark).waves, free := (u.finish w mark).free } : State)
      = { s with waves := (u.finish w mark).waves, free := (u.finish w mark).free, cores := u.cores, clusters := u.clusters, mem := u.mem }
    rw [h.machine]
  · rw [u.finish_wave_other hx, hwave]
  · rw [State.finish_wave, hwave]

theorem pref_gives {s : State} {w : Nat} {o : Pref} (h : s.lanesOk w o.g [o.a] []) : Answer.gives (exec (.pref o) s) (fun t =>
      t = { s with waves := t.waves, free := t.free, cores := t.cores, clusters := t.clusters, mem := t.mem }
      ∧ t.mem = { s.mem with walkTurn := t.mem.walkTurn } ∧ (∀ x, x ≠ w → t.wave x = s.wave x)
      ∧ t.wave w = { s.wave w with word := (s.wave w).word + 1, retry := none, held := none, park := (t.wave w).park, lastPark := (t.wave w).lastPark }
      ∧ (∀ c, t.core c = { s.core c with tlb := (t.core c).tlb, prefs := (t.core c).prefs })
      ∧ (∀ k, t.cluster k = { s.cluster k with misses := (t.cluster k).misses })
      ∧ ((s.wave w).spec ≠ none → t.mem = s.mem ∧ t.cores = s.cores ∧ t.clusters = s.clusters)) := by
  refine ⟨_, execPref_eq h, ?_⟩
  split
  · obtain ⟨h1, h2, h3, h4, h5, h6⟩ := (State.asked.refl s).passed w o.mark
    exact ⟨h1, h2, h3, h4, h5, h6, fun _ => ⟨rfl, rfl, rfl⟩⟩
  · rename_i hn
    have ha : s.asked (s.prefAll w o) := foldl_keeps (fun t => s.asked t) _ _ _ (State.asked.refl s) fun x e hx => hx.trans (x.asked_prefLane ..)
    obtain ⟨h1, h2, h3, h4, h5, h6⟩ := ha.passed w o.mark
    exact ⟨h1, h2, h3, h4, h5, h6, fun hs => absurd (.inl (Option.isSome_iff_ne_none.mpr hs)) hn⟩

/-- Settles O23: each fence is the passing of its word with or without a gate or a checkpoint; IINV drops lines of cores, and PREF asks for lines. -/
theorem fencesAndPrefetch : Obligations.FencesAndPrefetch := by
  unfold Obligations.FencesAndPrefetch
  refine ⟨fun s o hs => ⟨fun w hc hp hn => ⟨fun ha => ?_, fun ha => ?_, fun ha hd => ?_⟩, fun k hc hd hi ha => seqFence_gives hc hd hi hs ha⟩,
    fun s w hc hn => ⟨fun o hs hp => fenceS_gives hc hn hs hp, fun o hd => iinv_gives hc hn hd⟩, fun s w o h => pref_gives h⟩
  · refine ⟨_, execFence_wave hc hn (.inl ha) hs, ?_⟩
    rw [ha, State.waveFence_acquire hp]
    exact State.finish_jumpFrame hc hp true
  · refine ⟨_, execFence_wave hc hn (.inr (.inl ha)) hs, ?_⟩
    rw [ha]
    exact State.waveFence_release_frame hp o.scope
  · refine ⟨_, execFence_wave hc hn (.inr (.inr ha)) hs, ?_⟩
    rw [ha, State.waveFence_both hp hd]
    exact State.finish_jumpFrame hc hp true

end Sys2Proof.Machine
end

section
/-! ## O53: memory accesses by the host and the peers -/

namespace Sys2Proof.Machine

open Sys2Proof

/-! ### Accesses of other agents at their homes (R122, R124) -/

/-- What reaches memory from outside changes what a write at its home reaches, and the device registers. -/
theorem State.homeStep.homeFrame {s u : State} (h : s.homeStep u) (d : DevRegs) : s.homeFrame { u with dev := d } where
  left := by
    show ({ u with dev := d } : State) = { s with waves := u.waves, clusters := u.clusters, crews := u.crews, mem := u.mem, dev := d }
    rw [h.machine]
  right := ⟨h.waves, h.clusters⟩

theorem State.homeStep.dev {s u : State} (h : s.homeStep u) : u.dev = s.dev := by rw [h.machine]
theorem State.homeStep.dt {s u : State} (h : s.homeStep u) : u.dt = s.dt := by rw [h.machine]

theorem State.homeStep_touchLines (s : State) (a n : Nat) : s.homeStep (s.touchLines a n) := s.homeStep_touchLinesAt _

theorem State.touchLines_store (s : State) (a n : Nat) : (s.touchLines a n).store = s.store :=
  foldl_fixed MemSys.store _ _ _ fun x l => l2Touch_store x s.dt l false

/-- Bytes that lie in no armed granule are written, and no others. -/
theorem State.plainBytes.written {s : State} {a : Nat} {bs : List Byte} (h : s.plainBytes a bs.length) (by_ : Option Nat) (tag : Option Bool) :
    s.nowHolds (s.writeAtHome by_ (wholeCells a bs) tag) a bs := by
  have hp : s.plainCells (wholeCells a bs) := fun c hc => by
    obtain ⟨h1, h2⟩ := mem_wholeCells hc
    have := h (c.1 - a) (by omega)
    rwa [show a + (c.1 - a) = c.1 by omega] at this
  refine ⟨fun j b hb => ?_, fun x hx => ?_⟩
  · rw [(hp.writeAtHome by_ tag).1, Store.byte_write, Store.byte_putWhole _ _ _ _ _ hb]
  · rw [(hp.writeAtHome by_ tag).1, Store.byte_write, Store.byte_putWhole_other _ _ _ _ hx]

theorem bytesOf_length (v n : Nat) : (bytesOf v n).length = n := by
  induction n generalizing v with
  | zero => rfl
  | succ n ih => rw [bytesOf, List.length_cons, ih]

theorem Store.readNat_head (b : Byte) (x : Nat) : (b.toNat + 256 * x) % 256 = b.toNat ∧ (b.toNat + 256 * x) / 256 = x := by
  have := b.isLt
  omega

/-- Memory holds the bytes of the number that it reads as. -/
theorem Store.byte_of_readNat {m : Store} {a n j : Nat} {b : Byte} (h : (bytesOf (m.readNat a n) n)[j]? = some b) : m.byte (a + j) = b := by
  induction n generalizing a j with
  | zero => simp [bytesOf] at h
  | succ n ih =>
    obtain ⟨hm, hd⟩ := Store.readNat_head (m.byte a) (m.readNat (a + 1) n)
    rw [Store.readNat, bytesOf, hm, hd] at h
    cases j with
    | zero => simpa using h
    | succ j => rw [← Nat.add_assoc, Nat.add_right_comm]; exact ih (by simpa using h)

/-- Memory that reads as it did holds the bytes of the number that it reads as. -/
theorem State.nowHolds_kept {s t : State} (h : t.store = s.store) (a n : Nat) : s.nowHolds t a (bytesOf (s.store.readNat a n) n) :=
  ⟨fun _ _ hb => by rw [h]; exact Store.byte_of_readNat hb, fun _ _ => by rw [h]⟩

theorem State.nowHolds_dev {s t : State} {a : Nat} {bs : List Byte} (h : s.nowHolds t a bs) (d : DevRegs) : s.nowHolds { t with dev := d } a bs := h

theorem State.homeRmw_sound {s : State} {a n : Nat} (h : s.store.poisoned a n = false) (f : Nat → Nat) :
    s.homeRmw a n f = s.writeAtHome none (wholeCells a (bytesOf (f (s.store.readNat a n)) n)) none := by
  rw [State.homeRmw, h]
  rfl

theorem State.homeStep_homeRmw (s : State) (a n : Nat) (f : Nat → Nat) : s.homeStep (s.homeRmw a n f) := by
  unfold State.homeRmw
  split
  · exact s.homeStep_touchLines a n
  · exact s.homeStep_writeAtHome _ _ _

theorem State.plainBytes.rmw {s : State} {a n : Nat} (h : s.plainBytes a n) (hp : s.store.poisoned a n = false) (f : Nat → Nat) :
    s.nowHolds (s.homeRmw a n f) a (bytesOf (f (s.store.readNat a n)) n) := by
  rw [State.homeRmw_sound hp]
  exact State.plainBytes.written (by rw [bytesOf_length]; exact h) _ _

/-! ### The host (R122, R405) -/

theorem execHostWrite_reached {s : State} {a : Nat} {bs : List Nat} (hr : s.hostReaches (s.barAddr a) bs.length = true)
    (hf : s.hostSettled = true) : execHostWrite a bs s =
      let u := s.writeAtHome none (wholeCells (s.barAddr a) (bs.map (BitVec.ofNat 8))) none
      .next { u with dev := { u.dev with fences := tabPut u.dev.fences 3 (gwctOf s.mem s.dt (wholeCells (s.barAddr a) (bs.map (BitVec.ofNat 8)))) } } := by
  simp only [execHostWrite, hr, hf, Bool.true_eq_false, if_false]

theorem hostWrite_gives {s : State} {a : Nat} {bs : List Nat} (hr : s.hostReaches (s.barAddr a) bs.length = true)
    (hp : s.plainBytes (s.barAddr a) bs.length) (hf : tabGet s.dev.fences 0 3 = 0 ∨ tabGet s.dev.fences 0 3 < s.dt) :
    Answer.gives (exec (.hostWrite a bs) s) (fun t => s.homeFrame t ∧ s.nowHolds t (s.barAddr a) (bs.map (BitVec.ofNat 8))
      ∧ t.dev = { s.dev with fences := t.dev.fences }) := by
  have hs : s.hostSettled = true := by simpa [State.hostSettled] using hf
  refine ⟨_, execHostWrite_reached hr hs, ?_⟩
  have hh := s.homeStep_writeAtHome none (wholeCells (s.barAddr a) (bs.map (BitVec.ofNat 8))) none
  refine ⟨hh.homeFrame _, State.nowHolds_dev (State.plainBytes.written (by rwa [List.length_map]) _ _) _, ?_⟩
  show ({ State.dev _ with fences := _ } : DevRegs) = _
  rw [hh.dev]

theorem hostWrite_dropped {s : State} {a : Nat} {bs : List Nat} (hr : s.hostReaches (s.barAddr a) bs.length = false) :
    execHostWrite a bs s = .next (s.aerReport .unsupportedRequest) := by simp only [execHostWrite, hr, if_true]

theorem hostRead_dropped {s : State} {a n : Nat} (hr : s.hostReaches (s.barAddr a) n = false) :
    execHostRead a n s = .next ((s.hostAnswer (List.replicate n 255) false).aerReport .unsupportedRequest) := by
  simp only [execHostRead, hr, if_true]

theorem hostRead_gives {s : State} {a n : Nat} (hr : s.hostReaches (s.barAddr a) n = true) :
    Answer.gives (exec (.hostRead a n) s) (fun t => t = { s with mem := t.mem, dev := t.dev } ∧ t.store = s.store
      ∧ t.dev = { s.dev with
          hostReply := ((s.store.readBytes (s.barAddr a) n).map BitVec.toNat, s.store.poisoned (s.barAddr a) n)
          aer := if s.store.poisoned (s.barAddr a) n then s.dev.aer ++ [.poisonedTlp] else s.dev.aer }) := by
  have h : exec (.hostRead a n) s = .next _ := if_neg (by simp [hr])
  refine ⟨_, h, ?_⟩
  cases s.store.poisoned (s.barAddr a) n <;> exact ⟨rfl, s.touchLines_store _ _, rfl⟩

/-! ### Peers (R124, R406) -/

/-- An access by a peer leaves what it owes beside what it does at the home. -/
theorem State.homeStep.owed {s u : State} (h : s.homeStep u) (a n : Nat) :
    s.homeFrame (u.owePeer (s.gwctAt a n)) ∧ s.owesPeer (u.owePeer (s.gwctAt a n)) a n := by
  refine ⟨h.homeFrame _, ?_⟩
  show ({ u.dev with peerOwed := u.dev.peerOwed.filter (fun x => decide (u.dt ≤ x)) ++ [s.gwctAt a n] } : DevRegs) = _
  rw [h.dev, h.dt]

theorem State.homeStep.owesBytes {s u : State} {a n : Nat} {bs : List Byte} (h : s.homeStep u) (hb : s.nowHolds u a bs) :
    s.homeFrame (u.owePeer (s.gwctAt a n)) ∧ s.owesPeer (u.owePeer (s.gwctAt a n)) a n ∧ s.nowHolds (u.owePeer (s.gwctAt a n)) a bs :=
  ⟨(h.owed a n).1, (h.owed a n).2, hb⟩

theorem peerLoad_gives {s : State} {a n : Nat} (v : Nat) (hr : s.peerReaches a n = true) :
    Answer.gives (exec (.peerAccess 0 a n v) s) (fun t => t = { s with mem := t.mem } ∧ t.store = s.store) :=
  ⟨s.touchLines a n, if_neg (by simp [hr]), rfl, s.touchLines_store a n⟩

theorem peerStore_gives {s : State} {a n : Nat} (v : Nat) (hr : s.peerReaches a n = true) (hp : s.plainBytes a n) :
    Answer.gives (exec (.peerAccess 1 a n v) s) (fun t => s.homeFrame t ∧ s.owesPeer t a n ∧ s.nowHolds t a (bytesOf v n)) :=
  ⟨(s.writeAtHome none (wholeCells a (bytesOf v n)) none).owePeer (s.gwctAt a n), if_neg (by simp [hr]),
    (s.homeStep_writeAtHome _ _ _).owesBytes (State.plainBytes.written (by rwa [bytesOf_length]) _ _)⟩

theorem execPeerAccess_rmw {s : State} {op a n : Nat} (v : Nat) (hr : s.peerReaches a n = true) (hop : op < 12) : exec (.peerAccess (2 + op) a n v) s
    = .next ((s.homeRmw a n (fun m => atomOp op (8 * n) m (v % 2 ^ (8 * n)))).owePeer (s.gwctAt a n)) := by
  have h : exec (.peerAccess (2 + op) a n v) s = _ := if_neg (show ¬s.peerReaches a n = false by simp [hr])
  rw [h]
  split
  · omega
  · omega
  · omega
  · rw [if_pos (by omega), Nat.add_sub_cancel_left]

theorem peerRmw_gives {s : State} {op a n : Nat} {f : Nat → Nat → Nat → Nat} (v : Nat) (hr : s.peerReaches a n = true) (hp : s.plainBytes a n)
    (hn : s.store.poisoned a n = false) (hf : atomTable[op]? = some f) : Answer.gives (exec (.peerAccess (2 + op) a n v) s) (fun t =>
      s.homeFrame t ∧ s.owesPeer t a n ∧ s.nowHolds t a (bytesOf (f (8 * n) (s.store.readNat a n) (v % 2 ^ (8 * n))) n)) := by
  obtain ⟨hop, rfl⟩ := atomOp_of_atomTable hf
  exact ⟨_, execPeerAccess_rmw v hr hop, (s.homeStep_homeRmw _ _ _).owesBytes (hp.rmw hn _)⟩

/-- What a compare and swap of a peer leaves at the home. -/
def State.peerSwapped (s : State) (a n cmp new : Nat) : State :=
  if s.store.readNat a n = cmp then s.homeRmw a n (fun _ => new)
  else (s.touchLines a n).markConflicts none (linesOf (wholeCells a (List.replicate n 0)))

theorem State.homeStep_peerSwapped (s : State) (a n cmp new : Nat) : s.homeStep (s.peerSwapped a n cmp new) := by
  unfold State.peerSwapped
  split
  · exact s.homeStep_homeRmw _ _ _
  · exact (s.homeStep_touchLines a n).trans (State.homeStep_markConflicts _ _ _)

theorem State.plainBytes.swapped {s : State} {a n : Nat} (h : s.plainBytes a n) (hp : s.store.poisoned a n = false) (cmp new : Nat) :
    s.nowHolds (s.peerSwapped a n cmp new) a (bytesOf (if s.store.readNat a n = cmp then new else s.store.readNat a n) n) := by
  unfold State.peerSwapped
  split
  · exact h.rmw hp _
  · exact State.nowHolds_kept (s.touchLines_store a n) a n

theorem execPeerAccess_swap {s : State} {a n v : Nat} (hr : s.peerReaches a n = true) (hv : v < 2 ^ (16 * n)) : exec (.peerAccess 14 a n v) s
    = .next ((s.peerSwapped a n (v / 2 ^ (8 * n)) (v % 2 ^ (8 * n))).owePeer (s.gwctAt a n)) := by
  have h : exec (.peerAccess 14 a n v) s = _ := if_neg (show ¬s.peerReaches a n = false by simp [hr])
  have hc : v / 2 ^ (8 * n) % 2 ^ (8 * n) = v / 2 ^ (8 * n) := Nat.mod_eq_of_lt (Nat.div_lt_of_lt_mul (by rwa [← pow_add, ← Nat.add_mul]))
  rw [h]
  rw [hc]
  rfl

theorem peerSwap_gives {s : State} {a n v : Nat} (hr : s.peerReaches a n = true) (hp : s.plainBytes a n)
    (hn : s.store.poisoned a n = false) (hv : v < 2 ^ (16 * n)) : Answer.gives (exec (.peerAccess 14 a n v) s) (fun t =>
      s.homeFrame t ∧ s.owesPeer t a n
      ∧ s.nowHolds t a (bytesOf (if s.store.readNat a n = v / 2 ^ (8 * n) then v % 2 ^ (8 * n) else s.store.readNat a n) n)) :=
  ⟨_, execPeerAccess_swap hr hv, (s.homeStep_peerSwapped _ _ _ _).owesBytes (hp.swapped hn _ _)⟩

/-! ### Reduction windows (R125, R408) -/

theorem le_gwctOf (ms : MemSys) (dt : Nat) (cells : List (Nat × Byte × Byte)) : dt ≤ gwctOf ms dt cells :=
  foldl_keeps (fun x => dt ≤ x) _ _ _ (Nat.le_refl dt) fun _ _ h => Nat.le_trans h (Nat.le_max_left ..)

/-- Several contributors to one write are owed an acknowledgement each. -/
theorem State.foldl_owePeer (vs : List Nat) (u : State) (g : Nat) : (vs.foldl (fun t _ => t.owePeer g) u)
    = { u with dev := { u.dev with peerOwed := (vs.foldl (fun t _ => t.owePeer g) u).dev.peerOwed } } := by
  induction vs generalizing u with
  | nil => rfl
  | cons v rest ih => rw [List.foldl_cons, ih]; rfl

theorem State.foldl_owePeer_owed {vs : List Nat} (hv : vs ≠ []) (u : State) {g : Nat} (hg : u.dt ≤ g) :
    (vs.foldl (fun t _ => t.owePeer g) u).dev.peerOwed = u.dev.peerOwed.filter (fun x => decide (u.dt ≤ x)) ++ List.replicate vs.length g := by
  induction vs generalizing u with
  | nil => exact absurd rfl hv
  | cons v rest ih =>
    rw [List.foldl_cons]
    by_cases hr : rest = []
    · subst hr; rfl
    · rw [ih hr (u.owePeer g) hg, List.length_cons, List.replicate_succ]
      show (u.dev.peerOwed.filter (fun x => decide (u.dt ≤ x)) ++ [g]).filter (fun x => decide (u.dt ≤ x)) ++ _ = _
      rw [List.filter_append, List.filter_filter, List.filter_cons_of_pos (by simpa using hg)]
      simp

theorem merged_eq_mergedOnce (op n : Nat) (vs : List Nat) (m : Nat) : merged op n vs m = mergedOnce (atomOp op) n vs m := by cases vs <;> rfl

theorem rwinOp_eq {x : Nat} (h : x ≤ 6) : rwinOp x = [(1, 4), (1, 8), (9, 4), (5, 8), (7, 8), (8, 8), (3, 8)].getD x (0, 1) := by
  have hs : ∀ y : Fin 7, rwinOp y = [(1, 4), (1, 8), (9, 4), (5, 8), (7, 8), (8, 8), (3, 8)].getD y (0, 1) := by decide
  exact hs ⟨x, by omega⟩

theorem mergedWrite_gives {s : State} {r off : Nat} (vs : List Nat) {o : Nat × Nat} {f : Nat → Nat → Nat → Nat}
    (ho : rwinOp (bits (tabGet s.dev.rwinBase 0 r) 62 59) = o) (hv : bit (tabGet s.dev.rwinBase 0 r) 63 = true)
    (hh : bits (tabGet s.dev.rwinBase 0 r) 57 56 = s.dev.galSelf) (hsz : off + o.2 ≤ tabGet s.dev.rwinSize 0 r * 4096) (hal : off % o.2 = 0)
    (hr : s.peerReaches (bits (tabGet s.dev.rwinBase 0 r) 47 12 * 4096 + off) o.2 = true)
    (hp : s.plainBytes (bits (tabGet s.dev.rwinBase 0 r) 47 12 * 4096 + off) o.2)
    (hn : s.store.poisoned (bits (tabGet s.dev.rwinBase 0 r) 47 12 * 4096 + off) o.2 = false) (hf : atomTable[o.1]? = some f) :
    Answer.gives (exec (.reductionMergedWrite r off vs) s) (fun t => s.homeFrame t ∧ t.dev = { s.dev with peerOwed := t.dev.peerOwed }
        ∧ (vs ≠ [] → t.dev.peerOwed = s.dev.peerOwed.filter (fun x => decide (s.dt ≤ x))
          ++ List.replicate vs.length (s.gwctAt (bits (tabGet s.dev.rwinBase 0 r) 47 12 * 4096 + off) o.2))
        ∧ s.nowHolds t (bits (tabGet s.dev.rwinBase 0 r) 47 12 * 4096 + off)
          (bytesOf (mergedOnce f (8 * o.2) vs (s.store.readNat (bits (tabGet s.dev.rwinBase 0 r) 47 12 * 4096 + off) o.2)) o.2)) := by
  subst ho
  obtain ⟨-, rfl⟩ := atomOp_of_atomTable hf
  have he : exec (.reductionMergedWrite r off vs) s = .next _ := if_neg (by simp [hv, hh, hal, hr]; omega)
  refine ⟨_, he, ?_⟩
  set a := bits (tabGet s.dev.rwinBase 0 r) 47 12 * 4096 + off
  set o := rwinOp (bits (tabGet s.dev.rwinBase 0 r) 62 59)
  have hstep := s.homeStep_homeRmw a o.2 (merged o.1 (8 * o.2) vs)
  have hb := hp.rmw hn (merged o.1 (8 * o.2) vs)
  rw [merged_eq_mergedOnce] at hb
  have hg : (s.homeRmw a o.2 (merged o.1 (8 * o.2) vs)).dt ≤ s.gwctAt a o.2 := by rw [hstep.dt]; exact le_gwctOf _ _ _
  set u := s.homeRmw a o.2 (merged o.1 (8 * o.2) vs)
  have ht := State.foldl_owePeer vs u (s.gwctAt a o.2)
  refine ⟨ht ▸ hstep.homeFrame _, ?_, fun hv => ?_, ht ▸ State.nowHolds_dev hb _⟩
  · have hd := congrArg State.dev ht
    rw [hstep.dev] at hd
    exact hd
  · rw [State.foldl_owePeer_owed hv u hg, hstep.dev, hstep.dt]

/-! ### Peers that are lost and found (R406, R407) -/

theorem bit_eq_testBit (x i : Nat) : bit x i = x.testBit i := by
  rw [Nat.testBit_eq_decide_div_mod_eq, bit]
  exact beq_eq_decide _ _

theorem bit_or_pow (x i j : Nat) : bit (x ||| 2 ^ i) j = (bit x j || j == i) := by
  rw [bit_eq_testBit, bit_eq_testBit, Nat.testBit_or, Nat.testBit_two_pow]
  by_cases hj : j = i
  · simp [hj]
  · simp [hj, Ne.symm hj]

/-- A number whose bit i is 1, cut at that bit. -/
theorem eq_cut_of_bit {x i : Nat} (h : bit x i = true) : x = 2 ^ (i + 1) * (x / 2 ^ (i + 1)) + (2 ^ i + x % 2 ^ i) := by
  have h1 : x / 2 ^ i % 2 = 1 := by simpa [bit] using h
  have h2 : x / 2 ^ (i + 1) = x / 2 ^ i / 2 := by rw [pow_succ, Nat.div_div_eq_div_mul]
  have h3 : x / 2 ^ i = 2 * (x / 2 ^ i / 2) + 1 := by omega
  calc x = 2 ^ i * (x / 2 ^ i) + x % 2 ^ i := (Nat.div_add_mod x (2 ^ i)).symm
    _ = 2 ^ i * (2 * (x / 2 ^ i / 2) + 1) + x % 2 ^ i := by rw [← h3]
    _ = 2 ^ (i + 1) * (x / 2 ^ (i + 1)) + (2 ^ i + x % 2 ^ i) := by rw [h2, pow_succ]; ring

/-- Taking a power of two out of a number that has its bit clears that bit alone. -/
theorem bit_sub_pow {x i : Nat} (h : bit x i = true) (j : Nat) : bit (x - 2 ^ i) j = (bit x j && j != i) := by
  have hx := eq_cut_of_bit h
  have hc : x % 2 ^ i < 2 ^ i := Nat.mod_lt _ (Nat.two_pow_pos i)
  generalize x / 2 ^ (i + 1) = q at hx
  generalize x % 2 ^ i = c at hx hc
  have hlt : 2 ^ i + c < 2 ^ (i + 1) := by rw [pow_succ]; omega
  have hsub : x - 2 ^ i = 2 ^ (i + 1) * q + c := by omega
  rw [bit_eq_testBit, bit_eq_testBit, hsub, hx, Nat.testBit_two_pow_mul_add _ (by omega), Nat.testBit_two_pow_mul_add _ hlt]
  rcases Nat.lt_trichotomy j i with hj | rfl | hj
  · rw [if_pos (by omega), if_pos (by omega), Nat.testBit_two_pow_add_gt hj]
    simp [Nat.ne_of_lt hj]
  · rw [if_pos (by omega), Nat.testBit_lt_two_pow hc]
    simp
  · rw [if_neg (by omega), if_neg (by omega)]
    simp [Nat.ne_of_gt hj]

/-- An error of the interconnect has been logged: no wave, no byte of memory and no account has changed, nor which peers are present. -/
structure State.peerLogged (s t : State) : Prop where
  waves : t.waves = s.waves
  store : t.store = s.store
  present : t.dev.galPresent = s.dev.galPresent
  owed : t.dev.cpPeer = s.dev.cpPeer

theorem State.peerLogged.refl (s : State) : s.peerLogged s := ⟨rfl, rfl, rfl, rfl⟩

theorem State.peerLogged.trans {s t u : State} (h : s.peerLogged t) (k : t.peerLogged u) : s.peerLogged u :=
  ⟨k.waves.trans h.waves, k.store.trans h.store, k.present.trans h.present, k.owed.trans h.owed⟩

theorem State.logFar_dev (s : State) (slice kind unit sub off : Nat) :
    (s.logFar slice kind unit sub off).dev = { s.dev with msix := (s.logFar slice kind unit sub off).dev.msix, memIrq := s.dev.memIrq || kind != 0 } := by
  unfold State.logFar
  exact State.logAlarm_dev _ _ _

theorem State.peerLogged_logPeer (s : State) (d a : Nat) : s.peerLogged (s.logPeer d a) where
  waves := by rw [State.logPeer, State.logFar_frame]
  store := s.logFar_store _ _ _ _ _
  present := by rw [State.logPeer, State.logFar_dev]
  owed := by rw [State.logPeer, State.logFar_dev]

theorem State.peerLogged_logPeers {α : Type} (s : State) (d : Nat) (f : α → Nat) (l : List α) :
    s.peerLogged (l.foldl (fun t x => t.logPeer d (f x)) s) :=
  foldl_keeps (fun t => s.peerLogged t) _ l s (State.peerLogged.refl s) fun t x h => h.trans (t.peerLogged_logPeer d (f x))

theorem State.peerLogged_settleAccount (s : State) (d a : Nat) : s.peerLogged (s.settleAccount d a) :=
  State.peerLogged.trans (t := s.setAccount a { s.account a with
    out := (s.account a).out.filter (fun p => (p.toPeer d).isNone), peerOut := (s.account a).peerOut.filter (fun x => peerOf x != d) })
    ⟨rfl, rfl, rfl, rfl⟩ (State.peerLogged_logPeers _ d id _)

/-- A wave after the loss of a peer (R407). -/
def Wave.settled (v : Wave) (d : Nat) : Wave := { v with
  out := v.out.filter (fun p => (p.toPeer d).isNone), peerOut := v.peerOut.filter (fun a => peerOf a != d)
  held := v.held.map (fun h => { h with load := h.load.map (fun x => x.loseTo d) }) }

theorem State.settleWave_logged (s : State) (d w : Nat) : (s.setWave w ((s.wave w).settled d)).peerLogged (s.settleWave d w) :=
  State.peerLogged_logPeers _ d id _

theorem State.settleWave_wave (s : State) (d w x : Nat) : (s.settleWave d w).wave x = if x = w then (s.wave w).settled d else s.wave x := by
  rw [State.wave, (s.settleWave_logged d w).waves]
  exact s.setWave_wave w _ x

/-- Waves after the loss of a peer, and what has not changed. -/
structure State.peerSettled (s t : State) : Prop where
  store : t.store = s.store
  present : t.dev.galPresent = s.dev.galPresent
  owed : t.dev.cpPeer = s.dev.cpPeer

theorem State.peerSettled_settleWaves (s : State) (d : Nat) (l : List Nat) : s.peerSettled (l.foldl (fun t w => t.settleWave d w) s) :=
  foldl_keeps (fun t => s.peerSettled t) _ l s ⟨rfl, rfl, rfl⟩ fun t w h =>
    have k := t.settleWave_logged d w
    ⟨k.store.trans h.store, k.present.trans h.present, k.owed.trans h.owed⟩

/-- What a wave keeps when it is settled, every settled wave has. -/
theorem State.settleWaves_wave {P : Wave → Prop} {d x : Nat} (hkeep : ∀ v, P v → P (v.settled d)) (l : List Nat) (s : State)
    (h : P (s.wave x) ∨ (x ∈ l ∧ P ((s.wave x).settled d))) : P ((l.foldl (fun t w => t.settleWave d w) s).wave x) := by
  induction l generalizing s with
  | nil => exact h.resolve_right (by simp)
  | cons e rest ih =>
    refine ih _ ?_
    rw [State.settleWave_wave]
    by_cases hx : x = e
    · subst hx
      rw [if_pos rfl]
      exact .inl (h.elim (hkeep _) fun k => k.2)
    · rw [if_neg hx]
      exact h.imp id fun k => ⟨(List.mem_cons.mp k.1).resolve_left hx, k.2⟩

/-- A wave has nothing on its way to a peer. -/
def Wave.clearOf (v : Wave) (d : Nat) : Prop := (∀ p ∈ v.out, p.toPeer d = none) ∧ ∀ x ∈ v.peerOut, peerOf x ≠ d

theorem Wave.settled_clearOf (v : Wave) (d : Nat) : (v.settled d).clearOf d :=
  ⟨fun _ hp => Option.isNone_iff_eq_none.mp (List.mem_filter.mp hp).2, fun _ hx => by simpa using (List.mem_filter.mp hx).2⟩

/-- A load that the wave holds has a byte of a lane, marked poisoned. -/
def Wave.gotPoison (v : Wave) (lane key : Nat) : Prop :=
  ∃ h x, v.held = some h ∧ h.load = some x ∧ gotAt x.got lane key = some (0, true)

theorem gotAt_append_left {g l : Tab (Nat × Byte × Bool)} {lane key : Nat} {r : Byte × Bool} (h : gotAt g lane key = some r) :
    gotAt (g ++ l) lane key = some r := by
  unfold gotAt at *
  rw [List.find?_append]
  obtain ⟨e, he, hr⟩ := Option.map_eq_some_iff.mp h
  rw [he]
  exact congrArg some hr

/-- Bytes of lanes that all came back with the same value. -/
theorem gotAt_append_right {g l : Tab (Nat × Byte × Bool)} {lane key : Nat} {r : Byte × Bool} (h : gotAt g lane key = none)
    (hm : (lane, key, r) ∈ l) (hr : ∀ e ∈ l, e.2.2 = r) : gotAt (g ++ l) lane key = some r := by
  unfold gotAt at *
  rw [List.find?_append, Option.map_eq_none_iff.mp h, Option.none_or]
  cases hf : l.find? (fun e => e.1 == lane && e.2.1 == key) with
  | none => exact absurd (List.find?_eq_none.mp hf _ hm) (by simp)
  | some e => exact congrArg some (hr e (List.mem_of_find?_eq_some hf))

theorem Wave.gotPoison.settled {v : Wave} {lane key : Nat} (h : v.gotPoison lane key) (d : Nat) : (v.settled d).gotPoison lane key := by
  obtain ⟨h, x, hh, hx, hg⟩ := h
  refine ⟨{ h with load := h.load.map (fun x => x.loseTo d) }, x.loseTo d, ?_, ?_, gotAt_append_left hg⟩
  · simp only [Wave.settled, hh, Option.map_some]
  · simp only [hx, Option.map_some]

/-- A byte that a load has asked of a lost peer comes back marked poisoned. -/
theorem Wave.settled_gotPoison {v : Wave} {h : Held} {x : Sent} {a : LaneAcc} {key : Nat × Nat} {d : Nat} (hh : v.held = some h)
    (hx : h.load = some x) (ha : a ∈ x.accs) (hk : key ∈ a.keys) (hp : isPeer key.1 = true) (hd : peerOf key.1 = d)
    (hg : gotAt x.got a.lane key.1 = none) : (v.settled d).gotPoison a.lane key.1 := by
  refine ⟨{ h with load := h.load.map (fun x => x.loseTo d) }, x.loseTo d, ?_, ?_, gotAt_append_right hg ?_ ?_⟩
  · simp only [Wave.settled, hh, Option.map_some]
  · simp only [hx, Option.map_some]
  · exact List.mem_flatMap.mpr ⟨a, ha, List.mem_map.mpr ⟨key, List.mem_filter.mpr ⟨hk, by simp [hp, hd, hg]⟩, rfl⟩⟩
  · intro e he
    obtain ⟨b, -, hb⟩ := List.mem_flatMap.mp he
    obtain ⟨k, -, rfl⟩ := List.mem_map.mp hb
    rfl

/-- A wave that is not formed reads as an empty slot. -/
theorem State.wave_of_notListed {s : State} {w : Nat} (h : w ∉ s.waves.map (fun e => e.1)) : s.wave w = Wave.empty := by
  have hn : tabFind s.waves w = none := Option.not_isSome_iff_eq_none.mp fun k => h ((tabFind_isSome_iff _ _).mp k)
  rw [State.wave, tabGet, hn]

/-- The device after the loss of peer d. -/
def State.losePeer (s : State) (d : Nat) : State :=
  let s1 := { s with dev := { s.dev with galPresent := s.dev.galPresent - 2 ^ d } }
  (s1.waves.map (fun e => e.1)).foldl (fun t w => t.settleWave d w) s1

/-- The processors' writes to it and the accounts follow. -/
def State.losePeerRest (s : State) (d : Nat) : State :=
  let s3 := { s with dev := { s.dev with cpPeer := s.dev.cpPeer.filter (fun x => peerOf x.2 != d) } }
  let s4 := (s.dev.cpPeer.filter (fun x => peerOf x.2 == d)).foldl (fun t x => t.logPeer d x.2) s3
  (s4.mem.accounts.map (fun e => e.1)).foldl (fun t a => t.settleAccount d a) s4

theorem execPeerUnreachable_present {s : State} {d : Nat} (hd : d < 4) (hp : bit s.dev.galPresent d = true) :
    execPeerUnreachable d s = .next ((s.losePeer d).losePeerRest d) := by
  have hm : d % 4 = d := Nat.mod_eq_of_lt hd
  simp only [execPeerUnreachable, hm, show ¬4 ≤ d by omega, false_and, if_false, hp, Bool.true_eq_false]
  rfl

theorem State.peerLogged_losePeerRest (s : State) (d : Nat) :
    ({ s with dev := { s.dev with cpPeer := s.dev.cpPeer.filter (fun x => peerOf x.2 != d) } } : State).peerLogged (s.losePeerRest d) :=
  (State.peerLogged_logPeers _ d (fun x : Nat × Nat => x.2) _).trans
    (foldl_keeps (fun t => State.peerLogged _ t) _ _ _ (State.peerLogged.refl _) fun t a h => h.trans (t.peerLogged_settleAccount d a))

theorem State.losePeer_clearOf (s : State) (d w : Nat) : ((s.losePeer d).wave w).clearOf d := by
  refine State.settleWaves_wave (P := fun v => v.clearOf d) (fun v _ => v.settled_clearOf d) _ _ ?_
  by_cases hw : w ∈ s.waves.map (fun e => e.1)
  · exact .inr ⟨hw, Wave.settled_clearOf _ d⟩
  · refine .inl ?_
    show (s.wave w).clearOf d
    rw [State.wave_of_notListed hw]
    exact ⟨by simp [Wave.empty], by simp [Wave.empty]⟩

theorem State.losePeer_gotPoison {s : State} {w lane key d : Nat} (hl : (s.wave w).held ≠ none) (h : ((s.wave w).settled d).gotPoison lane key) :
    ((s.losePeer d).wave w).gotPoison lane key := by
  refine State.settleWaves_wave (P := fun v => v.gotPoison lane key) (fun v hv => hv.settled d) _ _ (.inr ⟨?_, h⟩)
  by_contra hw
  exact hl (by rw [State.wave_of_notListed (s := s) hw]; rfl)

theorem peerUnreachable_gives {s : State} {d : Nat} (hd : d < 4) (hp : bit s.dev.galPresent d = true) :
    Answer.gives (exec (.peerUnreachable d) s) (fun t =>
      bit t.dev.galPresent d = false ∧ (∀ e, e ≠ d → bit t.dev.galPresent e = bit s.dev.galPresent e)
      ∧ (∀ w, (∀ p ∈ (t.wave w).out, p.toPeer d = none) ∧ ∀ x ∈ (t.wave w).peerOut, peerOf x ≠ d)
      ∧ (∀ x ∈ t.dev.cpPeer, peerOf x.2 ≠ d)
      ∧ (∀ w h x a key, (s.wave w).held = some h → h.load = some x → a ∈ x.accs → key ∈ a.keys → isPeer key.1 = true →
        peerOf key.1 = d → gotAt x.got a.lane key.1 = none →
        ∃ h' x', (t.wave w).held = some h' ∧ h'.load = some x' ∧ gotAt x'.got a.lane key.1 = some (0, true))
      ∧ ∀ x, t.store.byte x = s.store.byte x) := by
  refine ⟨_, execPeerUnreachable_present hd hp, ?_⟩
  have hs := State.peerSettled_settleWaves { s with dev := { s.dev with galPresent := s.dev.galPresent - 2 ^ d } } d (s.waves.map (fun e => e.1))
  have hr := (s.losePeer d).peerLogged_losePeerRest d
  set t := (s.losePeer d).losePeerRest d
  have hpres : t.dev.galPresent = s.dev.galPresent - 2 ^ d := hr.present.trans hs.present
  have hstore : t.store = s.store := hr.store.trans hs.store
  have hwave : ∀ w, t.wave w = (s.losePeer d).wave w := fun w => by rw [State.wave, hr.waves]; rfl
  refine ⟨?_, fun e he => ?_, fun w => ?_, fun x hx => ?_, fun w h x a key hh hl ha hk hi hpe hg => ?_, fun x => by rw [hstore]⟩
  · rw [hpres, bit_sub_pow hp]; simp
  · rw [hpres, bit_sub_pow hp]; simp [he]
  · rw [hwave]
    exact s.losePeer_clearOf d w
  · rw [hr.owed] at hx
    simpa using (List.mem_filter.mp hx).2
  · rw [hwave]
    exact State.losePeer_gotPoison (by rw [hh]; simp) (Wave.settled_gotPoison hh hl ha hk hi hpe hg)

theorem peerUnreachable_port {s : State} {d port : Nat} (hd : d < 4) (hport : port < 4) (hl : bit s.dev.galLinkup port = true) :
    exec (.peerUnreachable (4 * (port + 1) + d)) s
      = exec (.peerUnreachable d) { s with dev := { s.dev with galLinkup := s.dev.galLinkup - 2 ^ port } } := by
  have h1 : (4 * (port + 1) + d) % 4 = d := by omega
  have h2 : (4 * (port + 1) + d) / 4 - 1 = port := by omega
  show execPeerUnreachable _ _ = execPeerUnreachable _ _
  simp only [execPeerUnreachable, h1, h2, Nat.mod_eq_of_lt hd, show 4 ≤ 4 * (port + 1) + d by omega, hl, hport, and_self, if_true,
    show ¬4 ≤ d by omega, false_and, if_false]

theorem peerReachable_gives (s : State) (d : Nat) {port : Nat} (hport : port < 4) :
    Answer.gives (exec (.peerReachable d port) s) (fun t => s.onlyDev t
      ∧ t.dev = { s.dev with galLinkup := t.dev.galLinkup, galPresent := t.dev.galPresent }
      ∧ (∀ i, bit t.dev.galLinkup i = (bit s.dev.galLinkup i || i == port))
      ∧ ∀ i, bit t.dev.galPresent i = (bit s.dev.galPresent i || (i == d && decide (d < 4) && d != s.dev.galSelf))) := by
  refine ⟨_, rfl, ⟨rfl, fun _ => rfl⟩, rfl, fun i => ?_, fun i => ?_⟩
  · show bit (s.dev.galLinkup ||| 2 ^ (port % 4)) i = _
    rw [Nat.mod_eq_of_lt hport, bit_or_pow]
  · show bit (if d < 4 ∧ d ≠ s.dev.galSelf then s.dev.galPresent ||| 2 ^ d else s.dev.galPresent) i = _
    split
    · rename_i h
      rw [bit_or_pow]
      simp [h.1, bne_iff_ne.mpr h.2]
    · rename_i h
      rcases Decidable.not_and_iff_or_not.mp h with h | h
      · simp [h]
      · simp [Decidable.not_not.mp h]

/-! ### Acknowledgements (R124) -/

theorem execPeerWriteAck_wave {s : State} {w : Nat} (hw : w < 2 ^ 64) : exec (.peerWriteAck w) s
    = .next (s.setWave w { s.wave w with peerOut := (s.wave w).peerOut.tail }) := by
  show execPeerWriteAck _ _ = _
  rw [execPeerWriteAck, if_pos hw]

theorem peerWriteAck_wave {s : State} {w : Nat} (hw : w < 2 ^ 64) : Answer.gives (exec (.peerWriteAck w) s) (fun t => s.onlyWave t w
    ∧ t.wave w = { s.wave w with peerOut := (s.wave w).peerOut.tail }) :=
  ⟨_, execPeerWriteAck_wave hw, ⟨rfl, fun x hx => by rw [State.setWave_wave, if_neg hx], fun _ => rfl⟩, State.setWave_wave_same ..⟩

theorem filter_firstDrop_other {α : Type} {p q : α → Bool} (h : ∀ x, p x = true → q x = false) (l : List α) :
    (firstDrop l p).filter q = l.filter q := by
  induction l with
  | nil => rfl
  | cons x rest ih =>
    rw [firstDrop]
    split
    · rename_i hp
      rw [List.filter_cons_of_neg (by simp [h x hp])]
    · rw [List.filter_cons, List.filter_cons, ih]

theorem filter_firstDrop_same {α : Type} (p : α → Bool) (l : List α) : (firstDrop l p).filter p = (l.filter p).tail := by
  induction l with
  | nil => rfl
  | cons x rest ih =>
    rw [firstDrop]
    split
    · rename_i hp
      rw [List.filter_cons_of_pos hp, List.tail_cons]
    · rename_i hp
      rw [List.filter_cons_of_neg hp, List.filter_cons_of_neg hp, ih]

theorem execPeerWriteAck_cp (s : State) (who : Nat) : exec (.peerWriteAck (2 ^ 65 + who)) s
    = .next { s with dev := { s.dev with cpPeer := firstDrop s.dev.cpPeer (fun x => x.1 == who) } } := by
  show execPeerWriteAck _ _ = _
  rw [execPeerWriteAck, if_neg (by omega), if_pos (by omega), Nat.add_sub_cancel_left]

theorem peerWriteAck_cp (s : State) (who : Nat) : Answer.gives (exec (.peerWriteAck (2 ^ 65 + who)) s) (fun t => s.onlyDev t
      ∧ t.dev = { s.dev with cpPeer := t.dev.cpPeer }
      ∧ (∀ x, x ≠ who → t.dev.cpPeer.filter (fun y => y.1 == x) = s.dev.cpPeer.filter (fun y => y.1 == x))
      ∧ t.dev.cpPeer.filter (fun y => y.1 == who) = (s.dev.cpPeer.filter (fun y => y.1 == who)).tail) :=
  ⟨_, execPeerWriteAck_cp s who, ⟨rfl, fun _ => rfl⟩, rfl,
    fun x hx => filter_firstDrop_other (fun y hy => by rw [beq_iff_eq] at hy; simpa [hy] using Ne.symm hx) _, filter_firstDrop_same _ _⟩

/-- Settles O53: an access from outside is one write or read at its home, and a lost peer is settled wave by wave. -/
theorem hostAndPeers : Obligations.HostAndPeers := by
  unfold Obligations.HostAndPeers
  refine fun s => ⟨fun a bs hr hp hf => hostWrite_gives hr hp hf, fun a n => ⟨fun hr => ?_, fun hr => hostRead_gives hr⟩,
    fun a n v hr hp => ⟨peerLoad_gives v hr, peerStore_gives v hr hp, fun hn _ hv =>
      ⟨fun op f hf _ => peerRmw_gives v hr hp hn hf, peerSwap_gives hr hp hn hv⟩⟩,
    fun w hw => peerWriteAck_wave hw, peerWriteAck_cp s, fun r off vs hv hh h6 hsz hal hr hp hn f hf =>
      mergedWrite_gives vs (rwinOp_eq h6) hv hh hsz hal hr hp hn hf,
    fun d hd hp => peerUnreachable_gives hd hp, fun d port hd hport hl => ?_, fun d port hport => peerReachable_gives s d hport⟩
  · refine ⟨⟨_, hostRead_dropped hr, ⟨rfl, fun _ => rfl⟩, rfl⟩, fun bs hbs =>
      ⟨_, hostWrite_dropped (by rw [hbs]; exact hr), ⟨rfl, fun _ => rfl⟩, rfl⟩⟩
  · exact ⟨_, bit_sub_pow hl, peerUnreachable_port hd hport hl⟩

end Sys2Proof.Machine
end

section
/-! ## What the end of a crew leaves (R157, R183, R379, R380) -/

namespace Sys2Proof.Machine

open Sys2Proof

/-- Every thread of a group has ended, and its state has gone back. -/
def State.groupEnded (s : State) (g : Nat) : Prop := (s.group g).retired = true ∧ ∀ e ∈ (s.group g).threads, e.2.place = .dead

/-- What never comes back while crews end: no wave is formed, no group listed or started again, and no crew's place, launch or end changes;
w names a wave that may take its accesses with it. -/
structure State.ending (s t : State) (w : Option Nat) : Prop where
  absent : ∀ x, some x ≠ w → tabFind s.waves x = none → tabFind t.waves x = none
  keys : ∀ g, (tabFind t.groups g).isSome = (tabFind s.groups g).isSome
  dead : ∀ g, s.groupEnded g → t.groupEnded g
  crews : ∀ c, t.crew c = { s.crew c with gridHeld := (t.crew c).gridHeld, killed := (t.crew c).killed, gridLeft := (t.crew c).gridLeft }
  killed : ∀ c, (s.crew c).killed = true → (t.crew c).killed = true

theorem State.ending.refl (s : State) (w : Option Nat) : s.ending s w := ⟨fun _ _ h => h, fun _ => rfl, fun _ h => h, fun _ => rfl, fun _ h => h⟩

theorem State.ending.trans {s t u : State} {w : Option Nat} (h : s.ending t w) (k : t.ending u w) : s.ending u w where
  absent x hx hn := k.absent x hx (h.absent x hx hn)
  keys g := (k.keys g).trans (h.keys g)
  dead g hg := k.dead g (h.dead g hg)
  crews c := by rw [k.crews c, h.crews c]
  killed c hc := k.killed c (h.killed c hc)

theorem State.ending_foldl {α : Type} {f : State → α → State} {w : Option Nat} (h : ∀ (s : State) a, s.ending (f s a) w) (l : List α) (s : State) :
    s.ending (l.foldl f s) w := foldl_keeps (fun t => s.ending t w) f l s (State.ending.refl s w) fun x a hx => hx.trans (h x a)

/-- A step that leaves waves, groups and crews alone. -/
theorem State.ending.of_eq {s t : State} {w : Option Nat} (hw : t.waves = s.waves) (hg : t.groups = s.groups) (hc : t.crews = s.crews) : s.ending t w where
  absent x _ hn := by rw [hw]; exact hn
  keys g := by rw [hg]
  dead g h := by unfold State.groupEnded State.group at *; rw [hg]; exact h
  crews c := by unfold State.crew; rw [hc]
  killed c h := by unfold State.crew at *; rw [hc]; exact h

theorem State.ending_setLaunch (s : State) (l : Nat) (v : Machine.Launch) (w : Option Nat) : s.ending (s.setLaunch l v) w := .of_eq rfl rfl rfl

theorem State.homeStep.ending {s t : State} (h : s.homeStep t) (w : Option Nat) : s.ending t w where
  absent x _ hn := h.absent x hn
  keys g := by rw [h.machine]
  dead g hg := by rw [h.machine]; exact hg
  crews c := by rw [h.crews c]
  killed c hc := by rw [h.crews c]; exact hc

/-! ### A wave that leaves with its writes performed (R379) -/

theorem State.ending_landWrite (s : State) (b : Option Nat) (p : PWrite) (w : Option Nat) : s.ending (s.landWrite b p) w := by
  unfold State.landWrite
  split
  · exact State.ending.refl s w
  · exact (s.homeStep_writeAtHome _ _ _).ending w

theorem State.ending_setWave (s : State) (w : Nat) (v : Wave) : s.ending (s.setWave w v) (some w) where
  absent _ hx hn := (tabFind_tabPut_other _ _ _ _ (fun e => hx (congrArg some e))).trans hn
  keys _ := rfl
  dead _ h := h
  crews _ := rfl
  killed _ h := h

theorem State.ending_performWrite (s : State) (w : Nat) (p : PWrite) : s.ending (s.performWrite w p) (some w) :=
  (s.ending_landWrite (some w) p _).trans (State.ending_setWave _ w _)

theorem State.ending_performLeft (s : State) (a : Nat) (p : PWrite) (w : Option Nat) : s.ending (s.performLeft a p) w :=
  (s.ending_landWrite none p w).trans (.of_eq rfl rfl rfl)

theorem State.ending_emptyAccount (s : State) (a : Nat) (w : Option Nat) : s.ending (s.emptyAccount a) w :=
  State.ending.trans (.of_eq rfl rfl rfl : s.ending (s.setAccount a { s.account a with out := [] }) w)
    (State.ending_foldl (fun t p => t.ending_performLeft a p w) _ _)

theorem State.ending_flushAll (s : State) (w : Nat) : s.ending (s.flushAll w) (some w) := by
  have h0 := State.ending_foldl (w := some w) (fun t a => t.ending_emptyAccount a (some w)) (s.wave w).accts s
  unfold State.flushAll
  dsimp only
  split
  · exact h0
  · exact h0.trans ((State.ending_setWave _ w _).trans (State.ending_foldl (fun t p => t.ending_performWrite w p) _ _))

theorem State.ending_leaveWave (s : State) (w : Nat) (x : Option Nat) : s.ending (s.leaveWave w).1 x := by
  unfold State.leaveWave
  dsimp only
  split
  · exact State.ending.refl s x
  · exact .of_eq rfl rfl rfl

theorem tabFind_tabDel_none {α : Type} {t : Tab α} {k x : Nat} (h : x = k ∨ tabFind t x = none) : tabFind (tabDel t k) x = none := by
  by_cases hx : x = k
  · rw [hx, tabFind_tabDel_same]
  · rw [tabFind_tabDel_other _ _ _ hx]
    exact h.resolve_left hx

/-- A wave that ends is formed no longer. -/
theorem State.ending_removeWave (s : State) (w : Nat) : s.ending (s.removeWave w) none ∧ tabFind (s.removeWave w).waves w = none := by
  have h := (s.ending_flushAll w).trans ((s.flushAll w).ending_leaveWave w (some w))
  refine ⟨⟨fun x _ hn => tabFind_tabDel_none ?_, h.keys, h.dead, h.crews, h.killed⟩, tabFind_tabDel_same _ _⟩
  by_cases hx : x = w
  · exact .inl hx
  · exact .inr (h.absent x (by simpa using hx) hn)

theorem State.removeWaves_absent (l : List Nat) (s : State) {x : Nat} (h : x ∈ l ∨ tabFind s.waves x = none) :
    tabFind (l.foldl State.removeWave s).waves x = none := by
  induction l generalizing s with
  | nil => exact h.resolve_left (by simp)
  | cons w rest ih =>
    obtain ⟨hk, hw⟩ := s.ending_removeWave w
    refine ih _ ?_
    rcases h with h | h
    · rcases List.mem_cons.mp h with rfl | h
      · exact .inr hw
      · exact .inl h
    · exact .inr (hk.absent x (by simp) h)

/-! ### Groups, grids and the crew itself (R141, R157, R183) -/

theorem State.endGroup_groupEnded (s : State) (g : Nat) : (s.endGroup g).groupEnded g := by
  unfold State.groupEnded
  rw [State.endGroup, State.setGroup_group_same]
  refine ⟨rfl, fun e he => ?_⟩
  obtain ⟨e', -, rfl⟩ := List.mem_map.mp he
  rfl

theorem State.ending_endGroup (s : State) (g : Nat) (hg : (tabFind s.groups g).isSome = true) : s.ending (s.endGroup g) none where
  absent _ _ h := h
  keys x := by
    by_cases hx : x = g
    · subst hx
      rw [hg]
      exact congrArg Option.isSome (tabFind_tabPut_same _ _ _)
    · exact congrArg Option.isSome (tabFind_tabPut_other _ _ _ _ hx)
  dead x h := by
    by_cases hx : x = g
    · subst hx; exact s.endGroup_groupEnded x
    · unfold State.groupEnded
      rw [State.endGroup, State.setGroup_group, if_neg hx]
      exact h
  crews _ := rfl
  killed _ h := h

theorem State.ending_endGroups (l : List Nat) (s : State) (hl : ∀ g ∈ l, (tabFind s.groups g).isSome = true) :
    s.ending (l.foldl State.endGroup s) none ∧ ∀ g ∈ l, (l.foldl State.endGroup s).groupEnded g := by
  induction l generalizing s with
  | nil => exact ⟨State.ending.refl s none, by simp⟩
  | cons g rest ih =>
    have h := s.ending_endGroup g (hl g (List.mem_cons_self ..))
    obtain ⟨hr, hd⟩ := ih (s.endGroup g) fun x hx => by rw [h.keys x]; exact hl x (List.mem_cons_of_mem _ hx)
    refine ⟨h.trans hr, fun x hx => ?_⟩
    rcases List.mem_cons.mp hx with rfl | hx
    · exact hr.dead x (s.endGroup_groupEnded x)
    · exact hd x hx

theorem State.ending_setCrew (s : State) (c : Nat) (v : Crew) (h : v = { s.crew c with gridHeld := v.gridHeld, killed := v.killed, gridLeft := v.gridLeft })
    (hk : (s.crew c).killed = true → v.killed = true) : s.ending (s.setCrew c v) none where
  absent _ _ h := h
  keys _ := rfl
  dead _ h := h
  crews x := by
    rw [State.setCrew_crew]
    split
    · rename_i hx; rw [hx]; exact h
    · rfl
  killed x hx := by
    rw [State.setCrew_crew]
    split
    · rename_i he; subst he; exact hk hx
    · exact hx

theorem State.ending_gridTest (s : State) (l key : Nat) : s.ending (s.gridTest l key) none := by
  unfold State.gridTest
  dsimp only
  split
  · exact .of_eq rfl rfl rfl
  · exact State.ending.refl s none

theorem State.ending_gridLeaveOne (s : State) (c key : Nat) : s.ending (s.gridLeaveOne c key) none := by
  unfold State.gridLeaveOne
  dsimp only
  split
  · exact (s.ending_setLaunch _ _ none).trans (State.ending_gridTest _ _ _)
  · exact State.ending.refl s none

theorem State.ending_gridLeave (s : State) (c : Nat) : s.ending (s.gridLeave c) none := by
  unfold State.gridLeave
  split
  · exact State.ending.refl s none
  · exact (State.ending_foldl (fun t k => t.ending_gridLeaveOne c k) _ s).trans (State.ending_setCrew _ _ _ rfl id)

/-- A crew has ended: killed, with no wave left and every group given back. -/
structure State.crewGone (s : State) (crew : Nat) : Prop where
  killed : (s.crew crew).killed = true
  waves : ∀ x, crewOf x = crew → tabFind s.waves x = none
  groups : ∀ g, g / 8 = crew → (tabFind s.groups g).isSome = true → s.groupEnded g

theorem State.crewGone.ending {s t : State} {crew : Nat} (h : s.crewGone crew) (k : s.ending t none) : t.crewGone crew where
  killed := k.killed crew h.killed
  waves x hx := k.absent x (by simp) (h.waves x hx)
  groups g hg hs := k.dead g (h.groups g hg (by rw [← k.keys g]; exact hs))

theorem State.mem_groupsOf {s : State} {crew g : Nat} : g ∈ s.groupsOf crew ↔ g / 8 = crew ∧ (tabFind s.groups g).isSome = true := by
  rw [State.groupsOf, List.mem_filter, tabFind_isSome_iff, beq_iff_eq, and_comm]

theorem State.killCrew_gone (s : State) (crew : Nat) : s.ending (s.killCrew crew) none ∧ (s.killCrew crew).crewGone crew := by
  unfold State.killCrew
  have h1 := State.ending_foldl (w := none) (fun t w => (t.ending_removeWave w).1) (s.wavesOf crew) s
  have hw : ∀ x, crewOf x = crew → tabFind ((s.wavesOf crew).foldl State.removeWave s).waves x = none := fun x hx => by
    refine State.removeWaves_absent _ s ?_
    by_cases hn : (tabFind s.waves x).isSome = true
    · exact .inl (List.mem_filter.mpr ⟨(tabFind_isSome_iff _ _).mp hn, by simpa using hx⟩)
    · exact .inr (Option.not_isSome_iff_eq_none.mp hn)
  set s1 := (s.wavesOf crew).foldl State.removeWave s
  obtain ⟨h2, hg⟩ := State.ending_endGroups (s1.groupsOf crew) s1 fun g hg => (State.mem_groupsOf.mp hg).2
  set s2 := (s1.groupsOf crew).foldl State.endGroup s1
  have h3 := s2.ending_setCrew crew { s2.crew crew with killed := true } rfl fun _ => rfl
  set s3 := s2.setCrew crew { s2.crew crew with killed := true } with hs3
  have h4 := s3.ending_gridLeave crew
  refine ⟨h1.trans (h2.trans (h3.trans h4)), State.crewGone.ending ⟨?_, fun x hx => ?_, fun g hc hk => ?_⟩ h4⟩
  · rw [hs3, State.setCrew_crew_same]
  · exact h2.absent x (by simp) (hw x hx)
  · refine hg g (State.mem_groupsOf.mpr ⟨hc, ?_⟩)
    rw [← h2.keys g]
    exact hk

theorem State.endCrewWith_gone (s : State) (crew status info : Nat) :
    s.ending (s.endCrewWith crew status info) none ∧ (s.endCrewWith crew status info).crewGone crew := by
  obtain ⟨h, hg⟩ := (s.noteEnd (s.crew crew).launch status info).killCrew_gone crew
  exact ⟨(s.ending_setLaunch _ _ none).trans h, hg⟩

theorem mergeEnd_again (old : Option (Nat × Nat)) (status info : Nat) : mergeEnd (mergeEnd old status info) status info = mergeEnd old status info := by
  unfold mergeEnd
  cases old with
  | none => dsimp only; split <;> rfl
  | some e =>
    obtain ⟨st, i⟩ := e
    dsimp only
    by_cases h : st ≤ 1 ∧ 1 < status
    · rw [if_pos h]
      dsimp only
      split <;> rfl
    · rw [if_neg h]
      dsimp only
      rw [if_neg h]

/-- What ends several crews with one status: each of them has ended, and the launch of each has the status. -/
theorem State.endCrews_killed (l : List Nat) (s t : State) {c status info : Nat} (hs : s.ending t none)
    (h : c ∈ l ∧ ((t.launch (s.crew c).launch).endStatus = (s.launch (s.crew c).launch).endStatus
        ∨ (t.launch (s.crew c).launch).endStatus = mergeEnd (s.launch (s.crew c).launch).endStatus status info)
      ∨ t.crewGone c ∧ (t.launch (s.crew c).launch).endStatus = mergeEnd (s.launch (s.crew c).launch).endStatus status info) :
    (l.foldl (fun t x => t.endCrewWith x status info) t).crewGone c
      ∧ ((l.foldl (fun t x => t.endCrewWith x status info) t).launch (s.crew c).launch).endStatus
        = mergeEnd (s.launch (s.crew c).launch).endStatus status info := by
  induction l generalizing t with
  | nil => exact h.resolve_left (by simp)
  | cons x rest ih =>
    obtain ⟨he, hg⟩ := t.endCrewWith_gone x status info
    have hst := t.endCrewWith_endStatus x status info (s.crew c).launch
    refine ih _ (hs.trans he) ?_
    have hlaunch : ∀ y, (t.crew y).launch = (s.crew y).launch := fun y => by rw [hs.crews y]
    have hm : (t.launch (s.crew c).launch).endStatus = mergeEnd (s.launch (s.crew c).launch).endStatus status info →
        ((t.endCrewWith x status info).launch (s.crew c).launch).endStatus = mergeEnd (s.launch (s.crew c).launch).endStatus status info := fun e => by
      rw [hst, e, mergeEnd_again, ite_self]
    rcases h with ⟨hc, hl⟩ | ⟨hgone, hl⟩
    · by_cases hx : c = x
      · subst hx
        refine .inr ⟨hg, ?_⟩
        rcases hl with hl | hl
        · rw [hst, if_pos (hlaunch c).symm, hl]
        · exact hm hl
      · refine .inl ⟨(List.mem_cons.mp hc).resolve_left hx, ?_⟩
        rcases hl with hl | hl
        · rw [hst, hl]
          split
          · exact .inr rfl
          · exact .inl rfl
        · exact .inr (hm hl)
    · exact .inr ⟨hgone.ending he, hm hl⟩

/-- A crew that has ended, as a claim about the state before its end. -/
theorem State.crewGone.crewKilled {s t : State} {c status info : Nat} (h : t.crewGone c) (hs : s.ending t none)
    (hl : (t.launch (s.crew c).launch).endStatus = mergeEnd (s.launch (s.crew c).launch).endStatus status info) : s.crewKilled t c status info :=
  ⟨h.killed, hl, h.waves, fun g hg hk => h.groups g hg (by rw [hs.keys g]; exact hk)⟩

theorem State.endCrewWith_crewKilled (s : State) (c status info : Nat) : s.crewKilled (s.endCrewWith c status info) c status info := by
  obtain ⟨he, hg⟩ := s.endCrewWith_gone c status info
  exact hg.crewKilled he (by rw [State.endCrewWith_endStatus, if_pos rfl])

end Sys2Proof.Machine
end

section
/-! ## O50: saves and restores of a core -/

namespace Sys2Proof.Machine

open Sys2Proof

/-! ### The context shadow (R65) -/

theorem coreAt_place (c : Nat) : coreAt (clusterOf c) (placeOf c) = c := by
  unfold coreAt clusterOf placeOf
  omega

theorem placeOf_lt (c : Nat) : placeOf c < 4 := by
  unfold placeOf
  omega

/-- A byte offset inside the group records of a slot. -/
theorem shadow_split {p q i r : Nat} (hq : q < 8) (hp : p < 4) (hi : i < 16) (hr : r < 3072) :
    (196608 * (p * 8 + q) + 0x22000 + 3072 * i + r) / 196608 / 8 % 4 = p
      ∧ (196608 * (p * 8 + q) + 0x22000 + 3072 * i + r) / 196608 % 8 = q
      ∧ (196608 * (p * 8 + q) + 0x22000 + 3072 * i + r) % 196608 = 0x22000 + (3072 * i + r) := by
  have hd : (196608 * (p * 8 + q) + 0x22000 + 3072 * i + r) / 196608 = p * 8 + q := by omega
  rw [hd]
  omega

theorem shadowPart_record {i r : Nat} (hi : i < 16) (hr : r < 3072) : shadowPart (0x22000 + (3072 * i + r)) =
    if r < 2048 then .sReg i (r / 8) else if r < 2560 then .kReg i ((r - 2048) / 16) (r / 8 % 2) else .groupState i := by
  have hd : (3072 * i + r) / 3072 = i := by omega
  have hm : (3072 * i + r) % 3072 = r := by omega
  simp only [shadowPart, Nat.add_sub_cancel_left, hd, hm]
  rw [if_neg (by omega), if_neg (by omega), if_pos (by omega)]

/-- What a word of a group record shows. -/
theorem State.shadowWord_record {s : State} {c q i r : Nat} (hq : q < 8) (hi : i < 16) (hr : r < 3072) :
    s.shadowWord (clusterOf c) (196608 * (placeOf c * 8 + q) + 0x22000 + 3072 * i + r) =
      if r < 2048 then (s.shadowGroups c q)[i]?.map (fun g => (tabGet (s.group g).s 0 (r / 8)).toNat)
      else if r < 2560 then (s.shadowGroups c q)[i]?.map (fun g =>
        (tabGet (s.group g).k Capv.null ((r - 2048) / 16)).bits.toNat / 2 ^ (64 * (r / 8 % 2)) % 2 ^ 64)
      else none := by
  obtain ⟨h1, h2, h3⟩ := shadow_split hq (placeOf_lt c) hi hr
  have ho : shadowOwner (clusterOf c) (196608 * (placeOf c * 8 + q) + 0x22000 + 3072 * i + r) = (c, q) := by
    rw [shadowOwner, h1, h2, coreAt_place]
  unfold State.shadowWord
  rw [ho, h3, shadowPart_record hi hr]
  dsimp only
  by_cases h : r < 2048
  · simp only [if_pos h]
  · simp only [if_neg h]
    by_cases h' : r < 2560
    · simp only [if_pos h']
    · simp only [if_neg h']

theorem State.shadowWord_sReg {s : State} {c q i g n : Nat} (hq : q < 8) (hi : i < 16) (hg : (s.shadowGroups c q)[i]? = some g)
    (hn : n < 256) : s.shadowWord (clusterOf c) (196608 * (placeOf c * 8 + q) + 0x22000 + 3072 * i + 8 * n)
      = some ((tabGet (s.group g).s 0 n).toNat) := by
  rw [State.shadowWord_record hq hi (by omega), if_pos (by omega), hg, Nat.mul_div_cancel_left _ (by omega)]
  rfl

theorem State.shadowWord_kReg {s : State} {c q i g n half : Nat} (hq : q < 8) (hi : i < 16) (hg : (s.shadowGroups c q)[i]? = some g)
    (hn : n < 32) (hh : half < 2) : s.shadowWord (clusterOf c) (196608 * (placeOf c * 8 + q) + 0x22000 + 3072 * i + (2048 + 16 * n + 8 * half))
      = some ((tabGet (s.group g).k Capv.null n).bits.toNat / 2 ^ (64 * half) % 2 ^ 64) := by
  have h1 : (2048 + 16 * n + 8 * half - 2048) / 16 = n := by omega
  have h2 : (2048 + 16 * n + 8 * half) / 8 % 2 = half := by omega
  rw [State.shadowWord_record hq hi (by omega), if_neg (by omega), if_pos (by omega), hg, h1, h2]
  rfl

/-! ### A save that starts (R120, R315, R384, R385) -/

/-- Waves and groups alone have changed. -/
def State.onlyThreads (s t : State) : Prop := t = { s with waves := t.waves, groups := t.groups }

theorem State.onlyThreads.trans {s t u : State} (h : s.onlyThreads t) (k : t.onlyThreads u) : s.onlyThreads u := by
  unfold State.onlyThreads at *
  rw [k, h]

theorem State.onlyThreads_foldl {α : Type} {f : State → α → State} (h : ∀ (s : State) a, s.onlyThreads (f s a)) (l : List α) (s : State) :
    s.onlyThreads (l.foldl f s) := foldl_keeps (fun t => s.onlyThreads t) f l s rfl fun x a hx => hx.trans (h x a)

theorem State.onlyThreads_setThread (s : State) (g t : Nat) (v : Thread) : s.onlyThreads (s.setThread g t v) := rfl

theorem State.onlyThreads_restoreUndo (s : State) (g : Nat) (u : List (Nat × Nat × Nib)) : s.onlyThreads (s.restoreUndo g u) :=
  State.onlyThreads_foldl (fun t _ => t.onlyThreads_setThread _ _ _) _ _

theorem State.onlyThreads_restorePreds (s : State) (g : Nat) (ck : Tab (Tab Bool)) : s.onlyThreads (s.restorePreds g ck) :=
  State.onlyThreads_foldl (fun t _ => t.onlyThreads_setThread _ _ _) _ _

theorem State.restoreUndo_waves (s : State) (g : Nat) (u : List (Nat × Nat × Nib)) : (s.restoreUndo g u).waves = s.waves :=
  foldl_fixed State.waves _ _ _ fun _ _ => rfl

theorem State.restorePreds_waves (s : State) (g : Nat) (ck : Tab (Tab Bool)) : (s.restorePreds g ck).waves = s.waves :=
  foldl_fixed State.waves _ _ _ fun _ _ => rfl

theorem State.onlyThreads_rollback (s : State) (w : Nat) (counted : Bool) : s.onlyThreads (s.rollback w counted) := by
  unfold State.rollback
  split
  · rfl
  · exact ((s.onlyThreads_restoreUndo _ _).trans (State.onlyThreads_restorePreds _ _ _)).trans rfl

/-- A wave that waited for room in its quota is ready again. -/
def Wave.requota (v : Wave) (now : Nat) : Wave := if v.park = .quota then { v with park := .run, readyAt := now } else v

theorem Wave.requota_frame (v : Wave) (now : Nat) : v.requota now = { v with park := (v.requota now).park, readyAt := (v.requota now).readyAt } := by
  unfold Wave.requota
  split <;> rfl

theorem State.retestQuota_wave (s : State) (g x : Nat) : (s.retestQuota g).wave x =
    if groupOf x = g then (s.wave x).requota (s.coreCycles (s.waveCore x)) else s.wave x := by
  have h : s.retestQuota g = { s with waves := s.waves.map (fun e =>
      (e.1, if groupOf e.1 = g then e.2.requota (s.coreCycles (s.waveCore e.1)) else e.2)) } := by
    unfold State.retestQuota Wave.requota
    congr 1
    refine List.map_congr_left fun e _ => ?_
    by_cases h1 : groupOf e.1 = g
    · by_cases h2 : e.2.park = .quota
      · simp [h1, h2]
      · simp [h2]
    · simp [h1]
  rw [h]
  unfold State.wave tabGet
  rw [tabFind_map s.waves (fun x v => if groupOf x = g then v.requota (s.coreCycles (s.waveCore x)) else v)]
  cases tabFind s.waves x with
  | some v => rfl
  | none =>
    show Wave.empty = if _ then Wave.requota Wave.empty _ else Wave.empty
    rw [show Wave.requota Wave.empty (s.coreCycles (s.waveCore x)) = Wave.empty from rfl, ite_self]

theorem State.retestQuota_wave_frame (s : State) (g x : Nat) :
    (s.retestQuota g).wave x = { s.wave x with park := ((s.retestQuota g).wave x).park, readyAt := ((s.retestQuota g).wave x).readyAt } := by
  rw [State.retestQuota_wave]
  split
  · exact Wave.requota_frame _ _
  · rfl

/-- A wave whose rollback counts or not, before waits for quotas look again. -/
def Wave.rolledBack (v : Wave) (p : Spec) (n now : Nat) : Wave := { v with
  cc := p.ckCc, lc := p.ckLc, pend := [], retry := none, seg := p.seg, word := p.word
  held := none, park := if 4 ≤ n then .spec else .run, readyAt := now
  spec := some { p with undo := [], watches := [], stores := [], conflict := false, rollbacks := n } }

theorem State.rollback_wave {s : State} {w : Nat} {p : Spec} (h : (s.wave w).spec = some p) (counted : Bool) (x : Nat) :
    let n := if counted then p.rollbacks + 1 else p.rollbacks
    ∃ park now, (s.rollback w counted).wave x
      = { if x = w then (s.wave w).rolledBack p n (s.coreCycles (s.waveCore w)) else s.wave x with park := park, readyAt := now } := by
  intro n
  set s1 := (s.restoreUndo (groupOf w) p.undo).restorePreds (groupOf w) p.ckPreds with hs1
  have hr : s.rollback w counted
      = (s1.setWave w ((s1.wave w).rolledBack p n (s.coreCycles (s.waveCore w)))).retestQuota (groupOf w) := by
    unfold State.rollback
    rw [h]
    rfl
  have hw : ∀ x, s1.wave x = s.wave x := fun x => by rw [hs1, State.wave, State.restorePreds_waves, State.restoreUndo_waves]; rfl
  rw [hr, State.retestQuota_wave_frame, State.setWave_wave, hw, hw]
  exact ⟨_, _, rfl⟩

theorem State.rollback_unspec {s : State} {w : Nat} (h : (s.wave w).spec = none) (counted : Bool) : s.rollback w counted = s := by
  unfold State.rollback
  rw [h]

/-- A wave is back at its checkpoint, and still speculative. -/
def Wave.atCheckpoint (v : Wave) (p : Spec) : Prop :=
  v.seg = p.seg ∧ v.word = p.word ∧ v.cc = p.ckCc ∧ v.spec = some { p with undo := [], watches := [], stores := [], conflict := false }

theorem State.rollback_atCheckpoint {s : State} {w x : Nat} {p : Spec} (h : (s.wave x).atCheckpoint p ∨ (x = w ∧ (s.wave x).spec = some p)) :
    ((s.rollback w false).wave x).atCheckpoint p := by
  cases hs : (s.wave w).spec with
  | none =>
    rw [State.rollback_unspec hs]
    refine h.resolve_right fun e => ?_
    rw [e.1, hs] at e
    cases e.2
  | some q =>
    obtain ⟨park, now, hx⟩ := State.rollback_wave hs false x
    rw [hx]
    by_cases hw : x = w
    · subst hw
      rw [if_pos rfl]
      rcases h with ⟨-, -, -, hp⟩ | ⟨-, hp⟩ <;> (cases hs.symm.trans hp; exact ⟨rfl, rfl, rfl, rfl⟩)
    · rw [if_neg hw]
      exact h.resolve_right fun e => hw e.1

theorem State.rollbacks_atCheckpoint (l : List Nat) (s : State) {x : Nat} {p : Spec}
    (h : (s.wave x).atCheckpoint p ∨ (x ∈ l ∧ (s.wave x).spec = some p)) :
    ((l.foldl (fun t w => t.rollback w false) s).wave x).atCheckpoint p := by
  induction l generalizing s with
  | nil => exact h.resolve_right (by simp)
  | cons w rest ih =>
    refine ih _ ?_
    by_cases hw : x = w
    · exact .inl (State.rollback_atCheckpoint (h.imp id fun k => ⟨hw, k.2⟩))
    · rcases h with h | ⟨hm, hs⟩
      · exact .inl (State.rollback_atCheckpoint (.inl h))
      · refine .inr ⟨(List.mem_cons.mp hm).resolve_left hw, ?_⟩
        cases hq : (s.wave w).spec with
        | none =>
          show ((s.rollback w false).wave x).spec = _
          rw [State.rollback_unspec hq]
          exact hs
        | some q =>
          obtain ⟨park, now, hx⟩ := State.rollback_wave hq false x
          show (State.wave _ x).spec = _
          rw [hx, if_neg hw]
          exact hs

/-- A region has been abandoned: memory, clusters, waves that watch, and the model's free values. -/
structure State.abandoned (s t : State) : Prop where
  machine : t = { s with waves := t.waves, clusters := t.clusters, mem := t.mem, free := t.free }
  rolled : ∀ x p, (s.wave x).atCheckpoint p → (t.wave x).atCheckpoint p

theorem State.abandoned.refl (s : State) : s.abandoned s := ⟨rfl, fun _ _ h => h⟩

theorem State.abandoned.trans {s t u : State} (h : s.abandoned t) (k : t.abandoned u) : s.abandoned u where
  machine := by rw [k.machine, h.machine]
  rolled x p hx := k.rolled x p (h.rolled x p hx)

theorem State.abandoned_setCluster (s : State) (k : Nat) (v : ClusterSt) : s.abandoned (s.setCluster k v) := ⟨rfl, fun _ _ h => h⟩
theorem State.abandoned_setSeq (s : State) (k : Nat) (q : Seq) : s.abandoned (s.setSeq k q) := ⟨rfl, fun _ _ h => h⟩
theorem State.abandoned_bumpFree (s : State) : s.abandoned s.bumpFree := ⟨rfl, fun _ _ h => h⟩

/-- A wave at its checkpoint watches nothing. -/
theorem Wave.atCheckpoint.conflicted {v : Wave} {p : Spec} (h : v.atCheckpoint p) (other : Bool) (lines : List Nat) :
    v.conflicted other lines = v := by
  unfold Wave.conflicted
  rw [h.2.2.2]
  simp

theorem State.abandoned_writeAccRow (s : State) (k row : Nat) (cells : List (Nat × Byte × Byte)) : s.abandoned (s.writeAccRow k row cells) where
  machine := rfl
  rolled x p h := by
    have hs : ((s.setStore (s.store.write cells none)).wave x).atCheckpoint p := h
    rw [State.writeAccRow, State.markConflicts_wave, hs.conflicted]
    exact hs

theorem State.abandoned_logDamage (s : State) (k : Nat) (recs : List Nat) : s.abandoned (s.logDamage k recs) := by
  unfold State.logDamage
  split
  · exact State.abandoned.refl s
  · exact s.abandoned_setSeq _ _

theorem State.abandoned_applyMma (s : State) (k : Nat) (o : MmaOp) (keep : Nat → Nat → Bool) : s.abandoned (s.applyMma k o keep) :=
  (foldl_keeps (fun t => s.abandoned t) _ _ s (State.abandoned.refl s) fun t _ h => h.trans (t.abandoned_writeAccRow _ _ _)).trans
    (State.abandoned_logDamage _ _ _)

theorem State.abandoned_applyAbandoned (k : Nat) (ops : List MmaOp) (s : State) (old : Nat → Nat → Bool) : s.abandoned (s.applyAbandoned k ops old) := by
  induction ops generalizing s old with
  | nil => exact State.abandoned.refl s
  | cons o rest ih =>
    rw [State.applyAbandoned]
    split
    · exact s.abandoned_setSeq _ _
    · exact ((s.abandoned_applyMma _ _ _).trans (State.abandoned_bumpFree _)).trans (ih _ _)

theorem State.abandoned_abandonRegion (s : State) (k : Nat) : s.abandoned (s.abandonRegion k) := by
  unfold State.abandonRegion
  dsimp only
  split
  · exact State.abandoned.refl s
  · refine State.abandoned.trans ?_ (State.abandoned_setCluster _ _ _)
    split
    · exact (s.abandoned_setSeq k _).trans ((State.abandoned_bumpFree _).trans (State.abandoned_applyAbandoned k _ _ _))
    · exact (s.abandoned_setSeq k _).trans (State.abandoned_bumpFree _)

theorem State.abandoned_stopSeq (s : State) (k : Nat) : s.abandoned (s.stopSeq k) := by
  unfold State.stopSeq
  refine State.abandoned.trans ?_ (State.abandoned_setSeq _ k _)
  split
  · exact s.abandoned_abandonRegion k
  · exact State.abandoned.refl s

theorem State.stopSeq_stop (s : State) (k : Nat) : ((s.stopSeq k).seqOf k).stop = true := by
  rw [State.stopSeq, State.setSeq_seqOf_same]

/-- The swap state of a core whose save starts. -/
def State.saving (s : State) (c : Nat) : State := s.setCore c { s.core c with
  swap := { (s.core c).swap with
    busy := true, dir := false, ask := false, goAt := s.dt, halted := true, copying := false, going := s.liveCrews c } }

/-- What a core's swap state says of the crews in its shadow is all that a state shows of saved crews. -/
theorem State.isSaved_setCore {s : State} {c : Nat} {v : CoreSt} (h : v.swap.saved = (s.core c).swap.saved) (x : Nat) :
    (s.setCore c v).isSaved x = s.isSaved x := by
  have hc : ((s.setCore c v).core (s.crew x).core).swap.saved = (s.core (s.crew x).core).swap.saved := by
    rw [State.setCore_core]
    split
    · rename_i e; rw [h, e]
    · rfl
  exact congrArg (fun l => List.contains l x) hc

theorem State.saving_isSaved (s : State) (c x : Nat) : (s.saving c).isSaved x = s.isSaved x := State.isSaved_setCore (by rfl) x

theorem State.saving_coreWaves (s : State) (c d : Nat) : (s.saving c).coreWaves d = s.coreWaves d := by
  unfold State.coreWaves
  simp only [State.saving_isSaved]
  rfl

theorem State.saving_matrixOn (s : State) (c d : Nat) : (s.saving c).matrixOn d = s.matrixOn d := by
  unfold State.matrixOn State.liveCrews
  simp only [State.saving_isSaved]
  rfl

theorem State.onlyThreads.matrixOn {s t : State} (h : s.onlyThreads t) (c : Nat) : t.matrixOn c = s.matrixOn c := by
  unfold State.onlyThreads at h
  rw [h]
  rfl

theorem startSave_gives {s : State} {c : Nat} (hb : (s.core c).swap.busy = false) (hh : (s.core c).swap.held = false) :
    Answer.gives (exec (.swapSave c) s) (fun t =>
        t = { s with cores := t.cores, waves := t.waves, groups := t.groups, clusters := t.clusters, mem := t.mem, free := t.free }
        ∧ (∀ x, x ≠ c → t.core x = s.core x)
        ∧ t.core c = { s.core c with
            swap := { (s.core c).swap with
              busy := true, dir := false, ask := false, goAt := s.dt, halted := true, copying := false, going := s.liveCrews c } }
        ∧ (∀ x ∈ s.coreWaves c, ∀ p, (s.wave x).spec = some p → (t.wave x).seg = p.seg ∧ (t.wave x).word = p.word
          ∧ (t.wave x).cc = p.ckCc
          ∧ (t.wave x).spec = some { p with undo := [], watches := [], stores := [], conflict := false })
        ∧ (s.matrixOn c = true → (t.seqOf (clusterOf c)).stop = true)) := by
  set s2 := ((s.saving c).coreWaves c).foldl (fun t w => t.rollback w false) (s.saving c) with hs2
  have he : exec (.swapSave c) s = .next (if s2.matrixOn c then s2.stopSeq (clusterOf c) else s2) := by
    exact congrArg Host.Outcome.next ((if_neg (by simp [hb])).trans (if_neg (by simp [hh])))
  have hroll : (s.saving c).onlyThreads s2 := State.onlyThreads_foldl (fun t w => t.onlyThreads_rollback w false) _ _
  have hm : s2.matrixOn c = s.matrixOn c := (hroll.matrixOn c).trans (s.saving_matrixOn c c)
  have hcheck : ∀ x ∈ s.coreWaves c, ∀ p, (s.wave x).spec = some p → (s2.wave x).atCheckpoint p := fun x hx p hp =>
    State.rollbacks_atCheckpoint _ _ (.inr ⟨by rw [s.saving_coreWaves]; exact hx, hp⟩)
  set t := if s2.matrixOn c then s2.stopSeq (clusterOf c) else s2 with ht
  have hstop : s2.abandoned t := by
    rw [ht]
    split
    · exact s2.abandoned_stopSeq _
    · exact State.abandoned.refl s2
  have hcore : ∀ x, t.core x = (s.saving c).core x := fun x => by rw [hstop.machine, hroll]; rfl
  refine ⟨t, he, ?_, fun x hx => ?_, ?_, fun x hx p hp => hstop.rolled x p (hcheck x hx p hp), fun hmx => ?_⟩
  · rw [hstop.machine, hroll]
    rfl
  · rw [hcore, State.saving, State.setCore_core, if_neg hx]
  · rw [hcore, State.saving, State.setCore_core_same]
  · rw [ht, hm, if_pos hmx]
    exact s2.stopSeq_stop _

theorem heldSave_gives {s : State} {c : Nat} (hb : (s.core c).swap.busy = false) (hh : (s.core c).swap.held = true) :
    Answer.gives (exec (.swapSave c) s) (fun t => s.onlyCore t c
        ∧ t.core c = { s.core c with swap := { (s.core c).swap with ask := false, status := 1 } }) := by
  refine ⟨s.setCore c _, ?_, ⟨rfl, fun x hx => by rw [State.setCore_core, if_neg hx], fun _ => rfl⟩, State.setCore_core_same ..⟩
  exact congrArg Host.Outcome.next ((if_neg (by simp [hb])).trans (if_pos hh))

/-! ### The end of a save (R135, R385) -/

theorem haltEnd_gives {s : State} {c : Nat} (hb : (s.core c).swap.busy = true) (hd : (s.core c).swap.dir = false)
    (hc : (s.core c).swap.copying = false) (hh : s.halted c = true) : Answer.gives (exec (.swapSaveHaltEnd c) s) (fun t =>
      s.onlyCore t c ∧ t.core c = { s.core c with
        swap := { (s.core c).swap with haltNs := min (s.dt - (s.core c).swap.goAt) (2 ^ 32 - 1), copying := true, copyAt := s.cycles (clusterOf c) } }) :=
  ⟨s.setCore c _, if_neg (by simp [hb, hd, hc, hh]), ⟨rfl, fun x hx => by rw [State.setCore_core, if_neg hx], fun _ => rfl⟩, State.setCore_core_same ..⟩

/-- Waves have gone from release queues back to their waits, and loads that had performed in part begin anew. -/
structure State.unqueued (s t : State) : Prop where
  machine : t = { s with waves := t.waves, clusters := t.clusters }
  waves : ∀ x, t.wave x = { s.wave x with park := (t.wave x).park, held := (t.wave x).held }
  clusters : ∀ k, t.cluster k = { s.cluster k with relQ := (t.cluster k).relQ }

theorem State.unqueued.refl (s : State) : s.unqueued s := ⟨rfl, fun _ => rfl, fun _ => rfl⟩

theorem State.unqueued.trans {s t u : State} (h : s.unqueued t) (k : t.unqueued u) : s.unqueued u where
  machine := by rw [k.machine, h.machine]
  waves x := by rw [k.waves x, h.waves x]
  clusters c := by rw [k.clusters c, h.clusters c]

theorem State.unqueued_setWave (s : State) (w : Nat) (v : Wave) (h : v = { s.wave w with park := v.park, held := v.held }) :
    s.unqueued (s.setWave w v) where
  machine := rfl
  waves x := by
    rw [State.setWave_wave]
    split
    · rename_i hx; rw [hx]; exact h
    · rfl
  clusters _ := rfl

theorem State.unqueued_setRelQ (s : State) (k : Nat) (l : List Nat) : s.unqueued (s.setCluster k { s.cluster k with relQ := l }) where
  machine := rfl
  waves _ := rfl
  clusters x := by
    rw [State.setCluster_cluster]
    split
    · rename_i hx; rw [hx]
    · rfl

theorem State.unqueued_unqueue (s : State) (w : Nat) : s.unqueued (s.unqueue w) := by
  unfold State.unqueue
  split
  · exact (s.unqueued_setWave w _ rfl).trans (State.unqueued_setRelQ _ _ _)
  · unfold State.unsend
    split
    · exact State.unqueued.refl s
    · split
      · exact s.unqueued_setWave w _ rfl
      · exact State.unqueued.refl s

theorem State.unqueued.cycles {s t : State} (h : s.unqueued t) (k : Nat) : t.cycles k = s.cycles k := by
  unfold State.cycles
  rw [h.clusters k, h.machine]

theorem State.copied_of {s : State} {c : Nat} (hb : (s.core c).swap.busy = true) (hc : (s.core c).swap.copying = true)
    (hr : s.clusterRuns (clusterOf c) = true) (h : (s.core c).swap.copyAt + 560 ≤ s.cycles (clusterOf c)) : s.copied c = true := by
  simp [State.copied, hb, hc, hr, h]

theorem State.setCore_machine {s u : State} (h : u = { s with waves := u.waves, clusters := u.clusters }) (c : Nat) (v : CoreSt) :
    u.setCore c v = { s with cores := (u.setCore c v).cores, waves := u.waves, clusters := u.clusters } :=
  congrArg (fun x : State => { x with cores := (u.setCore c v).cores }) h

theorem saveComplete_gives {s : State} {c : Nat} (hc : s.copied c = true) (hd : (s.core c).swap.dir = false) :
    Answer.gives (exec (.swapSaveComplete c) s) (fun t =>
        t = { s with cores := t.cores, waves := t.waves, clusters := t.clusters } ∧ (∀ x, x ≠ c → t.core x = s.core x)
        ∧ t.core c = { s.core c with
            savedAt := s.cycles (clusterOf c)
            swap := { (s.core c).swap with
              busy := false, held := true, status := 0, halted := false, copying := false, lost := [], going := []
              saved := (s.coreCrews c).filter (fun x => (s.core c).swap.going.contains x) } }
        ∧ (∀ x, t.wave x = { s.wave x with park := (t.wave x).park, held := (t.wave x).held })
        ∧ ∀ k, t.cluster k = { s.cluster k with relQ := (t.cluster k).relQ }) := by
  have he : exec (.swapSaveComplete c) s = .next _ := if_neg (by simp [hc, hd])
  refine ⟨_, he, ?_⟩
  have h : s.unqueued ((s.coreWaves c).foldl State.unqueue s) :=
    foldl_keeps (fun t => s.unqueued t) _ _ s (State.unqueued.refl s) fun t w hw => hw.trans (t.unqueued_unqueue w)
  set s1 := (s.coreWaves c).foldl State.unqueue s
  have hcore : ∀ x, s1.core x = s.core x := fun x => by rw [h.machine]; rfl
  refine ⟨?_, fun x hx => by rw [State.setCore_core, if_neg hx, hcore], ?_, h.waves, h.clusters⟩
  · exact State.setCore_machine h.machine _ _
  · rw [State.setCore_core_same, h.cycles, hcore]

/-! ### The end of a restore (R66, R365, R385, R387) -/

/-- The cores as a completed restore leaves them. -/
def State.restored (s : State) (c : Nat) : State := s.setCore c { s.core c with
  lostCycles := (s.core c).lostCycles + (s.cycles (clusterOf c) - (s.core c).savedAt)
  swap := { (s.core c).swap with
    busy := false, held := false, copying := false, halted := false, saved := [], lost := []
    status := if (s.core c).swap.lost = [] then 0 else 2 } }

/-- The saved crews of a core whose slots have lost data. -/
def State.lostCrews (s : State) (c : Nat) : List Nat := (s.core c).swap.saved.filter (fun w => (s.core c).swap.lost.any (s.waveIn w))

theorem State.woke_retestWaits (s : State) (c : Nat) : s.woke (s.retestWaits c) := State.woke_foldl State.woke_joinQueue _ _

theorem State.woke_resumeSeq (s : State) (k : Nat) : s.woke (s.resumeSeq k) := by
  unfold State.resumeSeq
  dsimp only
  split
  · exact State.woke.refl s
  · split
    · exact (s.woke_setSeq k _).trans (State.woke_wakeSeq _ _ _)
    · exact s.woke_setSeq k _

/-- Where no deadline has fallen, no crew and no sequencer is cut. -/
theorem State.noDeadline.cutCluster {s : State} (h : s.noDeadline) (k : Nat) : s.cutCluster k = s := by
  unfold State.cutCluster
  split
  · rfl
  · simp only [h _, Bool.false_and, List.filter_false, List.foldl_nil, Bool.false_eq_true, false_and, if_false]
    split <;> rfl

theorem execRestoreComplete_eq {s u : State} {c : Nat} (hc : s.copied c = true) (hd : (s.core c).swap.dir = true)
    (hu : u = (s.lostCrews c).foldl (fun t w => t.endCrewWith w 11 0) (s.restored c)) (hn : u.noDeadline) :
    exec (.swapRestoreComplete c) s = .next ((u.retestWaits c).resumeSeq (clusterOf c)) := by
  have he : exec (.swapRestoreComplete c) s = .next _ := if_neg (by simp [hc, hd])
  have hw := (u.woke_retestWaits c).trans ((u.retestWaits c).woke_resumeSeq (clusterOf c))
  have hk : ((u.retestWaits c).resumeSeq (clusterOf c)).noDeadline := fun l => by
    rw [hw.machine]
    exact hn l
  rw [he, ← hk.cutCluster (clusterOf c), hu]
  rfl

theorem restoreComplete_gives {s : State} {c : Nat} (hc : s.copied c = true) (hd : (s.core c).swap.dir = true) (hl : (s.core c).swap.lost = [])
    (hn : s.noDeadline) : Answer.gives (exec (.swapRestoreComplete c) s) (fun t =>
        t = { s with cores := t.cores, waves := t.waves, clusters := t.clusters } ∧ (∀ x, x ≠ c → t.core x = s.core x)
        ∧ t.core c = { s.core c with
            lostCycles := (s.core c).lostCycles + (s.cycles (clusterOf c) - (s.core c).savedAt)
            swap := { (s.core c).swap with busy := false, held := false, copying := false, halted := false, saved := [], lost := [], status := 0 } }
        ∧ ∀ x, t.wave x = { s.wave x with park := (t.wave x).park }) := by
  have hgone : s.lostCrews c = [] := by rw [State.lostCrews, hl]; simp
  refine ⟨_, execRestoreComplete_eq (u := s.restored c) hc hd (by rw [hgone]; rfl) hn, ?_⟩
  have hw := ((s.restored c).woke_retestWaits c).trans (((s.restored c).retestWaits c).woke_resumeSeq (clusterOf c))
  set t := ((s.restored c).retestWaits c).resumeSeq (clusterOf c)
  have hcore : ∀ x, t.core x = (s.restored c).core x := fun x => by rw [hw.machine]; rfl
  refine ⟨?_, fun x hx => by rw [hcore, State.restored, State.setCore_core, if_neg hx], ?_, hw.waves⟩
  · rw [hw.machine]
    rfl
  · rw [hcore, State.restored, State.setCore_core_same, if_pos hl]

theorem State.woke.ending {s t : State} (h : s.woke t) : s.ending t none := h.homeStep.ending none

theorem State.endKept_endCrews (l : List Nat) (s : State) (status info : Nat) :
    (l.foldl (fun t x => t.endCrewWith x status info) s).cores = s.cores
      ∧ ∀ y, ((l.foldl (fun t x => t.endCrewWith x status info) s).launch y).deadlineFell = (s.launch y).deadlineFell := by
  refine foldl_keeps (fun t : State => t.cores = s.cores ∧ ∀ y, (t.launch y).deadlineFell = (s.launch y).deadlineFell) _ l s ⟨rfl, fun _ => rfl⟩ ?_
  rintro t x ⟨hc, hd⟩
  have h := (t.noteEnd (t.crew x).launch status info).endKept_killCrew x
  refine ⟨?_, fun y => ?_⟩
  · show (State.killCrew _ x).cores = _
    rw [h.1]
    exact hc
  · show ((State.killCrew _ x).launch y).deadlineFell = _
    rw [h.2 y, State.noteEnd_launch, ← hd y]
    split
    · rename_i e; rw [e]
    · rfl

theorem restoreComplete_kills {s : State} {c : Nat} (hc : s.copied c = true) (hd : (s.core c).swap.dir = true) (hn : s.noDeadline) :
    Answer.gives (exec (.swapRestoreComplete c) s) (fun t => ((s.core c).swap.lost ≠ [] → (t.core c).swap.status = 2)
      ∧ ∀ x ∈ (s.core c).swap.saved, (∃ q ∈ (s.core c).swap.lost, s.waveIn x q = true) → s.crewKilled t x 11 0) := by
  have hkept := State.endKept_endCrews (s.lostCrews c) (s.restored c) 11 0
  have hall : ∀ x ∈ s.lostCrews c, _ ∧ _ := fun x hx => State.endCrews_killed (status := 11) (info := 0) (s.lostCrews c) (s.restored c) (s.restored c)
    (State.ending.refl _ _) (.inl ⟨hx, .inl rfl⟩)
  have hend : (s.restored c).ending ((s.lostCrews c).foldl (fun t x => t.endCrewWith x 11 0) (s.restored c)) none :=
    State.ending_foldl (fun t x => (t.endCrewWith_gone x 11 0).1) _ _
  set u := (s.lostCrews c).foldl (fun t x => t.endCrewWith x 11 0) (s.restored c) with hu
  refine ⟨_, execRestoreComplete_eq hc hd hu fun l => (hkept.2 l).trans (hn l), fun hl => ?_, fun x hx hq => ?_⟩
  · have hw := (u.woke_retestWaits c).trans ((u.retestWaits c).woke_resumeSeq (clusterOf c))
    have hcore : ((u.retestWaits c).resumeSeq (clusterOf c)).core c = (s.restored c).core c := by
      rw [hw.machine]
      unfold State.core
      rw [hkept.1]
    rw [hcore, State.restored, State.setCore_core_same]
    exact if_neg hl
  · have hw := (u.woke_retestWaits c).trans ((u.retestWaits c).woke_resumeSeq (clusterOf c))
    obtain ⟨hgone, hst⟩ := hall x (List.mem_filter.mpr ⟨hx, List.any_eq_true.mpr hq⟩)
    have hs : s.ending u none := State.ending.trans (.of_eq rfl rfl rfl : s.ending (s.restored c) none) hend
    refine (hgone.ending hw.ending).crewKilled (hs.trans hw.ending) ?_
    rw [hw.machine]
    exact hst

/-! ### A restore that is asked for (R45, R384, R387) -/

theorem restoreAsked_gives {s : State} {c : Nat} (hb : (s.core c).swap.busy = false) (hh : (s.core c).swap.held = false) :
    Answer.gives (exec (.swapRestore c) s) (fun t => s.onlyCore t c
      ∧ t.core c = { s.core c with swap := { (s.core c).swap with ask := true, status := 1 } }) :=
  ⟨s.setCore c _, congrArg Host.Outcome.next ((if_neg (by simp [hh])).trans ((if_neg (by simp [hb])).trans (if_pos hh))),
    ⟨rfl, fun x hx => by rw [State.setCore_core, if_neg hx], fun _ => rfl⟩, State.setCore_core_same ..⟩

theorem restoreWaits_gives {s : State} {c : Nat} (hb : (s.core c).swap.busy = false) (hh : (s.core c).swap.held = true) (hl : s.liveCrews c ≠ []) :
    Answer.gives (exec (.swapRestore c) s) (fun t => s.onlyCore t c ∧ t.core c = { s.core c with swap := { (s.core c).swap with ask := true } }) :=
  ⟨s.setCore c _, congrArg Host.Outcome.next (if_pos ⟨hb, hh, hl⟩),
    ⟨rfl, fun x hx => by rw [State.setCore_core, if_neg hx], fun _ => rfl⟩, State.setCore_core_same ..⟩

/-- A clock that runs on at another rate has counted the same cycles. -/
theorem clockCycles_setRate (c : Clock) (dt rate : Nat) : clockCycles (clockSetRate c dt rate) dt = clockCycles c dt := by
  simp [clockCycles, clockSetRate]

/-- A rail has been asked for: of one cluster the rail and the clock, with the cycles that it has counted. -/
structure State.railAsked (s t : State) (k : Nat) : Prop where
  machine : t = { s with clusters := t.clusters }
  other : ∀ x, x ≠ k → t.cluster x = s.cluster x
  cycles : ∀ x, t.cycles x = s.cycles x

theorem State.railAsked.refl (s : State) (k : Nat) : s.railAsked s k := ⟨rfl, fun _ _ => rfl, fun _ => rfl⟩

theorem State.railAsked_setCluster (s : State) (k : Nat) (v : ClusterSt) (h : clockCycles v.clock s.dt = s.cycles k) : s.railAsked (s.setCluster k v) k where
  machine := rfl
  other x hx := by rw [State.setCluster_cluster, if_neg hx]
  cycles x := by
    show clockCycles ((s.setCluster k v).cluster x).clock s.dt = _
    rw [State.setCluster_cluster]
    split
    · rename_i hx; rw [h, hx]
    · rfl

theorem State.railAsked.trans {s t u : State} {k : Nat} (h : s.railAsked t k) (g : t.railAsked u k) : s.railAsked u k where
  machine := by rw [g.machine, h.machine]
  other x hx := (g.other x hx).trans (h.other x hx)
  cycles x := (g.cycles x).trans (h.cycles x)

theorem State.railAsked_retime (s : State) (k : Nat) : s.railAsked (s.retime k) k := s.railAsked_setCluster k _ (clockCycles_setRate _ _ _)

theorem State.railAsked_railWant (s : State) (k target : Nat) : s.railAsked (s.railWant k target) k := by
  unfold State.railWant
  dsimp only
  split
  · exact s.railAsked_setCluster k _ rfl
  · unfold State.railGo
    dsimp only
    split
    · exact State.railAsked.refl s k
    · split
      · exact s.railAsked_setCluster k _ rfl
      · split
        · exact s.railAsked_setCluster k _ rfl
        · refine State.railAsked.trans (s.railAsked_setCluster k _ ?_) (State.railAsked_retime _ k)
          rfl

/-- The rail of the saved crews has been asked for (R387). -/
def State.askSavedRail (s : State) (c : Nat) : State :=
  match s.savedRail c with
  | none => s
  | some t => s.railWant (clusterOf c) t

theorem State.railAsked_askSavedRail (s : State) (c : Nat) : s.railAsked (s.askSavedRail c) (clusterOf c) := by
  unfold State.askSavedRail
  split
  · exact State.railAsked.refl s _
  · exact s.railAsked_railWant _ _

/-- The split of the saved crews has been taken over (R45). -/
def State.takeSavedSplit (s : State) (c : Nat) : State :=
  if s.savedSplit c = (s.core c).split then s else s.writeSplit c (s.savedSplit c)

/-- A core's split is written once its crews have gone, and its data cache is emptied. -/
structure State.splitTaken (s t : State) (c : Nat) : Prop where
  machine : t = { s with cores := t.cores }
  other : ∀ x, x ≠ c → t.core x = s.core x
  core : t.core c = { s.core c with split := (t.core c).split, l1d := (t.core c).l1d }
  split : s.savedSplit c < 3 → (t.core c).split = s.savedSplit c
  same : s.savedSplit c = (s.core c).split → (t.core c).l1d = (s.core c).l1d

theorem State.splitTaken_takeSavedSplit {s : State} {c : Nat} (hl : s.liveCrews c = []) : s.splitTaken (s.takeSavedSplit c) c := by
  unfold State.takeSavedSplit
  by_cases he : s.savedSplit c = (s.core c).split
  · rw [if_pos he]
    exact ⟨rfl, fun _ _ => rfl, rfl, fun _ => he.symm, fun _ => rfl⟩
  · rw [if_neg he, State.writeSplit]
    by_cases h3 : s.savedSplit c % 4 = 3
    · rw [if_pos (.inr h3)]
      exact ⟨rfl, fun _ _ => rfl, rfl, fun h => by omega, fun _ => rfl⟩
    · rw [if_neg (by simp [hl, h3])]
      have hc := s.setCore_core_same c { s.core c with split := s.savedSplit c % 4, l1d := [] }
      exact ⟨rfl, fun x hx => by rw [State.setCore_core, if_neg hx], by rw [hc],
        fun h => by rw [hc]; exact Nat.mod_eq_of_lt (by omega), fun h => absurd h he⟩

theorem startRestore_gives {s : State} {c : Nat} (hb : (s.core c).swap.busy = false) (hh : (s.core c).swap.held = true) (hl : s.liveCrews c = []) :
    Answer.gives (exec (.swapRestore c) s) (fun t =>
      t = { s with cores := t.cores, clusters := t.clusters } ∧ (∀ x, x ≠ c → t.core x = s.core x)
      ∧ (∀ k, k ≠ clusterOf c → t.cluster k = s.cluster k)
      ∧ (∀ k, t.cycles k = s.cycles k)
      ∧ t.core c = { s.core c with
          split := (t.core c).split, l1d := (t.core c).l1d
          swap := { (s.core c).swap with
            busy := true, dir := true, ask := true, copying := true, goAt := s.dt, copyAt := s.cycles (clusterOf c), going := [] } }
      ∧ (s.savedSplit c < 3 → (t.core c).split = s.savedSplit c)
      ∧ (s.savedSplit c = (s.core c).split → (t.core c).l1d = (s.core c).l1d)) := by
  have he : exec (.swapRestore c) s = .next ((((s.askSavedRail c).takeSavedSplit c).setCore c { ((s.askSavedRail c).takeSavedSplit c).core c with
      swap := { (((s.askSavedRail c).takeSavedSplit c).core c).swap with
        busy := true, dir := true, ask := true, copying := true, goAt := s.dt
        copyAt := ((s.askSavedRail c).takeSavedSplit c).cycles (clusterOf c), going := [] } })) :=
    congrArg Host.Outcome.next ((if_neg (by simp [hl])).trans ((if_neg (by simp [hb])).trans (if_neg (by simp [hh]))))
  refine ⟨_, he, ?_⟩
  have hr := s.railAsked_askSavedRail c
  have hsame : (s.askSavedRail c).savedSplit c = s.savedSplit c ∧ (s.askSavedRail c).liveCrews c = s.liveCrews c := by
    rw [hr.machine]
    exact ⟨rfl, rfl⟩
  have hcore : ∀ x, (s.askSavedRail c).core x = s.core x := fun x => by rw [hr.machine]; rfl
  have hs := State.splitTaken_takeSavedSplit (hsame.2.trans hl)
  set u := (s.askSavedRail c).takeSavedSplit c
  have hcyc : ∀ k, u.cycles k = s.cycles k := fun k => by rw [hs.machine]; exact hr.cycles k
  refine ⟨?_, fun x hx => ?_, fun k hk => ?_, hcyc, ?_, fun h3 => ?_, fun h => ?_⟩
  · have hu : u = { s with cores := u.cores, clusters := u.clusters } := by
      rw [hs.machine, hr.machine]
    generalize { u.core c with
      swap := { (u.core c).swap with
        busy := true, dir := true, ask := true, copying := true, goAt := s.dt, copyAt := u.cycles (clusterOf c), going := [] } } = v
    exact congrArg (fun x : State => { x with cores := (u.setCore c v).cores }) hu
  · rw [State.setCore_core, if_neg hx, hs.other x hx, hcore]
  · show u.cluster k = _
    rw [hs.machine]
    exact hr.other k hk
  · rw [State.setCore_core_same, hs.core, hcore, hcyc]
  · rw [State.setCore_core_same]
    exact (hs.split (by rw [hsame.1]; exact h3)).trans hsame.1
  · rw [State.setCore_core_same]
    exact (hs.same (by rw [hsame.1, hcore]; exact h)).trans (by rw [hcore])

/-- Settles O50: each step of a save or restore is its own change of the core, of waits, and of what its crews take with them. -/
theorem savesAndRestores : Obligations.SavesAndRestores := by
  unfold Obligations.SavesAndRestores
  refine fun s c => ⟨fun _ q i g n hq hi hg => ⟨fun hn => State.shadowWord_sReg hq hi hg hn, fun hn => ⟨?_, ?_⟩⟩,
    fun hb => ⟨heldSave_gives hb, startSave_gives hb⟩, haltEnd_gives, fun hb hc hr hcy => ?_, restoreAsked_gives, restoreWaits_gives, startRestore_gives⟩
  · have h := State.shadowWord_kReg hq hi hg hn (show 0 < 2 by omega)
    simpa [Nat.add_assoc] using h
  · have hat : 196608 * (placeOf c * 8 + q) + 0x22000 + 3072 * i + 2056 + 16 * n
        = 196608 * (placeOf c * 8 + q) + 0x22000 + 3072 * i + (2048 + 16 * n + 8 * 1) := by omega
    rw [hat]
    exact State.shadowWord_kReg hq hi hg hn (by omega)
  · have hcopied := State.copied_of hb hc hr hcy
    exact ⟨saveComplete_gives hcopied, restoreComplete_gives hcopied, restoreComplete_kills hcopied⟩

end Sys2Proof.Machine
end

section
/-! ## O38: what a wave meets without a word of its own -/

namespace Sys2Proof.Machine

open Sys2Proof

/-! ### Threads of one group (R118, R198) -/

/-- Threads of one group alone have changed. -/
structure State.threadStep (s t : State) (g : Nat) : Prop where
  machine : t = { s with groups := t.groups }
  other : ∀ x, x ≠ g → t.group x = s.group x
  regs : s.sameGroupRegs t g

theorem State.threadStep.refl (s : State) (g : Nat) : s.threadStep s g := ⟨rfl, fun _ _ => rfl, rfl⟩

theorem State.threadStep.trans {s t u : State} {g : Nat} (h : s.threadStep t g) (k : t.threadStep u g) : s.threadStep u g where
  machine := by rw [k.machine, h.machine]
  other x hx := (k.other x hx).trans (h.other x hx)
  regs := by
    have h1 := h.regs
    have h2 := k.regs
    unfold State.sameGroupRegs at *
    rw [h2, h1]

theorem State.threadStep_setThread (s : State) (g x : Nat) (v : Thread) : s.threadStep (s.setThread g x v) g where
  machine := rfl
  other y hy := State.setThread_group_other s g x v y hy
  regs := by
    unfold State.sameGroupRegs
    rw [State.setThread, State.setGroup_group_same]

theorem State.threadStep_foldl {α : Type} {f : State → α → State} {g : Nat} (h : ∀ (s : State) a, s.threadStep (f s a) g) (l : List α) (s : State) :
    s.threadStep (l.foldl f s) g := foldl_keeps (fun t => s.threadStep t g) f l s (State.threadStep.refl s g) fun x a hx => hx.trans (h x a)

/-- The first value that a list of cells gives a place, or another value. -/
def valueAt {α : Type} (l : List (Nat × Nat × α)) (x n : Nat) (v : α) : α :=
  ((l.find? (fun c => c.1 == x && c.2.1 == n)).map (fun c => c.2.2)).getD v

theorem valueAt_cons {α : Type} (c : Nat × Nat × α) (l : List (Nat × Nat × α)) (x n : Nat) (v : α) :
    valueAt (c :: l) x n v = if c.1 = x ∧ c.2.1 = n then c.2.2 else valueAt l x n v := by
  unfold valueAt
  rw [List.find?_cons]
  by_cases h : c.1 = x ∧ c.2.1 = n
  · simp [h]
  · have hf : (c.1 == x && c.2.1 == n) = false := by simpa using h
    rw [hf, if_neg h]

/-- Slices written, the first of several values of one slice last. -/
def State.putNibs (s : State) (g : Nat) (cells : List (Nat × Nat × Nib)) : State :=
  cells.foldr (fun c t => t.setThread g c.1 ((t.thread g c.1).putNib c.2.1 c.2.2)) s

theorem State.putNibs_cons (s : State) (g : Nat) (c : Nat × Nat × Nib) (l : List (Nat × Nat × Nib)) : s.putNibs g (c :: l)
    = (s.putNibs g l).setThread g c.1 (((s.putNibs g l).thread g c.1).putNib c.2.1 c.2.2) := rfl

theorem State.threadStep_putNibs (s : State) (g : Nat) (cells : List (Nat × Nat × Nib)) : s.threadStep (s.putNibs g cells) g := by
  induction cells with
  | nil => exact State.threadStep.refl s g
  | cons c rest ih => exact ih.trans (State.threadStep_setThread _ g _ _)

/-- A slice holds the first value that is written to it, or what it held. -/
theorem State.putNibs_slice (s : State) (g : Nat) (cells : List (Nat × Nat × Nib)) (x n : Nat) :
    tabGet ((s.putNibs g cells).thread g x).slices 0 n = valueAt cells x n (tabGet (s.thread g x).slices 0 n) := by
  induction cells with
  | nil => rfl
  | cons c rest ih =>
    rw [State.putNibs_cons, State.setThread_thread, valueAt_cons, ← ih]
    by_cases hx : x = c.1
    · subst hx
      rw [if_pos ⟨rfl, rfl⟩, Thread.putNib, tabGet_tabPut]
      exact if_congr ⟨fun h => ⟨rfl, h.symm⟩, fun h => h.2.symm⟩ rfl rfl
    · rw [if_neg (fun e => hx e.2), if_neg (fun e => hx e.1.symm)]

theorem State.putNibs_preds (s : State) (g : Nat) (cells : List (Nat × Nat × Nib)) (x : Nat) :
    ((s.putNibs g cells).thread g x).preds = (s.thread g x).preds := by
  induction cells with
  | nil => rfl
  | cons c rest ih =>
    rw [State.putNibs_cons, State.setThread_thread, ← ih]
    split
    · rename_i h
      rw [h.2, Thread.putNib]
    · rfl

/-- Cells that name one value for a place give it. -/
theorem valuesOf_find {α : Type} {l : List (Nat × Nat × α)} {x n : Nat} {v : α} (h : valuesOf l x n v) :
    (l.find? (fun c => c.1 == x && c.2.1 == n)).map (fun c => c.2.2) = some v := by
  obtain ⟨hm, hu⟩ := h
  cases hf : l.find? (fun c => c.1 == x && c.2.1 == n) with
  | none => exact absurd (List.find?_eq_none.mp hf _ hm) (by simp)
  | some c =>
    obtain ⟨a, b, y⟩ := c
    have hp := List.find?_some hf
    simp only [Bool.and_eq_true, beq_iff_eq] at hp
    obtain ⟨rfl, rfl⟩ := hp
    rw [Option.map_some, hu y (List.mem_of_find?_eq_some hf)]

theorem valueAt_of_valuesOf {α : Type} {l : List (Nat × Nat × α)} {x n : Nat} {v : α} (h : valuesOf l x n v) (u : α) : valueAt l x n u = v := by
  rw [valueAt, valuesOf_find h, Option.getD_some]

/-! ### A result that arrives (R195, R198) -/

/-- Rows of poison that a result has written over. -/
def State.cleanRows (s : State) (g : Nat) (cells : List (Nat × Nat × Nib)) : State :=
  (s.group g).threads.foldl (fun t e =>
    if wholeRows cells e.1 e.2.poisonRows = [] then t
    else t.setThread g e.1 { t.thread g e.1 with
      poisonRows := e.2.poisonRows.filter (fun r => !(wholeRows cells e.1 e.2.poisonRows).contains r) }) s

theorem State.putCells_eq (s : State) (g : Nat) (cells : List (Nat × Nat × Nib)) : s.putCells g cells = (s.putNibs g cells).cleanRows g cells := rfl

/-- The slices and predicates of every thread are as they were. -/
def State.sameValues (s t : State) (g : Nat) : Prop :=
  ∀ x, (t.thread g x).slices = (s.thread g x).slices ∧ (t.thread g x).preds = (s.thread g x).preds

theorem State.cleanRows_step (s : State) (g : Nat) (cells : List (Nat × Nat × Nib)) :
    s.threadStep (s.cleanRows g cells) g ∧ s.sameValues (s.cleanRows g cells) g := by
  refine foldl_keeps (fun t => s.threadStep t g ∧ s.sameValues t g) _ _ s ⟨State.threadStep.refl s g, fun _ => ⟨rfl, rfl⟩⟩ ?_
  rintro t e ⟨hstep, hval⟩
  split
  · exact ⟨hstep, hval⟩
  · refine ⟨hstep.trans (t.threadStep_setThread g _ _), fun x => ?_⟩
    rw [State.setThread_thread]
    split
    · rename_i h
      rw [h.2]
      exact hval e.1
    · exact hval x

theorem State.putPrds_cons (s : State) (g : Nat) (c : Nat × Nat × Bool) (l : List (Nat × Nat × Bool)) : s.putPrds g (c :: l)
    = (s.putPrds g l).setThread g c.1 { (s.putPrds g l).thread g c.1 with preds := tabPut ((s.putPrds g l).thread g c.1).preds c.2.1 c.2.2 } := rfl

theorem State.threadStep_putPrds (s : State) (g : Nat) (prds : List (Nat × Nat × Bool)) : s.threadStep (s.putPrds g prds) g := by
  induction prds with
  | nil => exact State.threadStep.refl s g
  | cons c rest ih => exact ih.trans (State.threadStep_setThread _ g _ _)

theorem State.putPrds_slices (s : State) (g : Nat) (prds : List (Nat × Nat × Bool)) (x : Nat) :
    ((s.putPrds g prds).thread g x).slices = (s.thread g x).slices := by
  induction prds with
  | nil => rfl
  | cons c rest ih =>
    rw [State.putPrds_cons, State.setThread_thread, ← ih]
    split
    · rename_i h
      rw [h.2]
    · rfl

/-- A predicate holds the first value that is written to it, or what it held. -/
theorem State.putPrds_pred (s : State) (g : Nat) (prds : List (Nat × Nat × Bool)) (x n : Nat) :
    tabGet ((s.putPrds g prds).thread g x).preds false n = valueAt prds x n (tabGet (s.thread g x).preds false n) := by
  induction prds with
  | nil => rfl
  | cons c rest ih =>
    rw [State.putPrds_cons, State.setThread_thread, valueAt_cons, ← ih]
    by_cases hx : x = c.1
    · subst hx
      rw [if_pos ⟨rfl, rfl⟩, tabGet_tabPut]
      exact if_congr ⟨fun h => ⟨rfl, h.symm⟩, fun h => h.2.symm⟩ rfl rfl
    · rw [if_neg (fun e => hx e.2), if_neg (fun e => hx e.1.symm)]

/-- The threads of a group once a result has been written. -/
def State.putResult (s : State) (g : Nat) (r : LongRes) : State := (s.putCells g r.cells).putPrds g r.prds

theorem State.threadStep_putResult (s : State) (g : Nat) (r : LongRes) : s.threadStep (s.putResult g r) g :=
  ((s.threadStep_putNibs g r.cells).trans ((s.putNibs g r.cells).cleanRows_step g r.cells).1).trans (State.threadStep_putPrds _ g r.prds)

theorem State.putResult_slice (s : State) (g : Nat) (r : LongRes) (x n : Nat) :
    tabGet ((s.putResult g r).thread g x).slices 0 n = valueAt r.cells x n (tabGet (s.thread g x).slices 0 n) := by
  rw [State.putResult, State.putPrds_slices, State.putCells_eq, (((s.putNibs g r.cells).cleanRows_step g r.cells).2 x).1, State.putNibs_slice]

theorem State.putResult_pred (s : State) (g : Nat) (r : LongRes) (x n : Nat) :
    tabGet ((s.putResult g r).thread g x).preds false n = valueAt r.prds x n (tabGet (s.thread g x).preds false n) := by
  rw [State.putResult, State.putPrds_pred, State.putCells_eq, (((s.putNibs g r.cells).cleanRows_step g r.cells).2 x).2, State.putNibs_preds]

/-- Cells of a list that another list does not name: none for a place that it names, all for another. -/
theorem find_unclaimed {α β : Type} (l : List (Nat × Nat × α)) (r : List (Nat × Nat × β)) (x n : Nat) :
    (l.filter (fun c => !r.any (fun d => d.1 == c.1 && d.2.1 == c.2.1))).find? (fun c => c.1 == x && c.2.1 == n)
      = if (r.find? (fun c => c.1 == x && c.2.1 == n)).isSome then none else l.find? (fun c => c.1 == x && c.2.1 == n) := by
  have hr : (r.find? (fun c => c.1 == x && c.2.1 == n)).isSome = true ↔ _ := List.find?_isSome
  rw [List.find?_filter]
  by_cases h : (r.find? (fun c => c.1 == x && c.2.1 == n)).isSome = true
  · obtain ⟨d, hd, hp⟩ := hr.mp h
    rw [if_pos h, List.find?_eq_none]
    intro c _ hc
    simp only [Bool.and_eq_true, Bool.not_eq_true', List.any_eq_false, beq_iff_eq, decide_eq_true_eq] at hc hp
    exact hc.1 d hd ⟨hp.1.trans hc.2.1.symm, hp.2.trans hc.2.2.symm⟩
  · rw [if_neg h]
    congr 1
    funext c
    by_cases hc : c.1 = x ∧ c.2.1 = n
    · obtain ⟨rfl, rfl⟩ := hc
      have hn : r.any (fun d => d.1 == c.1 && d.2.1 == c.2.1) = false := by
        rw [List.any_eq_false]
        exact fun d hd hp => h (hr.mpr ⟨d, hd, hp⟩)
      simp [hn]
    · have hf : (c.1 == x && c.2.1 == n) = false := by simpa using hc
      simp [hf]

theorem pendingCells_claimBy (ps : List LongRes) (r : LongRes) (x n : Nat) : pendingCells (claimBy ps r) x n
    = if (r.cells.find? (fun c => c.1 == x && c.2.1 == n)).isSome then [] else pendingCells ps x n := by
  induction ps with
  | nil => simp [claimBy, pendingCells]
  | cons p rest ih =>
    rw [claimBy, List.map_cons, pendingCells, find_unclaimed]
    rw [claimBy] at ih
    by_cases h : (r.cells.find? (fun c => c.1 == x && c.2.1 == n)).isSome = true
    · simp only [if_pos h] at ih ⊢
      exact ih
    · simp only [if_neg h] at ih ⊢
      rw [ih, pendingCells]

theorem pendingPrds_claimBy (ps : List LongRes) (r : LongRes) (x n : Nat) : pendingPrds (claimBy ps r) x n
    = if (r.prds.find? (fun c => c.1 == x && c.2.1 == n)).isSome then [] else pendingPrds ps x n := by
  induction ps with
  | nil => simp [claimBy, pendingPrds]
  | cons p rest ih =>
    rw [claimBy, List.map_cons, pendingPrds, find_unclaimed]
    rw [claimBy] at ih
    by_cases h : (r.prds.find? (fun c => c.1 == x && c.2.1 == n)).isSome = true
    · simp only [if_pos h] at ih ⊢
      exact ih
    · simp only [if_neg h] at ih ⊢
      rw [ih, pendingPrds]

theorem pendingCells_join (ps qs : List LongRes) (x n : Nat) : pendingCells (ps ++ qs) x n = pendingCells ps x n ++ pendingCells qs x n := by
  induction ps with
  | nil => rfl
  | cons p rest ih =>
    rw [List.cons_append, pendingCells, pendingCells, ih]
    split <;> rfl

theorem pendingPrds_join (ps qs : List LongRes) (x n : Nat) : pendingPrds (ps ++ qs) x n = pendingPrds ps x n ++ pendingPrds qs x n := by
  induction ps with
  | nil => rfl
  | cons p rest ih =>
    rw [List.cons_append, pendingPrds, pendingPrds, ih]
    split <;> rfl

theorem eq_split_of_getElem? {α : Type} {l : List α} {i : Nat} {r : α} (h : l[i]? = some r) : l = l.take i ++ r :: l.drop (i + 1) := by
  obtain ⟨hi, hr⟩ := List.getElem?_eq_some_iff.mp h
  rw [← hr, List.getElem_cons_drop, List.take_append_drop]

/-- The results that stay outstanding when result i has arrived. -/
def pendLeft (ps : List LongRes) (i : Nat) (r : LongRes) : List LongRes := claimBy (ps.take i) r ++ ps.drop (i + 1)

/-- The latest value in program order, with a result in the list or in the threads (R195). -/
theorem latest_arrived {α : Type} (a b : List α) (x : Option (Nat × Nat × α)) (v : α) :
    ((if x.isSome then [] else a) ++ b).getLast?.getD ((x.map (fun c => c.2.2)).getD v)
      = (a ++ (match x with | none => b | some c => c.2.2 :: b)).getLast?.getD v := by
  cases x with
  | none => rfl
  | some y => cases b <;> simp [List.getLast?_cons]

theorem pendLeft_cells {ps : List LongRes} {i : Nat} {r : LongRes} (h : ps[i]? = some r) (x n : Nat) (v : Nib) :
    (pendingCells (pendLeft ps i r) x n).getLast?.getD (valueAt r.cells x n v) = (pendingCells ps x n).getLast?.getD v := by
  rw [pendLeft, pendingCells_join, pendingCells_claimBy, valueAt, latest_arrived, congrArg (fun l => pendingCells l x n) (eq_split_of_getElem? h),
    pendingCells_join, pendingCells]
  cases r.cells.find? (fun c => c.1 == x && c.2.1 == n) <;> rfl

theorem pendLeft_prds {ps : List LongRes} {i : Nat} {r : LongRes} (h : ps[i]? = some r) (x n : Nat) (v : Bool) :
    (pendingPrds (pendLeft ps i r) x n).getLast?.getD (valueAt r.prds x n v) = (pendingPrds ps x n).getLast?.getD v := by
  rw [pendLeft, pendingPrds_join, pendingPrds_claimBy, valueAt, latest_arrived, congrArg (fun l => pendingPrds l x n) (eq_split_of_getElem? h),
    pendingPrds_join, pendingPrds]
  cases r.prds.find? (fun c => c.1 == x && c.2.1 == n) <;> rfl

theorem pendLeft_length {ps : List LongRes} {i : Nat} {r : LongRes} (h : ps[i]? = some r) : (pendLeft ps i r).length + 1 = ps.length := by
  obtain ⟨hi, -⟩ := List.getElem?_eq_some_iff.mp h
  simp only [pendLeft, claimBy, List.length_append, List.length_map, List.length_take, List.length_drop]
  omega

theorem State.endMarker_frame (s : State) (w : Nat) : s.endMarker w = { s with waves := (s.endMarker w).waves }
    ∧ (∀ x, x ≠ w → (s.endMarker w).wave x = s.wave x)
    ∧ (s.endMarker w).wave w = { s.wave w with park := ((s.endMarker w).wave w).park, readyAt := ((s.endMarker w).wave w).readyAt } := by
  unfold State.endMarker
  split
  · split
    · refine ⟨rfl, fun x hx => ?_, ?_⟩
      · rw [State.unpark, State.setWave_wave, if_neg hx]
      · rw [State.unpark, State.setWave_wave_same]
    · exact ⟨rfl, fun _ _ => rfl, rfl⟩
  · exact ⟨rfl, fun _ _ => rfl, rfl⟩

/-- The state once result i of a wave has arrived. -/
def State.arrived (s : State) (w i : Nat) (r : LongRes) : State :=
  (s.putResult (groupOf w) r).setWave w { (s.putResult (groupOf w) r).wave w with pend := pendLeft (s.wave w).pend i r }

theorem execLongResultWrite_eq {s : State} {w i : Nat} {r : LongRes} (h : (s.wave w).pend[i]? = some r) :
    exec (.longResultWrite w i) s = .next (((s.arrived w i r).endMarker w).retestQuota (groupOf w)).bumpFree := by
  show execLongResultWrite w i s = _
  unfold execLongResultWrite
  dsimp only
  rw [h]
  rfl

theorem longResult_gives {s : State} {w i : Nat} {r : LongRes} (h : (s.wave w).pend[i]? = some r) :
    Answer.gives (exec (.longResultWrite w i) s) (fun t =>
      t = { s with waves := t.waves, groups := t.groups, free := t.free } ∧ (∀ g, g ≠ groupOf w → t.group g = s.group g)
      ∧ s.sameGroupRegs t (groupOf w) ∧ (∀ x, x ≠ w → t.wave x = { s.wave x with park := (t.wave x).park, readyAt := (t.wave x).readyAt })
      ∧ t.wave w = { s.wave w with pend := (t.wave w).pend, park := (t.wave w).park, readyAt := (t.wave w).readyAt }
      ∧ (t.wave w).pend.length + 1 = (s.wave w).pend.length
      ∧ (∀ x n, t.progNib w x n = s.progNib w x n) ∧ (∀ x p, t.progPrd w x p = s.progPrd w x p)
      ∧ (∀ x n v, valuesOf r.cells x n v → tabGet (t.thread (groupOf w) x).slices 0 n = v)
      ∧ (∀ x n v, valuesOf r.prds x n v → tabGet (t.thread (groupOf w) x).preds false n = v)) := by
  refine ⟨_, execLongResultWrite_eq h, ?_⟩
  have hput := s.threadStep_putResult (groupOf w) r
  have hputw : ∀ x, (s.putResult (groupOf w) r).wave x = s.wave x := fun x => by rw [hput.machine]; rfl
  obtain ⟨hm, hmo, hmw⟩ := (s.arrived w i r).endMarker_frame w
  set u := (s.arrived w i r).endMarker w
  set t := (u.retestQuota (groupOf w)).bumpFree
  have hwave : ∀ x, t.wave x = { u.wave x with park := (t.wave x).park, readyAt := (t.wave x).readyAt } := fun x =>
    u.retestQuota_wave_frame (groupOf w) x
  have hgroups : t.groups = (s.putResult (groupOf w) r).groups := (congrArg State.groups hm).trans rfl
  have hthread : ∀ x, t.thread (groupOf w) x = (s.putResult (groupOf w) r).thread (groupOf w) x := fun x => by
    unfold State.thread State.group
    rw [hgroups]
  have hpend : (t.wave w).pend = pendLeft (s.wave w).pend i r := by
    rw [hwave, hmw, State.arrived, State.setWave_wave_same]
  refine ⟨?_, fun g hg => ?_, ?_, fun x hx => ?_, ?_, ?_, fun x n => ?_, fun x p => ?_, fun x n v hv => ?_, fun x n v hv => ?_⟩
  · show ({ u with waves := t.waves, free := t.free } : State) = _
    rw [hm]
    show ({ s.putResult (groupOf w) r with waves := t.waves, free := t.free } : State) = _
    rw [hgroups, hput.machine]
  · exact (congrArg (fun l => tabGet l _ g) hgroups).trans (hput.other g hg)
  · have hr := hput.regs
    unfold State.sameGroupRegs at *
    unfold State.group at *
    rw [hgroups]
    exact hr
  · rw [hwave, hmo x hx, State.arrived, State.setWave_wave, if_neg hx, hputw]
  · rw [hwave, hmw, State.arrived, State.setWave_wave_same, hputw]
  · rw [hpend]
    exact pendLeft_length h
  · rw [State.progNib, hpend, hthread, State.putResult_slice]
    exact pendLeft_cells h x n _
  · rw [State.progPrd, State.progPrd, hpend, hthread, State.putResult_pred]
    rw [pendLeft_prds h]
  · rw [hthread, State.putResult_slice, valueAt_of_valuesOf hv]
  · rw [hthread, State.putResult_pred, valueAt_of_valuesOf hv]

/-! ### Waits that end (R111, R113, R290) -/

theorem State.onlyWave_setWave (s : State) (w : Nat) (v : Wave) : s.onlyWave (s.setWave w v) w :=
  ⟨rfl, fun x hx => by rw [State.setWave_wave, if_neg hx], fun _ => rfl⟩

theorem releaseWaitEnd_unparks {s : State} {w sc : Nat} (hp : (s.wave w).park = .release sc) (hs : s.isSaved (crewOf w) = false)
    (hg : (s.wave w).relGate = none) (hd : s.releaseDone w sc = true) : Answer.gives (exec (.releaseWaitEnd w) s) (fun t =>
      s.onlyWave t w ∧ t.wave w = { s.wave w with park := .run, readyAt := s.coreCycles (s.waveCore w) }) := by
  have he : exec (.releaseWaitEnd w) s = .next (s.unpark w) := by
    show execReleaseWaitEnd w s = _
    simp [execReleaseWaitEnd, hs, hg, hp, hd]
  exact ⟨_, he, s.onlyWave_setWave w _, s.setWave_wave_same w _⟩

theorem releaseWaitEnd_opens {s : State} {w sc : Nat} (hp : (s.wave w).park = .run) (hs : s.isSaved (crewOf w) = false)
    (hg : (s.wave w).relGate = some sc) (hd : s.releaseDone w sc = true) : Answer.gives (exec (.releaseWaitEnd w) s) (fun t =>
      s.onlyWave t w ∧ t.wave w = { s.wave w with relGate := none }) := by
  have he : exec (.releaseWaitEnd w) s = .next (s.setWave w { s.wave w with relGate := none }) := by
    show execReleaseWaitEnd w s = _
    simp [execReleaseWaitEnd, hs, hg, hp, hd]
  exact ⟨_, he, s.onlyWave_setWave w _, s.setWave_wave_same w _⟩

theorem iinvComplete_gives {s : State} {w n : Nat} {mark : Bool} (hp : (s.wave w).park = .iinv n mark) (hs : s.isSaved (crewOf w) = false) :
    Answer.gives (exec (.iinvComplete w) s) (fun t => s.onlyWave t w ∧ t.wave w = { s.wave w with
      park := if mark = true ∧ (s.wave w).pend ≠ [] then .marker else .run, readyAt := s.coreCycles (s.waveCore w) }) := by
  have he : exec (.iinvComplete w) s = .next (s.passMark w mark) := by
    show execIinvComplete w s = _
    simp [execIinvComplete, hs, hp]
  exact ⟨_, he, s.onlyWave_setWave w _, s.setWave_wave_same w _⟩

/-! ### The end of speculation (R117) -/

/-- Buffered stores of a wave leave: its writes in flight, and the lines of its core's data cache. -/
structure State.storesLeave (s t : State) (w : Nat) (cells : List (List (Nat × Byte × Byte))) : Prop where
  machine : t = { s with waves := t.waves, cores := t.cores, free := t.free }
  other : ∀ x, x ≠ w → t.wave x = s.wave x
  wave : t.wave w = { s.wave w with out := (t.wave w).out }
  out : (t.wave w).out.map (fun x => x.cells) = (s.wave w).out.map (fun x => x.cells) ++ cells
  cores : ∀ c, t.core c = { s.core c with l1d := (t.core c).l1d }

theorem State.storesLeave.refl (s : State) (w : Nat) : s.storesLeave s w [] := ⟨rfl, fun _ _ => rfl, rfl, (List.append_nil _).symm, fun _ => rfl⟩

theorem State.storesLeave.trans {s t u : State} {w : Nat} {c d : List (List (Nat × Byte × Byte))} (h : s.storesLeave t w c) (k : t.storesLeave u w d) :
    s.storesLeave u w (c ++ d) where
  machine := by rw [k.machine, h.machine]
  other x hx := (k.other x hx).trans (h.other x hx)
  wave := by rw [k.wave, h.wave]
  out := by rw [k.out, h.out, List.append_assoc]
  cores x := by rw [k.cores x, h.cores x]

theorem State.storesLeave_sendStores (s : State) (w : Nat) (ps : List PWrite) :
    s.storesLeave (s.sendStores w ps).bumpFree w (ps.map (fun p => p.cells)) := by
  have hw : ∀ x, (s.dropL1 (s.waveCore w) (ps.flatMap (fun p => p.cells))).wave x = s.wave x := fun _ => rfl
  have hown : (s.sendStores w ps).bumpFree.wave w = { s.wave w with out := (s.wave w).out ++ ps.map (fun p => { p with ser := s.free }) } :=
    State.setWave_wave_same ..
  refine ⟨rfl, fun x hx => ?_, ?_, ?_, fun c => ?_⟩
  · exact (State.setWave_wave _ w _ x).trans (if_neg hx)
  · rw [hown]
  · rw [hown, List.map_append, List.map_map]
    rfl
  · have hc : (s.sendStores w ps).bumpFree.core c = (s.dropL1 (s.waveCore w) (ps.flatMap (fun p => p.cells))).core c := rfl
    rw [hc, State.dropL1, State.setCore_core]
    split
    · rename_i hc; rw [hc]
    · rfl

theorem State.storesLeave_foldl (l : List (List PWrite)) (s : State) (w : Nat) :
    s.storesLeave (l.foldl (fun t ps => (t.sendStores w ps).bumpFree) s) w (l.flatten.map (fun p => p.cells)) := by
  induction l generalizing s with
  | nil => exact State.storesLeave.refl s w
  | cons ps rest ih =>
    rw [List.flatten_cons, List.map_append]
    exact (s.storesLeave_sendStores w ps).trans (ih _)

theorem State.storesLeave.coreCycles {s t : State} {w : Nat} {c : List (List (Nat × Byte × Byte))} (h : s.storesLeave t w c) :
    t.coreCycles (t.waveCore w) = s.coreCycles (s.waveCore w) := by
  unfold State.coreCycles
  rw [h.cores]
  rw [h.machine]
  rfl

/-- A wave whose fence has completed. -/
def State.unspeculated (s : State) (w : Nat) : State :=
  let t := (s.setWave w { s.wave w with spec := none }).orderRegs w
  if (s.wave w).park = .spec then t.unpark w else t

theorem State.unspeculated_frame (s : State) (w : Nat) : s.unspeculated w = { s with waves := (s.unspeculated w).waves }
    ∧ (∀ x, x ≠ w → (s.unspeculated w).wave x = s.wave x)
    ∧ (s.unspeculated w).wave w = { s.wave w with
        spec := none, park := if (s.wave w).park = .spec then .run else (s.wave w).park
        know := joinKnow (s.wave w).know (s.group (groupOf w)).hist.released
        readyAt := if (s.wave w).park = .spec then s.coreCycles (s.waveCore w) else (s.wave w).readyAt } := by
  have hk : ((s.setWave w { s.wave w with spec := none }).orderRegs w).wave w
      = { s.wave w with spec := none, know := joinKnow (s.wave w).know (s.group (groupOf w)).hist.released } := by
    rw [State.orderRegs, State.setWave_wave_same, State.setWave_wave_same]
    rfl
  have ho : ∀ x, x ≠ w → ((s.setWave w { s.wave w with spec := none }).orderRegs w).wave x = s.wave x := fun x hx => by
    rw [State.orderRegs, State.setWave_wave, if_neg hx, State.setWave_wave, if_neg hx]
  unfold State.unspeculated
  dsimp only
  by_cases hp : (s.wave w).park = .spec
  · simp only [if_pos hp]
    refine ⟨rfl, fun x hx => ?_, ?_⟩
    · rw [State.unpark, State.setWave_wave, if_neg hx, ho x hx]
    · rw [State.unpark, State.setWave_wave_same, hk]
      rfl
  · simp only [if_neg hp]
    exact ⟨rfl, ho, hk⟩

theorem State.gateOpen_of {s : State} {w : Nat} (h : ∀ sc, (s.wave w).relGate = some sc → s.releaseDone w sc = true) : s.gateOpen w = true := by
  unfold State.gateOpen
  split
  · rfl
  · rename_i sc hsc
    exact h sc hsc

theorem execSpecFenceComplete_eq {s : State} {w : Nat} {p : Spec} (hp : (s.wave w).spec = some p) (hs : s.isSaved (crewOf w) = false)
    (hc : p.conflict = false) (hd : s.releaseDone w p.scope = true) (hg : s.gateOpen w = true) : exec (.specFenceComplete w) s
      = .next ((p.stores.foldl (fun t ps => (t.sendStores w ps).bumpFree) s).unspeculated w) := by
  show execSpecFenceComplete w s = _
  unfold execSpecFenceComplete
  rw [hp]
  exact if_neg (by simp [hc, hd, hg, hs])

theorem specFenceComplete_gives {s : State} {w : Nat} {p : Spec} (hp : (s.wave w).spec = some p) (hs : s.isSaved (crewOf w) = false)
    (hc : p.conflict = false) (hd : s.releaseDone w p.scope = true)
    (hg : ∀ sc, (s.wave w).relGate = some sc → s.releaseDone w sc = true) : Answer.gives (exec (.specFenceComplete w) s) (fun t =>
        t = { s with waves := t.waves, cores := t.cores, free := t.free } ∧ (∀ x, x ≠ w → t.wave x = s.wave x)
        ∧ t.wave w = { s.wave w with
            spec := none, park := if (s.wave w).park = .spec then .run else (s.wave w).park, out := (t.wave w).out
            know := joinKnow (s.wave w).know (s.group (groupOf w)).hist.released
            readyAt := if (s.wave w).park = .spec then s.coreCycles (s.waveCore w) else (s.wave w).readyAt }
        ∧ (t.wave w).out.map (fun x => x.cells) = (s.wave w).out.map (fun x => x.cells) ++ p.stores.flatten.map (fun x => x.cells)
        ∧ ∀ a, t.store.byte a = s.store.byte a) := by
  refine ⟨_, execSpecFenceComplete_eq hp hs hc hd (State.gateOpen_of hg), ?_⟩
  have hl := State.storesLeave_foldl p.stores s w
  set u := p.stores.foldl (fun t ps => (t.sendStores w ps).bumpFree) s
  obtain ⟨hm, ho, hw⟩ := u.unspeculated_frame w
  have hgroup : u.group (groupOf w) = s.group (groupOf w) := by rw [hl.machine]; rfl
  refine ⟨?_, fun x hx => (ho x hx).trans (hl.other x hx), ?_, ?_, fun a => ?_⟩
  · have hcores : (u.unspeculated w).cores = u.cores := by rw [hm]
    have hfree : (u.unspeculated w).free = u.free := by rw [hm]
    rw [hcores, hfree]
    exact hm.trans (congrArg (fun x : State => { x with waves := (u.unspeculated w).waves }) hl.machine)
  · rw [hw, hl.wave, hl.coreCycles, hgroup]
  · rw [hw]
    exact hl.out
  · rw [hm]
    show u.store.byte a = _
    rw [hl.machine]
    rfl

/-! ### The rollback of a speculative wave (R118, R119) -/

theorem State.restoreUndo_eq_putNibs (s : State) (g : Nat) (u : List (Nat × Nat × Nib)) : s.restoreUndo g u = s.putNibs g u.reverse :=
  List.foldl_eq_foldr_reverse ..

theorem valuesOf_reverse {α : Type} {l : List (Nat × Nat × α)} {x n : Nat} {v : α} (h : valuesOf l x n v) : valuesOf l.reverse x n v :=
  ⟨List.mem_reverse.mpr h.1, fun u hu => h.2 u (List.mem_reverse.mp hu)⟩

theorem valueAt_of_unnamed {α : Type} {l : List (Nat × Nat × α)} {x n : Nat} (h : ∀ v, (x, n, v) ∉ l) (u : α) : valueAt l x n u = u := by
  have hf : l.find? (fun c => c.1 == x && c.2.1 == n) = none := by
    rw [List.find?_eq_none]
    rintro ⟨a, b, v⟩ hm hp
    simp only [Bool.and_eq_true, beq_iff_eq] at hp
    obtain ⟨rfl, rfl⟩ := hp
    exact h v hm
  rw [valueAt, hf]
  rfl

theorem State.restorePreds_cons (s : State) (g : Nat) (e : Nat × Tab Bool) (ck : Tab (Tab Bool)) :
    s.restorePreds g (e :: ck) = (s.setThread g e.1 { s.thread g e.1 with preds := e.2 }).restorePreds g ck := rfl

theorem State.restorePreds_step (s : State) (g : Nat) (ck : Tab (Tab Bool)) : s.threadStep (s.restorePreds g ck) g :=
  State.threadStep_foldl (fun t _ => t.threadStep_setThread g _ _) _ _

theorem State.restorePreds_slices (ck : Tab (Tab Bool)) (s : State) (g x : Nat) :
    ((s.restorePreds g ck).thread g x).slices = (s.thread g x).slices := by
  induction ck generalizing s with
  | nil => rfl
  | cons e rest ih =>
    rw [State.restorePreds_cons, ih, State.setThread_thread]
    split
    · rename_i h; rw [h.2]
    · rfl

/-- A thread whose predicates the checkpoint holds has them again. -/
theorem State.restorePreds_preds (ck : Tab (Tab Bool)) (s : State) {g x : Nat} {ps : Tab Bool} (hu : ∀ qs, (x, qs) ∈ ck → qs = ps)
    (h : (x, ps) ∈ ck ∨ (s.thread g x).preds = ps) : ((s.restorePreds g ck).thread g x).preds = ps := by
  induction ck generalizing s with
  | nil => exact h.resolve_left (by simp)
  | cons e rest ih =>
    refine ih _ (fun qs hq => hu qs (List.mem_cons_of_mem _ hq)) ?_
    rw [State.setThread_thread]
    by_cases hx : x = e.1
    · rw [if_pos ⟨rfl, hx⟩]
      exact .inr (hu e.2 (by rw [hx]; exact List.mem_cons_self ..))
    · rw [if_neg (fun k => hx k.2)]
      exact h.imp (fun hm => (List.mem_cons.mp hm).resolve_left fun k => hx (congrArg Prod.fst k)) id

/-- The threads of a group as a rollback leaves them. -/
def State.undone (s : State) (g : Nat) (p : Spec) : State := (s.restoreUndo g p.undo).restorePreds g p.ckPreds

theorem State.threadStep_undone (s : State) (g : Nat) (p : Spec) : s.threadStep (s.undone g p) g := by
  rw [State.undone, State.restoreUndo_eq_putNibs]
  exact (s.threadStep_putNibs g _).trans (State.restorePreds_step _ g _)

theorem State.undone_slice (s : State) (g : Nat) (p : Spec) (x n : Nat) :
    tabGet ((s.undone g p).thread g x).slices 0 n = valueAt p.undo.reverse x n (tabGet (s.thread g x).slices 0 n) := by
  rw [State.undone, State.restorePreds_slices, State.restoreUndo_eq_putNibs, State.putNibs_slice]

theorem execSpecConflictRollback_eq {s : State} {w : Nat} {p : Spec} (hp : (s.wave w).spec = some p) (hs : s.isSaved (crewOf w) = false)
    (hc : p.conflict = true) : exec (.specConflictRollback w) s = .next ((((s.undone (groupOf w) p).setWave w
      (((s.undone (groupOf w) p).wave w).rolledBack p (p.rollbacks + 1) (s.coreCycles (s.waveCore w)))).retestQuota (groupOf w)).bumpFree) := by
  show execSpecConflictRollback w s = _
  unfold execSpecConflictRollback
  rw [hp]
  dsimp only
  rw [if_pos (by simp [hc, hs]), State.rollback, hp]
  rfl

theorem Wave.rolledBack_requota (v : Wave) (p : Spec) (n now then_ : Nat) : (v.rolledBack p n now).requota then_ = v.rolledBack p n now := by
  refine if_neg ?_
  unfold Wave.rolledBack
  dsimp only
  split <;> simp

theorem specConflictRollback_gives {s : State} {w : Nat} {p : Spec} (hp : (s.wave w).spec = some p) (hs : s.isSaved (crewOf w) = false)
    (hc : p.conflict = true) : Answer.gives (exec (.specConflictRollback w) s) (fun t =>
      t = { s with waves := t.waves, groups := t.groups, free := t.free } ∧ (∀ g, g ≠ groupOf w → t.group g = s.group g)
      ∧ (∀ x, x ≠ w → t.wave x = if groupOf x = groupOf w ∧ (s.wave x).park = .quota then
          { s.wave x with park := .run, readyAt := s.coreCycles (s.waveCore x) } else s.wave x)
      ∧ s.sameGroupRegs t (groupOf w)
      ∧ t.wave w = { s.wave w with
          cc := p.ckCc, lc := p.ckLc, pend := [], retry := none, held := none, seg := p.seg, word := p.word
          readyAt := s.coreCycles (s.waveCore w)
          park := if 3 ≤ p.rollbacks then .spec else .run
          spec := some { p with undo := [], watches := [], stores := [], conflict := false, rollbacks := p.rollbacks + 1 } }
      ∧ (∀ x n v, valuesOf p.undo x n v → tabGet (t.thread (groupOf w) x).slices 0 n = v)
      ∧ (∀ x n, (∀ v, (x, n, v) ∉ p.undo) →
        tabGet (t.thread (groupOf w) x).slices 0 n = tabGet (s.thread (groupOf w) x).slices 0 n)
      ∧ (∀ x ps, (x, ps) ∈ p.ckPreds → (∀ qs, (x, qs) ∈ p.ckPreds → qs = ps) → (t.thread (groupOf w) x).preds = ps)) := by
  refine ⟨_, execSpecConflictRollback_eq hp hs hc, ?_⟩
  have hu := s.threadStep_undone (groupOf w) p
  have hwave : ∀ x, (s.undone (groupOf w) p).wave x = s.wave x := fun x => by rw [hu.machine]; rfl
  set u := s.undone (groupOf w) p with hudef
  set r := u.setWave w ((u.wave w).rolledBack p (p.rollbacks + 1) (s.coreCycles (s.waveCore w))) with hrdef
  have hcyc : ∀ c, r.coreCycles c = s.coreCycles c := fun c => by
    show u.coreCycles c = _
    rw [hu.machine]
    rfl
  have hcore : ∀ x, r.waveCore x = s.waveCore x := fun x => by
    show u.waveCore x = _
    rw [hu.machine]
    rfl
  have hrw : r.wave w = (s.wave w).rolledBack p (p.rollbacks + 1) (s.coreCycles (s.waveCore w)) := by
    rw [hrdef, State.setWave_wave_same, hwave]
  have hrx : ∀ x, x ≠ w → r.wave x = s.wave x := fun x hx => by rw [hrdef, State.setWave_wave, if_neg hx, hwave]
  have hown : (r.retestQuota (groupOf w)).wave w = (s.wave w).rolledBack p (p.rollbacks + 1) (s.coreCycles (s.waveCore w)) := by
    rw [State.retestQuota_wave, if_pos rfl, hrw, Wave.rolledBack_requota]
  have hother : ∀ x, x ≠ w → (r.retestQuota (groupOf w)).wave x = if groupOf x = groupOf w ∧ (s.wave x).park = .quota then
      { s.wave x with park := .run, readyAt := s.coreCycles (s.waveCore x) } else s.wave x := fun x hx => by
    rw [State.retestQuota_wave, hrx x hx, hcyc, hcore, Wave.requota]
    by_cases h1 : groupOf x = groupOf w
    · by_cases h2 : (s.wave x).park = .quota
      · rw [if_pos h1, if_pos h2, if_pos ⟨h1, h2⟩]
      · rw [if_pos h1, if_neg h2, if_neg fun k => h2 k.2]
    · rw [if_neg h1, if_neg fun k => h1 k.1]
  refine ⟨?_, hu.other, hother, hu.regs, ?_, fun x n v hv => ?_, fun x n hn => ?_, fun x ps hm hq => ?_⟩
  · exact congrArg (fun x : State => { x with waves := (r.retestQuota (groupOf w)).waves, free := r.free + 1 }) hu.machine
  · refine hown.trans ?_
    simp only [Wave.rolledBack, show 4 ≤ p.rollbacks + 1 ↔ 3 ≤ p.rollbacks by omega]
  · exact (s.undone_slice (groupOf w) p x n).trans (valueAt_of_valuesOf (valuesOf_reverse hv) _)
  · exact (s.undone_slice (groupOf w) p x n).trans (valueAt_of_unnamed (fun v hv => hn v (List.mem_reverse.mp hv)) _)
  · exact State.restorePreds_preds p.ckPreds _ hq (.inl hm)

/-! ### What a fetch leaves (R35 to R41, R47, R164) -/

/-- What the fetch of a word leaves of time, launches, crews, waves and clocks. -/
structure State.fetched (s t : State) : Prop where
  dt : t.dt = s.dt
  launches : t.launches = s.launches
  crews : ∀ c, t.crew c = { s.crew c with gridHeld := (t.crew c).gridHeld }
  waves : ∀ x, t.wave x = { s.wave x with park := (t.wave x).park, spec := (t.wave x).spec }
  run : ∀ x, (s.wave x).park = .run → (t.wave x).park = .run
  cores : ∀ c, (t.core c).lostCycles = (s.core c).lostCycles ∧ (t.core c).savedAt = (s.core c).savedAt ∧ (t.core c).swap = (s.core c).swap
  clocks : ∀ k, (t.cluster k).clock = (s.cluster k).clock

theorem State.fetched.refl (s : State) : s.fetched s := ⟨rfl, rfl, fun _ => rfl, fun _ => rfl, fun _ h => h, fun _ => ⟨rfl, rfl, rfl⟩, fun _ => rfl⟩

theorem State.fetched.trans {s t u : State} (h : s.fetched t) (k : t.fetched u) : s.fetched u where
  dt := k.dt.trans h.dt
  launches := k.launches.trans h.launches
  crews c := by rw [k.crews c, h.crews c]
  waves x := by rw [k.waves x, h.waves x]
  run x hx := k.run x (h.run x hx)
  cores c :=
    have a := k.cores c
    have b := h.cores c
    ⟨a.1.trans b.1, a.2.1.trans b.2.1, a.2.2.trans b.2.2⟩
  clocks c := (k.clocks c).trans (h.clocks c)

theorem State.fetched_foldl {α : Type} {f : State → α → State} (h : ∀ (s : State) a, s.fetched (f s a)) (l : List α) (s : State) :
    s.fetched (l.foldl f s) := foldl_keeps (fun t => s.fetched t) f l s (State.fetched.refl s) fun x a hx => hx.trans (h x a)

theorem State.homeStep.fetched {s t : State} (h : s.homeStep t) : s.fetched t where
  dt := by rw [h.machine]
  launches := by rw [h.machine]
  crews := h.crews
  waves := h.waves
  run := h.run
  cores c := by rw [h.machine]; exact ⟨rfl, rfl, rfl⟩
  clocks k := by rw [h.clusters k]

theorem State.asked.fetched {s t : State} (h : s.asked t) : s.fetched t where
  dt := by rw [h.machine]
  launches := by rw [h.machine]
  crews c := by rw [h.machine]; rfl
  waves x := by rw [h.machine]; rfl
  run x hx := by rw [h.machine]; exact hx
  cores c := by rw [h.cores c]; exact ⟨rfl, rfl, rfl⟩
  clocks k := by rw [h.clusters k]

theorem State.fetched_setMem (s : State) (ms : MemSys) : s.fetched { s with mem := ms } :=
  ⟨rfl, rfl, fun _ => rfl, fun _ => rfl, fun _ h => h, fun _ => ⟨rfl, rfl, rfl⟩, fun _ => rfl⟩

theorem State.fetched_setCore (s : State) (c : Nat) (v : CoreSt) (h : v.lostCycles = (s.core c).lostCycles ∧ v.savedAt = (s.core c).savedAt
    ∧ v.swap = (s.core c).swap) : s.fetched (s.setCore c v) where
  dt := rfl
  launches := rfl
  crews _ := rfl
  waves _ := rfl
  run _ h := h
  cores x := by
    rw [State.setCore_core]
    split
    · rename_i hx; rw [hx]; exact h
    · exact ⟨rfl, rfl, rfl⟩
  clocks _ := rfl

theorem State.fetched_setCluster (s : State) (k : Nat) (v : ClusterSt) (h : v.clock = (s.cluster k).clock) : s.fetched (s.setCluster k v) where
  dt := rfl
  launches := rfl
  crews _ := rfl
  waves _ := rfl
  run _ h := h
  cores _ := ⟨rfl, rfl, rfl⟩
  clocks x := by
    rw [State.setCluster_cluster]
    split
    · rename_i hx; rw [hx]; exact h
    · rfl

theorem State.fetched_setDev (s : State) (d : DevRegs) : s.fetched { s with dev := d } :=
  ⟨rfl, rfl, fun _ => rfl, fun _ => rfl, fun _ h => h, fun _ => ⟨rfl, rfl, rfl⟩, fun _ => rfl⟩

/-! ### Translation of a fetch -/

/-- The first part of a pair is what a fetch leaves. -/
def State.firstFetched {α : Type} (s : State) (r : State × α) : Prop := s.fetched r.1

theorem State.firstFetched.of_eq {α : Type} {s t : State} {r : State × α} {a : α} (h : s.firstFetched r) (he : r = (t, a)) : s.fetched t := by
  rw [he] at h
  exact h

theorem State.fetched_touchRead (s : State) (a n : Nat) : s.fetched (s.touchRead a n) := s.fetched_setMem _

theorem State.fetched_fillCoreTlb (s : State) (c : Nat) (t : TlbEntry) : s.fetched (s.fillCoreTlb c t) := s.fetched_setCore c _ ⟨rfl, rfl, rfl⟩

theorem State.fetched_setAD (s : State) (a e : Nat) (store : Bool) : s.fetched (s.setAD a e store) := by
  unfold State.setAD
  extract_lets want
  split
  · exact State.fetched.refl s
  · exact (s.homeStep_writeAtHome _ _ _).fetched

theorem State.fetched_fillTlbs (s : State) (e : Env) (t : TlbEntry) : s.fetched (s.fillTlbs e t) := by
  have h : s.fetched (s.setCluster e.cluster { s.cluster e.cluster with tlb := tlbFill 4096 (s.cluster e.cluster).tlb t }) :=
    s.fetched_setCluster _ _ rfl
  unfold State.fillTlbs
  dsimp only
  split
  · exact h
  · exact h.trans (State.fetched_fillCoreTlb _ _ _)

theorem State.fetched_walkLevels (ctx va n : Nat) (s : State) (table level : Nat) : s.firstFetched (s.walkLevels ctx va table level n) := by
  induction n generalizing s table level with
  | zero => exact State.fetched.refl s
  | succ n ih =>
    have ht : s.fetched (s.touchRead (table + 8 * walkIndex va level) 8) := s.fetched_touchRead _ _
    unfold State.walkLevels
    split
    · exact ih _ _ _
    · dsimp only
      split
      · exact State.fetched.refl s
      · split
        · exact ht
        · split
          · split
            · exact ht
            · split <;> exact ht
          · split
            · exact (ht.trans (State.fetched_setMem _ _)).trans (ih _ _ _)
            · exact ht

theorem State.fetched_walkOf (s : State) (ctx va : Nat) : s.firstFetched (s.walkOf ctx va) := by
  unfold State.walkOf
  dsimp only
  split
  · exact State.fetched.refl s
  · split
    · exact s.fetched_touchRead _ _
    · exact (s.fetched_touchRead _ _).trans (State.fetched_walkLevels ..)

theorem State.fetched_walkRaw (s : State) (e : Env) (ctx va : Nat) (store : Bool) : s.firstFetched (s.walkRaw e ctx va store) := by
  rw [show @State.walkRaw = _ from by delta State.walkRaw; rfl]
  split
  · next heq => exact (s.fetched_walkOf ctx va).of_eq heq
  · next heq =>
    exact ((s.fetched_walkOf ctx va).of_eq heq).trans ((State.fetched_setAD _ _ _ _).trans (State.fetched_fillTlbs _ _ _))

theorem State.fetched_serveWaiter (s : State) (t : TlbEntry) (x : Waiter) : s.fetched (State.serveWaiter t s x) := by
  unfold State.serveWaiter
  dsimp only
  split
  · exact s.fetched_fillCoreTlb _ _
  · exact (s.fetched_fillCoreTlb _ _).trans (State.asked_queuePref _ _ _ _ _).fetched

theorem State.fetched_takeWalks (s : State) (n : Nat) : s.fetched (s.takeWalks n) := (s.asked_takeWalks n).fetched

theorem State.fetched_finishWalk (s : State) (e : Env) (m : Miss) (va : Nat) (store : Bool) : s.firstFetched (s.finishWalk e m va store) := by
  have h : s.fetched (s.setCluster e.cluster { s.cluster e.cluster with misses := (s.cluster e.cluster).misses.filter (fun x => x != m) }) :=
    s.fetched_setCluster _ _ rfl
  rw [show @State.finishWalk = _ from by delta State.finishWalk; rfl]
  extract_lets +onlyGivenNames k
  split
  · next heq => exact (h.trans ((State.fetched_walkRaw _ _ _ _ _).of_eq heq)).trans (State.fetched_takeWalks _ _)
  · next t heq =>
    exact (h.trans ((State.fetched_walkRaw _ _ _ _ _).of_eq heq)).trans
      ((State.fetched_foldl (fun u x => u.fetched_serveWaiter t x) _ _).trans (State.fetched_takeWalks _ _))

theorem State.fetched_walkAhead (k ctx page n : Nat) (s : State) : s.fetched (s.walkAhead k ctx page n) := by
  induction n generalizing s with
  | zero => exact State.fetched.refl s
  | succ n ih =>
    unfold State.walkAhead
    split
    · exact State.fetched.refl s
    · split
      · exact State.fetched.refl s
      · exact (State.fetched_finishWalk _ _ _ _ _).trans (ih _)

theorem State.fetched_walkFill (s : State) (e : Env) (ctx va : Nat) (store : Bool) : s.firstFetched (s.walkFill e ctx va store) := by
  have h1 : s.fetched ((s.setCluster e.cluster { s.cluster e.cluster with
      misses := missJoin (s.cluster e.cluster).misses ctx (va / 65536) [] }).takeWalks 64) :=
    State.fetched.trans (s.fetched_setCluster _ _ (by rfl)) (State.fetched_takeWalks _ _)
  unfold State.walkFill
  dsimp only
  split
  · exact (h1.trans (State.fetched_walkAhead _ _ _ _ _)).trans (State.fetched_walkRaw _ _ _ _ _)
  · split
    · exact (h1.trans (State.fetched_walkAhead _ _ _ _ _)).trans (State.fetched_walkRaw _ _ _ _ _)
    · exact (h1.trans (State.fetched_walkAhead _ _ _ _ _)).trans (State.fetched_finishWalk _ _ _ _ _)

theorem State.fetched_leafFor (s : State) (e : Env) (ctx va : Nat) (acc : Acc) : s.firstFetched (s.leafFor e ctx va acc) := by
  unfold State.leafFor
  split
  · exact s.fetched_walkFill _ _ _ _
  · split
    · exact s.fetched_walkFill _ _ _ _
    · exact (s.asked_useLeaf _ _ _ _).fetched

/-- The state that a translation leaves, whether it succeeds or not. -/
def afterTranslate {α β : Type} (r : Except (State × α) (State × β)) : State :=
  match r with
  | .error x => x.1
  | .ok x => x.1

theorem State.fetched_translate (s : State) (e : Env) (va : Nat) (acc : Acc) : s.fetched (afterTranslate (s.translate e va acc)) := by
  unfold State.translate State.translateIn
  split
  · next heq => exact (s.fetched_leafFor _ _ _ _).of_eq heq
  · next heq =>
    have h := (s.fetched_leafFor _ _ _ _).of_eq heq
    split
    · exact h
    · exact h

/-! ### The words of an instruction -/

theorem State.fetched_logNear (s : State) (k kind unit place bank off : Nat) : s.fetched (s.logNear k kind unit place bank off) := by
  unfold State.logNear
  rw [State.logAlarm_frame]
  exact (s.fetched_setCluster k _ (by rfl)).trans (State.fetched_setDev _ _)

theorem State.fetched_fillL1i (s : State) (core line : Nat) : s.fetched (s.fillL1i core line) := by
  have h : ∀ x, s.fetched ((s.touchRead (64 * line) 64).setCore core { (s.touchRead (64 * line) 64).core core with l1i := x }) := fun _ =>
    (s.fetched_touchRead _ _).trans (State.fetched_setCore _ core _ ⟨rfl, rfl, rfl⟩)
  unfold State.fillL1i
  dsimp only
  split
  · exact h _
  · exact (h _).trans (State.fetched_logNear _ _ _ _ _ _ _)

theorem State.fetched_fillBuf (s : State) (core q : Nat) (x : ILine) : s.fetched (s.fillBuf core q x) := s.fetched_setCore core _ ⟨rfl, rfl, rfl⟩

theorem State.fetched_fetchLine (s : State) (core q line : Nat) : s.firstFetched (s.fetchLine core q line) := by
  unfold State.fetchLine
  split
  · exact State.fetched.refl s
  · exact s.fetched_fillBuf _ _ _
  · exact (s.fetched_fillL1i _ _).trans (State.fetched_fillBuf _ _ _ _)

theorem State.fetched_fetchWord (s : State) (e : Env) (q va : Nat) : s.fetched (afterTranslate (s.fetchWord e q va)) := by
  have ht := s.fetched_translate e va .fetch
  unfold State.fetchWord
  split
  · next x heq =>
    rw [heq] at ht
    exact ht
  · next s1 pa cls heq =>
    rw [heq] at ht
    have h1 : s.fetched s1 := ht
    split
    · exact h1.trans (s1.fetched_touchRead _ _)
    · exact h1.trans (s1.fetched_fetchLine _ _ _)

theorem State.fetched_fetchAt (s : State) (e : Env) (q seg word : Nat) : s.firstFetched (s.fetchAt e q seg word) := by
  unfold State.fetchAt
  dsimp only
  generalize ((s.launch e.launch).codeBase + 8 * (((s.launch e.launch).mod_.segOf seg).first + word)) % 2 ^ 48 = va
  split
  · exact State.fetched.refl s
  · have h := s.fetched_fetchWord e q va
    split
    · next heq => rw [heq] at h; exact h
    · next s1 x p heq =>
      rw [heq] at h
      have h1 : s.fetched s1 := h
      split
      · exact h1
      · split
        · exact h1
        · split
          · exact h1
          · have k := s1.fetched_fetchWord e q ((va + 8) % 2 ^ 48)
            split
            · next heq => rw [heq] at k; exact h1.trans k
            · next heq => rw [heq] at k; exact h1.trans k

theorem State.fetched_fetchWave (s : State) (w : Nat) : s.firstFetched (s.fetchWave w) := s.fetched_fetchAt _ _ _ _

/-! ### The watchdog (R177, R364, R376) -/

theorem State.fetched.waveLaunch {s t : State} (h : s.fetched t) (w : Nat) : t.waveLaunch w = s.waveLaunch w := by
  unfold State.waveLaunch
  rw [h.crews]

theorem State.fetched.launch {s t : State} (h : s.fetched t) (l : Nat) : t.launch l = s.launch l := by
  unfold State.launch
  rw [h.launches]

theorem State.fetched.crewCycles {s t : State} (h : s.fetched t) (c : Nat) : t.crewCycles c = s.crewCycles c := by
  have hc : (t.crew c).core = (s.crew c).core := by rw [h.crews]
  obtain ⟨h1, h2, h3⟩ := h.cores (s.crew c).core
  unfold State.crewCycles State.isSaved State.coreCycles State.cycles
  rw [hc]
  dsimp only
  rw [h1, h2, h3, h.clocks, h.dt]

theorem State.fetched.wdCount {s t : State} (h : s.fetched t) {w : Nat} (hp : (s.wave w).park = .run) : t.wdCount w = s.wdCount w := by
  have hb : (t.wave w).wdBase = (s.wave w).wdBase ∧ (t.wave w).wdSince = (s.wave w).wdSince := by
    rw [h.waves w]
    exact ⟨rfl, rfl⟩
  unfold State.wdCount
  dsimp only
  rw [hp, h.run w hp, hb.1, hb.2, h.crewCycles]

theorem State.fetched.wdExpired {s t : State} (h : s.fetched t) {w : Nat} (hp : (s.wave w).park = .run) : t.wdExpired w = s.wdExpired w := by
  unfold State.wdExpired State.wdLimit
  rw [h.waveLaunch, h.launch, h.wdCount hp]

theorem execSegmentWatchdogExpiry_words {s s1 : State} {w x lit : Nat} (hf : (tabFind s.waves w).isSome = true) (hp : (s.wave w).park = .run)
    (hz : s.crewFrozen (crewOf w) = false) (he : s.fetchWave w = (s1, .words x lit)) (hx : s1.wdExpired w = true) :
    exec (.segmentWatchdogExpiry w) s = .next (s1.wdTrap w (wordSkip x)) := by
  have hk : s.fetched s1 := (s.fetched_fetchWave w).of_eq he
  have hs : s.wdExpired w = true := (hk.wdExpired hp).symm.trans hx
  have h : exec (.segmentWatchdogExpiry w) s = _ := if_neg (by rw [Option.isNone_iff_eq_none, hp, hz, hs]; simpa using Option.isSome_iff_ne_none.mp hf)
  rw [h, he]

/-- A plain trap that a handler takes. -/
theorem State.plainTrap_inHandler {s : State} {w skip : Nat} {c : Cause} (hl : (s.wave w).level = .thread) (hs : (s.wave w).spec = none)
    (hh : (s.waveMod w).handlerOf c ≠ 4095) : s.inHandler (s.plainTrap w c skip) w ((s.waveMod w).handlerOf c) c 0 (laneMask (s.occupied w)) skip := by
  unfold State.plainTrap
  rw [State.takeTrap_handler s w (s.occupiedMask w) { TrapInfo.plain c with skip := skip } hs hl hh]
  exact ⟨rfl, fun x hx => (State.setWave_wave s w _ x).trans (if_neg hx), State.setWave_wave_same ..⟩

theorem watchdog_gives {s s1 : State} {w x lit : Nat} {c : Cause} (hf : (tabFind s.waves w).isSome = true) (hp : (s.wave w).park = .run)
    (hz : s.crewFrozen (crewOf w) = false) (he : s.fetchWave w = (s1, .words x lit)) (hl : (s1.wave w).level = .thread)
    (hs : (s1.wave w).spec = none) (hx : s1.wdExpired w = true) (hc : (s1.wdLimit (s1.waveLaunch w)).2 = c)
    (hh : (s1.waveMod w).handlerOf c ≠ 4095) : Answer.gives (exec (.segmentWatchdogExpiry w) s) (fun t =>
      s1.inHandler t w ((s1.waveMod w).handlerOf c) c 0 (laneMask (s1.occupied w)) (if isLitWord x then 2 else 1)) := by
  refine ⟨_, execSegmentWatchdogExpiry_words hf hp hz he hx, ?_⟩
  rw [State.wdTrap, hc]
  exact State.plainTrap_inHandler hl hs hh

theorem State.wdExpired_segLim {s : State} {w : Nat} (hd : (s.launch (s.waveLaunch w)).deadlineFell = false)
    (h0 : (s.launch (s.waveLaunch w)).rec_.segLim ≠ 0) (h : (s.launch (s.waveLaunch w)).rec_.segLim * 1024 ≤ s.wdCount w) :
    s.wdExpired w = true ∧ (s.wdLimit (s.waveLaunch w)).2 = .watchdog := by
  have hl : s.wdLimit (s.waveLaunch w) = ((s.launch (s.waveLaunch w)).rec_.segLim * 1024, .watchdog) := if_neg (by simp [hd])
  simp [State.wdExpired, hl, h0, h]

theorem minLimit_le {a b n : Nat} (h0 : a ≠ 0) (h : a ≤ n) : minLimit a b ≠ 0 ∧ minLimit a b ≤ n := by
  unfold minLimit
  split
  · omega
  · split <;> omega

theorem State.wdExpired_dgrace {s : State} {w : Nat} (hd : (s.launch (s.waveLaunch w)).deadlineFell = true)
    (h0 : (s.launch (s.waveLaunch w)).rec_.dgrace ≠ 0) (h : (s.launch (s.waveLaunch w)).rec_.dgrace * 1024 ≤ s.wdCount w) :
    s.wdExpired w = true ∧ (s.wdLimit (s.waveLaunch w)).2 = .deadline := by
  have hl : s.wdLimit (s.waveLaunch w) = (minLimit ((s.launch (s.waveLaunch w)).rec_.dgrace * 1024)
      ((s.launch (s.waveLaunch w)).rec_.segLim * 1024), .deadline) := if_pos hd
  obtain ⟨h1, h2⟩ := minLimit_le (b := (s.launch (s.waveLaunch w)).rec_.segLim * 1024) (Nat.mul_ne_zero h0 (by omega)) h
  simp [State.wdExpired, hl, h1, h2]

/-- Settles O38: a result that arrives only moves from the list to the threads; a rollback writes the undo log back; and a fetch
leaves the watchdog's count alone, so that the trap that follows it finds it expired. -/
theorem waveEvents : Obligations.WaveEvents := by
  unfold Obligations.WaveEvents
  refine fun s w => ⟨fun i r h => longResult_gives h, fun _ => releaseWaitEnd_unparks, fun _ => releaseWaitEnd_opens, fun _ _ => iinvComplete_gives,
    fun _ => specFenceComplete_gives, fun _ => specConflictRollback_gives, fun s1 x lit hf hp hz he hl hs => ⟨fun hd h0 h hh => ?_, fun hd h0 h hh => ?_⟩⟩
  · obtain ⟨hx, hc⟩ := State.wdExpired_segLim hd h0 h
    exact watchdog_gives hf hp hz he hl hs hx hc hh
  · obtain ⟨hx, hc⟩ := State.wdExpired_dgrace hd h0 h
    exact watchdog_gives hf hp hz he hl hs hx hc hh

end Sys2Proof.Machine
end

section
/-! ## Operations on barrier objects (R128 to R134, R140, R292 to R295) -/

namespace Sys2Proof.Machine

open Sys2Proof

/-! ### Numbers in memory (R6) -/

theorem Store.readNat_congr {m n : Store} {a k : Nat} (h : ∀ i, i < k → m.byte (a + i) = n.byte (a + i)) : m.readNat a k = n.readNat a k := by
  induction k generalizing a with
  | zero => rfl
  | succ k ih =>
    have h0 := h 0 (by omega)
    rw [Nat.add_zero] at h0
    rw [Store.readNat, Store.readNat, h0, ih fun i hi => by rw [Nat.add_assoc, Nat.add_comm 1]; exact h (i + 1) (by omega)]

theorem Store.readNat_lt (m : Store) (a k : Nat) : m.readNat a k < 256 ^ k := by
  induction k generalizing a with
  | zero => simp [Store.readNat]
  | succ k ih =>
    have hb := (m.byte a).isLt
    have hr := ih (a + 1)
    rw [Store.readNat, Nat.pow_succ]
    omega

/-- Memory that holds the bytes of a number reads as that number. -/
theorem Store.readNat_of_bytes {m : Store} {a v k : Nat} (h : ∀ i b, (bytesOf v k)[i]? = some b → m.byte (a + i) = b) :
    m.readNat a k = v % 256 ^ k := by
  induction k generalizing a v with
  | zero => simp [Store.readNat, Nat.mod_one]
  | succ k ih =>
    have h0 : m.byte a = BitVec.ofNat 8 (v % 256) := h 0 _ rfl
    have hr : m.readNat (a + 1) k = v / 256 % 256 ^ k :=
      ih fun i b hb => by rw [Nat.add_assoc, Nat.add_comm 1]; exact h (i + 1) b (by rw [bytesOf, List.getElem?_cons_succ]; exact hb)
    rw [Store.readNat, h0, hr, BitVec.toNat_ofNat, Nat.mod_mod, Nat.pow_succ', Nat.mod_mul]

/-- A number inside a run of bytes that has been written. -/
theorem Store.readNat_putWhole (m : Store) (a v k : Nat) (pre post : List Byte) :
    (m.putCells (wholeCells a (pre ++ bytesOf v k ++ post))).readNat (a + pre.length) k = v % 256 ^ k := by
  refine Store.readNat_of_bytes fun i b hb => ?_
  have hi : i < (bytesOf v k).length := (List.getElem?_eq_some_iff.mp hb).1
  rw [Nat.add_assoc]
  refine m.byte_putWhole a (pre.length + i) _ b ?_
  rw [List.append_assoc, List.getElem?_append_right (by omega), Nat.add_sub_cancel_left, List.getElem?_append_left hi, hb]

/-! ### The object's fields and its bytes (R128) -/

/-- Every field fits its place in the object's sixteen bytes. -/
structure BarObj.sized (b : BarObj) : Prop where
  phase : b.phase < 65536
  expArr : b.expArr < 65536
  pendArr : b.pendArr < 65536
  flags : b.flags < 65536
  expBytes : b.expBytes < 4294967296
  pendBytes : b.pendBytes < 4294967296

theorem Store.barrier_sized (m : Store) (a : Nat) : (m.barrier a).sized :=
  ⟨m.readNat_lt _ 2, m.readNat_lt _ 2, m.readNat_lt _ 2, m.readNat_lt _ 2, m.readNat_lt _ 4, m.readNat_lt _ 4⟩

theorem barrierBytes_length (b : BarObj) : (barrierBytes b).length = 16 := by
  simp only [barrierBytes, List.length_append, bytesOf_length]

theorem Store.barrier_congr {m n : Store} {a : Nat} (h : ∀ i, i < 16 → m.byte (a + i) = n.byte (a + i)) : m.barrier a = n.barrier a := by
  have hr : ∀ o k, o + k ≤ 16 → m.readNat (a + o) k = n.readNat (a + o) k := fun o k hk =>
    Store.readNat_congr fun i hi => by rw [Nat.add_assoc]; exact h (o + i) (by omega)
  unfold Store.barrier
  rw [hr 2 2 (by omega), hr 4 2 (by omega), hr 6 2 (by omega), hr 8 4 (by omega), hr 12 4 (by omega),
    show m.readNat a 2 = n.readNat a 2 from hr 0 2 (by omega)]

/-- An object that has been written reads back. -/
theorem Store.barrier_putWhole (m : Store) (a : Nat) {b : BarObj} (h : b.sized) : (m.putCells (wholeCells a (barrierBytes b))).barrier a = b := by
  obtain ⟨hp, hea, hpa, hf, heb, hpb⟩ := h
  have hr : ∀ v k pre post o, barrierBytes b = pre ++ bytesOf v k ++ post → pre.length = o →
      (m.putCells (wholeCells a (barrierBytes b))).readNat (a + o) k = v % 256 ^ k := fun v k pre post o e ho => by
    rw [e, ← ho]; exact m.readNat_putWhole a v k pre post
  have h0 := hr b.phase 2 [] _ 0 (by simp only [barrierBytes, List.append_assoc, List.nil_append]; rfl) rfl
  have h2 := hr b.expArr 2 (bytesOf b.phase 2) _ 2 (by simp only [barrierBytes, List.append_assoc]; rfl) rfl
  have h4 := hr b.pendArr 2 (bytesOf b.phase 2 ++ bytesOf b.expArr 2) _ 4 (by simp only [barrierBytes, List.append_assoc]; rfl) rfl
  have h6 := hr b.flags 2 (bytesOf b.phase 2 ++ bytesOf b.expArr 2 ++ bytesOf b.pendArr 2) _ 6 (by simp only [barrierBytes, List.append_assoc]; rfl) rfl
  have h8 := hr b.expBytes 4 (bytesOf b.phase 2 ++ bytesOf b.expArr 2 ++ bytesOf b.pendArr 2 ++ bytesOf b.flags 2) _ 8
    (by simp only [barrierBytes, List.append_assoc]; rfl) rfl
  have h12 := hr b.pendBytes 4 (bytesOf b.phase 2 ++ bytesOf b.expArr 2 ++ bytesOf b.pendArr 2 ++ bytesOf b.flags 2 ++ bytesOf b.expBytes 4) [] 12
    (by simp only [barrierBytes, List.append_nil]) rfl
  rw [Nat.add_zero] at h0
  unfold Store.barrier
  rw [h0, h2, h4, h6, h8, h12, Nat.mod_eq_of_lt (b := 256 ^ 2) hp, Nat.mod_eq_of_lt (b := 256 ^ 2) hea, Nat.mod_eq_of_lt (b := 256 ^ 2) hpa,
    Nat.mod_eq_of_lt (b := 256 ^ 2) hf, Nat.mod_eq_of_lt (b := 256 ^ 4) heb, Nat.mod_eq_of_lt (b := 256 ^ 4) hpb]

/-! ### Operations keep the fields in their places (R130 to R132, R140, R293) -/

theorem BarObj.sized.release {b : BarObj} (h : b.sized) : (barRelease b).sized :=
  ⟨Nat.mod_lt _ (by omega), h.expArr, h.expArr, h.flags, h.expBytes, h.expBytes⟩

theorem BarObj.sized.test {b : BarObj} (h : b.sized) : (barTest b).sized := by
  unfold barTest
  split
  · exact h.release
  · exact h

theorem BarObj.sized.setErr {b : BarObj} (h : b.sized) : (barSetErr b).sized :=
  ⟨h.phase, h.expArr, h.pendArr, Nat.or_lt_two_pow (n := 16) h.flags (by omega), h.expBytes, h.pendBytes⟩

theorem BarObj.sized.arrive {b : BarObj} (h : b.sized) : (barArrive b).sized := by
  unfold barArrive
  refine BarObj.sized.test ?_
  split
  · exact h.setErr
  · exact ⟨h.phase, h.expArr, (Nat.sub_le ..).trans_lt h.pendArr, h.flags, h.expBytes, h.pendBytes⟩

theorem BarObj.sized.addBytes {b : BarObj} (h : b.sized) (d : Int) : (barAddBytes b d).sized := by
  have hs : BarObj.sized { b with pendBytes := lowBits (clampInt (sInt 32 b.pendBytes + d) (-2147483648) 2147483647) 32 } :=
    ⟨h.phase, h.expArr, h.pendArr, h.flags, h.expBytes, lowBits_lt _ 32⟩
  unfold barAddBytes
  split
  · exact h
  · dsimp only
    refine BarObj.sized.test ?_
    split
    · exact hs
    · exact hs.setErr

theorem bits_lt (x hi lo : Nat) : bits x hi lo < 2 ^ (hi + 1 - lo) := Nat.mod_lt _ (Nat.two_pow_pos _)

theorem initObj_sized (v : Nat) : (initObj v).sized := by
  have harr : (if initKind v = 1 then 1 else bits v 15 0) < 65536 := by
    have := bits_lt v 15 0
    split <;> omega
  have hbytes : (if initKind v = 1 then 0 else bits v 47 16) < 4294967296 := by
    have := bits_lt v 47 16
    split <;> omega
  have hflags : initKind v * 16384 + bits v 50 50 * 4096 + bits v 51 51 * 2048 + bits v 55 52 < 65536 := by
    have h1 : initKind v < 4 := bits_lt v 49 48
    have h2 := bits_lt v 50 50
    have h3 := bits_lt v 51 51
    have h4 := bits_lt v 55 52
    omega
  exact ⟨Nat.two_pow_pos 16, harr, harr, hflags, hbytes, hbytes⟩

theorem BarObj.sized.credit {b : BarObj} (h : b.sized) (c : Credit) : (creditOp c b).sized := by
  have h' : (if c.err then barSetErr b else b).sized := by
    split
    · exact h.setErr
    · exact h
  unfold creditOp
  dsimp only
  split <;> exact h'.addBytes _

/-! ### An operation at its bank (R129) -/

theorem State.setStore_mem (s : State) (m : Store) : (s.setStore m).mem = { s.mem with store := m } := rfl

theorem State.homeStep_setStore (s : State) (m : Store) : s.homeStep (s.setStore m) := s.homeStep_setMem _ rfl

/-- An object that has been operated on and its armed granule, before crews and waiters look at it. -/
def State.operated (s : State) (a : Nat) (f : BarObj → BarObj) : State :=
  s.setStore ({ s.store with armed := memberAdd s.store.armed (a / 16) }.write (wholeCells a (barrierBytes (f (s.store.barrier a)))) none)

theorem State.barrierOp_eq (s : State) (a : Nat) (f : BarObj → BarObj) : s.barrierOp a f = ((s.operated a f).noteGrid a).wakeGranule (a / 16) := rfl

theorem State.barrierOp_store (s : State) (a : Nat) (f : BarObj → BarObj) : (s.barrierOp a f).store = (s.operated a f).store := by
  rw [s.barrierOp_eq a f, State.store_wakeGranule, State.store_noteGrid]

/-- Memory after an operation: the object's bytes alone. -/
theorem State.barrierOp_bytes (s : State) (a : Nat) (f : BarObj → BarObj) :
    (s.barrierOp a f).store.bytes = (s.store.putCells (wholeCells a (barrierBytes (f (s.store.barrier a))))).bytes := by
  rw [State.barrierOp_store, State.operated, State.setStore_store, Store.write_bytes]
  exact Store.putCells_bytes_congr rfl _

theorem State.barrierOp_byte (s : State) {a b : Nat} (f : BarObj → BarObj) (h : b < a ∨ a + 16 ≤ b) :
    (s.barrierOp a f).store.byte b = s.store.byte b := by
  rw [Store.byte, s.barrierOp_bytes a f, ← Store.byte, Store.byte_putWhole_other _ _ _ _ (by rwa [barrierBytes_length])]

/-- The object takes the operation. -/
theorem State.barrierOp_barrier {s : State} {a : Nat} {f : BarObj → BarObj} (h : (f (s.store.barrier a)).sized) :
    (s.barrierOp a f).store.barrier a = f (s.store.barrier a) := by
  rw [← s.store.barrier_putWhole a h]
  exact Store.barrier_congr fun i _ => by rw [Store.byte, s.barrierOp_bytes a f, ← Store.byte]

theorem State.noteGrid_mem (s : State) (a : Nat) : (s.noteGrid a).mem = s.mem := by
  unfold State.noteGrid
  dsimp only
  split
  · rfl
  · exact foldl_fixed State.mem _ _ _ fun _ _ => rfl

theorem State.wakeGranule_mem (s : State) (g : Nat) : (s.wakeGranule g).mem = s.mem := by rw [(s.woke_wakeGranule g).machine]

/-- Of the memory system an operation reaches the store alone. -/
theorem State.barrierOp_mem (s : State) (a : Nat) (f : BarObj → BarObj) : (s.barrierOp a f).mem = { s.mem with store := (s.barrierOp a f).store } := by
  rw [State.barrierOp_store, s.barrierOp_eq a f, State.wakeGranule_mem, State.noteGrid_mem, State.operated, State.setStore_mem, State.setStore_store]

theorem State.homeStep_barrierOp (s : State) (a : Nat) (f : BarObj → BarObj) : s.homeStep (s.barrierOp a f) := by
  rw [s.barrierOp_eq a f]
  exact ((s.homeStep_setStore _).trans ((s.operated a f).homeStep_noteGrid a)).trans (State.woke_wakeGranule _ _).homeStep

/-! ### A sequencer that is not parked (R145, R299) -/

/-- A sequencer that is not parked goes on as it was. -/
def State.seqsRun (s t : State) : Prop := ∀ k, (s.seqOf k).park = .run → t.seqOf k = s.seqOf k

theorem State.seqsRun.trans {s t u : State} (h : s.seqsRun t) (k : t.seqsRun u) : s.seqsRun u := fun x hx => by
  rw [k x (by rw [h x hx]; exact hx), h x hx]

theorem State.seqsRun_foldl {α : Type} {f : State → α → State} (h : ∀ (s : State) a, s.seqsRun (f s a)) (l : List α) (s : State) :
    s.seqsRun (l.foldl f s) := foldl_keeps (fun t => s.seqsRun t) f l s (fun _ _ => rfl) fun x a hx => hx.trans (h x a)

theorem State.seqsRun_of_clusters {s t : State} (h : t.clusters = s.clusters) : s.seqsRun t := fun k _ => by
  unfold State.seqOf State.cluster; rw [h]

theorem State.seqsRun_joinQueue (s : State) (w : Nat) : s.seqsRun (s.joinQueue w) := by
  unfold State.joinQueue
  split
  · intro k _
    unfold State.seqOf
    dsimp only
    rw [State.setCluster_cluster]
    split
    · rename_i hk; rw [hk]; rfl
    · rfl
  · exact fun _ _ => rfl

theorem State.seqsRun_wakeSeq (s : State) (g k : Nat) : s.seqsRun (s.wakeSeq g k) := by
  unfold State.wakeSeq
  dsimp only
  split
  · rename_i hp
    split
    · intro j hj
      have hne : j ≠ k := by rintro rfl; rw [hp] at hj; cases hj
      rw [State.setSeq_seqOf, if_neg hne]
    · exact fun _ _ => rfl
  · exact fun _ _ => rfl

theorem State.seqsRun_wakeGranule (s : State) (g : Nat) : s.seqsRun (s.wakeGranule g) :=
  (State.seqsRun_foldl State.seqsRun_joinQueue _ s).trans (State.seqsRun_foldl (fun t k => t.seqsRun_wakeSeq g k) _ _)

theorem State.noteGrid_clusters (s : State) (a : Nat) : (s.noteGrid a).clusters = s.clusters := by
  unfold State.noteGrid
  dsimp only
  split
  · rfl
  · exact foldl_fixed State.clusters _ _ _ fun _ _ => rfl

theorem State.testArmed_clusters (s : State) (g : Nat) : (s.testArmed g).clusters = s.clusters := by
  unfold State.testArmed
  split
  · dsimp only
    split
    · exact s.noteGrid_clusters _
    · rfl
  · rfl

theorem State.seqsRun_barrierOp (s : State) (a : Nat) (f : BarObj → BarObj) : s.seqsRun (s.barrierOp a f) := by
  rw [s.barrierOp_eq a f]
  exact (State.seqsRun_of_clusters (((s.operated a f).noteGrid_clusters a).trans (State.setStore_clusters _ _))).trans (State.seqsRun_wakeGranule _ _)

theorem State.seqsRun_writeAtHome (s : State) (by_ : Option Nat) (cells : List (Nat × Byte × Byte)) (tag : Option Bool) :
    s.seqsRun (s.writeAtHome by_ cells tag) := by
  have htest : ((granulesOf cells).foldl State.testArmed (s.written cells tag)).clusters = s.clusters :=
    foldl_fixed State.clusters _ _ _ State.testArmed_clusters
  exact (State.seqsRun_of_clusters htest).trans (State.seqsRun_foldl State.seqsRun_wakeGranule _ _)

/-! ### Operations of the selected agent on an object (R129, R299) -/

/-- The selected agent may operate on objects: a wave that is not speculative with nothing on its way, or a sequencer that is not parked. -/
structure State.barReady (s : State) : Prop where
  wave : ∀ w, s.cur = .wave w → s.rmwReady w
  seq : ∀ k, s.cur = .seq k → (s.seqOf k).park = .run

/-- The agent has operated on the n bytes of an object at a, and has not passed its word yet. -/
structure State.barStep (s t : State) (a n : Nat) : Prop where
  machine : t = { s with waves := t.waves, crews := t.crews, clusters := t.clusters, mem := t.mem }
  mem : t.mem = { s.mem with store := t.store, l2 := t.mem.l2 }
  bytes : ∀ b, b < a ∨ a + n ≤ b → t.store.byte b = s.store.byte b
  crews : ∀ c, t.crew c = { s.crew c with gridHeld := (t.crew c).gridHeld }
  clusters : ∀ k, t.cluster k = { s.cluster k with relQ := (t.cluster k).relQ, seq := (t.cluster k).seq }
  waves : ∀ x, s.cur ≠ .wave x → t.wave x = { s.wave x with park := (t.wave x).park, spec := (t.wave x).spec }
  own : ∀ w, s.cur = .wave w → t.wave w = { s.wave w with park := (t.wave w).park, maxw := (t.wave w).maxw }
  seq : ∀ k, s.cur = .seq k → t.seqOf k = { s.seqOf k with maxw := (t.seqOf k).maxw }

theorem State.barStep.refl (s : State) (a n : Nat) : s.barStep s a n :=
  ⟨rfl, rfl, fun _ _ => rfl, fun _ => rfl, fun _ => rfl, fun _ _ => rfl, fun _ _ => rfl, fun _ _ => rfl⟩

theorem State.barStep.cur {s t : State} {a n : Nat} (h : s.barStep t a n) : t.cur = s.cur := by rw [h.machine]

theorem State.barStep.trans {s t u : State} {a n : Nat} (h : s.barStep t a n) (k : t.barStep u a n) : s.barStep u a n where
  machine := by rw [k.machine, h.machine]
  mem := by rw [k.mem, h.mem]
  bytes b hb := by rw [k.bytes b hb, h.bytes b hb]
  crews c := by rw [k.crews c, h.crews c]
  clusters c := by rw [k.clusters c, h.clusters c]
  waves x hx := by rw [k.waves x (by rwa [h.cur]), h.waves x hx]
  own w hw := by rw [k.own w (by rwa [h.cur]), h.own w hw]
  seq c hc := by rw [k.seq c (by rwa [h.cur]), h.seq c hc]

theorem State.barStep.mono {s t : State} {a m n : Nat} (h : s.barStep t a m) (hn : m ≤ n) : s.barStep t a n :=
  ⟨h.machine, h.mem, fun b hb => h.bytes b (by omega), h.crews, h.clusters, h.waves, h.own, h.seq⟩

theorem State.barStep.ready {s t : State} {a n : Nat} (h : s.barStep t a n) (k : s.barReady) : t.barReady where
  wave w hw := by
    rw [h.cur] at hw
    obtain ⟨hs, ho, ha⟩ := k.wave w hw
    constructor <;> rw [h.own w hw] <;> assumption
  seq c hc := by
    rw [h.cur] at hc
    rw [h.seq c hc]
    exact k.seq c hc

/-- What reaches memory at the home of an object's bytes is such a step of an agent that is ready. -/
theorem State.homeStep.barStep {s t : State} {a n : Nat} (h : s.homeStep t) (hq : s.seqsRun t) (hr : s.barReady)
    (hm : t.mem = { s.mem with store := t.store, l2 := t.mem.l2 }) (hb : ∀ b, b < a ∨ a + n ≤ b → t.store.byte b = s.store.byte b) :
    s.barStep t a n where
  machine := h.machine
  mem := hm
  bytes := hb
  crews := h.crews
  clusters := h.clusters
  waves x _ := h.waves x
  own w hw := by
    have hs := (hr.wave w hw).spec
    have hx := h.waves w
    rw [h.unspec w hs, ← hs] at hx
    rw [hx]
  seq k hk := by rw [hq k (hr.seq k hk)]

theorem State.barStep_barrierOp {s : State} (hr : s.barReady) (a : Nat) (f : BarObj → BarObj) : s.barStep (s.barrierOp a f) a 16 :=
  (s.homeStep_barrierOp a f).barStep (s.seqsRun_barrierOp a f) hr (by rw [s.barrierOp_mem a f]) fun _ hb => s.barrierOp_byte f hb

/-- The agent's MAXW rises. -/
theorem State.barStep_setWave {s : State} {w : Nat} (hc : s.cur = .wave w) (a n m : Nat) : s.barStep (s.setWave w { s.wave w with maxw := m }) a n where
  machine := rfl
  mem := rfl
  bytes _ _ := rfl
  crews _ := rfl
  clusters _ := rfl
  waves x hx := by
    have hne : x ≠ w := by rintro rfl; exact hx hc
    rw [State.setWave_wave, if_neg hne]
  own x hx := by
    cases hc.symm.trans hx
    rw [State.setWave_wave_same]
  seq k hk := by cases hc.symm.trans hk

theorem State.barStep_setSeq {s : State} {k : Nat} (hc : s.cur = .seq k) (a n m : Nat) : s.barStep (s.setSeq k { s.seqOf k with maxw := m }) a n where
  machine := rfl
  mem := rfl
  bytes _ _ := rfl
  crews _ := rfl
  clusters c := by
    rw [State.setSeq, State.setCluster_cluster]
    split
    · rename_i hk; rw [hk]
    · rfl
  waves _ _ := rfl
  own w hw := by cases hc.symm.trans hw
  seq x hx := by
    cases hc.symm.trans hx
    rw [State.setSeq_seqOf_same]

/-- An operation of a wave (R129). -/
theorem State.waveBarrier_step {s : State} {w : Nat} (hc : s.cur = .wave w) (hr : s.barReady) {a : Nat} {f : BarObj → BarObj}
    (hf : (f (s.store.barrier a)).sized) : s.barStep (s.waveBarrier w a f) a 16 ∧ (s.waveBarrier w a f).store.barrier a = f (s.store.barrier a) := by
  have hw := hr.wave w hc
  unfold State.waveBarrier State.flushBytes
  rw [State.flushHomes_none hw.out hw.accts]
  have hb := State.barStep_barrierOp hr a f
  exact ⟨hb.trans (State.barStep_setWave (by rw [hb.cur, hc]) a 16 _), State.barrierOp_barrier hf⟩

/-- An operation of a sequencer (R299). -/
theorem State.seqBarrier_step {s : State} {k : Nat} (hc : s.cur = .seq k) (hr : s.barReady) {a : Nat} {f : BarObj → BarObj}
    (hf : (f (s.store.barrier a)).sized) : s.barStep (s.seqBarrier k a f) a 16 ∧ (s.seqBarrier k a f).store.barrier a = f (s.store.barrier a) := by
  have hb := State.barStep_barrierOp hr a f
  exact ⟨hb.trans (State.barStep_setSeq (by rw [hb.cur, hc]) a 16 _), State.barrierOp_barrier hf⟩

/-- A wave passes its word. -/
theorem State.barStep.finish {s t : State} {w a n : Nat} (h : s.barStep t a n) (hc : s.cur = .wave w) (mark : Bool) :
    s.barFrame (t.finish w mark) a n := by
  have hw := t.finish_wave w mark
  have hown := h.own w hc
  refine ⟨?_, h.mem, h.bytes, h.crews, fun k => ?_, fun x hx => ?_, ?_, ?_⟩
  · rw [State.finish, State.finishN_eq, h.machine]
  · exact h.clusters k
  · have hne : x ≠ w := by rintro rfl; exact hx hc
    rw [State.finish_wave_other _ hne]
    exact h.waves x hx
  · rw [State.cc, State.cc, State.finish_cur, h.cur, hc]
    dsimp only
    rw [hw, hown]
  · rw [hc]
    dsimp only
    rw [hw, hown]

/-- A sequencer passes its word. -/
theorem State.barStep.seqFinish {s t : State} {k a n : Nat} (h : s.barStep t a n) (hc : s.cur = .seq k) (hp : (s.seqOf k).park = .run) :
    s.barFrame (t.seqFinish k 1) a n := by
  have hseq := h.seq k hc
  have hk : (t.seqFinish k 1).seqOf k = { s.seqOf k with word := (s.seqOf k).word + 1, maxw := (t.seqOf k).maxw } := by
    rw [State.seqOf, State.seqFinish_cluster]
    dsimp only
    rw [hseq, ← hp]
  have hcl : ∀ j, (t.seqFinish k 1).cluster j = { t.cluster j with seq := (t.seqFinish k 1).seqOf j } := fun j => by
    by_cases hj : j = k
    · rw [hj, State.seqOf, State.seqFinish_cluster]
    · rw [State.seqOf, State.seqFinish_cluster_other _ hj]
  refine ⟨?_, h.mem, h.bytes, h.crews, fun j => ?_, fun x hx => h.waves x hx, ?_, ?_⟩
  · unfold State.seqFinish State.bumpFree State.setSeq State.setCluster
    dsimp only
    rw [h.machine]
  · rw [hcl j, h.clusters j]
  · have hcur : (t.seqFinish k 1).cur = .seq k := by rw [← hc, ← h.cur]; rfl
    rw [State.cc, State.cc, hcur, hc]
    dsimp only
    rw [hk]
  · rw [hc]
    dsimp only
    rw [hk]

/-! ### Reaching an object (R48, R52, R129, R292) -/

theorem keyRun_headD (a cls : Nat) {n : Nat} (h : 0 < n) : ((keyRun a cls n).headD (0, 0)).1 = a := by
  cases n with
  | zero => omega
  | succ n => rfl

theorem mem_keyRun {a cls n : Nat} {k : Nat × Nat} (h : k ∈ keyRun a cls n) : a ≤ k.1 ∧ k.1 < a + n := by
  induction n generalizing a with
  | zero => simp [keyRun] at h
  | succ n ih =>
    rcases List.mem_cons.mp h with rfl | h
    · exact ⟨le_rfl, by omega⟩
    · have := ih h; omega

theorem take_keyRun (a cls m n : Nat) : (keyRun a cls (m + n)).take m = keyRun a cls m := by
  induction m generalizing a with
  | zero => rfl
  | succ m ih => rw [Nat.succ_add, keyRun, keyRun, List.take_succ_cons, ih]

theorem keyRun_sound {m : Store} {a n : Nat} (h : m.poisoned a n = false) (cls : Nat) : keysPoisoned m (keyRun a cls n) = false := by
  rw [keysPoisoned, List.any_eq_false]
  intro k hk hp
  have hr := mem_keyRun hk
  obtain ⟨x, hx, hb⟩ := List.any_eq_true.mp hp
  refine absurd (List.any_eq_false.mp h x hx) (not_not.mpr ?_)
  simp only [Bool.and_eq_true, decide_eq_true_eq] at hb ⊢
  omega

/-- The bytes of an object in a scratchpad. -/
theorem State.capKeys_scratch {s : State} {e : Env} {c : Capv} {core crew : Nat} (hs : c.space = 1) (hc : e.core = some core) (hr : e.crew = some crew)
    (acc : Acc) (off n : Nat) : s.capKeys e c acc off n = .ok (s, keyRun (s.objectPlace e c off) 0 n) := by
  rw [State.capKeys, hs, State.objectPlace, if_pos hs, hc, hr]
  rfl

/-- The bytes of an object in a pool. -/
theorem State.capKeys_pool {s : State} {e : Env} {c : Capv} (hs : c.space = 2) (acc : Acc) (off n : Nat) :
    s.capKeys e c acc off n = .ok (s, keyRun (s.objectPlace e c off) 0 n) := by
  rw [State.capKeys, hs, State.objectPlace, if_neg (by omega)]
  rfl

/-- The bytes of an object that a wave names. -/
theorem State.capKeys_wave {s : State} {w : Nat} {c : Capv} (h : c.space ∈ [1, 2]) (acc : Acc) (off n : Nat) :
    s.capKeys (s.waveEnv w) c acc off n = .ok (s, keyRun (s.objectPlace (s.waveEnv w) c off) 0 n) := by
  simp only [List.mem_cons, List.not_mem_nil, or_false] at h
  rcases h with h | h
  · exact State.capKeys_scratch h rfl rfl acc off n
  · exact State.capKeys_pool h acc off n

theorem State.agentEnv_wave {s : State} {w : Nat} (h : s.cur = .wave w) : s.agentEnv = s.waveEnv w := by rw [State.agentEnv, h]

theorem State.agentEnv_seq {s : State} {k : Nat} (h : s.cur = .seq k) : s.agentEnv = s.seqEnv k := by rw [State.agentEnv, h]

theorem State.kUse_seq {s : State} {k : Nat} (h : s.cur = .seq k) (r : Nat) : s.kUse r = s.kReg r := by rw [State.kUse, h]

section
variable {s : State} {ci off n : Nat}

theorem State.mayBar.of_wave (h : s.mayBar ci off n) {w : Nat} (hc : s.cur = .wave w) :
    s.laneCheck (s.waveEnv w) (s.kUse ci) off n n = none ∧ (s.kUse ci).grants [1, 2] permBA ∧ s.noneInFlight w ∧ (s.wave w).relGate = none
      ∧ s.store.poisoned (s.objectPlace (s.waveEnv w) (s.kUse ci) off) 16 = false := by
  unfold State.mayBar at h
  rw [State.agentEnv_wave hc, hc] at h
  exact h

theorem State.mayBar.of_seq (h : s.mayBar ci off n) {k : Nat} (hc : s.cur = .seq k) :
    s.laneCheck (s.seqEnv k) (s.kReg ci) off n n = none ∧ (s.kReg ci).grants [2] permBA
      ∧ s.store.poisoned (s.objectPlace (s.seqEnv k) (s.kReg ci) off) 16 = false ∧ (s.seqOf k).idem = false ∧ (s.seqOf k).drained = true
      ∧ (s.seqOf k).relGate = none ∧ (s.seqOf k).park = .run := by
  unfold State.mayBar at h
  rw [State.agentEnv_seq hc, hc, State.kUse_seq hc] at h
  exact h

theorem State.mayBar.ready (h : s.mayBar ci off n) : s.barReady where
  wave w hc := by
    obtain ⟨-, -, ⟨hspec, -, hout, haccts⟩, -, -⟩ := h.of_wave hc
    exact ⟨hspec, hout, haccts⟩
  seq k hc := by
    obtain ⟨-, -, -, -, -, -, hpark⟩ := h.of_seq hc
    exact hpark

/-- The agent is a wave or a sequencer. -/
theorem State.mayBar.agent (h : s.mayBar ci off n) : (∃ w, s.cur = .wave w) ∨ ∃ k, s.cur = .seq k := by
  obtain ⟨-, h⟩ := h
  cases hc : s.cur with
  | idle => rw [hc] at h; exact h.elim
  | wave w => exact .inl ⟨w, rfl⟩
  | seq k => exact .inr ⟨k, rfl⟩

end

theorem State.rmwReady.flushBytes {s : State} {w : Nat} (h : s.rmwReady w) (a n : Nat) : s.flushBytes w a n = s :=
  State.flushHomes_none h.out h.accts _

theorem State.afterGate_none {s : State} {w : Nat} (h : (s.wave w).relGate = none) (body : State → State) : s.afterGate w body = body s := by
  rw [State.afterGate, h]

theorem State.unlessSpec_none {s : State} {w : Nat} (h : (s.wave w).spec = none) (body : State) : s.unlessSpec w body = body := by
  rw [State.unlessSpec, h]
  rfl

/-- A uniform capability access whose checks pass. -/
theorem State.capIssue_passed {s s1 : State} {w off : Nat} {r : MemReq} {ks : List (Nat × Nat)} (hc : capCheck (s.kUse r.ci) r.spaces r.mask = none)
    (hl : s.laneCheck (s.waveEnv w) (s.kUse r.ci) off r.n r.align = none)
    (hk : s.capKeys (s.waveEnv w) (s.kUse r.ci) r.acc off r.n = .ok (s1, ks)) (body : State → List (Nat × Nat) → State) :
    s.capIssue w true r none off body = body s1 ks := by
  unfold State.capIssue
  simp only [hc, hl, hk]
  rfl

/-- A uniform barrier word of a wave whose checks pass reaches its object. -/
theorem State.mayBar.barIssue {s : State} {w n : Nat} {o : Sys2Proof.Bar} (h : s.mayBar o.cap (s.sReg o.a) (16 + n)) (hc : s.cur = .wave w)
    (body : State → Nat → State) :
    s.barIssue w o true (16 + n) body = body s (s.objectPlace s.agentEnv (s.kUse o.cap) (s.sReg o.a)) := by
  obtain ⟨hlane, hgrants, hfly, -, hsound⟩ := h.of_wave hc
  obtain ⟨-, -, hspace, -⟩ := id hgrants
  have hcheck : capCheck (s.kUse o.cap) barSpaces permBA = none := capCheck_of_grants hgrants
  have hkeys := State.capKeys_wave (s := s) (w := w) hspace .store (s.sReg o.a) (16 + n)
  unfold State.barIssue
  rw [State.agentEnv_wave hc, State.unlessSpec_none hfly.1,
    State.capIssue_passed (r := { ci := o.cap, spaces := barSpaces, mask := permBA, acc := .store, n := 16 + n, align := 16 + n }) hcheck hlane hkeys]
  dsimp only
  rw [(h.ready.wave w hc).flushBytes, take_keyRun, keyRun_sound hsound, keyRun_headD _ _ (by omega), if_neg Bool.false_ne_true]

/-- A barrier word of a sequencer whose checks pass reaches its object. -/
theorem State.mayBar.seqBarIssue {s : State} {k ci off n : Nat} (h : s.mayBar ci off (16 + n)) (hc : s.cur = .seq k) (body : State → Nat → State) :
    s.seqBarIssue k ci off (16 + n) body = body s (s.objectPlace s.agentEnv (s.kUse ci) off) := by
  obtain ⟨hlane, hgrants, hsound, hidem, -, -, -⟩ := h.of_seq hc
  obtain ⟨-, -, hspace, -⟩ := id hgrants
  rw [State.seqBarIssue, State.outsideRegion, hidem, State.barrierAt, capCheck_of_grants hgrants, State.agentEnv_seq hc, State.kUse_seq hc]
  dsimp only
  rw [hlane, State.capKeys_pool (by simpa using hspace)]
  dsimp only
  rw [take_keyRun, keyRun_sound hsound, keyRun_headD _ _ (by omega), if_neg Bool.false_ne_true, if_neg Bool.false_ne_true]

/-- Nothing of the sequencer's own holds the operation (R113, R299). -/
theorem State.mayBar.seqGo {s : State} {k ci off n : Nat} (h : s.mayBar ci off n) (hc : s.cur = .seq k) (body : State → State) :
    s.seqDrain k (s.seqAfterGate k body) = body s := by
  obtain ⟨-, -, -, -, hdrained, hgate, -⟩ := h.of_seq hc
  rw [State.seqDrain, if_pos hdrained, State.seqAfterGate, hgate]

/-! ### BINIT (R293) -/

/-- The near memories lie outside the L2. -/
theorem linesOf_near {cells : List (Nat × Byte × Byte)} (h : ∀ c ∈ cells, 2 ^ 48 ≤ c.1) : linesOf cells = [] := by
  induction cells with
  | nil => rfl
  | cons c rest ih =>
    have hc := h c (List.mem_cons_self ..)
    rw [linesOf, if_neg fun e => absurd e.1 (by omega), ih fun d hd => h d (List.mem_cons_of_mem _ hd)]

/-- A write of plain cells of a near memory changes nothing of the memory system but the store. -/
theorem State.plainCells.writeAtHome_mem {s : State} {cells : List (Nat × Byte × Byte)} (h : s.plainCells cells) (hn : ∀ c ∈ cells, 2 ^ 48 ≤ c.1)
    (by_ : Option Nat) (tag : Option Bool) : (s.writeAtHome by_ cells tag).mem = { s.mem with store := s.store.write cells tag } := by
  have harmed : ∀ g ∈ granulesOf cells, (s.written cells tag).store.armed.contains g = false := fun g hg => by
    obtain ⟨c, hc, rfl⟩ := mem_granulesOf hg
    rw [State.written_store, Store.write_armed]
    exact h c hc
  rw [State.writeAtHome_eq, State.foldl_testArmed_plain harmed]
  show (List.foldl State.wakeGranule _ _).mem = _
  rw [foldl_fixed State.mem _ _ _ State.wakeGranule_mem, State.written, l2Write, linesOf_near hn]
  rfl

/-- The zeros of a future's second half, which no armed granule holds. -/
theorem State.futureZero_step {s : State} {a : Nat} (hr : s.barReady) (ha : 2 ^ 48 ≤ a)
    (harm : ∀ i, i < 16 → s.store.armed.contains ((a + 16 + i) / 16) = false) (by_ : Option Nat) :
    s.barStep (s.writeAtHome by_ (futureZero a) none) a 32
      ∧ ∀ i, i < 16 → (s.writeAtHome by_ (futureZero a) none).store.byte (a + 16 + i) = 0 := by
  have hcells : ∀ c ∈ futureZero a, a + 16 ≤ c.1 ∧ c.1 < a + 32 := fun c hc => by
    have := mem_wholeCells hc
    rw [List.length_replicate] at this
    omega
  have hp : s.plainCells (futureZero a) := fun c hc => by
    obtain ⟨h1, h2⟩ := hcells c hc
    have := harm (c.1 - (a + 16)) (by omega)
    rwa [show a + 16 + (c.1 - (a + 16)) = c.1 by omega] at this
  have hstore := (hp.writeAtHome by_ none).1
  have hmem := hp.writeAtHome_mem (fun c hc => by have := hcells c hc; omega) by_ none
  refine ⟨(s.homeStep_writeAtHome _ _ _).barStep (s.seqsRun_writeAtHome _ _ _) hr (by rw [hmem, ← hstore]) fun b hb => ?_, fun i hi => ?_⟩
  · rw [hstore, Store.byte_write]
    exact Store.byte_putCells_other _ _ _ fun c hc => by have := hcells c hc; omega
  · rw [hstore, Store.byte_write]
    exact Store.byte_putWhole _ _ _ _ _ (by rw [List.getElem?_replicate_of_lt hi])

theorem State.objectPlace_near (s : State) (e : Env) (c : Capv) (off : Nat) : 2 ^ 48 ≤ s.objectPlace e c off := by
  unfold State.objectPlace
  split <;> omega

theorem initSize_ge (v : Nat) : 16 ≤ initSize v := by
  unfold initSize
  split <;> omega

/-- What BINIT makes of an object is an object (R128). -/
theorem initOver_sized (v : Nat) (shut : Bool) {b : BarObj} (h : b.sized) : (initOver v shut b).sized := by
  unfold initOver
  split
  · exact h
  · exact (initObj_sized v).test

/-- BINIT on an object, with the zeros of a future before it (R293): what an operation of the agent then leaves. -/
theorem State.binit_step {s : State} {a v : Nat} (hr : s.barReady) (ha : 2 ^ 48 ≤ a)
    (harm : initSize v = 32 → ∀ i, i < 16 → s.store.armed.contains ((a + 16 + i) / 16) = false) (by_ : Option Nat) (op : State → State)
    (hop : ∀ t, t.cur = s.cur → t.barReady → t.barStep (op t) a 16 ∧ (op t).store.barrier a = initOver v (s.gridShut a) (t.store.barrier a)) :
    let t := op (if zeroesFuture (initSize v) (s.gridShut a) then s.writeAtHome by_ (futureZero a) none else s)
    s.barStep t a (initSize v) ∧ (s.gridShut a = true → t.store.barrier a = s.store.barrier a)
      ∧ (s.gridShut a = false → t.store.barrier a = barTest (initObj v)
        ∧ (initSize v = 32 → ∀ i, i < 16 → t.store.byte (a + 16 + i) = 0)) := by
  by_cases hz : zeroesFuture (initSize v) (s.gridShut a) = true
  · obtain ⟨hn, hs⟩ : initSize v = 32 ∧ s.gridShut a = false := by simpa [zeroesFuture] using hz
    obtain ⟨hstep, hzero⟩ := State.futureZero_step hr ha (harm hn) by_
    obtain ⟨hop, hobj⟩ := hop _ hstep.cur (hstep.ready hr)
    rw [if_pos hz]
    refine ⟨(hn ▸ hstep).trans (hop.mono (initSize_ge v)), fun h => absurd (hs.symm.trans h) Bool.false_ne_true, fun _ => ⟨?_, fun _ i hi => ?_⟩⟩
    · rw [hobj, hs]; rfl
    · rw [hop.bytes _ (by omega), hzero i hi]
  · obtain ⟨hop, hobj⟩ := hop s rfl hr
    rw [if_neg hz]
    refine ⟨hop.mono (initSize_ge v), fun h => ?_, fun h => ⟨?_, fun hn => ?_⟩⟩
    · rw [hobj, h]; rfl
    · rw [hobj, h]; rfl
    · exact absurd (by simp [zeroesFuture, hn, h]) hz

theorem State.seqFinish_store (s : State) (k n : Nat) : (s.seqFinish k n).store = s.store := rfl

theorem binit_gives {s : State} {a : Nat} {o : Sys2Proof.Bar} (hg : initGridOk s.agentMod (s.sReg o.d) = true)
    (hm : s.mayBar o.cap (s.sReg o.a) (initSize (s.sReg o.d))) (ha : a = s.objectPlace s.agentEnv (s.kUse o.cap) (s.sReg o.a))
    (harm : initSize (s.sReg o.d) = 32 → ∀ i, i < 16 → s.store.armed.contains ((a + 16 + i) / 16) = false) :
    Answer.gives (exec (.binit o) s) (fun t => s.barFrame t a (initSize (s.sReg o.d))
      ∧ (s.gridShut a = true → t.store.barrier a = s.store.barrier a)
      ∧ (s.gridShut a = false → t.store.barrier a = barTest (initObj (s.sReg o.d))
        ∧ (initSize (s.sReg o.d) = 32 → ∀ i, i < 16 → t.store.byte (a + 16 + i) = 0))) := by
  have hr := hm.ready
  have hn : initSize (s.sReg o.d) = 16 + (initSize (s.sReg o.d) - 16) := by have := initSize_ge (s.sReg o.d); omega
  have hnear : 2 ^ 48 ≤ a := ha ▸ State.objectPlace_near ..
  have hfit := fun t : State => initOver_sized (s.sReg o.d) (s.gridShut a) (t.store.barrier_sized a)
  rw [hn] at hm
  rcases hm.agent with ⟨w, hc⟩ | ⟨k, hc⟩
  · have hready := hr.wave w hc
    obtain ⟨-, -, -, hgate, -⟩ := hm.of_wave hc
    obtain ⟨hstep, hkept, hinit⟩ := State.binit_step (v := s.sReg o.d) hr hnear harm (some w)
      (fun t => t.waveBarrier w a (initOver (s.sReg o.d) (s.gridShut a)))
      fun t hcur ht => State.waveBarrier_step (hcur.trans hc) ht (hfit t)
    refine ⟨_, ?_, hstep.finish hc o.mark, fun hs => ?_, fun hs => ?_⟩
    · have he : exec (.binit o) s = .next _ := State.onAgent_wave hc _ _
      rw [he, hg, hn, hm.barIssue hc, ← ha, State.afterGate_none hgate]
      dsimp only
      rw [hready.flushBytes]
    · rw [State.finish_store_frame]; exact hkept hs
    · rw [State.finish_store_frame]; exact hinit hs
  · obtain ⟨hstep, hkept, hinit⟩ := State.binit_step (v := s.sReg o.d) hr hnear harm none
      (fun t => t.seqBarrier k a (initOver (s.sReg o.d) (s.gridShut a)))
      fun t hcur ht => State.seqBarrier_step (hcur.trans hc) ht (hfit t)
    refine ⟨_, ?_, hstep.seqFinish hc (hr.seq k hc), fun hs => ?_, fun hs => ?_⟩
    · have he : exec (.binit o) s = .next _ := State.onAgent_seq hc _ _
      rw [he, hg, hn, hm.seqBarIssue hc, ← ha, if_neg (by decide), hm.seqGo hc]
    · rw [State.seqFinish_store]; exact hkept hs
    · rw [State.seqFinish_store]; exact hinit hs

/-! ### BEXP and BARR (R294) -/

theorem State.mayBar.barIssue_object {s : State} {w : Nat} {o : Sys2Proof.Bar} (h : s.mayBar o.cap (s.sReg o.a) 16) (hc : s.cur = .wave w)
    (body : State → Nat → State) : s.barIssue w o true 16 body = body s (s.objectPlace s.agentEnv (s.kUse o.cap) (s.sReg o.a)) :=
  State.mayBar.barIssue (n := 0) h hc body

theorem State.mayBar.seqBarIssue_object {s : State} {k ci off : Nat} (h : s.mayBar ci off 16) (hc : s.cur = .seq k) (body : State → Nat → State) :
    s.seqBarIssue k ci off 16 body = body s (s.objectPlace s.agentEnv (s.kUse ci) off) :=
  State.mayBar.seqBarIssue (n := 0) h hc body

theorem bexp_gives {s : State} {a : Nat} {o : Sys2Proof.Bar} (hm : s.mayBar o.cap (s.sReg o.a) 16)
    (ha : a = s.objectPlace s.agentEnv (s.kUse o.cap) (s.sReg o.a)) :
    Answer.gives (exec (.bexp o) s) (fun t => s.barFrame t a 16 ∧ t.store.barrier a = barAddBytes (s.store.barrier a) (sInt 64 (s.sReg o.d))) := by
  have hr := hm.ready
  have hfit := (s.store.barrier_sized a).addBytes (sInt 64 (s.sReg o.d))
  rcases hm.agent with ⟨w, hc⟩ | ⟨k, hc⟩
  · obtain ⟨-, -, -, hgate, -⟩ := hm.of_wave hc
    obtain ⟨hstep, hobj⟩ := State.waveBarrier_step (f := fun b => barAddBytes b (sInt 64 (s.sReg o.d))) hc hr hfit
    refine ⟨_, ?_, hstep.finish hc o.mark, ?_⟩
    · have he : exec (.bexp o) s = .next _ := State.onAgent_wave hc _ _
      rw [he, hm.barIssue_object hc, ← ha, State.afterGate_none hgate]
    · rw [State.finish_store_frame]; exact hobj
  · obtain ⟨hstep, hobj⟩ := State.seqBarrier_step (f := fun b => barAddBytes b (sInt 64 (s.sReg o.d))) hc hr hfit
    refine ⟨_, ?_, hstep.seqFinish hc (hr.seq k hc), ?_⟩
    · have he : exec (.bexp o) s = .next _ := State.onAgent_seq hc _ _
      rw [he, hm.seqBarIssue_object hc, ← ha, hm.seqGo hc]
    · rw [State.seqFinish_store]; exact hobj

/-- Every lane of a uniform access reaches the same object. -/
theorem State.locate_object {s : State} {w off : Nat} {c : Capv} {r : MemReq} (hl : s.laneCheck (s.waveEnv w) c off r.n r.align = none)
    (hs : c.space ∈ [1, 2]) (hh : r.host = true) (ls : List (Nat × Nat)) :
    s.locate (s.waveEnv w) c r (ls.map (fun e => (e.1, e.2, off))) = (s, [], ls.map (fun e =>
      { lane := e.1, thread := e.2, off := off, keys := keyRun (s.objectPlace (s.waveEnv w) c off) 0 r.n })) := by
  induction ls with
  | nil => rfl
  | cons e ls ih =>
    rw [List.map_cons, State.locate, hl]
    dsimp only
    rw [State.capKeys_wave hs]
    dsimp only
    rw [ih, if_neg (by simp [hh])]
    rfl

/-- The arrivals of a wave's lanes, one after another (R131). -/
theorem State.arrivals_step {α : Type} {s : State} {w : Nat} (hc : s.cur = .wave w) (hr : s.barReady) (a : Nat) (l : List α) :
    s.barStep (l.foldl (fun u _ => u.waveBarrier w a barArrive) s) a 16
      ∧ (l.foldl (fun u _ => u.waveBarrier w a barArrive) s).store.barrier a = l.foldl (fun b _ => barArrive b) (s.store.barrier a) := by
  induction l generalizing s with
  | nil => exact ⟨.refl s a 16, rfl⟩
  | cons x l ih =>
    obtain ⟨hstep, hobj⟩ := State.waveBarrier_step hc hr (s.store.barrier_sized a).arrive
    obtain ⟨hrest, hlast⟩ := ih (hstep.cur.trans hc) (hstep.ready hr)
    exact ⟨hstep.trans hrest, hlast.trans (by rw [hobj]; rfl)⟩

theorem arrivals_length {α : Type} (b : BarObj) (l : List α) : l.foldl (fun b _ => barArrive b) b = arrivals b l.length := by
  rw [arrivals, List.foldl_const, List.foldl_const, List.length_range]

theorem barr_wave {s : State} {w a : Nat} {o : Barr} (hc : s.cur = .wave w) (hm : s.mayBar o.cap (s.sReg o.a) 16)
    (ha : a = s.objectPlace s.agentEnv (s.kUse o.cap) (s.sReg o.a)) (hact : s.activeLanes w o.g ≠ [])
    (hrel : s.releaseDone w (barScope (s.kUse o.cap).space (s.store.barrier a)) = true) :
    Answer.gives (exec (.barr o) s) (fun t => s.barFrame t a 16
      ∧ t.store.barrier a = arrivals (s.store.barrier a) (s.activeLanes w o.g).length) := by
  have hr := hm.ready
  obtain ⟨hlane, hgrants, hfly, hgate, hsound⟩ := hm.of_wave hc
  obtain ⟨-, -, hspace, -⟩ := id hgrants
  have hspec := hfly.1
  have hreach : s.reaches w o.g { ci := o.cap, spaces := barSpaces, mask := permBA, acc := .store, n := 16, align := 16 } (fun _ => s.sReg o.a) s
      ((s.activeLanes w o.g).map (fun e => { lane := e.1, thread := e.2, off := s.sReg o.a, keys := keyRun a 0 16 })) := by
    rw [ha, State.agentEnv_wave hc]
    exact ⟨hgrants, State.locate_object hlane hspace rfl _⟩
  have hok : s.lanesOk w o.g [] [] := by
    refine ⟨hc, by simp, by simp, fun e _ => ?_, ?_⟩
    · rw [Thread.poisonedSlice]; split <;> rfl
    · rw [State.specOverflow, hspec]
  obtain ⟨hstep, hobj⟩ := State.arrivals_step hc hr a
    ((s.activeLanes w o.g).map (fun e => ({ lane := e.1, thread := e.2, off := s.sReg o.a, keys := keyRun a 0 16 } : LaneAcc)))
  rw [arrivals_length, List.length_map] at hobj
  refine ⟨_, ?_, hstep.finish hc o.mark, ?_⟩
  · have he : exec (.barr o) s = .next _ := State.onAgent_wave hc _ _
    rw [he, State.unlessSpec_none hspec, hreach.memIssue (x := ⟨o.mark, o.g, true, [], []⟩) hok rfl]
    rw [ha, State.agentEnv_wave hc] at hrel ⊢
    cases hl : s.activeLanes w o.g with
    | nil => exact absurd hl hact
    | cons e rest =>
      rw [List.map_cons]
      dsimp only
      rw [keyRun_headD _ _ (by omega), (hr.wave w hc).flushBytes, keyRun_sound hsound, if_neg Bool.false_ne_true, State.afterGate_none hgate,
        State.afterRelease, if_pos hrel]
  · rw [State.finish_store_frame]; exact hobj

theorem barr_seq {s : State} {k a : Nat} {o : Barr} (hc : s.cur = .seq k) (hm : s.mayBar o.cap (s.sReg o.a) 16)
    (ha : a = s.objectPlace s.agentEnv (s.kUse o.cap) (s.sReg o.a))
    (hrel : s.seqReleaseDone k (barScope (s.kUse o.cap).space (s.store.barrier a)) = true) :
    Answer.gives (exec (.barr o) s) (fun t => s.barFrame t a 16 ∧ t.store.barrier a = arrivals (s.store.barrier a) 1) := by
  have hr := hm.ready
  obtain ⟨hstep, hobj⟩ := State.seqBarrier_step (f := barArrive) hc hr (s.store.barrier_sized a).arrive
  refine ⟨_, ?_, hstep.seqFinish hc (hr.seq k hc), ?_⟩
  · have he : exec (.barr o) s = .next _ := State.onAgent_seq hc _ _
    rw [he, hm.seqBarIssue_object hc, ← ha, hm.seqGo hc, State.seqAfterRelease, if_pos hrel]
  · rw [State.seqFinish_store]; exact hobj

/-! ### BWAIT and BTST (R295) -/

/-- A wave passes its word with a STATUS. -/
theorem State.statusFrame_wave {s : State} {w : Nat} (hc : s.cur = .wave w) (mark : Bool) (st : Nat) :
    s.statusFrame ((s.setStatus w st).finish w mark) mark st := by
  have hw : (s.setStatus w st).wave w = { s.wave w with cc := { (s.wave w).cc with status := st } } := State.setWave_wave_same ..
  unfold State.statusFrame
  split <;> rename_i hx <;> cases hc.symm.trans hx
  refine ⟨rfl, fun x hx => ?_, ?_⟩
  · rw [State.finish_wave_other _ hx]
    exact (State.setWave_wave ..).trans (if_neg hx)
  · rw [State.finish_wave, hw]
    rfl

/-- A sequencer passes its word with a STATUS. -/
theorem State.statusFrame_seq {s : State} {k : Nat} (hc : s.cur = .seq k) (mark : Bool) (st : Nat) :
    s.statusFrame ((s.seqStatus k st).seqFinish k 1) mark st := by
  unfold State.statusFrame
  split <;> rename_i hx <;> cases hc.symm.trans hx
  refine ⟨rfl, fun j hj => ?_, ?_⟩
  · rw [State.seqFinish_cluster_other _ hj]
    exact (State.setCluster_cluster ..).trans (if_neg hj)
  · rw [State.seqFinish_cluster, State.seqStatus, State.setSeq_seqOf_same, State.setSeq, State.setCluster_cluster_same]
    rfl

/-- What the selected agent's BTST tells (R295). -/
theorem btst_gives {s : State} {a : Nat} {o : Sys2Proof.Bar} (hm : s.mayBar o.cap (s.sReg o.a) 16)
    (ha : a = s.objectPlace s.agentEnv (s.kUse o.cap) (s.sReg o.a)) :
    Answer.gives (exec (.btst o) s) (fun t => s.statusFrame t o.mark (testStatus (s.store.barrier a) (s.sReg o.d % 65536))) := by
  rcases hm.agent with ⟨w, hc⟩ | ⟨k, hc⟩
  · refine ⟨_, ?_, State.statusFrame_wave hc o.mark _⟩
    have he : exec (.btst o) s = .next _ := State.onAgent_wave hc _ _
    rw [he, hm.barIssue_object hc, ← ha]
    dsimp only
    rw [(hm.ready.wave w hc).flushBytes]
  · refine ⟨_, ?_, State.statusFrame_seq hc o.mark _⟩
    have he : exec (.btst o) s = .next _ := State.onAgent_seq hc _ _
    rw [he, hm.seqBarIssue_object hc, ← ha]

/-- BWAIT of a wave on an object that it may use (R295). -/
theorem bwait_wave {s : State} {w a : Nat} {o : Sys2Proof.Bar} (hc : s.cur = .wave w) (hm : s.mayBar o.cap (s.sReg o.a) 16)
    (ha : a = s.objectPlace s.agentEnv (s.kUse o.cap) (s.sReg o.a)) :
    exec (.bwait o) s = .next (if phaseReached (s.store.barrier a).phase (s.sReg o.d % 65536)
      then (s.setStatus w (barStatus (s.store.barrier a))).finish w o.mark else s.parkBwait w a (s.sReg o.d % 65536) o.mark) := by
  have he : exec (.bwait o) s = .next _ := State.onAgent_wave hc _ _
  rw [he, hm.barIssue_object hc, ← ha]
  dsimp only
  rw [(hm.ready.wave w hc).flushBytes]

/-- BWAIT of a sequencer whose deadline has not passed (R295, R301). -/
theorem bwait_seq {s : State} {k a : Nat} {o : Sys2Proof.Bar} (hc : s.cur = .seq k) (hd : (s.seqOf k).deadline = false)
    (hm : s.mayBar o.cap (s.sReg o.a) 16) (ha : a = s.objectPlace s.agentEnv (s.kUse o.cap) (s.sReg o.a)) :
    exec (.bwait o) s = .next (if phaseReached (s.store.barrier a).phase (s.sReg o.d % 65536)
      then (s.seqStatus k (barStatus (s.store.barrier a))).seqFinish k 1 else s.seqParkBwait k a (s.sReg o.d % 65536)) := by
  have he : exec (.bwait o) s = .next _ := State.onAgent_seq hc _ _
  rw [he, hm.seqBarIssue_object hc, ← ha]
  dsimp only
  rw [hd, if_neg Bool.false_ne_true]

theorem bwait_reached {s : State} {a : Nat} {o : Sys2Proof.Bar} (hm : s.mayBar o.cap (s.sReg o.a) 16)
    (ha : a = s.objectPlace s.agentEnv (s.kUse o.cap) (s.sReg o.a)) (hd : ∀ k, s.cur = .seq k → (s.seqOf k).deadline = false)
    (hp : phaseReached (s.store.barrier a).phase (s.sReg o.d % 65536) = true) :
    Answer.gives (exec (.bwait o) s) (fun t => s.statusFrame t o.mark (barStatus (s.store.barrier a))) := by
  rcases hm.agent with ⟨w, hc⟩ | ⟨k, hc⟩
  · rw [bwait_wave hc hm ha, if_pos hp]
    exact ⟨_, rfl, State.statusFrame_wave hc o.mark _⟩
  · rw [bwait_seq hc (hd k hc) hm ha, if_pos hp]
    exact ⟨_, rfl, State.statusFrame_seq hc o.mark _⟩

/-- A wave that parks in BWAIT changes its own park and its count of cycles alone. -/
theorem State.parkBwait_wave (s : State) (w a q : Nat) (mark : Bool) : (s.parkBwait w a q mark).wave w = { s.wave w with
    park := .bwait a q (s.cycles (s.waveCluster w)) mark, lastPark := s.coreCycles (s.waveCore w), wdBase := s.wdCount w } := by
  rw [State.parkBwait, State.setWave_wave_same, State.park, State.setWave_wave_same]

theorem State.parkBwait_wave_other (s : State) {w x : Nat} (h : x ≠ w) (a q : Nat) (mark : Bool) : (s.parkBwait w a q mark).wave x = s.wave x := by
  rw [State.parkBwait, State.setWave_wave, if_neg h, State.park, State.setWave_wave, if_neg h]

theorem bwait_parks {s : State} {a : Nat} {o : Sys2Proof.Bar} (hm : s.mayBar o.cap (s.sReg o.a) 16)
    (ha : a = s.objectPlace s.agentEnv (s.kUse o.cap) (s.sReg o.a)) (hd : ∀ k, s.cur = .seq k → (s.seqOf k).deadline = false)
    (hp : phaseReached (s.store.barrier a).phase (s.sReg o.d % 65536) = false) :
    Answer.gives (exec (.bwait o) s) (fun t =>
      (∀ w, s.cur = .wave w → t = { s with waves := t.waves } ∧ (∀ x, x ≠ w → t.wave x = s.wave x)
        ∧ t.wave w = { s.wave w with
            park := .bwait a (s.sReg o.d % 65536) (s.cycles (s.waveCluster w)) o.mark, lastPark := (t.wave w).lastPark, wdBase := s.wdCount w })
      ∧ (∀ k, s.cur = .seq k → t = { s with clusters := t.clusters } ∧ (∀ j, j ≠ k → t.cluster j = s.cluster j)
        ∧ t.cluster k = { s.cluster k with seq := { s.seqOf k with
            park := .bwait a (s.sReg o.d % 65536) s.dt false, preamble := false } })) := by
  rcases hm.agent with ⟨w, hc⟩ | ⟨k, hc⟩
  · rw [bwait_wave hc hm ha, if_neg (by rw [hp]; exact Bool.false_ne_true)]
    refine ⟨_, rfl, fun x hx => ?_, fun k hk => by cases hc.symm.trans hk⟩
    cases hc.symm.trans hx
    refine ⟨rfl, fun x hx => State.parkBwait_wave_other s hx .., ?_⟩
    rw [State.parkBwait_wave]
  · rw [bwait_seq hc (hd k hc) hm ha, if_neg (by rw [hp]; exact Bool.false_ne_true)]
    refine ⟨_, rfl, fun w hw => (by cases hc.symm.trans hw), fun x hx => ?_⟩
    cases hc.symm.trans hx
    exact ⟨rfl, fun j hj => (State.setCluster_cluster ..).trans (if_neg hj), State.setCluster_cluster_same ..⟩

/-- Settles O24: every operation is a step of the agent at the object's bank, and a wait reads the object's phase. -/
theorem barriers : Obligations.Barriers := by
  refine ⟨fun s a => ⟨fun o hg hm ha harm => binit_gives hg hm ha harm, fun o hm ha => bexp_gives hm ha, fun o hm ha =>
    ⟨fun w hc hact hrel => barr_wave hc hm ha hact hrel, fun k hc hrel => barr_seq hc hm ha hrel⟩⟩, fun s a o hm ha hd => ?_⟩
  have hreach : phaseReached (s.store.barrier a).phase (s.sReg o.d % 65536)
      = decide (((s.store.barrier a).phase + 65536 - s.sReg o.d % 65536) % 65536 < 32768) := by
    rw [phaseReached, Nat.mod_mod]
  refine ⟨fun h => ?_, fun h => ?_, ?_⟩
  · exact bwait_reached hm ha hd (by rw [hreach]; exact decide_eq_true h)
  · exact bwait_parks hm ha hd (by rw [hreach]; exact decide_eq_false h)
  · refine (btst_gives hm ha).imp fun t ht => ⟨ht.1, ?_⟩
    have hst := ht.2
    rw [testStatus, hreach] at hst
    by_cases h : ((s.store.barrier a).phase + 65536 - s.sReg o.d % 65536) % 65536 < 32768
    · rw [if_pos (decide_eq_true h)] at hst
      rw [if_pos h]
      exact hst
    · rw [if_neg (by rw [decide_eq_false h]; exact Bool.false_ne_true)] at hst
      rw [if_neg h]
      exact hst

end Sys2Proof.Machine
end

section
/-! ## O25: the release sluice and grid barriers (R139 to R145, R370) -/

namespace Sys2Proof.Machine

open Sys2Proof

/-! ### Waves that leave a release queue (R145) -/

/-- A wave that has left its release queue; a wave that was not in one stays as it is. -/
def State.outOfQueue (s : State) (w : Nat) (v : Wave) : Wave :=
  match v.park with
  | .queued _ _ st _ m => { v with
      word := v.word + 1, retry := none, held := none, wdSince := s.coreCycles (s.waveCore w), readyAt := s.coreCycles (s.waveCore w)
      lastPark := if m = true ∧ v.pend ≠ [] then s.coreCycles (s.waveCore w) else v.lastPark
      cc := { v.cc with status := st }
      know := if st = 2 then v.know else joinKnow v.know (s.group (groupOf w)).hist.released
      park := if m = true ∧ v.pend ≠ [] then .marker else .run }
  | _ => v

theorem State.outOfQueue_queued {v : Wave} {a q st y : Nat} {m : Bool} (h : v.park = .queued a q st y m) (s : State) (w : Nat) :
    s.outOfQueue w v = { v with
      word := v.word + 1, retry := none, held := none, wdSince := s.coreCycles (s.waveCore w), readyAt := s.coreCycles (s.waveCore w)
      lastPark := if m = true ∧ v.pend ≠ [] then s.coreCycles (s.waveCore w) else v.lastPark
      cc := { v.cc with status := st }
      know := if st = 2 then v.know else joinKnow v.know (s.group (groupOf w)).hist.released
      park := v.afterWait m } := by
  unfold State.outOfQueue
  rw [h]
  rfl

theorem State.outOfQueue_other {v : Wave} (h : ∀ a q st y m, v.park ≠ .queued a q st y m) (s : State) (w : Nat) : s.outOfQueue w v = v := by
  unfold State.outOfQueue
  split
  · rename_i hp; exact absurd hp (h _ _ _ _ _)
  · rfl

theorem State.outOfQueue_idem (s : State) (w : Nat) (v : Wave) : s.outOfQueue w (s.outOfQueue w v) = s.outOfQueue w v := by
  refine s.outOfQueue_other (fun a q st y m hp => ?_) w
  by_cases hq : ∃ a q st y m, v.park = .queued a q st y m
  · obtain ⟨b, p, su, z, n, hv⟩ := hq
    rw [s.outOfQueue_queued hv] at hp
    dsimp only [Wave.afterWait] at hp
    split at hp <;> exact Park.noConfusion hp
  · have hv : ∀ a q st y m, v.park ≠ .queued a q st y m := fun a q st y m h => hq ⟨a, q, st, y, m, h⟩
    rw [s.outOfQueue_other hv] at hp
    exact hv _ _ _ _ _ hp

/-- What a released wave knows and when are matters of the machine around it. -/
theorem State.outOfQueue_congr {s t : State} (h : t = { s with waves := t.waves, free := t.free }) (w : Nat) (v : Wave) :
    t.outOfQueue w v = s.outOfQueue w v := by rw [h]; rfl

theorem State.releaseWave_machine (s : State) (w : Nat) :
    s.releaseWave w = { s with waves := (s.releaseWave w).waves, free := (s.releaseWave w).free } := by
  unfold State.releaseWave
  split
  · unfold State.wakeWave
    dsimp only
    split <;> rfl
  · rfl

/-- A wave that wakes with its STATUS. -/
theorem State.wakeWave_wave {s : State} {w a q st y : Nat} {m : Bool} (h : (s.wave w).park = .queued a q st y m) :
    (s.wakeWave w st m).wave w = s.outOfQueue w (s.wave w) := by
  rw [s.outOfQueue_queued h]
  unfold State.wakeWave
  dsimp only
  rw [State.finish_wave]
  by_cases hst : st = 2
  · rw [if_pos hst, if_pos hst, State.setStatus, State.setCc, State.setWave_wave_same, State.setWave_wave_same]
    rfl
  · rw [if_neg hst, if_neg hst, State.setStatus, State.setCc, State.setWave_wave_same, State.orderRegs, State.setWave_wave_same,
      State.setWave_wave_same]
    rfl

theorem State.wakeWave_wave_other (s : State) {w x : Nat} (h : x ≠ w) (st : Nat) (m : Bool) : (s.wakeWave w st m).wave x = s.wave x := by
  unfold State.wakeWave
  dsimp only
  rw [State.finish_wave_other _ h, State.setStatus, State.setCc, State.setWave_wave, if_neg h]
  split
  · rw [State.setWave_wave, if_neg h]
  · rw [State.orderRegs, State.setWave_wave, if_neg h, State.setWave_wave, if_neg h]

theorem State.releaseWave_wave (s : State) (w x : Nat) :
    (s.releaseWave w).wave x = if x = w then s.outOfQueue w (s.wave w) else s.wave x := by
  unfold State.releaseWave
  split
  · rename_i a q st y m hp
    split
    · rename_i hx; rw [hx, State.wakeWave_wave hp]
    · rename_i hx; exact s.wakeWave_wave_other hx st m
  · rename_i hp
    rw [s.outOfQueue_other hp]
    split
    · rename_i hx; rw [hx]
    · rfl

/-- A release step wakes the waves that it takes and no other. -/
theorem State.releaseWaves (s : State) (l : List Nat) :
    l.foldl State.releaseWave s = { s with waves := (l.foldl State.releaseWave s).waves, free := (l.foldl State.releaseWave s).free }
      ∧ ∀ x, (l.foldl State.releaseWave s).wave x = if x ∈ l then s.outOfQueue x (s.wave x) else s.wave x := by
  induction l generalizing s with
  | nil => exact ⟨rfl, fun x => (if_neg List.not_mem_nil).symm⟩
  | cons w l ih =>
    have hm := s.releaseWave_machine w
    obtain ⟨hrest, hwaves⟩ := ih (s.releaseWave w)
    rw [List.foldl_cons]
    refine ⟨by rw [hrest, hm], fun x => ?_⟩
    rw [hwaves x, State.outOfQueue_congr hm, State.releaseWave_wave]
    by_cases hx : x = w
    · subst hx
      rw [if_pos rfl, State.outOfQueue_idem, ite_self, if_pos (List.mem_cons_self ..)]
    · rw [if_neg hx]
      simp only [List.mem_cons, hx, false_or]

/-- Only a cluster's clock tells when a wave has left. -/
theorem State.outOfQueue_setCluster {s : State} {k : Nat} {v : ClusterSt} (h : v.clock = (s.cluster k).clock) (w : Nat) (x : Wave) :
    (s.setCluster k v).outOfQueue w x = s.outOfQueue w x := by
  have hclock : ∀ n, ((s.setCluster k v).cluster n).clock = (s.cluster n).clock := fun n => by
    rw [State.setCluster_cluster]
    split
    · rename_i hn; rw [hn, h]
    · rfl
  have hcore : ∀ n, (s.setCluster k v).coreCycles n = s.coreCycles n := fun n => by
    unfold State.coreCycles State.cycles
    rw [hclock]
    rfl
  unfold State.outOfQueue
  rw [hcore]
  rfl

theorem sluiceReleaseStep_gives {s : State} {k : Nat} (hq : (s.cluster k).relQ ≠ [])
    (hdue : ∀ x, (s.cluster k).sluiceAt = some x →
      x + sluiceSpacing (s.cluster k).cslrEstimate (s.cluster k).cslrStep (s.cluster k).cslrLimit ≤ s.cycles k) :
    Answer.gives (exec (.sluiceReleaseStep k) s) (fun t =>
      t = { s with waves := t.waves, clusters := t.clusters, free := t.free } ∧ (∀ j, j ≠ k → t.cluster j = s.cluster j)
      ∧ t.cluster k = { s.cluster k with relQ := (s.cluster k).relQ.drop ((s.cluster k).cslrStep + 1), sluiceAt := some (s.cycles k) }
      ∧ ∀ x, t.wave x = if x ∈ (s.cluster k).relQ.take ((s.cluster k).cslrStep + 1) then s.outOfQueue x (s.wave x) else s.wave x) := by
  obtain ⟨hm, hw⟩ := State.releaseWaves
    (s.setCluster k { s.cluster k with relQ := (s.cluster k).relQ.drop ((s.cluster k).cslrStep + 1), sluiceAt := some (s.cycles k) })
    ((s.cluster k).relQ.take ((s.cluster k).cslrStep + 1))
  have hexec : exec (.sluiceReleaseStep k) s = execSluiceReleaseStep k s := rfl
  unfold execSluiceReleaseStep at hexec
  dsimp only at hexec
  rw [hexec, if_neg]
  · refine ⟨_, rfl, by rw [hm]; rfl, fun j hj => ?_, ?_, fun x => ?_⟩
    · rw [State.cluster, hm]
      exact (State.setCluster_cluster ..).trans (if_neg hj)
    · rw [State.cluster, hm]
      exact State.setCluster_cluster_same ..
    · exact (hw x).trans (ite_congr rfl (fun _ => State.outOfQueue_setCluster (by rfl) x _) fun _ => rfl)
  · rintro (h | h)
    · exact hq h
    · split at h
      · exact Bool.noConfusion h
      · rename_i x hx
        exact of_decide_eq_false h (hdue x hx)

/-! ### A crew's arrival, sent and counted (R140, R142, R143) -/

theorem gridCrewArrivalSend_gives {s : State} {crew gid n : Nat} {d : BarrierDecl} (hd : s.gridDecl crew gid = some d)
    (hn : tabFind (s.crew crew).gridHeld gid = some n) (he : (s.crew crew).ended = false) (hk : (s.crew crew).killed = false)
    (hs : (s.crew crew).gridSent.contains gid = false) (hc : gridClosed (s.store.barrier (s.gridPlace crew d)) = true)
    (hsettle : bit (s.store.barrier (s.gridPlace crew d)).flags 12 = true → s.chainsSettled crew n = true) :
    Answer.gives (exec (.gridCrewArrivalSend crew gid) s) (fun t =>
      t = { s with crews := t.crews, sched := { s.sched with gridPort := s.sched.gridPort ++ [(crew, gid)] } }
      ∧ (∀ c, c ≠ crew → t.crew c = s.crew c)
      ∧ t.crew crew = { s.crew crew with gridSent := memberAdd (s.crew crew).gridSent gid }) := by
  have hgo : ¬(bit (s.store.barrier (s.gridPlace crew d)).flags 12 = true ∧ s.chainsSettled crew n = false) := fun h => by
    rw [hsettle h.1] at h
    exact Bool.noConfusion h.2
  have hlive : ¬((s.crew crew).ended = true ∨ (s.crew crew).killed = true ∨ (s.crew crew).gridSent.contains gid = true
      ∨ gridClosed (s.store.barrier (s.gridPlace crew d)) = false) := by
    rw [he, hk, hs, hc]
    decide
  have hexec : exec (.gridCrewArrivalSend crew gid) s = execGridCrewArrivalSend crew gid s := rfl
  unfold execGridCrewArrivalSend at hexec
  dsimp only at hexec
  rw [hd, hn] at hexec
  dsimp only at hexec
  rw [hexec, if_neg hlive, if_neg hgo]
  exact ⟨_, rfl, rfl, fun c hx => (State.setCrew_crew ..).trans (if_neg hx), State.setCrew_crew_same ..⟩

/-- A crew put in its place by core among others (R143). -/
theorem State.byCore_perm (s : State) (x : Nat) (l : List Nat) : (s.byCore x l).Perm (x :: l) := by
  induction l with
  | nil => exact .refl _
  | cons y l ih =>
    rw [State.byCore]
    split
    · exact .refl _
    · exact (ih.cons y).trans (.swap x y l)

theorem State.byCore_sorted (s : State) (x : Nat) {l : List Nat} (h : l.Pairwise (fun y z => (s.crew y).core ≤ (s.crew z).core)) :
    (s.byCore x l).Pairwise (fun y z => (s.crew y).core ≤ (s.crew z).core) := by
  induction l with
  | nil => exact List.pairwise_singleton ..
  | cons y l ih =>
    obtain ⟨hy, hl⟩ := List.pairwise_cons.mp h
    rw [State.byCore]
    split
    · rename_i hx
      refine List.pairwise_cons.mpr ⟨fun z hz => ?_, h⟩
      rcases List.mem_cons.mp hz with rfl | hz
      · exact hx
      · exact hx.trans (hy z hz)
    · rename_i hx
      refine List.pairwise_cons.mpr ⟨fun z hz => ?_, ih hl⟩
      rcases List.mem_cons.mp ((s.byCore_perm x l).mem_iff.mp hz) with rfl | hz
      · omega
      · exact hy z hz

theorem State.byCores_perm (s : State) (l : List Nat) : (l.foldr s.byCore []).Perm l := by
  induction l with
  | nil => exact .refl _
  | cons x l ih => exact (s.byCore_perm x _).trans (ih.cons x)

theorem State.byCores_sorted (s : State) (l : List Nat) : (l.foldr s.byCore []).Pairwise (fun y z => (s.crew y).core ≤ (s.crew z).core) := by
  induction l with
  | nil => exact .nil
  | cons x l ih => exact s.byCore_sorted x ih

/-- A launch that changes together with the scheduler's registers. -/
theorem State.launch_setLaunch_sched (s : State) (l : Nat) (v : Machine.Launch) (r : SchedRegs) :
    ({ s.setLaunch l v with sched := r } : State).launch l = v := s.setLaunch_launch_same l v

/-- What the test of a count makes of a launch and of the port: its own entry, and the journal and the releases of a full one. -/
theorem State.gridTest_frame (s : State) (l key : Nat) :
    s.gridTest l key = { s with
        sched := { s.sched with gridRel := (s.gridTest l key).sched.gridRel, gridJrn := (s.gridTest l key).sched.gridJrn }
        launches := (s.gridTest l key).launches }
      ∧ (∀ x, x ≠ l → (s.gridTest l key).launch x = s.launch x)
      ∧ (s.gridTest l key).launch l = { s.launch l with grids := ((s.gridTest l key).launch l).grids }
      ∧ ∀ x, x ≠ key → tabFind ((s.gridTest l key).launch l).grids x = tabFind (s.launch l).grids x := by
  unfold State.gridTest
  dsimp only
  split
  · rw [State.launch_setLaunch_sched]
    exact ⟨rfl, fun x hx => (State.setLaunch_launch ..).trans (if_neg hx), rfl, fun x hx => tabFind_tabPut_other _ _ _ _ hx⟩
  · exact ⟨rfl, fun _ _ => rfl, rfl, fun _ _ => rfl⟩

/-- A count that has reached 0 (R140, R143, R370). -/
theorem State.gridTest_full {s : State} {l key : Nat} (hp : (s.gridInst l key).pending = 0) (hc : (s.gridInst l key).crews ≠ []) :
    tabFind ((s.gridTest l key).launch l).grids key = some { s.gridInst l key with
        pending := (s.gridInst l key).crews.length, phase := ((s.gridInst l key).phase + 1) % 65536, arrived := [] }
      ∧ (s.gridTest l key).sched.gridJrn = true
      ∧ ∃ cs : List Nat, cs.Perm (s.gridInst l key).crews ∧ cs.Pairwise (fun x y => (s.crew x).core ≤ (s.crew y).core)
        ∧ (s.gridTest l key).sched.gridRel = s.sched.gridRel ++ cs.map (fun c => (c, key / 128)) := by
  rw [State.gridTest, if_pos ⟨hp, hc⟩]
  refine ⟨?_, rfl, _, State.byCores_perm _ _, State.byCores_sorted (s.setLaunch l _) _, rfl⟩
  rw [State.launch_setLaunch_sched]
  exact tabFind_tabPut_same ..

theorem State.gridTest_short {s : State} {l key : Nat} (h : (s.gridInst l key).pending ≠ 0) : s.gridTest l key = s := if_neg fun e => h e.1

/-- A launch that has counted a crew's arrival at a grid barrier, before the count is looked at (R140). -/
def State.arrivedAt (s : State) (crew l key : Nat) : State :=
  s.setLaunch l { s.launch l with
    grids := tabPut (s.launch l).grids key { s.gridInst l key with
      pending := (s.gridInst l key).pending - 1, arrived := memberAdd (s.gridInst l key).arrived crew } }

theorem State.countArrival_eq {s : State} {crew gid : Nat} {d : BarrierDecl} (h : s.gridDecl crew gid = some d) :
    s.countArrival crew gid
      = (s.arrivedAt crew (s.crew crew).launch (gridKey d (s.crew crew))).gridTest (s.crew crew).launch (gridKey d (s.crew crew)) := by
  rw [State.countArrival, h]
  rfl

theorem State.arrivedAt_launch (s : State) (crew l key : Nat) : (s.arrivedAt crew l key).launch l = { s.launch l with
    grids := tabPut (s.launch l).grids key { s.gridInst l key with
      pending := (s.gridInst l key).pending - 1, arrived := memberAdd (s.gridInst l key).arrived crew } } :=
  State.setLaunch_launch_same ..

theorem State.arrivedAt_gridInst (s : State) (crew l key : Nat) : (s.arrivedAt crew l key).gridInst l key
    = { s.gridInst l key with pending := (s.gridInst l key).pending - 1, arrived := memberAdd (s.gridInst l key).arrived crew } := by
  rw [State.gridInst, State.arrivedAt_launch]
  exact tabGet_tabPut_same ..

theorem gridPortArrival_gives {s : State} {crew gid l key : Nat} {rest : List (Nat × Nat)} {d : BarrierDecl} {g : GridInst}
    (hport : s.sched.gridPort = (crew, gid) :: rest) (hf : s.sched.failed = false) (hr : s.sched.replay = false) (hd : s.gridDecl crew gid = some d)
    (hl : l = (s.crew crew).launch) (hk : key = gridKey d (s.crew crew)) (hg : g = s.gridInst l key) :
    Answer.gives (exec .gridPortArrival s) (fun t =>
      t = { s with sched := { s.sched with gridPort := rest, gridRel := t.sched.gridRel, gridJrn := t.sched.gridJrn }, launches := t.launches }
      ∧ (∀ x, x ≠ l → t.launch x = s.launch x)
      ∧ t.launch l = { s.launch l with grids := (t.launch l).grids }
      ∧ (∀ x, x ≠ key → tabFind (t.launch l).grids x = tabFind (s.launch l).grids x)
      ∧ (1 < g.pending → t.sched = { s.sched with gridPort := rest }
        ∧ tabFind (t.launch l).grids key = some { g with pending := g.pending - 1, arrived := memberAdd g.arrived crew })
      ∧ (g.pending = 1 → g.crews ≠ [] →
        tabFind (t.launch l).grids key = some { g with pending := g.crews.length, phase := (g.phase + 1) % 65536, arrived := [] }
        ∧ t.sched.gridJrn = true
        ∧ ∃ cs : List Nat, cs.Perm g.crews ∧ cs.Pairwise (fun x y => (s.crew x).core ≤ (s.crew y).core)
          ∧ t.sched.gridRel = s.sched.gridRel ++ cs.map (fun c => (c, key / 128)))) := by
  have hexec : exec .gridPortArrival s
      = .next ((State.arrivedAt { s with sched := { s.sched with gridPort := rest } } crew l key).gridTest l key) := by
    have he : exec .gridPortArrival s = execGridPortArrival s := rfl
    have hgo : ¬(s.sched.failed = true ∨ s.sched.replay = true) := by
      rw [hf, hr]
      decide
    subst hl hk
    unfold execGridPortArrival at he
    rw [hport] at he
    dsimp only at he
    rw [he, if_neg hgo]
    exact congrArg _ (State.countArrival_eq (s := { s with sched := { s.sched with gridPort := rest } }) hd)
  have hlaunch := State.arrivedAt_launch { s with sched := { s.sched with gridPort := rest } } crew l key
  have hinst := State.arrivedAt_gridInst { s with sched := { s.sched with gridPort := rest } } crew l key
  obtain ⟨hm, hothers, hown, hgrids⟩ := (State.arrivedAt { s with sched := { s.sched with gridPort := rest } } crew l key).gridTest_frame l key
  subst hg
  refine ⟨_, hexec, ?_, fun x hx => ?_, ?_, fun x hx => ?_, fun hp => ?_, fun hp hc => ?_⟩
  · rw [hm]
    rfl
  · rw [hothers x hx]
    exact (State.setLaunch_launch ..).trans (if_neg hx)
  · rw [hown, hlaunch]
    rfl
  · rw [hgrids x hx, hlaunch]
    exact tabFind_tabPut_other _ _ _ _ hx
  · have hne : (s.gridInst l key).pending - 1 ≠ 0 := by omega
    rw [State.gridTest_short (by rw [hinst]; exact hne), hlaunch]
    exact ⟨rfl, tabFind_tabPut_same ..⟩
  · have hz : (s.gridInst l key).pending - 1 = 0 := by omega
    have hfull := State.gridTest_full (by rw [hinst]; exact hz) (by rw [hinst]; exact hc)
    rw [hinst] at hfull
    exact hfull

/-! ### A release at a crew's object (R130, R140, R370) -/

theorem State.noteGrid_waves (s : State) (a : Nat) : (s.noteGrid a).waves = s.waves := by
  unfold State.noteGrid
  dsimp only
  split
  · rfl
  · exact foldl_fixed State.waves _ _ _ fun _ _ => rfl

/-- An operation makes waiters ready, and no more of any wave. -/
theorem State.barrierOp_wave (s : State) (a : Nat) (f : BarObj → BarObj) (x : Nat) :
    (s.barrierOp a f).wave x = { s.wave x with park := ((s.barrierOp a f).wave x).park } := by
  have hw := (((s.operated a f).noteGrid a).woke_wakeGranule (a / 16)).waves x
  have hn : ((s.operated a f).noteGrid a).wave x = s.wave x := by
    rw [State.wave, State.noteGrid_waves, State.operated, State.setStore_waves, ← State.wave]
  rw [hn] at hw
  rw [s.barrierOp_eq a f]
  exact hw

theorem jrnEntry_far (i : Nat) : jrnEntry i + 16 ≤ 2 ^ 48 := by
  unfold jrnEntry devBase
  omega

/-- The state after a change of grid descriptors has been journaled, where there is one (R370). -/
structure State.gridJournaled (s t : State) : Prop where
  machine : t = { s with sched := t.sched, mem := { s.mem with store := t.store } }
  clean : s.sched.gridJrn = false → t.sched = s.sched ∧ t.store = s.store
  sched : s.sched.gridJrn = true → t.sched = { s.sched with gridJrn := false, jtail := (s.sched.jtail + 1) % 4096, ckpt := t.sched.ckpt }
  entry : s.sched.gridJrn = true → t.store.readNat (jrnEntry s.sched.jtail) 2 = 8 ∧ t.store.readNat (jrnEntry s.sched.jtail + 2) 2 = 0
  bytes : ∀ b, (s.sched.gridJrn = true → b < jrnEntry s.sched.jtail ∨ jrnEntry s.sched.jtail + 4 ≤ b) → t.store.byte b = s.store.byte b

theorem State.journalGrid_journaled (s : State) : s.gridJournaled s.journalGrid := by
  by_cases hj : s.sched.gridJrn = true
  · have hstore : s.journalGrid.store = s.store.write (wholeCells (jrnEntry s.sched.jtail) (bytesOf 8 2 ++ bytesOf 0 2)) none := by
      rw [State.journalGrid, if_pos hj]
      rfl
    refine ⟨?_, fun h => absurd (h.symm.trans hj) Bool.false_ne_true, fun _ => ?_, fun _ => ⟨?_, ?_⟩, fun b hb => ?_⟩
    · rw [State.journalGrid, if_pos hj]
      rfl
    · rw [State.journalGrid, if_pos hj]
      rfl
    · rw [hstore, Store.readNat_congr fun i _ => Store.byte_write ..]
      exact s.store.readNat_putWhole _ 8 2 [] (bytesOf 0 2)
    · rw [hstore, Store.readNat_congr fun i _ => Store.byte_write ..]
      exact s.store.readNat_putWhole _ 0 2 (bytesOf 8 2) []
    · rw [hstore, Store.byte_write]
      exact Store.byte_putWhole_other _ _ _ _ (hb hj)
  · have he : s.journalGrid = s := if_neg hj
    rw [he]
    exact ⟨rfl, fun _ => ⟨rfl, rfl⟩, fun h => absurd h hj, fun h => absurd h hj, fun _ _ => rfl⟩

theorem State.gridPlace_setCrew (s : State) {crew : Nat} {v : Crew} (hc : v.core = (s.crew crew).core) (hp : v.spStart = (s.crew crew).spStart)
    (d : BarrierDecl) : (s.setCrew crew v).gridPlace crew d = s.gridPlace crew d := by
  rw [State.gridPlace, State.gridPlace, State.setCrew_crew_same, hc, hp]

/-- A crew that takes a release: its next arrival may be sent (R140). -/
def State.gridFreed (s : State) (crew gid : Nat) : State :=
  s.setCrew crew { s.crew crew with
    gridSent := memberDel (s.crew crew).gridSent gid, gridHeld := tabDel (s.crew crew).gridHeld gid }

theorem State.gridFreed_crew (s : State) (crew gid : Nat) : ((s.gridFreed crew gid).crew crew).gridSent = memberDel (s.crew crew).gridSent gid
    ∧ ∀ c, (s.gridFreed crew gid).crew c = { s.crew c with
        gridSent := ((s.gridFreed crew gid).crew c).gridSent, gridHeld := ((s.gridFreed crew gid).crew c).gridHeld } := by
  unfold State.gridFreed
  refine ⟨by rw [State.setCrew_crew_same], fun c => ?_⟩
  rw [State.setCrew_crew]
  split
  · rename_i hc; rw [hc]
  · rfl

/-- A release at a crew's object (R130, R140). -/
theorem State.gridRelease_frame (s : State) (crew gid a : Nat) :
    (s.gridFreed crew gid).barrierOp a barRelease = { s with
        crews := ((s.gridFreed crew gid).barrierOp a barRelease).crews, waves := ((s.gridFreed crew gid).barrierOp a barRelease).waves
        clusters := ((s.gridFreed crew gid).barrierOp a barRelease).clusters
        mem := { s.mem with store := ((s.gridFreed crew gid).barrierOp a barRelease).store } }
      ∧ (((s.gridFreed crew gid).barrierOp a barRelease).crew crew).gridSent = memberDel (s.crew crew).gridSent gid
      ∧ (∀ c, ((s.gridFreed crew gid).barrierOp a barRelease).crew c = { s.crew c with
          gridSent := (((s.gridFreed crew gid).barrierOp a barRelease).crew c).gridSent
          gridHeld := (((s.gridFreed crew gid).barrierOp a barRelease).crew c).gridHeld })
      ∧ ∀ x, ((s.gridFreed crew gid).barrierOp a barRelease).wave x
        = { s.wave x with park := (((s.gridFreed crew gid).barrierOp a barRelease).wave x).park } := by
  have hop := (s.gridFreed crew gid).homeStep_barrierOp a barRelease
  obtain ⟨hsent, hcrews⟩ := s.gridFreed_crew crew gid
  refine ⟨?_, ?_, fun c => ?_, fun x => State.barrierOp_wave ..⟩
  · rw [hop.machine, State.barrierOp_mem]
    rfl
  · rw [hop.crews, hsent]
  · rw [hop.crews, hcrews]

theorem gridReleaseDelivery_eq {s : State} {crew gid : Nat} {rest : List (Nat × Nat)} {d : BarrierDecl} (hrel : s.sched.gridRel = (crew, gid) :: rest)
    (hd : s.gridDecl crew gid = some d) (he : (s.crew crew).ended = false) (hk : (s.crew crew).killed = false) (hroom : s.jrnRoom 1 = true) :
    exec .gridReleaseDelivery s
      = .next ((State.gridFreed { s.journalGrid with sched := { s.journalGrid.sched with gridRel := rest } } crew gid).barrierOp
        (s.gridPlace crew d) barRelease) := by
  have hj := s.journalGrid_journaled.machine
  have hcrew : State.crew { s.journalGrid with sched := { s.journalGrid.sched with gridRel := rest } } crew = s.crew crew := by
    rw [hj]
    rfl
  have hd' : State.gridDecl { s.journalGrid with sched := { s.journalGrid.sched with gridRel := rest } } crew gid = some d := by
    rw [← hd, hj]
    rfl
  have hplace : State.gridPlace { s.journalGrid with sched := { s.journalGrid.sched with gridRel := rest } } crew d = s.gridPlace crew d := by
    rw [State.gridPlace, State.gridPlace, hcrew]
  have hlive : ¬((s.crew crew).ended = true ∨ (s.crew crew).killed = true) := by
    rw [he, hk]
    decide
  have hexec : exec .gridReleaseDelivery s = execGridReleaseDelivery s := rfl
  unfold execGridReleaseDelivery at hexec
  rw [hrel] at hexec
  dsimp only at hexec
  rw [hd'] at hexec
  dsimp only at hexec
  rw [hexec, if_neg (by rw [hroom]; exact Bool.noConfusion), hcrew, if_neg hlive, State.gridPlace_setCrew, hplace, State.gridFreed, hcrew]
  · rw [hcrew]
  · rw [hcrew]

theorem gridReleaseDelivery_gives {s : State} {crew gid a : Nat} {rest : List (Nat × Nat)} {d : BarrierDecl}
    (hrel : s.sched.gridRel = (crew, gid) :: rest) (hd : s.gridDecl crew gid = some d) (he : (s.crew crew).ended = false)
    (hk : (s.crew crew).killed = false) (hroom : s.jrnRoom 1 = true) (ha : a = s.gridPlace crew d) :
    Answer.gives (exec .gridReleaseDelivery s) (fun t =>
      t = { s with sched := t.sched, crews := t.crews, waves := t.waves, clusters := t.clusters, mem := { s.mem with store := t.store } }
      ∧ (s.sched.gridJrn = false → t.sched = { s.sched with gridRel := rest })
      ∧ (s.sched.gridJrn = true → t.sched = { s.sched with
            gridRel := rest, gridJrn := false, jtail := (s.sched.jtail + 1) % 4096, ckpt := t.sched.ckpt }
          ∧ t.store.readNat (jrnEntry s.sched.jtail) 2 = 8 ∧ t.store.readNat (jrnEntry s.sched.jtail + 2) 2 = 0)
      ∧ t.store.barrier a = barRelease (s.store.barrier a)
      ∧ (∀ b, b < a ∨ a + 16 ≤ b → (s.sched.gridJrn = true → b < jrnEntry s.sched.jtail ∨ jrnEntry s.sched.jtail + 4 ≤ b) →
        t.store.byte b = s.store.byte b)
      ∧ (t.crew crew).gridSent = memberDel (s.crew crew).gridSent gid
      ∧ (∀ c, t.crew c = { s.crew c with gridSent := (t.crew c).gridSent, gridHeld := (t.crew c).gridHeld })
      ∧ ∀ x, t.wave x = { s.wave x with park := (t.wave x).park }) := by
  have hfar := jrnEntry_far s.sched.jtail
  have hnear : 2 ^ 48 ≤ a := by
    rw [ha, State.gridPlace, spKey]
    omega
  obtain ⟨hmachine, hclean, hsched, hentry, hbytes⟩ := s.journalGrid_journaled
  obtain ⟨hm, hsent, hcrews, hwaves⟩ := State.gridRelease_frame { s.journalGrid with sched := { s.journalGrid.sched with gridRel := rest } } crew gid a
  have hother : ∀ b, b < a ∨ a + 16 ≤ b → ((State.gridFreed { s.journalGrid with sched := { s.journalGrid.sched with gridRel := rest } } crew gid
      ).barrierOp a barRelease).store.byte b = s.journalGrid.store.byte b := fun b hb => State.barrierOp_byte _ _ hb
  have hcrew : ∀ c, State.crew { s.journalGrid with sched := { s.journalGrid.sched with gridRel := rest } } c = s.crew c := fun c => by
    rw [hmachine]
    rfl
  have hwave : ∀ x, State.wave { s.journalGrid with sched := { s.journalGrid.sched with gridRel := rest } } x = s.wave x := fun x => by
    rw [hmachine]
    rfl
  have hobj : s.journalGrid.store.barrier a = s.store.barrier a :=
    Store.barrier_congr fun i hi => hbytes (a + i) fun _ => .inr (by omega)
  have hbar := State.barrierOp_barrier (s := State.gridFreed { s.journalGrid with sched := { s.journalGrid.sched with gridRel := rest } } crew gid)
    (s.journalGrid.store.barrier_sized a).release
  rw [gridReleaseDelivery_eq hrel hd he hk hroom, ← ha]
  generalize (State.gridFreed { s.journalGrid with sched := { s.journalGrid.sched with gridRel := rest } } crew gid).barrierOp a barRelease = t at *
  have hread : ∀ o n, o + n ≤ 16 → t.store.readNat (jrnEntry s.sched.jtail + o) n = s.journalGrid.store.readNat (jrnEntry s.sched.jtail + o) n :=
    fun o n ho => Store.readNat_congr fun i hi => hother _ (.inl (by omega))
  refine ⟨_, rfl, ?_, fun hj => ?_, fun hj => ⟨?_, ?_, ?_⟩, ?_, fun b hb hjb => ?_, ?_, fun c => ?_, fun x => ?_⟩
  · rw [hm, hmachine]
    rfl
  · rw [hm, (hclean hj).1]
  · rw [hm, hsched hj]
  · rw [← (hentry hj).1]
    exact hread 0 2 (by omega)
  · rw [← (hentry hj).2]
    exact hread 2 2 (by omega)
  · rw [← hobj]
    exact hbar
  · rw [hother b hb, hbytes b hjb]
  · rw [hsent, hcrew]
  · rw [hcrews, hcrew]
  · rw [hwaves, hwave]

/-- Settles O25: a release step goes wave by wave, the port's count reaches its own entry alone, and a release is one operation on the crew's
object after the journal's write. -/
theorem sluiceAndGrid : Obligations.SluiceAndGrid := by
  refine fun s => ⟨fun k hq hdue => ?_, fun crew gid d n hd hn he hk hs hc hsettle => gridCrewArrivalSend_gives hd hn he hk hs hc hsettle,
    fun crew gid rest d hp hf hr hd => gridPortArrival_gives hp hf hr hd rfl rfl rfl,
    fun crew gid rest d hr hd he hk hroom => gridReleaseDelivery_gives hr hd he hk hroom rfl⟩
  obtain ⟨t, ht, hm, hothers, hown, hwaves⟩ := sluiceReleaseStep_gives hq hdue
  refine ⟨t, ht, hm, hothers, hown, fun w hw => by rw [hwaves, if_neg hw], fun w hw a q st x m hp => ?_⟩
  rw [hwaves, if_pos hw, s.outOfQueue_queued hp]
  rfl

end Sys2Proof.Machine
end

section
/-! ## O27: flume words and channels (R147 to R156, R296) -/

namespace Sys2Proof.Machine

open Sys2Proof

/-! ### Channels of a core (R147) -/

theorem State.setChannel_channel_same (s : State) (core ch : Nat) (x : Channel) : (s.setChannel core ch x).channel core ch = x := by
  rw [State.channel, State.setChannel, State.setCore_core_same]
  exact tabGet_tabPut_same ..

theorem State.setChannel_onlyChannel (s : State) (core ch : Nat) (x : Channel) : s.onlyChannel (s.setChannel core ch x) core ch := by
  refine ⟨fun c hc => (State.setCore_core ..).trans (if_neg hc), ?_, fun n hn => ?_⟩
  · rw [State.setChannel, State.setCore_core_same]
  · rw [State.channel, State.setChannel, State.setCore_core_same]
    exact tabGet_tabPut_other _ _ _ _ _ hn

/-! ### A wave that passes a flume word (R296) -/

/-- A wave passes a word with a STATUS, after the word has reached cores, clusters, crews and launches. -/
theorem State.unitFrame_status {s u : State} (h : u = { s with crews := u.crews, cores := u.cores, clusters := u.clusters, launches := u.launches })
    (w st : Nat) (mark : Bool) : s.unitFrame ((u.setStatus w st).finish w mark) w mark := by
  have hw : (u.setStatus w st).wave w = { s.wave w with cc := (s.wave w).cc.withStatus st } := by
    rw [State.setStatus, State.setCc, State.setWave_wave_same, h]
    rfl
  refine ⟨?_, fun x hx => ?_, ?_⟩
  · rw [State.finish, State.finishN_eq, State.setStatus, State.setCc, State.setWave, h]
  · rw [State.finish_wave_other _ hx, State.setStatus, State.setCc, State.setWave_wave, if_neg hx, h]
    rfl
  · rw [State.finish_wave, hw]
    rfl

/-- A wave passes a word that has reached cores, clusters, crews and launches. -/
theorem State.unitFrame_finish {s u : State} (h : u = { s with crews := u.crews, cores := u.cores, clusters := u.clusters, launches := u.launches })
    (w : Nat) (mark : Bool) : s.unitFrame (u.finish w mark) w mark := by
  have hw : ∀ x, u.wave x = s.wave x := fun x => by rw [h]; rfl
  refine ⟨?_, fun x hx => ?_, ?_⟩
  · rw [State.finish, State.finishN_eq, h]
  · rw [State.finish_wave_other _ hx, hw]
  · rw [State.finish_wave, hw]
    rfl

theorem State.cc_finish_status {s u : State} {w : Nat} (hc : s.cur = .wave w) (hu : u.cur = s.cur) (hw : u.wave w = s.wave w) (st : Nat) (mark : Bool) :
    ((u.setStatus w st).finish w mark).cc = { s.cc with status := st } := by
  have hcur : ((u.setStatus w st).finish w mark).cur = .wave w := hu.trans hc
  rw [State.cc, State.cc, hcur, hc]
  dsimp only
  rw [State.finish_wave, State.setStatus, State.setCc, State.setWave_wave_same, hw]
  rfl

/-! ### FLK (R147, R296) -/

theorem State.laneCheck_none {s : State} {e : Env} {c : Capv} {off n align : Nat} (hcap : off + n ≤ c.top - c.base)
    (hspace : ∀ lim, s.spaceLimit e c.space = some lim → c.base + off + n ≤ lim) (halign : (c.base + off) % align = 0) :
    s.laneCheck e c off n align = none := by
  unfold State.laneCheck
  dsimp only
  rw [if_neg, if_neg (by omega)]
  cases hl : s.spaceLimit e c.space with
  | none => exact Nat.not_lt.mpr hcap
  | some lim =>
    have := hspace lim hl
    simp only [Nat.not_lt, le_min_iff]
    omega

theorem State.stagingOf_setStaging_same (s : State) (k l : Nat) (x : List Spilled) : (s.setStaging k l x).stagingOf k l = x := by
  rw [State.stagingOf, State.setStaging, State.setCluster_cluster_same]
  exact tabGet_tabPut_same ..

theorem State.pushStaging_head (s : State) (k l core ch : Nat) (h : Head) :
    s.pushStaging k l (.head core ch h) = s.setStaging k l (s.stagingOf k l ++ [.head core ch h]) :=
  if_neg fun e => Bool.false_ne_true e.2

/-- A crew that has kicked one more head. -/
def State.kicked (s : State) (crew : Nat) : State := s.setCrew crew { s.crew crew with kicks := (s.crew crew).kicks + 1 }

/-- The channel of a core takes another head on chip (R147). -/
def State.headOnChip (s : State) (crew ch : Nat) : Prop :=
  (s.channel (s.crew crew).core ch).heads.length < 16 ∧ s.crewSpilled crew = false ∧ s.channelSpilled (s.crew crew).core ch = false

theorem State.kick_onChip {s : State} {crew ch : Nat} (hon : s.headOnChip crew ch) (h : Head) :
    s.kick crew ch h = ((s.kicked crew).setChannel (s.crew crew).core ch
      { s.channel (s.crew crew).core ch with heads := (s.channel (s.crew crew).core ch).heads ++ [h] }, 0) := by
  unfold State.headOnChip at hon
  unfold State.kick
  dsimp only
  rw [if_pos hon]
  rfl

theorem State.kick_spilled {s : State} {crew ch : Nat} (hon : ¬s.headOnChip crew ch)
    (hroom : s.stagingRoom (clusterOf (s.crew crew).core) (s.crew crew).launch = true) (h : Head) :
    s.kick crew ch h = ((s.kicked crew).setStaging (clusterOf (s.crew crew).core) (s.crew crew).launch
      (s.stagingOf (clusterOf (s.crew crew).core) (s.crew crew).launch ++ [.head (s.crew crew).core ch h]), 3) := by
  unfold State.headOnChip at hon
  unfold State.kick
  dsimp only
  rw [if_neg hon, if_pos hroom, State.pushStaging_head]
  rfl

theorem State.kick_full {s : State} {crew ch : Nat} (hon : ¬s.headOnChip crew ch)
    (hroom : s.stagingRoom (clusterOf (s.crew crew).core) (s.crew crew).launch = false) (h : Head) : s.kick crew ch h = (s, 4) := by
  unfold State.headOnChip at hon
  unfold State.kick
  dsimp only
  rw [if_neg hon, if_neg (by rw [hroom]; exact Bool.false_ne_true)]

theorem State.kicked_crew (s : State) (crew : Nat) : (s.kicked crew).crew crew = { s.crew crew with kicks := (s.crew crew).kicks + 1 }
    ∧ ∀ c, c ≠ crew → (s.kicked crew).crew c = s.crew c :=
  ⟨State.setCrew_crew_same .., fun _ hc => (State.setCrew_crew ..).trans (if_neg hc)⟩

/-- A head that a wave kicks now (R296). -/
def State.headOf (s : State) (w : Nat) (o : Flk) : Head :=
  { crew := crewOf w, cap := s.kUse o.cap, off := s.sReg o.a, kick := (s.crew (crewOf w)).kicks, fork := s.forkOf w, forwarded := false }

theorem flk_eq {s : State} {w : Nat} {o : Flk} (hc : s.cur = .wave w) (hspec : (s.wave w).spec = none) (hgate : (s.wave w).relGate = none)
    (hgrants : (s.kUse o.cap).grants [0, 1, 2] (permXF + permLD + permLC))
    (hlane : s.laneCheck (s.waveEnv w) (s.kUse o.cap) (s.sReg o.a) 64 64 = none) :
    exec (.flk o) s = .next (((s.kick (crewOf w) (o.ch % 4) (s.headOf w o)).1.setStatus w
      (s.kick (crewOf w) (o.ch % 4) (s.headOf w o)).2).finish w o.mark) := by
  have hcheck : s.flkCheck (s.waveEnv w) (s.kUse o.cap) (s.sReg o.a) = none := by
    rw [State.flkCheck, capCheck_of_grants hgrants]
    dsimp only
    rw [hlane]
    rfl
  have he : exec (.flk o) s = .next _ := State.onWave_wave hc _
  rw [he, State.unlessSpec_none hspec]
  dsimp only
  rw [hcheck]
  dsimp only
  rw [State.afterGate_none hgate]
  rfl

/-- What FLK leaves: a head on chip, one in staging, or none (R147, R296). -/
theorem flk_gives {s : State} {w : Nat} {o : Flk} (hc : s.cur = .wave w) (hspec : (s.wave w).spec = none) (hgate : (s.wave w).relGate = none)
    (hgrants : (s.kUse o.cap).grants [0, 1, 2] (permXF + permLD + permLC))
    (hlane : s.laneCheck (s.waveEnv w) (s.kUse o.cap) (s.sReg o.a) 64 64 = none) :
    let crew := crewOf w
    let core := (s.crew crew).core
    let l := (s.crew crew).launch
    let x := s.channel core (o.ch % 4)
    Answer.gives (exec (.flk o) s) (fun t =>
      s.unitFrame t w o.mark ∧ t.launches = s.launches ∧ t.cc = { s.cc with status := t.cc.status }
      ∧ (∀ c, c ≠ crew → t.crew c = s.crew c)
      ∧ (s.headOnChip crew (o.ch % 4) → t.cc.status = 0 ∧ t.clusters = s.clusters ∧ s.onlyChannel t core (o.ch % 4)
        ∧ t.channel core (o.ch % 4) = { x with heads := x.heads ++ [s.headOf w o] }
        ∧ t.crew crew = { s.crew crew with kicks := (s.crew crew).kicks + 1 })
      ∧ (¬s.headOnChip crew (o.ch % 4) → s.stagingRoom (clusterOf core) l = true → t.cc.status = 3 ∧ t.cores = s.cores
        ∧ t.stagingOf (clusterOf core) l = s.stagingOf (clusterOf core) l ++ [.head core (o.ch % 4) (s.headOf w o)]
        ∧ t.crew crew = { s.crew crew with kicks := (s.crew crew).kicks + 1 })
      ∧ (¬s.headOnChip crew (o.ch % 4) → s.stagingRoom (clusterOf core) l = false → t.cc.status = 4 ∧ t.cores = s.cores ∧ t.clusters = s.clusters
        ∧ t.crew crew = s.crew crew)) := by
  dsimp only
  obtain ⟨hown, hothers⟩ := s.kicked_crew (crewOf w)
  rw [flk_eq hc hspec hgate hgrants hlane]
  by_cases hon : s.headOnChip (crewOf w) (o.ch % 4)
  · rw [State.kick_onChip hon]
    have hcc := State.cc_finish_status (u := (s.kicked (crewOf w)).setChannel (s.crew (crewOf w)).core (o.ch % 4)
      { s.channel (s.crew (crewOf w)).core (o.ch % 4) with heads := (s.channel (s.crew (crewOf w)).core (o.ch % 4)).heads ++ [s.headOf w o] })
      hc rfl rfl 0 o.mark
    exact ⟨_, rfl, State.unitFrame_status (by rfl) w 0 o.mark, rfl, by rw [hcc], hothers, fun _ => ⟨by rw [hcc], rfl,
      State.setChannel_onlyChannel .., State.setChannel_channel_same .., hown⟩, fun h => absurd hon h, fun h => absurd hon h⟩
  · by_cases hroom : s.stagingRoom (clusterOf (s.crew (crewOf w)).core) (s.crew (crewOf w)).launch = true
    · rw [State.kick_spilled hon hroom]
      have hcc := State.cc_finish_status (u := (s.kicked (crewOf w)).setStaging (clusterOf (s.crew (crewOf w)).core) (s.crew (crewOf w)).launch
        (s.stagingOf (clusterOf (s.crew (crewOf w)).core) (s.crew (crewOf w)).launch ++ [.head (s.crew (crewOf w)).core (o.ch % 4) (s.headOf w o)]))
        hc rfl rfl 3 o.mark
      exact ⟨_, rfl, State.unitFrame_status (by rfl) w 3 o.mark, rfl, by rw [hcc], hothers, fun h => absurd h hon, fun _ _ => ⟨by rw [hcc], rfl,
        State.stagingOf_setStaging_same .., hown⟩, fun _ h => absurd (hroom.symm.trans h) (by decide)⟩
    · rw [State.kick_full hon (Bool.eq_false_iff.mpr hroom)]
      have hcc := State.cc_finish_status hc (u := s) rfl rfl 4 o.mark
      exact ⟨_, rfl, State.unitFrame_status (by rfl) w 4 o.mark, rfl, by rw [hcc], fun _ _ => rfl, fun h => absurd h hon,
        fun _ h => absurd h hroom, fun _ _ => ⟨by rw [hcc], rfl, rfl, rfl⟩⟩

/-! ### FLQ (R155, R296) -/

/-- What a wave writes in an s register and in STATUS is what the selected agent writes. -/
theorem State.agentWrite_wave {s : State} {w : Nat} (hc : s.cur = .wave w) (d v st : Nat) (mark : Bool) :
    ((s.setSReg d v).setStatus w st).finish w mark = ((s.setSReg d v).setAgentCc { s.cc with status := st }).agentFinish mark 1 := by
  have hcur : (s.setSReg d v).cur = .wave w := by
    rw [State.setSReg, hc]
    exact hc
  have hcc : s.cc = ((s.setSReg d v).wave w).cc := by
    rw [State.cc, State.setSReg, hc]
    rfl
  have hset : (s.setSReg d v).setAgentCc { s.cc with status := st } = (s.setSReg d v).setStatus w st := by
    rw [State.setAgentCc, hcur, hcc]
    rfl
  rw [hset, State.agentFinish, State.setStatus_cur, hcur]
  rfl

theorem flq_gives {s : State} {w : Nat} {o : Flq} (hc : s.cur = .wave w) (hspec : (s.wave w).spec = none) :
    Answer.gives (exec (.flq o) s) (fun t => s.scalarFrame t (some o.d) 1
      ∧ t.sReg o.d = s.flsReg (crewOf w) (o.ch % 4) % 2 ^ 64
      ∧ t.cc = { s.cc with status := if s.flsBusy (crewOf w) (o.ch % 4) then 9 else 0 }) := by
  have he : exec (.flq o) s = .next _ := State.onWave_wave hc _
  rw [he, State.unlessSpec_none hspec]
  dsimp only
  rw [State.agentWrite_wave hc]
  exact ⟨_, rfl, agentWrite_frame s _ _ _ _ _ (by rw [hc]; exact Agent.noConfusion)⟩

/-! ### FLC (R156, R296) -/

/-- The spilled entries that stay when a crew's heads of a channel leave. -/
theorem filterMap_headOf_filter (core ch crew : Nat) (l : List Spilled) :
    (l.filter (fun y => !y.crewHead core ch crew)).filterMap (Spilled.headOf core ch)
      = (l.filterMap (Spilled.headOf core ch)).filter (fun h => h.crew != crew) := by
  induction l with
  | nil => rfl
  | cons y l ih =>
    cases hy : y.headOf core ch with
    | none =>
      have hb : y.crewHead core ch crew = false := by rw [Spilled.crewHead, hy]
      simp [hy, hb, ih]
    | some h =>
      have hb : y.crewHead core ch crew = (h.crew == crew) := by rw [Spilled.crewHead, hy]
      by_cases hc : h.crew = crew
      · simp [hy, hb, ih, hc]
      · simp [hy, hb, ih, hc]

theorem State.cancelChains_frame (s : State) (crew ch : Nat) :
    s.cancelChains crew ch = { s with
      cores := (s.cancelChains crew ch).cores, clusters := (s.cancelChains crew ch).clusters, launches := (s.cancelChains crew ch).launches } := rfl

theorem State.cancelChains_onlyChannel (s : State) (crew ch : Nat) : s.onlyChannel (s.cancelChains crew ch) (s.crew crew).core ch :=
  State.setChannel_onlyChannel ..

/-- The running chain of another crew stays, and one of the crew joins those that are left to be walked. -/
theorem State.cancelChains_channel (s : State) (crew ch : Nat) :
    let x := s.channel (s.crew crew).core ch
    let l := (s.crew crew).launch
    (s.cancelChains crew ch).channel (s.crew crew).core ch = {
      heads := x.heads.filter (fun h => h.crew != crew)
      chain := x.chain.filter (fun y => y.crew != crew)
      cancelled := x.cancelled ++ (x.chain.filter (fun y => y.crew == crew)).toList ++ (x.heads.filter (fun h => h.crew == crew)).map chainOf
        ++ ((s.spilledHeads l (s.crew crew).core ch).filter (fun h => h.crew == crew)).map chainOf } := by
  dsimp only
  unfold State.cancelChains
  dsimp only
  rw [State.setChannel_channel_same]
  cases hx : (s.channel (s.crew crew).core ch).chain with
  | none => rfl
  | some y =>
    by_cases hy : y.crew = crew
    · simp only [hy, if_true, Option.filter_some, bne_self_eq_false, beq_self_eq_true, Bool.false_eq_true, if_false, List.cons_ne_nil]
      rfl
    · simp only [hy, if_false, Option.filter_some, bne_iff_ne, beq_iff_eq, ne_eq, not_false_eq_true, if_true]
      rfl

theorem State.cancelChains_spilledHeads (s : State) (crew ch : Nat) :
    (s.cancelChains crew ch).spilledHeads (s.crew crew).launch (s.crew crew).core ch
      = (s.spilledHeads (s.crew crew).launch (s.crew crew).core ch).filter (fun h => h.crew != crew) := by
  have hring : ((s.cancelChains crew ch).launch (s.crew crew).launch).ring
      = (s.launch (s.crew crew).launch).ring.filter (fun y => !y.crewHead (s.crew crew).core ch crew) := by
    have h : (s.cancelChains crew ch).launch (s.crew crew).launch = { s.launch (s.crew crew).launch with
      ring := (s.launch (s.crew crew).launch).ring.filter (fun y => !y.crewHead (s.crew crew).core ch crew) } := State.setLaunch_launch_same ..
    rw [h]
  have hstaging : (s.cancelChains crew ch).stagingOf (clusterOf (s.crew crew).core) (s.crew crew).launch
      = (s.stagingOf (clusterOf (s.crew crew).core) (s.crew crew).launch).filter (fun y => !y.crewHead (s.crew crew).core ch crew) :=
    State.stagingOf_setStaging_same ..
  rw [State.spilledHeads, State.spilledHeads, hring, hstaging, filterMap_headOf_filter, filterMap_headOf_filter, List.filter_append]

theorem flc_eq {s : State} {w : Nat} {o : Flc} (hc : s.cur = .wave w) (hspec : (s.wave w).spec = none) (hgate : (s.wave w).relGate = none) :
    exec (.flc o) s = .next ((s.cancelChains (crewOf w) (o.ch % 4)).finish w o.mark) := by
  have he : exec (.flc o) s = .next _ := State.onWave_wave hc _
  rw [he, State.unlessSpec_none hspec, State.afterGate_none hgate]

theorem flc_gives {s : State} {w : Nat} {o : Flc} (hc : s.cur = .wave w) (hspec : (s.wave w).spec = none) (hgate : (s.wave w).relGate = none) :
    let crew := crewOf w
    let core := (s.crew crew).core
    let l := (s.crew crew).launch
    let x := s.channel core (o.ch % 4)
    Answer.gives (exec (.flc o) s) (fun t => s.unitFrame t w o.mark ∧ t.cc = s.cc ∧ t.crews = s.crews
      ∧ s.onlyChannel t core (o.ch % 4)
      ∧ (t.channel core (o.ch % 4)).heads = x.heads.filter (fun h => h.crew != crew)
      ∧ (t.channel core (o.ch % 4)).chain = x.chain.filter (fun y => y.crew != crew)
      ∧ (t.channel core (o.ch % 4)).cancelled = x.cancelled ++ (x.chain.filter (fun y => y.crew == crew)).toList
          ++ (x.heads.filter (fun h => h.crew == crew)).map chainOf
          ++ ((s.spilledHeads l core (o.ch % 4)).filter (fun h => h.crew == crew)).map chainOf
      ∧ t.spilledHeads l core (o.ch % 4) = (s.spilledHeads l core (o.ch % 4)).filter (fun h => h.crew != crew)) := by
  dsimp only
  have hchannel := s.cancelChains_channel (crewOf w) (o.ch % 4)
  have hcc : ((s.cancelChains (crewOf w) (o.ch % 4)).finish w o.mark).cc = s.cc := by
    have hcur : ((s.cancelChains (crewOf w) (o.ch % 4)).finish w o.mark).cur = .wave w := hc
    rw [State.cc, State.cc, hcur, hc]
    dsimp only
    rw [State.finish_wave]
    rfl
  have hkeep : ∀ t : State, (t.finish w o.mark).channel (s.crew (crewOf w)).core (o.ch % 4) = t.channel (s.crew (crewOf w)).core (o.ch % 4) := fun _ => rfl
  rw [flc_eq hc hspec hgate]
  refine ⟨_, rfl, State.unitFrame_finish (s.cancelChains_frame (crewOf w) (o.ch % 4)) w o.mark, hcc, rfl, s.cancelChains_onlyChannel (crewOf w) (o.ch % 4),
    ?_, ?_, ?_, s.cancelChains_spilledHeads (crewOf w) (o.ch % 4)⟩
  all_goals rw [hkeep, hchannel]

/-! ### Heads become chains (R103, R147) -/

theorem find?_first {α : Type} {p : α → Bool} {pre : List α} {h : α} (post : List α) (hpre : ∀ y ∈ pre, p y = false) (hh : p h = true) :
    (pre ++ h :: post).find? p = some h := by
  rw [List.find?_append, List.find?_eq_none.mpr fun y hy => by rw [hpre y hy]; exact Bool.false_ne_true, List.find?_cons_of_pos hh]
  rfl

theorem firstMap_first {α : Type} {p : α → Bool} (f : α → α) {pre : List α} {h : α} (post : List α) (hpre : ∀ y ∈ pre, p y = false)
    (hh : p h = true) :
    firstMap (pre ++ h :: post) p f = pre ++ f h :: post := by
  induction pre with
  | nil => exact if_pos hh
  | cons y pre ih =>
    rw [List.cons_append, firstMap, if_neg (by rw [hpre y (List.mem_cons_self ..)]; exact Bool.false_ne_true),
      ih fun z hz => hpre z (List.mem_cons_of_mem _ hz)]
    rfl

theorem flumeHeadForward_gives {s : State} {c ch : Nat} {pre post : List Head} {h : Head} (hch : ch < 4)
    (hx : (s.channel c ch).heads = pre ++ h :: post) (hpre : ∀ y ∈ pre, y.forwarded = true) (hh : h.forwarded = false)
    (hret : s.forkReturned h.fork = true) :
    Answer.gives (exec (.flumeHeadForward c ch) s) (fun t => t = { s with cores := t.cores } ∧ s.onlyChannel t c ch
      ∧ t.channel c ch = { s.channel c ch with
          heads := pre ++ { h with forwarded := true, fork := { Fork.none with maxw := s.forkMaxw h.fork } } :: post }) := by
  have hskip : ∀ y ∈ pre, (!y.forwarded) = false := fun y hy => by rw [hpre y hy]; rfl
  have hhead : (!h.forwarded) = true := by rw [hh]; rfl
  have hexec : exec (.flumeHeadForward c ch) s = execFlumeHeadForward c ch s := rfl
  unfold execFlumeHeadForward at hexec
  dsimp only at hexec
  rw [Nat.mod_eq_of_lt hch, hx, find?_first post hskip hhead] at hexec
  dsimp only at hexec
  rw [hret, if_neg Bool.noConfusion, firstMap_first _ post hskip hhead] at hexec
  exact ⟨_, hexec, rfl, State.setChannel_onlyChannel .., State.setChannel_channel_same ..⟩

/-- Nothing moves on chip where no head is spilled. -/
theorem State.refillHeads_none {s : State} {c ch : Nat} (h : s.channelSpilled c ch = false) (n : Nat) : s.refillHeads c ch n = s := by
  have hold : s.oldestSpilled c ch = none := by
    have hnone : (s.launches.map (fun e => e.1)).filterMap (fun l => ((s.spilledHeads l c ch).head?).map (fun h => (l, h.fork.ser))) = [] := by
      refine List.filterMap_eq_nil_iff.mpr fun l hl => ?_
      have hempty : (s.spilledHeads l c ch).isEmpty = true := by simpa using List.any_eq_false.mp h l hl
      rw [List.isEmpty_iff.mp hempty]
      rfl
    unfold State.oldestSpilled
    dsimp only
    rw [hnone]
  cases n with
  | zero => rfl
  | succ n =>
    unfold State.refillHeads
    rw [hold]

theorem flumeChainStart_gives {s : State} {c ch : Nat} {h : Head} {rest : List Head} (hch : ch < 4) (hx : (s.channel c ch).heads = h :: rest)
    (hchain : (s.channel c ch).chain = none) (hcan : (s.channel c ch).cancelled = []) (hf : h.forwarded = true) (hready : s.forkReady h.fork = true)
    (hrun : s.clusterRuns (clusterOf c) = true) (hsp : s.channelSpilled c ch = false) :
    Answer.gives (exec (.flumeChainStart c ch) s) (fun t => t = { s with cores := t.cores } ∧ s.onlyChannel t c ch
      ∧ t.channel c ch = { heads := rest, chain := some (chainOf h), cancelled := [] }) := by
  have hsp' : ∀ x, (s.setChannel c ch x).channelSpilled c ch = false := fun _ => hsp
  have hexec : exec (.flumeChainStart c ch) s = execFlumeChainStart c ch s := rfl
  unfold execFlumeChainStart at hexec
  dsimp only at hexec
  rw [Nat.mod_eq_of_lt hch, State.refillHeads_none hsp, hchain, hcan, hx] at hexec
  dsimp only at hexec
  rw [if_pos ⟨hf, hready, hrun⟩, State.refillHeads_none (hsp' _)] at hexec
  refine ⟨_, hexec, rfl, State.setChannel_onlyChannel .., ?_⟩
  rw [State.setChannel_channel_same]
  rfl

/-! ### The end of a launch (R354, R381) -/

theorem State.killSeqs_launches (s : State) (l : Nat) : (s.killSeqs l).launches = s.launches :=
  foldl_fixed State.launches _ _ _ fun t k => by split <;> rfl

/-- A launch that is ended reports the first end of R354. -/
theorem State.endLaunch_launch (s : State) (l status info : Nat) :
    ((s.endLaunch l status info).launch l).ending = true
      ∧ ((s.endLaunch l status info).launch l).endStatus = mergeEnd (s.launch l).endStatus status info := by
  have hdrop : (((s.noteEnd l status info).dropRecords l).launch l).endStatus = mergeEnd (s.launch l).endStatus status info := by
    have h : (((s.noteEnd l status info).dropRecords l).launch l).endStatus = ((s.noteEnd l status info).launch l).endStatus := by
      rw [State.dropRecords, State.setLaunch_launch_same]
      rfl
    rw [h, State.noteEnd_launch, if_pos rfl]
  have hseqs : ((((s.noteEnd l status info).dropRecords l).killSeqs l).launch l).endStatus = mergeEnd (s.launch l).endStatus status info := by
    rw [State.launch, State.killSeqs_launches, ← State.launch, hdrop]
  unfold State.endLaunch
  dsimp only
  rw [State.setLaunch_launch_same]
  refine ⟨rfl, ?_⟩
  rw [← hseqs]
  dsimp only
  rw [(State.endKept_foldl State.killCrew State.endKept_killCrew _ _).2 l]

/-! ### Credits (R132, R153, R154, R378) -/

theorem State.payCredit_sound {s : State} {c : Credit} (h : s.store.poisoned c.place 16 = false) (l : Nat) :
    s.payCredit l c = s.barrierOp c.place (creditOp c) ∧ s.lastCredit c = c.last := by
  rw [State.payCredit, State.lastCredit, h, if_neg Bool.false_ne_true, Bool.or_false]
  exact ⟨rfl, rfl⟩

theorem State.payCredit_lost {s : State} {c : Credit} (h : s.store.poisoned c.place 16 = true) (l : Nat) :
    s.payCredit l c = s.endLaunch l 9 c.off ∧ s.lastCredit c = true := by
  rw [State.payCredit, State.lastCredit, h, if_pos rfl, Bool.or_true]
  exact ⟨rfl, rfl⟩

/-- A credit that is paid is one operation on its object. -/
theorem State.creditOp_step (s : State) (c : Credit) :
    (s.barrierOp c.place (creditOp c)).store.barrier c.place = creditOp c (s.store.barrier c.place)
      ∧ (∀ a, a < c.place ∨ c.place + 16 ≤ a → (s.barrierOp c.place (creditOp c)).store.byte a = s.store.byte a)
      ∧ ∀ core ch, (s.barrierOp c.place (creditOp c)).channel core ch = s.channel core ch := by
  refine ⟨State.barrierOp_barrier ((s.store.barrier_sized c.place).credit c), fun a ha => State.barrierOp_byte s _ ha, fun core ch => ?_⟩
  rw [State.channel, State.core, (s.homeStep_barrierOp _ _).machine]
  rfl

theorem State.creditDue_of {s : State} {m : Nat} (h : m = 0 ∨ m < s.dt) : s.creditDue m = true := by
  rcases h with rfl | h
  · rfl
  · rw [State.creditDue, decide_eq_true h, Bool.or_true]

theorem State.chainTurn.runs {s : State} {c : Nat} {x : Chain} (h : s.chainTurn c x) :
    ¬(s.clusterRuns (clusterOf c) = false ∨ s.forkReady x.fork = false) := by
  obtain ⟨hrun, hready⟩ := h
  rw [hrun, hready]
  decide

/-! ### Records (R150, R153, R156) -/

theorem FlumeRec.bytes_credited (r : FlumeRec) (cancel : Bool) :
    (if cancel = true ∨ r.badShape = false then some r.total else none) = creditBytes r cancel := by
  have hbad : r.badShape = true ↔ r.total = 0 ∨ 2 ^ 31 - 1 < r.total ∨ r.mode = 3 := by
    simp [FlumeRec.badShape, or_assoc]
  unfold creditBytes
  by_cases hb : r.badShape = true
  · cases cancel with
    | true => rfl
    | false => rw [if_neg (by simp [hb]), if_pos ⟨rfl, hbad.mp hb⟩]
  · rw [if_pos (.inr (Bool.eq_false_iff.mpr hb)), if_neg fun h => hb (hbad.mpr h.2)]

/-- A record whose HDR is written owes its credit (R150). -/
theorem State.closeRecord_written {s s2 : State} {e : Env} {x : Chain} {ch st g : Nat} {r : FlumeRec}
    (h : (if st = 0 then s else s.setStopped x.crew ch).writeHdr e x r st = some (s2, g)) (maxw place : Nat) (cancel : Bool) :
    s.closeRecord e x ch r st maxw place cancel
      = (s2, afterRecord x r place st (max maxw g) (r.last || (decide (st ≠ 0) && !cancel)) cancel) := by
  have herr : (st != 0) = decide (st ≠ 0) := by simp [bne, beq_eq_decide]
  have hstop : (if decide (st ≠ 0) = true then s.setStopped x.crew ch else s) = if st = 0 then s else s.setStopped x.crew ch := by
    by_cases h0 : st = 0
    · rw [if_pos h0, if_neg (by simpa using h0)]
    · rw [if_neg h0, if_pos (decide_eq_true h0)]
  unfold State.closeRecord
  dsimp only
  rw [FlumeRec.bytes_credited, herr, hstop, h]
  rfl

/-! ### FLUME_RECORD_PROCESS (R150) -/

section
variable {s : State} {c ch : Nat} {x : Chain}

theorem recordProcess_paid {cr : Credit} (hch : ch < 4) (hx : (s.channel c ch).chain = some x) (ht : s.chainTurn c x) (hcr : x.credit = some cr)
    (hdue : cr.maxw = 0 ∨ cr.maxw < s.dt) (hsound : s.store.poisoned cr.place 16 = false) :
    Answer.gives (exec (.flumeRecordProcess c ch) s) (fun t =>
      t.store.barrier cr.place = creditOp cr (s.store.barrier cr.place)
      ∧ (∀ a, a < cr.place ∨ cr.place + 16 ≤ a → t.store.byte a = s.store.byte a)
      ∧ t.channel c ch = { s.channel c ch with chain := if cr.last then none else some { x with credit := none } }) := by
  obtain ⟨hpay, hlast⟩ := State.payCredit_sound hsound (s.crew x.crew).launch
  obtain ⟨hobj, hbytes, hchan⟩ := s.creditOp_step cr
  have hexec : exec (.flumeRecordProcess c ch) s = execFlumeRecordProcess c ch s := rfl
  simp only [execFlumeRecordProcess, Nat.mod_eq_of_lt hch, hx, if_neg ht.runs, hcr, State.creditDue_of hdue, Bool.true_eq_false, if_false, hpay, hlast]
    at hexec
  refine ⟨_, hexec, ?_⟩
  by_cases hl : cr.last = true
  · rw [if_pos hl, if_pos hl]
    refine ⟨hobj, hbytes, ?_⟩
    rw [State.endChain, State.setChannel_channel_same, hchan]
  · rw [if_neg hl, if_neg hl]
    refine ⟨hobj, hbytes, ?_⟩
    rw [State.setChain, State.setChannel_channel_same, hchan]

theorem recordProcess_lost {cr : Credit} (hch : ch < 4) (hx : (s.channel c ch).chain = some x) (ht : s.chainTurn c x) (hcr : x.credit = some cr)
    (hdue : cr.maxw = 0 ∨ cr.maxw < s.dt) (hlost : s.store.poisoned cr.place 16 = true) :
    Answer.gives (exec (.flumeRecordProcess c ch) s) (fun t =>
      (t.launch (s.crew x.crew).launch).ending = true
      ∧ (t.launch (s.crew x.crew).launch).endStatus = mergeEnd (s.launch (s.crew x.crew).launch).endStatus 9 cr.off
      ∧ (t.channel c ch).chain = none) := by
  obtain ⟨hpay, hlast⟩ := State.payCredit_lost hlost (s.crew x.crew).launch
  obtain ⟨hend, hstatus⟩ := s.endLaunch_launch (s.crew x.crew).launch 9 cr.off
  have hexec : exec (.flumeRecordProcess c ch) s = execFlumeRecordProcess c ch s := rfl
  simp only [execFlumeRecordProcess, Nat.mod_eq_of_lt hch, hx, if_neg ht.runs, hcr, State.creditDue_of hdue, Bool.true_eq_false, if_false, hpay, hlast,
    if_true] at hexec
  refine ⟨_, hexec, hend, hstatus, ?_⟩
  rw [State.endChain, State.setChannel_channel_same]

theorem recordProcess_ended {s1 : State} (hch : ch < 4) (hx : (s.channel c ch).chain = some x) (ht : s.chainTurn c x) (hcr : x.credit = none)
    (hread : s.readRecord (s.chainEnv x.crew) x ch = (s1, none)) :
    Answer.gives (exec (.flumeRecordProcess c ch) s) (fun t => (∀ a, t.store.byte a = s1.store.byte a)
      ∧ t.channel c ch = { s1.channel c ch with chain := none }) := by
  have hexec : exec (.flumeRecordProcess c ch) s = execFlumeRecordProcess c ch s := rfl
  simp only [execFlumeRecordProcess, Nat.mod_eq_of_lt hch, hx, if_neg ht.runs, hcr, hread] at hexec
  exact ⟨_, hexec, fun _ => rfl, State.setChannel_channel_same ..⟩

theorem recordProcess_walked {s1 s2 s3 s4 : State} {r : FlumeRec} {place st g g2 : Nat} (hch : ch < 4) (hx : (s.channel c ch).chain = some x)
    (ht : s.chainTurn c x) (hcr : x.credit = none) (hread : s.readRecord (s.chainEnv x.crew) x ch = (s1, some r))
    (hbar : s1.recordBarrier (s.chainEnv x.crew) x r = .ok (s2, place)) (hmove : s2.moveRecord (s.chainEnv x.crew) x ch r = (s3, st, g))
    (hwrite : (if st = 0 then s3 else s3.setStopped x.crew ch).writeHdr (s.chainEnv x.crew) x r st = some (s4, g2)) :
    Answer.gives (exec (.flumeRecordProcess c ch) s) (fun t => (∀ a, t.store.byte a = s4.store.byte a)
      ∧ t.channel c ch = { s4.channel c ch with
          chain := some (afterRecord x r place st (max g g2) (r.last || decide (st ≠ 0)) false) }) := by
  have hexec : exec (.flumeRecordProcess c ch) s = execFlumeRecordProcess c ch s := rfl
  simp only [execFlumeRecordProcess, Nat.mod_eq_of_lt hch, hx, if_neg ht.runs, hcr, hread, hbar, hmove, State.closeRecord_written hwrite,
    Bool.not_false, Bool.and_true] at hexec
  exact ⟨_, hexec, fun _ => rfl, State.setChannel_channel_same ..⟩

/-! ### FLUME_CANCEL_WALK (R156) -/

variable {rest : List Chain}

theorem cancelWalk_paid {cr : Credit} (hch : ch < 4) (hx : (s.channel c ch).cancelled = x :: rest) (ht : s.chainTurn c x) (hcr : x.credit = some cr)
    (hdue : cr.maxw = 0 ∨ cr.maxw < s.dt) (hsound : s.store.poisoned cr.place 16 = false) :
    Answer.gives (exec (.flumeCancelWalk c ch) s) (fun t =>
      t.store.barrier cr.place = creditOp cr (s.store.barrier cr.place)
      ∧ (t.channel c ch).cancelled = if cr.last then rest else { x with credit := none } :: rest) := by
  obtain ⟨hpay, hlast⟩ := State.payCredit_sound hsound (s.crew x.crew).launch
  obtain ⟨hobj, -, -⟩ := s.creditOp_step cr
  have hexec : exec (.flumeCancelWalk c ch) s = execFlumeCancelWalk c ch s := rfl
  simp only [execFlumeCancelWalk, Nat.mod_eq_of_lt hch, hx, if_neg ht.runs, hcr, State.creditDue_of hdue, Bool.true_eq_false, if_false, hpay, hlast]
    at hexec
  refine ⟨_, hexec, hobj, ?_⟩
  rw [State.setChannel_channel_same]

theorem cancelWalk_ended {s1 : State} (hch : ch < 4) (hx : (s.channel c ch).cancelled = x :: rest) (ht : s.chainTurn c x) (hcr : x.credit = none)
    (hread : s.readRecord (s.chainEnv x.crew) x ch = (s1, none)) :
    Answer.gives (exec (.flumeCancelWalk c ch) s) (fun t => (∀ a, t.store.byte a = s1.store.byte a) ∧ (t.channel c ch).cancelled = rest) := by
  have hexec : exec (.flumeCancelWalk c ch) s = execFlumeCancelWalk c ch s := rfl
  simp only [execFlumeCancelWalk, Nat.mod_eq_of_lt hch, hx, if_neg ht.runs, hcr, hread] at hexec
  refine ⟨_, hexec, fun _ => rfl, ?_⟩
  rw [State.setChannel_channel_same]

theorem cancelWalk_walked {s1 s2 s4 : State} {r : FlumeRec} {place g2 : Nat} (hch : ch < 4) (hx : (s.channel c ch).cancelled = x :: rest)
    (ht : s.chainTurn c x) (hcr : x.credit = none) (hread : s.readRecord (s.chainEnv x.crew) x ch = (s1, some r))
    (hbar : s1.recordBarrier (s.chainEnv x.crew) x r = .ok (s2, place))
    (hwrite : (s2.setStopped x.crew ch).writeHdr (s.chainEnv x.crew) x r 7 = some (s4, g2)) :
    Answer.gives (exec (.flumeCancelWalk c ch) s) (fun t => (∀ a, t.store.byte a = s4.store.byte a)
      ∧ (t.channel c ch).cancelled = afterRecord x r place 7 g2 r.last true :: rest) := by
  have hclose := State.closeRecord_written (st := 7) hwrite 0 place true
  have hexec : exec (.flumeCancelWalk c ch) s = execFlumeCancelWalk c ch s := rfl
  simp only [execFlumeCancelWalk, Nat.mod_eq_of_lt hch, hx, if_neg ht.runs, hcr, hread, hbar, hclose, Bool.not_true, Bool.and_false, Bool.or_false,
    Nat.zero_max] at hexec
  refine ⟨_, hexec, fun _ => rfl, ?_⟩
  rw [State.setChannel_channel_same]

end

/-! ### The bytes of a contiguous record (R66, R151) -/

theorem Store.putCells_append (m : Store) (l1 l2 : List (Nat × Byte × Byte)) : m.putCells (l1 ++ l2) = (m.putCells l1).putCells l2 := by
  induction l1 generalizing m with
  | nil => rfl
  | cons c rest ih => exact ih _

/-- Whole bytes written at places that differ. -/
theorem Store.byte_putCells_nodup {m : Store} {cells : List (Nat × Byte × Byte)} (hn : (cells.map (fun c => c.1)).Nodup) {a : Nat} {v : Byte}
    (h : (a, 255, v) ∈ cells) : (m.putCells cells).byte a = v := by
  induction cells generalizing m with
  | nil => exact absurd h List.not_mem_nil
  | cons c rest ih =>
    obtain ⟨hc, hrest⟩ := List.nodup_cons.mp hn
    rcases List.mem_cons.mp h with rfl | h
    · rw [Store.putCells, Store.byte_putCells_other _ _ _ fun d hd e => hc (List.mem_map.mpr ⟨d, hd, e⟩), Store.byte_setByte, if_pos rfl,
        show (255 : Byte) = BitVec.allOnes 8 from rfl, BitVec.not_allOnes, BitVec.and_zero, BitVec.zero_or, BitVec.and_allOnes]
    · exact ih hrest h

/-- Pieces landed one after another at plain places of this device write their bytes. -/
theorem State.landPieces_bytes {s : State} {ps : List (List (Nat × Byte × Byte))}
    (h : ∀ p ∈ ps, ∀ c ∈ p, isPeer c.1 = false ∧ s.store.armed.contains (c.1 / 16) = false) :
    (ps.foldl (fun t p => t.landWrite none (pieceOf 0 p)) s).store.bytes = (s.store.putCells ps.flatten).bytes := by
  induction ps generalizing s with
  | nil => rfl
  | cons p ps ih =>
    have hp := h p (List.mem_cons_self ..)
    have hplain : s.plainCells p := fun c hc => (hp c hc).2
    have hstore : (s.landWrite none (pieceOf 0 p)).store = s.store.write p none := by
      rw [State.landWrite_plain (p := pieceOf 0 p) (fun c hc => (hp c hc).1)]
      exact (hplain.writeAtHome none none).1
    rw [List.foldl_cons, ih fun q hq c hc => ?_, List.flatten_cons, Store.putCells_append]
    · exact Store.putCells_bytes_congr (by rw [hstore, Store.write_bytes]) _
    · rw [hstore, Store.write_armed]
      exact h q (List.mem_cons_of_mem _ hq) c hc

theorem State.owePeers_store (s : State) (l : Nat) (cells : List (Nat × Byte × Byte)) : (s.owePeers l cells).store = s.store := by
  unfold State.owePeers
  split <;> rfl

/-- What an engine writes: each byte at its place, and no other (R151). -/
theorem State.engineWrite_bytes {s : State} {ks : List (Nat × Nat)} {bs : List (Byte × Bool)} (l : Nat)
    (h : ∀ k ∈ ks, isPeer k.1 = false ∧ s.store.armed.contains (k.1 / 16) = false) :
    (s.engineWrite l ks bs).1.store.bytes = (s.store.putCells ((ks.zip bs).map (fun x => (x.1.1, (255 : Byte), x.2.1)))).bytes := by
  have hcells : ∀ c ∈ (ks.zip bs).map (fun x => (x.1.1, (255 : Byte), x.2.1)), isPeer c.1 = false ∧ s.store.armed.contains (c.1 / 16) = false := by
    intro c hc
    obtain ⟨x, hx, rfl⟩ := List.mem_map.mp hc
    exact h x.1 (List.of_mem_zip hx).1
  unfold State.engineWrite
  dsimp only
  split
  · rename_i he
    rw [he]
    rfl
  · have hland := State.landPieces_bytes (s := s) (ps := splitCells ((ks.zip bs).map (fun x => (x.1.1, (255 : Byte), x.2.1)))) fun p hp c hc =>
      hcells c (by rw [← splitCells_flatten ((ks.zip bs).map _)]; exact List.mem_flatten.mpr ⟨p, hp, hc⟩)
    rw [splitCells_flatten] at hland
    rw [State.owePeers_store, ← hland]
    split
    · rfl
    · exact State.spoil_bytes ..

/-- A source that is no tensor is read at home. -/
theorem State.sourceBytes_home {s : State} {e : Env} {c : Capv} (hs : c.space ≠ 5) (off : Nat) (ks : List (Nat × Nat)) :
    (s.sourceBytes e c off ks).1.store = s.store
      ∧ (s.sourceBytes e c off ks).2 = ks.map (fun k => (s.store.byte k.1, s.store.poisoned k.1 1)) := by
  induction ks generalizing s off with
  | nil => exact ⟨rfl, rfl⟩
  | cons k ks ih =>
    obtain ⟨hstore, hbytes⟩ := ih (s := s.touchRead k.1 1) (off + 1)
    rw [State.touchRead_store] at hstore hbytes
    unfold State.sourceBytes
    simp only [if_neg hs]
    exact ⟨hstore, by rw [hbytes, State.touchRead_store]; rfl⟩

/-- Only a record whose capabilities all pass gives a job, and the job carries it. -/
theorem State.recordJob_rec {s s1 : State} {e : Env} {x : Chain} {ch : Nat} {r : FlumeRec} {j : FlumeJob} (h : s.recordJob e x ch r = .ok (s1, j)) :
    j.r = r := by
  unfold State.recordJob at h
  repeat' split at h
  all_goals cases h
  rfl

/-- A row whose sides both translate whole (R151). -/
theorem State.copyRow_whole {s s1 s2 : State} {e : Env} {j : FlumeJob} {so d : Int} {ks kd : List (Nat × Nat)} (hs : j.src.space ≠ 5)
    (hsrc : s.sidePrefix e j.src .load so j.r.len0 = (s1, ks, none)) (hdst : s1.sidePrefix e j.dst .store d j.r.len0 = (s2, kd, none))
    (hlen : ks.length = kd.length) (hn : (kd.map (fun k => k.1)).Nodup)
    (hplain : ∀ k ∈ kd, isPeer k.1 = false ∧ s2.store.armed.contains (k.1 / 16) = false) :
    (s.copyRow e j so d).2.2 = none
      ∧ (∀ p ∈ ks.zip kd, (s.copyRow e j so d).1.store.byte p.2.1 = s2.store.byte p.1.1)
      ∧ ∀ a, (∀ k ∈ kd, k.1 ≠ a) → (s.copyRow e j so d).1.store.byte a = s2.store.byte a := by
  have hend : ks.length ≤ kd.length := hlen.le
  have htake : ks.take (min ks.length kd.length) = ks ∧ kd.take (min ks.length kd.length) = kd := by
    rw [hlen, min_self, ← hlen, List.take_length, hlen, List.take_length]
    exact ⟨rfl, rfl⟩
  obtain ⟨hstore, hbytes⟩ := State.sourceBytes_home (s := s2) (e := e) hs so.toNat ks
  have hwrite := State.engineWrite_bytes (s := (s2.sourceBytes e j.src so.toNat ks).1) (bs := (s2.sourceBytes e j.src so.toNat ks).2) e.launch
    (by rw [hstore]; exact hplain)
  have hrow : s.copyRow e j so d = (((s2.sourceBytes e j.src so.toNat ks).1.engineWrite e.launch kd (s2.sourceBytes e j.src so.toNat ks).2).1,
      ((s2.sourceBytes e j.src so.toNat ks).1.engineWrite e.launch kd (s2.sourceBytes e j.src so.toNat ks).2).2, none) := by
    unfold State.copyRow
    simp only [hsrc, hdst, htake.1, htake.2, if_pos hend]
  rw [hstore, hbytes] at hwrite
  rw [hrow, hbytes]
  have hcells : ((kd.zip (ks.map (fun k => (s2.store.byte k.1, s2.store.poisoned k.1 1)))).map (fun x => (x.1.1, (255 : Byte), x.2.1)))
      = (ks.zip kd).map (fun p => (p.2.1, (255 : Byte), s2.store.byte p.1.1)) := by
    rw [List.zip_map_right, List.map_map, ← List.zip_swap, List.map_map]
    rfl
  rw [hcells] at hwrite
  refine ⟨rfl, fun p hp => ?_, fun a ha => ?_⟩
  · rw [Store.byte, hwrite, ← Store.byte]
    refine Store.byte_putCells_nodup ?_ (List.mem_map.mpr ⟨p, hp, rfl⟩)
    have hplaces : ((ks.zip kd).map Prod.snd).map (fun k => k.1) = kd.map (fun k => k.1) := by rw [List.map_snd_zip hlen.ge]
    rw [← hplaces, List.map_map] at hn
    rw [List.map_map]
    exact hn
  · rw [Store.byte, hwrite, ← Store.byte]
    refine Store.byte_putCells_other _ _ _ fun c hc => ?_
    obtain ⟨p, hp, rfl⟩ := List.mem_map.mp hc
    exact ha p.2 (List.of_mem_zip hp).2

/-- The only row of a contiguous record. -/
theorem State.flumeRow_only {s : State} {e : Env} {j : FlumeJob} (hm : j.r.mode = 0) (h1 : j.r.cnt1 = 1) (h2 : j.r.cnt2 = 1) :
    s.flumeRow e j 0 = s.copyRow e j j.r.srcOff j.r.dstOff := by
  unfold State.flumeRow
  simp [hm, h1, h2]

/-- A record of one row that is copied whole (R151). -/
theorem State.moveRecord_row {s s3 : State} {e : Env} {x : Chain} {ch : Nat} {r : FlumeRec} {j : FlumeJob}
    (hshape : r.badShape = false) (hmode : r.mode = 0) (h1 : r.cnt1 = 1) (h2 : r.cnt2 = 1) (h3 : r.cnt3 = 1) (hjob : s.recordJob e x ch r = .ok (s3, j))
    (hrow : (s3.copyRow e j r.srcOff r.dstOff).2.2 = none) :
    (s.moveRecord e x ch r).1 = (s3.copyRow e j r.srcOff r.dstOff).1 ∧ (s.moveRecord e x ch r).2.1 = 0 := by
  have hr := State.recordJob_rec hjob
  have honly : s3.flumeRow e j 0 = s3.copyRow e j r.srcOff r.dstOff := by
    rw [State.flumeRow_only (by rw [hr, hmode]) (by rw [hr, h1]) (by rw [hr, h2]), hr]
  unfold State.moveRecord
  simp only [hshape, hjob, h1, h2, h3, State.flumeRows, honly, hrow]
  exact ⟨rfl, rfl⟩

/-- Settles O27: each word and step of a channel is one change of its channel, its chain or its object, and a contiguous record lands every byte
that its source showed. -/
theorem flumes : Obligations.Flumes := by
  refine ⟨fun s w hc hspec => ⟨fun o hgate hgrants hcap hspace halign => ?_, fun o => flq_gives hc hspec, fun o hgate => flc_gives hc hspec hgate⟩,
    fun s c ch hch => ⟨fun pre h post hx hpre hh hret => flumeHeadForward_gives hch hx hpre hh hret,
      fun h rest hx hchain hcan hf hready hrun hsp => flumeChainStart_gives hch hx hchain hcan hf hready hrun hsp,
      fun x cr hx ht hcr hdue hsound => recordProcess_paid hch hx ht hcr hdue hsound,
      fun x cr hx ht hcr hdue hlost => recordProcess_lost hch hx ht hcr hdue hlost,
      fun x s1 hx ht hcr hread => recordProcess_ended hch hx ht hcr hread,
      fun x s1 r s2 place s3 st g s4 g2 hx ht hcr hread hbar hmove hwrite => recordProcess_walked hch hx ht hcr hread hbar hmove hwrite,
      fun x rest cr hx ht hcr hdue hsound => cancelWalk_paid hch hx ht hcr hdue hsound,
      fun x rest s1 hx ht hcr hread => cancelWalk_ended hch hx ht hcr hread,
      fun x rest s1 r s2 place s4 g2 hx ht hcr hread hbar hwrite => cancelWalk_walked hch hx ht hcr hread hbar hwrite⟩,
    fun s s3 s4 s5 e x ch r j ks kd hshape hmode h1 h2 h3 hjob hs hsrc hdst hlen hn hplain => ?_⟩
  · exact flk_gives hc hspec hgate hgrants (State.laneCheck_none hcap hspace halign)
  · rw [← State.recordJob_rec hjob] at hsrc hdst
    obtain ⟨hstop, hbytes, hothers⟩ := State.copyRow_whole hs hsrc hdst hlen hn hplain
    rw [State.recordJob_rec hjob] at hstop hbytes hothers
    obtain ⟨hstate, hstatus⟩ := State.moveRecord_row hshape hmode h1 h2 h3 hjob hstop
    rw [hstate]
    exact ⟨hstatus, hbytes, hothers⟩

end Sys2Proof.Machine
end

section
/-! ## O16: the ends of a segment -/

namespace Sys2Proof.Machine

open Sys2Proof

/-! ### Threads of a group changed one after another -/

/-- Each entry of a list changes the thread that it names. -/
def State.eachThread {α : Type} (s : State) (g : Nat) (key : α → Nat) (f : α → Thread → Thread) (l : List α) : State :=
  l.foldl (fun t e => t.setThread g (key e) (f e (t.thread g (key e)))) s

theorem State.threadStep_eachThread {α : Type} (s : State) (g : Nat) (key : α → Nat) (f : α → Thread → Thread) (l : List α) :
    s.threadStep (s.eachThread g key f l) g := State.threadStep_foldl (fun t _ => t.threadStep_setThread g _ _) l s

/-- A thread is changed by the entries that name it, in their order. -/
theorem State.eachThread_thread {α : Type} (s : State) (g : Nat) (key : α → Nat) (f : α → Thread → Thread) (l : List α) (x : Nat) :
    (s.eachThread g key f l).thread g x = (l.filter (fun e => key e == x)).foldl (fun v e => f e v) (s.thread g x) := by
  induction l generalizing s with
  | nil => rfl
  | cons e rest ih =>
    have hstep : s.eachThread g key f (e :: rest) = (s.setThread g (key e) (f e (s.thread g (key e)))).eachThread g key f rest := rfl
    rw [hstep, ih, State.setThread_thread]
    by_cases h : key e = x
    · subst h
      rw [if_pos ⟨rfl, rfl⟩, List.filter_cons_of_pos (by exact beq_self_eq_true _), List.foldl_cons]
    · rw [if_neg (fun k => h k.2.symm), List.filter_cons_of_neg (by simpa using h)]

/-- The lane of a thread that stands in exactly one of a wave. -/
theorem State.oneLane.filter {s : State} {w x : Nat} (h : s.oneLane w x) : ∃ l, (s.occupied w).filter (fun e => e.2 == x) = [(l, x)] := by
  obtain ⟨⟨l, y⟩, he⟩ := List.length_eq_one_iff.mp h
  have hm : (l, y) ∈ (s.occupied w).filter (fun e => e.2 == x) := by rw [he]; exact List.mem_singleton_self _
  have hy : y = x := by simpa using (List.mem_filter.mp hm).2
  exact ⟨l, by rw [he, hy]⟩

/-! ### The test of a meeting segment (R173) -/

/-- A thread as the tests of R173 may leave it: as it was, or released from the segment at which it was held, in a batch. -/
def Thread.tested (now : Nat) (t u : Thread) : Prop :=
  u = t ∨ ∃ m b, b ≠ 0 ∧ t.place = .held m ∧ u = { t with meetCur := t.meetOuter, meetOuter := 4095, place := .bucket m now b }

theorem Thread.tested.trans {now : Nat} {t u v : Thread} (h : Thread.tested now t u) (k : Thread.tested now u v) : Thread.tested now t v := by
  rcases h with rfl | ⟨m, b, hb, hm, rfl⟩
  · exact k
  · rcases k with rfl | ⟨n, c, -, hn, -⟩
    · exact .inr ⟨m, b, hb, hm, rfl⟩
    · exact absurd hn (by simp)

theorem Thread.tested_release (t : Thread) (m now b : Nat) (hb : b ≠ 0) : Thread.tested now t (t.release m now b) := by
  unfold Thread.release
  split
  · rename_i hm
    exact .inr ⟨m, b, hb, hm, rfl⟩
  · exact .inl rfl

/-- A thread that is not held stays as it is. -/
theorem Thread.tested.of_not_held {now : Nat} {t u : Thread} (h : Thread.tested now t u) (hn : ∀ m, t.place ≠ .held m) : u = t :=
  h.resolve_right fun ⟨m, _, _, hm, _⟩ => hn m hm

/-- The tests of R173 leave slices, predicates and MEETSEG. -/
theorem Thread.tested.kept {now : Nat} {t u : Thread} (h : Thread.tested now t u) :
    u.slices = t.slices ∧ u.preds = t.preds ∧ u.meetSeg = t.meetSeg := by
  rcases h with rfl | ⟨_, _, _, _, rfl⟩ <;> exact ⟨rfl, rfl, rfl⟩

/-- A group as the tests of R173 may leave it. -/
def Group.tested (now : Nat) (a b : Group) : Prop :=
  b = { a with threads := b.threads, batches := b.batches }
    ∧ ∀ x, Thread.tested now (tabGet a.threads Thread.idle x) (tabGet b.threads Thread.idle x)

theorem Group.tested.refl (now : Nat) (a : Group) : Group.tested now a a := ⟨rfl, fun _ => .inl rfl⟩

theorem Group.tested.trans {now : Nat} {a b c : Group} (h : Group.tested now a b) (k : Group.tested now b c) : Group.tested now a c :=
  ⟨by rw [k.1, h.1], fun x => (h.2 x).trans (k.2 x)⟩

theorem Group.tested_meetTest (a : Group) (m now : Nat) : Group.tested now a (a.meetTest m now) := by
  unfold Group.meetTest
  split
  · exact Group.tested.refl now a
  · refine ⟨rfl, fun x => ?_⟩
    dsimp only
    rw [tabGet, tabGet, tabFind_map a.threads (fun _ t => t.release m now (a.batches + 1))]
    cases tabFind a.threads x with
    | none => exact .inl rfl
    | some t => exact t.tested_release m now _ (Nat.succ_ne_zero _)

/-- The test of R173 changes one group, as `Group.tested` says. -/
theorem State.meetRelease_eq (s : State) (g : Nat) : ∃ b, s.meetRelease g = s.setGroup g b ∧ Group.tested (s.groupNow g) (s.group g) b :=
  ⟨_, rfl, foldl_keeps (fun b => Group.tested (s.groupNow g) (s.group g) b) _ _ _ (Group.tested.refl _ _)
    fun b m h => h.trans (b.tested_meetTest m _)⟩

/-! ### A wave that gives up its slot (R165, R167) -/

theorem State.leaveWave_eq (s : State) (w : Nat) : ∃ ms, (s.leaveWave w).1 = { s with mem := ms } ∧ ms.store = s.store := by
  unfold State.leaveWave
  dsimp only
  split
  · exact ⟨_, rfl, rfl⟩
  · exact ⟨_, rfl, rfl⟩

/-- What follows the end of threads where a task has no successor counter: the group's task may be over, or the group retired. -/
theorem State.afterDeaths_eq {s : State} {g : Nat} (h : ∀ r, (s.group g).task = some r → r.succAddr = 2 ^ 64 - 1) :
    s.afterDeaths g = s ∨ ∃ x b, s.afterDeaths g = s.setGroup g { s.group g with task := x, retired := b } := by
  unfold State.afterDeaths
  split
  · exact .inl rfl
  · split
    · unfold State.completeTask
      cases ht : (s.group g).task with
      | none => exact .inl rfl
      | some r =>
        refine .inr ⟨none, (s.group g).retired, ?_⟩
        simp only [State.decrement, h r ht, if_pos]
    · exact .inr ⟨(s.group g).task, true, rfl⟩

/-- The group after the end of threads of such a task keeps its threads and shared registers. -/
structure State.groupDone (s t : State) (g : Nat) : Prop where
  machine : t = { s with groups := t.groups }
  other : ∀ x, x ≠ g → t.group x = s.group x
  own : t.group g = { s.group g with task := (t.group g).task, retired := (t.group g).retired }

theorem State.groupDone_afterDeaths {s : State} {g : Nat} (h : ∀ r, (s.group g).task = some r → r.succAddr = 2 ^ 64 - 1) :
    s.groupDone (s.afterDeaths g) g := by
  rcases State.afterDeaths_eq h with he | ⟨x, b, he⟩ <;> rw [he]
  · exact ⟨rfl, fun _ _ => rfl, rfl⟩
  · exact ⟨rfl, fun y hy => by rw [State.setGroup_group, if_neg hy], by rw [State.setGroup_group_same]⟩

/-! ### The sorting of threads (R165, R167, R172, R173) -/

/-- A thread that leaves its wave for a successor, with what the wave leaves it (R110, R113). -/
def Thread.leaves (th : Thread) (succ now maxw : Nat) (accts : List Nat) (gate : Option Nat) : Thread :=
  { th.sendTo succ now with maxw := max th.maxw maxw, accts := accts, gate := gate }

/-- Before the deadline the threads of a wave go where their successors say. -/
theorem State.sortWave_eq {s : State} {w : Nat} (hf : (s.launch (s.waveLaunch w)).deadlineFell = false) (succs : List (Nat × Nat)) :
    s.sortWave w succs = (((((s.leaveWave w).1.eachThread (groupOf w) Prod.fst
      (fun e th => th.leaves e.2 (s.groupNow (groupOf w)) (s.maxwOf w) (s.leaveWave w).2 (s.wave w).relGate) succs).dropWave w).meetRelease
        (groupOf w)).afterDeaths (groupOf w)).bumpFree := by
  simp only [State.sortWave, Thread.redirect, hf, Bool.false_eq_true, false_and, if_false]
  rfl

/-- Where a thread stands after its wave's end and the tests of R173. -/
theorem Thread.leaves_tested {th u : Thread} {y now m : Nat} {a : List Nat} {c : Option Nat} (h : Thread.tested now (th.leaves y now m a c) u) :
    u.slices = th.slices ∧ u.preds = th.preds ∧ (y = 4095 → u.place = .dead)
      ∧ (y ≠ 4095 → u.meetSeg = y ∧ (y ≠ th.meetCur → u.place = .bucket y now 0)
        ∧ (y = th.meetCur → u.place = .held y ∨ ((∃ b, b ≠ 0 ∧ u.place = .bucket y now b) ∧ u.meetCur = th.meetOuter))) := by
  obtain ⟨hslices, hpreds, hseg⟩ := h.kept
  by_cases hy : y = 4095
  · have hl : th.leaves y now m a c = { th with place := .dead, maxw := max th.maxw m, accts := a, gate := c } := by
      simp [Thread.leaves, Thread.sendTo, hy]
    rw [hl] at h hslices hpreds
    have hu := h.of_not_held (by simp)
    exact ⟨hslices, hpreds, fun _ => by rw [hu], fun hn => absurd hy hn⟩
  by_cases hc : th.meetCur = y
  · have hl : th.leaves y now m a c = { th with place := .held y, meetSeg := y, maxw := max th.maxw m, accts := a, gate := c } := by
      simp [Thread.leaves, Thread.sendTo, hy, hc]
    rw [hl] at h hslices hpreds hseg
    refine ⟨hslices, hpreds, fun he => absurd he hy, fun _ => ⟨hseg, fun hne => absurd hc.symm hne, fun _ => ?_⟩⟩
    rcases h with rfl | ⟨n, b, hb, hn, rfl⟩
    · exact .inl rfl
    · cases hn
      exact .inr ⟨⟨b, hb, rfl⟩, rfl⟩
  · have hl : th.leaves y now m a c = { th with place := .bucket y now 0, meetSeg := y, maxw := max th.maxw m, accts := a, gate := c } := by
      simp [Thread.leaves, Thread.sendTo, hy, hc]
    rw [hl] at h hslices hpreds hseg
    have hu := h.of_not_held (by simp)
    exact ⟨hslices, hpreds, fun he => absurd he hy, fun _ => ⟨hseg, fun _ => by rw [hu], fun he => absurd he.symm hc⟩⟩

/-- A formed wave that leaves its partition changes no clock. -/
theorem State.dropWave_groupNow (s : State) (w g : Nat) : (s.dropWave w).groupNow g = s.groupNow g :=
  (s.fetched_setCluster (s.waveCluster w)
    { s.cluster (s.waveCluster w) with relQ := (s.cluster (s.waveCluster w)).relQ.filter (fun x => x != w) } rfl).crewCycles (g / 8)

/-- The sorting of a wave whose threads may end. -/
theorem State.mayEnd.sortWave {s : State} {w : Nat} (h : s.mayEnd w) (f : Nat → Nat) :
    s.sorted (s.sortWave w ((s.occupied w).map (fun e => (e.2, f e.2)))) w f := by
  obtain ⟨⟨-, -, -, -, hfell⟩, htask⟩ := h
  obtain ⟨ms, hleave, hstore⟩ := s.leaveWave_eq w
  rw [State.sortWave_eq hfell, hleave]
  set g := groupOf w
  set send := fun (e : Nat × Nat) (th : Thread) => th.leaves e.2 (s.groupNow g) (s.maxwOf w) (s.leaveWave w).2 (s.wave w).relGate
  set succs := (s.occupied w).map (fun e => (e.2, f e.2)) with hsuccs
  set s0 : State := { s with mem := ms }
  have hstep := s0.threadStep_eachThread g Prod.fst send succs
  have hthread := s0.eachThread_thread g Prod.fst send succs
  set s1 := s0.eachThread g Prod.fst send succs
  obtain ⟨b, hmeet, htested⟩ := (s1.dropWave w).meetRelease_eq g
  have hnow : (s1.dropWave w).groupNow g = s.groupNow g := by
    rw [State.dropWave_groupNow, hstep.machine]
    rfl
  rw [hnow] at htested
  have hgroup : (s1.dropWave w).group g = { s.group g with threads := (s1.group g).threads } := hstep.regs
  have hb : b = { s.group g with threads := b.threads, batches := b.batches } := by rw [htested.1, hgroup]
  have hdone : ((s1.dropWave w).meetRelease g).groupDone (((s1.dropWave w).meetRelease g).afterDeaths g) g := by
    refine State.groupDone_afterDeaths fun r hr => (htask r ?_).1
    rw [hmeet, State.setGroup_group_same, hb] at hr
    exact hr
  set t := ((s1.dropWave w).meetRelease g).afterDeaths g
  have hown : t.group g = { b with task := (t.group g).task, retired := (t.group g).retired } := by
    rw [hdone.own, hmeet, State.setGroup_group_same]
  have hmachine : t = { s1.dropWave w with groups := t.groups } := by rw [hdone.machine, hmeet]; rfl
  refine ⟨?_, fun x hx => ?_, fun a => ?_, fun r => ?_, fun r => ?_, fun x hx => ?_⟩
  · rw [hmachine, hstep.machine]
    rfl
  · exact (hdone.other x hx).trans ((by rw [hmeet, State.setGroup_group, if_neg hx]; rfl : _ = s1.group x).trans (hstep.other x hx))
  · have ht : t.bumpFree.store = s.store := by
      rw [hmachine, hstep.machine]
      exact hstore
    rw [ht]
  · rw [State.groupS, State.bumpFree_group_frame, hown, hb]
    rfl
  · rw [State.groupK, State.bumpFree_group_frame, hown, hb]
    rfl
  · obtain ⟨l, hl⟩ := hx.filter
    have hone : succs.filter (fun e => e.1 == x) = [(x, f x)] := by
      rw [hsuccs, List.filter_map]
      exact congrArg (List.map _) hl
    have hx1 : s1.thread g x = (s.thread g x).leaves (f x) (s.groupNow g) (s.maxwOf w) (s.leaveWave w).2 (s.wave w).relGate := by
      rw [hthread, hone]
      rfl
    have hx2 : Thread.tested (s.groupNow g) (s1.thread g x) (t.bumpFree.thread g x) := by
      have ht : t.bumpFree.thread g x = tabGet b.threads Thread.idle x := by
        rw [State.thread, State.bumpFree_group_frame, hown]
      rw [ht]
      exact htested.2 x
    rw [hx1] at hx2
    exact Thread.leaves_tested hx2

/-! ### NEXT, NEXTU and EXIT (R165, R170, R274) -/

/-- A word whose operands are in order and whose values break no limit of their own reaches its body (R376, R388). -/
theorem State.lanesOk.issueTested {s : State} {w : Nat} {x : LaneWord} (h : s.lanesOk w x.g x.reads x.writes) (hl : x.legal = true)
    {bad : Nat → Bool} (hbad : ∀ e ∈ s.activeLanes w x.g, bad e.2 = false) (body : List (Nat × Nat) → State) :
    s.issueTested w x bad body = body (s.activeLanes w x.g) := by
  obtain ⟨hissue, hpoison⟩ := h.issue hl
  have hill : (s.activeLanes w x.g).filter (fun e => (tabFind ([] : Tab TrapLane) e.1).isNone && bad e.2) = [] := by
    rw [List.filter_eq_nil_iff]
    intro e he
    simp [hbad e he]
  rw [State.issueTested, hissue]
  simp only [hpoison, hill, List.map_nil, tabMerge, List.foldl_nil]
  rfl

/-- At THREAD level a wave that is not speculative executes the word. -/
theorem State.mayGoOn.atThread {s : State} {w : Nat} (h : s.mayGoOn w) (body : State) : s.atThread w body = body := by
  obtain ⟨-, hlevel, hspec, -, -⟩ := h
  rw [State.atThread, hlevel, if_neg (by simp), State.unlessSpec_none hspec]

theorem State.groupMod_groupOf (s : State) (w : Nat) : s.groupMod (groupOf w) = s.waveMod w := by
  rw [State.groupMod, State.waveMod, State.waveLaunch, crewOf, groupOf, Nat.div_div_eq_div_mul]

/-- A segment end whose successors are all in range sorts the threads. -/
theorem State.mayEnd.segmentEnd {s : State} {w : Nat} (h : s.mayEnd w) (f : Nat → Nat)
    (hok : ∀ e ∈ s.occupied w, (s.waveMod w).succOk (f e.2) = true) :
    s.sorted (s.segmentEnd w ((s.occupied w).map (fun e => (e.2, f e.2)))) w f := by
  have hbad : ((s.occupied w).zip ((s.occupied w).map (fun e => (e.2, f e.2)))).filter (fun e => !(s.waveMod w).succOk e.2.2) = [] := by
    rw [List.filter_eq_nil_iff]
    intro e he
    obtain ⟨y, hy, hye⟩ := List.mem_map.mp (List.of_mem_zip he).2
    rw [← hye, hok y hy]
    simp
  have hends : ¬(s.endsTask w ((s.occupied w).map (fun e => (e.2, f e.2))) = true ∧ s.taskDone w = false) := by
    rintro ⟨hends, hdone⟩
    cases ht : (s.group (groupOf w)).task with
    | none => simp [State.endsTask, ht] at hends
    | some r => simp [(h.2 r ht).2] at hdone
  obtain ⟨-, -, -, hpend, -⟩ := h.1
  rw [State.segmentEnd, if_neg (by simp [hpend]), State.groupMod_groupOf]
  dsimp only
  rw [hbad, if_neg (by simp), if_neg hends]
  exact h.sortWave f

/-- NEXT: each thread's own successor. -/
theorem State.mayEnd.next {s : State} {w : Nat} (h : s.mayEnd w) {o : Next} (hk : s.lanesOk w { pred := 0, neg := false } [o.a] [])
    (hok : ∀ e ∈ s.occupied w, (s.waveMod w).succOk (s.opnd w e.2 o.a) = true) :
    Answer.gives (exec (.next o) s) (fun t => s.sorted t w (fun x => s.opnd w x o.a)) := by
  obtain ⟨-, -, -, hpend, -⟩ := h.1
  refine ⟨_, State.onWave_wave h.1.1 _, ?_⟩
  rw [h.1.atThread, if_neg (by simp [hpend]),
    State.lanesOk.issueTested (x := { mark := true, g := noGuard, legal := true, reads := [o.a], writes := [] }) hk rfl fun e he => ?_]
  · exact h.segmentEnd (fun x => s.opnd w x o.a) hok
  · rw [State.groupMod_groupOf, hok e (List.mem_of_mem_filter he), Bool.not_true]

/-- EXIT: every thread ends. -/
theorem State.mayEnd.exit {s : State} {w : Nat} (h : s.mayEnd w) (o : Nul) :
    Answer.gives (exec (.exit o) s) (fun t => s.sorted t w (fun _ => 4095)) := by
  refine ⟨_, State.onAgent_wave h.1.1 _ _, ?_⟩
  rw [h.1.atThread]
  exact h.segmentEnd (fun _ => 4095) fun _ _ => rfl

/-- Before the deadline NEXTU goes where its register says, and stays in its wave by R170. -/
theorem State.mayGoOn.waveNextu {s : State} {w : Nat} (h : s.mayGoOn w) {n : Nat} (hok : (s.waveMod w).succOk n = true) :
    s.waveNextu w n = if n ≠ 4095 ∧ s.agedNow (groupOf w) = [] ∧ ∀ e ∈ s.occupied w, (s.thread (groupOf w) e.2).meetCur ≠ n
      then s.continueWave w n else s.segmentEnd w ((s.occupied w).map (fun e => (e.2, n))) := by
  obtain ⟨-, -, -, hpend, hfell⟩ := h
  have htarget : s.nextuTarget w n = n := by
    unfold State.nextuTarget
    cases s.occupied w with
    | nil => rfl
    | cons e rest => simp [Thread.redirect, hfell]
  rw [State.waveNextu, if_neg (by simp [hpend]), State.groupMod_groupOf, htarget]
  refine if_congr ?_ rfl rfl
  simp [State.nextuStays, Thread.redirect, hfell, hok, and_assoc]

/-- NEXTU where the wave does not continue. -/
theorem State.mayEnd.nextu {s : State} {w : Nat} (h : s.mayEnd w) {o : S1} (hleave : s.sReg o.a = 4095
      ∨ (∃ e ∈ s.occupied w, (s.thread (groupOf w) e.2).meetCur = s.sReg o.a) ∨ s.agedNow (groupOf w) ≠ [])
    (hok : (s.waveMod w).succOk (s.sReg o.a) = true) :
    Answer.gives (exec (.nextu o) s) (fun t => s.sorted t w (fun _ => s.sReg o.a)) := by
  refine ⟨_, State.onAgent_wave h.1.1 _ _, ?_⟩
  rw [h.1.atThread, h.1.waveNextu hok, if_neg]
  · exact h.segmentEnd (fun _ => s.sReg o.a) fun _ _ => hok
  · rintro ⟨hexit, haged, hmeet⟩
    rcases hleave with he | ⟨e, he, hm⟩ | ha
    · exact hexit he
    · exact hmeet e he hm
    · exact ha haged

/-- What a wave that goes on at another segment changes (R170, R189). -/
theorem State.continueWave_eq {s : State} {w : Nat} (hf : (s.launch (s.waveLaunch w)).deadlineFell = false) (n : Nat) :
    s.continueWave w n = ((s.eachThread (groupOf w) Prod.snd (fun _ th => { th with meetSeg := n }) (s.occupied w)).setWave w { s.wave w with
      seg := n, word := 0, cc := Cc.zero, lc := [], wdBase := 0, wdSince := s.coreCycles (s.waveCore w), retry := none
      held := none, park := .run }).bumpFree := by
  have hw : (s.eachThread (groupOf w) Prod.snd (fun _ th => { th with meetSeg := n }) (s.occupied w)).wave w = s.wave w := by
    rw [(s.threadStep_eachThread (groupOf w) Prod.snd _ _).machine]
    rfl
  rw [← hw]
  simp only [State.continueWave, hf, Bool.false_eq_true, false_and, if_false]
  rfl

/-- NEXTU where the wave continues. -/
theorem State.mayGoOn.nextu {s : State} {w : Nat} (h : s.mayGoOn w) {o : S1} (hexit : s.sReg o.a ≠ 4095)
    (hok : (s.waveMod w).succOk (s.sReg o.a) = true) (haged : s.agedNow (groupOf w) = [])
    (hmeet : ∀ e ∈ s.occupied w, (s.thread (groupOf w) e.2).meetCur ≠ s.sReg o.a) :
    exec (.nextu o) s = .next (s.continueWave w (s.sReg o.a)) := by
  refine (State.onAgent_wave h.1 _ _).trans ?_
  rw [h.atThread, h.waveNextu hok, if_pos ⟨hexit, haged, hmeet⟩]

/-- MEETSEG alone changes in the threads of a wave that goes on. -/
theorem meetSeg_foldl (n : Nat) (l : List (Nat × Nat)) (th : Thread) :
    l.foldl (fun v _ => { v with meetSeg := n }) th = { th with meetSeg := if l = [] then th.meetSeg else n } := by
  induction l generalizing th with
  | nil => rfl
  | cons e rest ih =>
    rw [List.foldl_cons, ih]
    simp

theorem State.mayGoOn.continues {s : State} {w : Nat} (h : s.mayGoOn w) (n : Nat) :
    let t := s.continueWave w n
    s.sameMachine t ∧ s.sameOthers t w ∧ s.sameGroupRegs t (groupOf w)
      ∧ t.wave w = { s.wave w with seg := n, word := 0, cc := Cc.zero, lc := [], wdBase := 0
                                   wdSince := s.coreCycles (s.waveCore w), retry := none, held := none, park := .run }
      ∧ ∀ x, t.thread (groupOf w) x = { s.thread (groupOf w) x with meetSeg := (t.thread (groupOf w) x).meetSeg }
        ∧ ((∃ l, (l, x) ∈ s.occupied w) → (t.thread (groupOf w) x).meetSeg = n) := by
  have hstep := s.threadStep_eachThread (groupOf w) Prod.snd (fun _ th => { th with meetSeg := n }) (s.occupied w)
  have hthread := s.eachThread_thread (groupOf w) Prod.snd (fun _ th => { th with meetSeg := n }) (s.occupied w)
  obtain ⟨-, -, -, -, hfell⟩ := h
  rw [State.continueWave_eq hfell]
  set s1 := s.eachThread (groupOf w) Prod.snd (fun _ th => { th with meetSeg := n }) (s.occupied w)
  have hmach := hstep.machine
  refine ⟨⟨?_, fun a => ?_⟩, ⟨fun x hx => ?_, hstep.other⟩, hstep.regs, ?_, fun x => ?_⟩
  · rw [hmach]
    rfl
  · rw [State.bumpFree_store_frame, State.setWave_store_frame, hmach]
    rfl
  · rw [State.bumpFree_wave_frame, State.setWave_wave, if_neg hx, hmach]
    rfl
  · rw [State.bumpFree_wave_frame, State.setWave_wave_same]
  · have hx : ∀ v, (s1.setWave w v).bumpFree.thread (groupOf w) x
        = { s.thread (groupOf w) x with meetSeg := if (s.occupied w).filter (fun e => e.2 == x) = [] then (s.thread (groupOf w) x).meetSeg else n } :=
      fun v => (hthread x).trans (meetSeg_foldl n _ _)
    rw [hx]
    refine ⟨rfl, fun ⟨l, hl⟩ => if_neg fun he => ?_⟩
    exact List.filter_eq_nil_iff.mp he (l, x) hl (beq_self_eq_true x)

/-! ### MEET (R171, R275) -/

/-- MEET leaves slices and predicates, and the place. -/
theorem Thread.meet_foldl (m : Nat) (l : List (Nat × Nat)) (th : Thread) :
    (l.foldl (fun v _ => Thread.meet v m) th).slices = th.slices ∧ (l.foldl (fun v _ => Thread.meet v m) th).preds = th.preds := by
  refine ⟨foldl_fixed Thread.slices _ _ _ fun v _ => ?_, foldl_fixed Thread.preds _ _ _ fun v _ => ?_⟩ <;> unfold Thread.meet <;> split <;> rfl

/-- MEET with a segment that every lane may declare, or with 4095. -/
theorem execMeet_wave {s : State} {w : Nat} {o : Meet} (hc : s.cur = .wave w) (hl : (s.wave w).level = .thread) (hs : (s.wave w).spec = none)
    (hm : o.m = 4095 ∨ (o.m < (s.waveMod w).segs.length ∧ ((s.waveMod w).segOf o.m).meetSeg = true
      ∧ ∀ e ∈ s.occupied w, (s.thread (groupOf w) e.2).meetOuter = 4095)) :
    exec (.meet o) s = .next (((s.eachThread (groupOf w) Prod.snd (fun _ th => th.meet o.m) (s.occupied w)).meetRelease (groupOf w)).finish
      w o.mark) := by
  refine (State.onWave_wave hc _).trans ?_
  rw [State.atThread, hl, if_neg (by simp), State.unlessSpec_none hs]
  dsimp only
  rw [State.groupMod_groupOf]
  have hmeets : ¬(o.m ≠ 4095 ∧ (decide (o.m < (s.waveMod w).segs.length) && ((s.waveMod w).segOf o.m).meetSeg) = false) := by
    rintro ⟨hne, hf⟩
    obtain ⟨hlt, hseg, -⟩ := hm.resolve_left hne
    simp [hlt, hseg] at hf
  have hnest : (if o.m = 4095 then [] else (s.occupied w).filter (fun e => (s.thread (groupOf w) e.2).meetOuter != 4095)) = [] := by
    split
    · rfl
    · rename_i hne
      rw [List.filter_eq_nil_iff]
      intro e he
      obtain ⟨-, -, houter⟩ := hm.resolve_left hne
      simp [houter e he]
  rw [if_neg hmeets, hnest, if_neg (by simp)]
  rfl

/-- A thread's MEET registers after MEET, where the tests of R173 do not release it. -/
theorem Thread.meet_tested {th u : Thread} {m now : Nat} (h : Thread.tested now (th.meet m) u) (hn : ∀ k, th.place ≠ .held k) :
    u.meetCur = (if m = 4095 then th.meetOuter else m) ∧ u.meetOuter = (if m = 4095 then 4095 else th.meetCur) := by
  have hp : (th.meet m).place = th.place := by unfold Thread.meet; split <;> rfl
  rw [h.of_not_held fun k => by rw [hp]; exact hn k]
  unfold Thread.meet
  split <;> exact ⟨rfl, rfl⟩

theorem meet_gives {s : State} {w : Nat} {o : Meet} (hc : s.cur = .wave w) (hl : (s.wave w).level = .thread) (hs : (s.wave w).spec = none)
    (hm : o.m = 4095 ∨ (o.m < (s.waveMod w).segs.length ∧ ((s.waveMod w).segOf o.m).meetSeg = true
      ∧ ∀ e ∈ s.occupied w, (s.thread (groupOf w) e.2).meetOuter = 4095)) :
    Answer.gives (exec (.meet o) s) (fun t =>
      s.registerFrame t w 1 ∧ (t.wave w).cc = (s.wave w).cc ∧ (t.wave w).pend = (s.wave w).pend
      ∧ t.group (groupOf w) = { s.group (groupOf w) with threads := (t.group (groupOf w)).threads, batches := (t.group (groupOf w)).batches }
      ∧ ∀ x, (t.thread (groupOf w) x).slices = (s.thread (groupOf w) x).slices
        ∧ (t.thread (groupOf w) x).preds = (s.thread (groupOf w) x).preds
        ∧ (s.oneLane w x → (∀ m, (s.thread (groupOf w) x).place ≠ .held m) →
          (t.thread (groupOf w) x).meetCur = (if o.m = 4095 then (s.thread (groupOf w) x).meetOuter else o.m)
          ∧ (t.thread (groupOf w) x).meetOuter = (if o.m = 4095 then 4095 else (s.thread (groupOf w) x).meetCur))) := by
  rw [execMeet_wave hc hl hs hm]
  refine Answer.gives_next ?_
  have hstep := s.threadStep_eachThread (groupOf w) Prod.snd (fun _ th => th.meet o.m) (s.occupied w)
  have hthread := s.eachThread_thread (groupOf w) Prod.snd (fun _ th => th.meet o.m) (s.occupied w)
  set s1 := s.eachThread (groupOf w) Prod.snd (fun _ th => th.meet o.m) (s.occupied w)
  obtain ⟨b, hmeet, htested⟩ := s1.meetRelease_eq (groupOf w)
  have hb : b = { s.group (groupOf w) with threads := b.threads, batches := b.batches } := by rw [htested.1, hstep.regs]
  have hmach : s1.setGroup (groupOf w) b = { s with groups := (s1.setGroup (groupOf w) b).groups } := by
    rw [State.setGroup, hstep.machine]
  obtain ⟨⟨hm1, -⟩, ⟨hw1, -⟩, hpass, hcc, -, -⟩ := finishN_frame _ _ w 1 o.mark (LaneStep.refl (s1.setGroup (groupOf w) b) w)
  rw [hmeet, State.finish]
  set u := s1.setGroup (groupOf w) b
  have hwave : ∀ x, u.wave x = s.wave x := fun x => by rw [hmach]; rfl
  refine ⟨⟨⟨?_, fun a => ?_⟩, ⟨fun x hx => ?_, fun g hg => ?_⟩, ?_⟩, ?_, ?_, ?_, fun x => ?_⟩
  · rw [hm1, hmach]
  · rw [State.finishN_store_frame, hmach]
    rfl
  · rw [hw1 x hx, hwave]
  · rw [State.finishN_group_frame, State.setGroup_group, if_neg hg, hstep.other g hg]
  · rw [hwave] at hpass
    exact hpass
  · rw [hcc, hwave]
  · rw [State.finishN_eq, ← hwave]
    simp [State.wave]
  · rw [State.finishN_group_frame, State.setGroup_group_same]
    exact hb
  · have hx : (u.finishN w o.mark 1).thread (groupOf w) x = tabGet b.threads Thread.idle x := by
      rw [State.thread, State.finishN_group_frame, State.setGroup_group_same]
    have htest := htested.2 x
    rw [← State.thread, hthread] at htest
    obtain ⟨hslices, hpreds, -⟩ := htest.kept
    obtain ⟨kslices, kpreds⟩ := Thread.meet_foldl o.m ((s.occupied w).filter (fun e => e.2 == x)) (s.thread (groupOf w) x)
    rw [hx]
    refine ⟨hslices.trans kslices, hpreds.trans kpreds, fun hone hheld => ?_⟩
    obtain ⟨l, hl⟩ := hone.filter
    rw [hl] at htest
    exact Thread.meet_tested htest hheld

/-- Settles O16: NEXT, NEXTU and EXIT give each thread of the wave one successor, after which only the tests of R173 move it; a wave
that continues changes MEETSEG of its threads, and MEET their MEET registers. -/
theorem segmentEnds : Obligations.SegmentEnds := by
  refine ⟨fun s w h => ⟨fun o hk hok => h.next hk hok, fun o hleave hok => h.nextu hleave hok, h.exit⟩,
    fun s w o h hexit hok haged hmeet => ⟨_, h.nextu hexit hok haged hmeet, h.continues _⟩,
    fun s w o hc hl hs hm => meet_gives hc hl hs hm⟩

end Sys2Proof.Machine
end

section
/-! ## O29: task starts, releases and successor counters -/

namespace Sys2Proof.Machine

open Sys2Proof

/-! ### The best of a list -/

/-- A fold that keeps the better of two gives a member that no other member is better than. -/
theorem foldl_best {α : Type} {f : α → α → α} {le : α → α → Prop} (refl : ∀ a, le a a) (trans : ∀ a b c, le a b → le b c → le a c)
    (hf : ∀ b y, (f b y = b ∨ f b y = y) ∧ le (f b y) b ∧ le (f b y) y) (l : List α) (x : α) :
    l.foldl f x ∈ x :: l ∧ ∀ y ∈ x :: l, le (l.foldl f x) y := by
  induction l generalizing x with
  | nil => exact ⟨List.mem_singleton_self x, fun y hy => by rw [List.mem_singleton.mp hy]; exact refl x⟩
  | cons y rest ih =>
    obtain ⟨hmem, hle⟩ := ih (f x y)
    obtain ⟨hpick, hx, hy⟩ := hf x y
    rw [List.foldl_cons]
    have hfirst := hle _ (List.mem_cons_self ..)
    refine ⟨?_, fun z hz => ?_⟩
    · rcases List.mem_cons.mp hmem with he | hr
      · rw [he]
        rcases hpick with h | h <;> rw [h] <;> simp
      · exact List.mem_cons_of_mem _ (List.mem_cons_of_mem _ hr)
    · rcases List.mem_cons.mp hz with rfl | hz
      · exact trans _ _ _ hfirst hx
      · rcases List.mem_cons.mp hz with rfl | hz
        · exact trans _ _ _ hfirst hy
        · exact hle z (List.mem_cons_of_mem _ hz)

/-- A choice of the better of two. -/
theorem ite_better {α : Type} {le : α → α → Prop} (refl : ∀ a, le a a) {c : Prop} [Decidable c] {b y : α} (h : c → le y b) (h' : ¬c → le b y) :
    ((if c then y else b) = b ∨ (if c then y else b) = y) ∧ le (if c then y else b) b ∧ le (if c then y else b) y := by
  split
  · rename_i hc
    exact ⟨.inr rfl, h hc, refl y⟩
  · rename_i hc
    exact ⟨.inl rfl, refl b, h' hc⟩

/-! ### TASK_START (R181, R361) -/

/-- The record of higher priority, or the earlier one. -/
def TaskRec.prefer (x r : TaskRec) : TaskRec := if x.prio < r.prio then r else x

theorem TaskRec.prefer_spec (x r : TaskRec) : (x.prefer r = x ∨ x.prefer r = r) ∧ x.prio ≤ (x.prefer r).prio ∧ r.prio ≤ (x.prefer r).prio :=
  ite_better (le := fun a b : TaskRec => b.prio ≤ a.prio) (fun _ => le_refl _) Nat.le_of_lt Nat.le_of_not_lt

/-- The record to take so far, with another one seen. -/
def pickTask (b : Option TaskRec) (r : TaskRec) : Option TaskRec :=
  match b with
  | none => some r
  | some x => if x.prio < r.prio then some r else some x

theorem State.nextTask_eq (s : State) (core l : Nat) :
    s.nextTask core l = ((s.core core).headrace.filter (fun r => r.launch == l && s.forkReady r.fork)).foldl pickTask none := rfl

theorem foldl_pickTask (l : List TaskRec) (x : TaskRec) : l.foldl pickTask (some x) = some (l.foldl TaskRec.prefer x) := by
  induction l generalizing x with
  | nil => rfl
  | cons r rest ih =>
    have h : pickTask (some x) r = some (x.prefer r) := (apply_ite some _ _ _).symm
    rw [List.foldl_cons, List.foldl_cons, h, ih]

/-- A group takes a record of its launch that none precedes in priority. -/
theorem State.nextTask_some {s : State} {core l : Nat} (h : ∃ r ∈ (s.core core).headrace, r.launch = l ∧ s.forkReady r.fork = true) :
    ∃ r, s.nextTask core l = some r ∧ r ∈ (s.core core).headrace ∧ r.launch = l ∧ s.forkReady r.fork = true
      ∧ ∀ y ∈ (s.core core).headrace, y.launch = l → s.forkReady y.fork = true → y.prio ≤ r.prio := by
  have hmem : ∀ y, y ∈ (s.core core).headrace.filter (fun r => r.launch == l && s.forkReady r.fork)
      ↔ y ∈ (s.core core).headrace ∧ y.launch = l ∧ s.forkReady y.fork = true := fun y => by
    rw [List.mem_filter, Bool.and_eq_true, beq_iff_eq]
  rw [State.nextTask_eq]
  cases hl : (s.core core).headrace.filter (fun r => r.launch == l && s.forkReady r.fork) with
  | nil =>
    obtain ⟨r, hr⟩ := h
    have := (hmem r).mpr hr
    rw [hl] at this
    exact absurd this (by simp)
  | cons x rest =>
    rw [hl] at hmem
    obtain ⟨hin, hbest⟩ := foldl_best (le := fun a b => b.prio ≤ a.prio) (fun _ => le_refl _) (fun _ _ _ h k => k.trans h)
      TaskRec.prefer_spec rest x
    refine ⟨_, foldl_pickTask rest x, ?_⟩
    obtain ⟨hrace, hlaunch, hready⟩ := (hmem _).mp hin
    exact ⟨hrace, hlaunch, hready, fun y hy hyl hyr => hbest y ((hmem y).mpr ⟨hy, hyl, hyr⟩)⟩

/-- Values put at the first keys of a table. -/
theorem tabGet_foldl_range {α : Type} (t : Tab α) (d : α) (v : Nat → α) (n i : Nat) :
    tabGet ((List.range n).foldl (fun t i => tabPut t i (v i)) t) d i = if i < n then v i else tabGet t d i := by
  induction n with
  | zero => rfl
  | succ n ih =>
    rw [List.range_succ, List.foldl_append, List.foldl_cons, List.foldl_nil, tabGet_tabPut, ih]
    by_cases h : i = n
    · rw [if_pos h, if_pos (by omega), h]
    · rw [if_neg h]
      exact if_congr (by omega) rfl rfl

theorem Group.startTask_thread {a : Group} {x : Nat} (h : (tabFind a.threads x).isSome = true) (r : TaskRec) (now : Nat) :
    tabGet (a.startTask r now).threads Thread.idle x = (tabGet a.threads Thread.idle x).startTask r.entry now := by
  obtain ⟨th, hth⟩ := Option.isSome_iff_exists.mp h
  rw [Group.startTask, tabGet, tabFind_map a.threads (fun _ t => t.startTask r.entry now), tabGet, hth]
  rfl

theorem taskStart_gives {s : State} {g : Nat} (hidle : s.groupIdle g = true) (hrun : s.crewFrozen (g / 8) = false)
    (hrec : ∃ r ∈ (s.core (s.crew (g / 8)).core).headrace, r.launch = (s.crew (g / 8)).launch ∧ s.forkReady r.fork = true) :
    Answer.gives (exec (.taskStart g) s) (fun t => ∃ r ∈ (s.core (s.crew (g / 8)).core).headrace, r.launch = (s.crew (g / 8)).launch
      ∧ s.forkReady r.fork = true
      ∧ (∀ y ∈ (s.core (s.crew (g / 8)).core).headrace, y.launch = (s.crew (g / 8)).launch → s.forkReady y.fork = true → y.prio ≤ r.prio)
      ∧ t = { s with groups := t.groups, cores := t.cores } ∧ (∀ x, x ≠ g → t.group x = s.group x)
      ∧ (∀ c, c ≠ (s.crew (g / 8)).core → t.core c = s.core c)
      ∧ t.core (s.crew (g / 8)).core = { s.core (s.crew (g / 8)).core with
          headrace := firstDrop (s.core (s.crew (g / 8)).core).headrace (fun x => x == r) }
      ∧ t.group g = { s.group g with threads := (t.group g).threads, s := (t.group g).s, task := some r }
      ∧ (∀ i, i < 8 → t.groupS g i = BitVec.ofNat 64 (r.words.getD i 0)) ∧ (∀ i, 8 ≤ i → t.groupS g i = s.groupS g i)
      ∧ ∀ x, (tabFind (s.group g).threads x).isSome = true → t.thread g x = { s.thread g x with
          preds := [], meetSeg := r.entry, meetOuter := 4095, meetCur := 4095, place := .bucket r.entry (s.groupNow g) 0
          sent := false, maxw := 0, accts := [], gate := none }) := by
  set core := (s.crew (g / 8)).core
  obtain ⟨r, hnext, hr⟩ := State.nextTask_some hrec
  set v : CoreSt := { s.core core with headrace := firstDrop (s.core core).headrace (fun x => x == r) }
  have hexec : exec (.taskStart g) s = .next ((s.setCore core v).setGroup g ((s.group g).startTask r (s.groupNow g))) := by
    have hnow : (s.setCore core v).groupNow g = s.groupNow g := (s.fetched_setCore core v ⟨rfl, rfl, rfl⟩).crewCycles (g / 8)
    rw [← hnow]
    show execTaskStart g s = _
    unfold execTaskStart
    rw [if_neg (by simp [hidle, hrun])]
    dsimp only
    rw [hnext]
    rfl
  rw [hexec]
  obtain ⟨hrace, hlaunch, hready, hbest⟩ := hr
  have hs : ∀ i, ((s.setCore core v).setGroup g ((s.group g).startTask r (s.groupNow g))).groupS g i
      = if i < 8 then BitVec.ofNat 64 (r.words.getD i 0) else s.groupS g i := fun i => by
    rw [State.groupS, State.setGroup_group_same]
    exact tabGet_foldl_range _ _ _ _ _
  refine Answer.gives_next ⟨r, hrace, hlaunch, hready, hbest, rfl, fun x hx => ?_, fun c hc => ?_, ?_, ?_, fun i hi => ?_, fun i hi => ?_,
    fun x hx => ?_⟩
  · rw [State.setGroup_group, if_neg hx, State.setCore_group_frame]
  · rw [State.setGroup_core_frame, State.setCore_core, if_neg hc]
  · rw [State.setGroup_core_frame, State.setCore_core_same]
  · rw [State.setGroup_group_same]
    rfl
  · rw [hs, if_pos hi]
  · rw [hs, if_neg (by omega)]
  · rw [State.thread, State.setGroup_group_same, Group.startTask_thread hx]
    rfl

/-! ### Releases that waited for room (R336, R363) -/

theorem State.enqueue_frame (s : State) (core : Nat) (r : TaskRec) :
    (s.enqueue core r).1 = { s with cores := (s.enqueue core r).1.cores, clusters := (s.enqueue core r).1.clusters } := by
  unfold State.enqueue State.pushHeadrace State.pushStaging
  split
  · dsimp only
    split <;> rfl
  · split
    · dsimp only
      split <;> rfl
    · rfl

/-- A record that finds room is placed, and nothing waits. -/
theorem State.placeReleases_one {s : State} {core : Nat} {r : TaskRec} (h : (s.enqueue core r).2 ≠ 4) :
    s.placeReleases core [r] = ((s.enqueue core r).1, []) := by
  simp only [State.placeReleases, State.placeRelease, if_neg h]

/-- A fold of steps that leave the state alone. -/
theorem foldl_still {α β : Type} {f : β → α → β} {b : β} {l : List α} (h : ∀ a ∈ l, f b a = b) : l.foldl f b = b := by
  induction l with
  | nil => rfl
  | cons a rest ih => rw [List.foldl_cons, h a (List.mem_cons_self ..), ih fun x hx => h x (List.mem_cons_of_mem _ hx)]

theorem State.placeGroup_none {s : State} {g : Nat} (h : (s.group g).waitingRel = []) (core : Nat) : s.placeGroup core g = s := by
  rw [State.placeGroup, if_pos h]

/-- The one group with a release that waits places it, wherever it stands among the groups. -/
theorem State.placeGroups_one {s : State} {core g : Nat} {r : TaskRec} (hr : (s.group g).waitingRel = [r]) (hroom : (s.enqueue core r).2 ≠ 4)
    (hothers : ∀ x, x ≠ g → (s.group x).waitingRel = []) {gs : List Nat} (hg : g ∈ gs) :
    gs.foldl (fun t x => t.placeGroup core x) s = (s.enqueue core r).1.setGroup g { s.group g with waitingRel := [] } := by
  obtain ⟨pre, post, rfl, hpre⟩ := List.eq_append_cons_of_mem hg
  have hgroup : ∀ x, (s.enqueue core r).1.group x = s.group x := fun x => by rw [State.enqueue_frame]; rfl
  have hplace : s.placeGroup core g = (s.enqueue core r).1.setGroup g { s.group g with waitingRel := [] } := by
    unfold State.placeGroup
    rw [if_neg (by simp [hr]), hr, State.placeReleases_one hroom]
    dsimp only
    rw [hgroup]
  rw [List.foldl_append, foldl_still fun x hx => State.placeGroup_none (hothers x fun h => hpre (h ▸ hx)) core, List.foldl_cons, hplace]
  refine foldl_still fun x _ => State.placeGroup_none ?_ core
  rw [State.setGroup_group]
  split
  · rfl
  · rename_i hx
    rw [hgroup]
    exact hothers x hx

theorem successorReleasePlace_gives {s : State} {g : Nat} {r : TaskRec} (hr : (s.group g).waitingRel = [r])
    (hlisted : (tabFind s.groups g).isSome = true) (hlive : (s.crew (g / 8)).ended = false)
    (hothers : ∀ x, x ≠ g → (s.group x).waitingRel = []) (hwaves : ∀ x, (s.wave x).succRel = [])
    (hroom : (s.enqueue (s.crew (g / 8)).core r).2 ≠ 4) :
    exec (.successorReleasePlace (s.crew (g / 8)).core) s
      = .next ((s.enqueue (s.crew (g / 8)).core r).1.setGroup g { s.group g with waitingRel := [] }) := by
  set core := (s.crew (g / 8)).core with hcore
  show Host.Outcome.next _ = _
  have hg : g ∈ (s.groups.map (fun e => e.1)).filter (fun g => (s.crew (g / 8)).core == core && !(s.crew (g / 8)).ended) := by
    rw [List.mem_filter]
    exact ⟨(tabFind_isSome_iff _ _).mp hlisted, by simp [hcore, hlive]⟩
  rw [State.placeGroups_one hr hroom hothers hg]
  refine congrArg Host.Outcome.next (foldl_still fun w _ => ?_)
  have hw : (((s.enqueue core r).1.setGroup g { s.group g with waitingRel := [] }).wave w).succRel = [] := by
    rw [State.setGroup_wave_frame, State.enqueue_frame]
    exact hwaves w
  rw [State.placeWave, if_pos (.inl hw)]

/-! ### What the walks of a word leave (R27, R39) -/

theorem State.fetched_vaKeys (e : Env) (acc : Acc) (p : Nat) (s : State) (va n : Nat) : s.fetched (afterTranslate (s.vaKeys e acc va n p)) := by
  induction p generalizing s va n with
  | zero => exact State.fetched.refl s
  | succ p ih =>
    unfold State.vaKeys
    split
    · exact State.fetched.refl s
    · have ht := s.fetched_translate e (va % 2 ^ 48) acc
      dsimp only
      split
      · next heq =>
        rw [heq] at ht
        exact ht
      · next s1 pa cls heq =>
        rw [heq] at ht
        have hrest := ih s1 (va + min n (65536 - va % 65536)) (n - min n (65536 - va % 65536))
        split
        · next heq => rw [heq] at hrest; exact State.fetched.trans ht hrest
        · next heq => rw [heq] at hrest; exact State.fetched.trans ht hrest

theorem State.fetched_capKeys (s : State) (e : Env) (c : Capv) (acc : Acc) (off n : Nat) : s.fetched (afterTranslate (s.capKeys e c acc off n)) := by
  unfold State.capKeys
  split
  · split <;> exact State.fetched.refl s
  · exact State.fetched.refl s
  · exact State.fetched.refl s
  · exact State.fetched_vaKeys ..

theorem State.fetched_locate (e : Env) (c : Capv) (r : MemReq) (ls : List (Nat × Nat × Nat)) (s : State) : s.fetched (s.locate e c r ls).1 := by
  induction ls generalizing s with
  | nil => exact State.fetched.refl s
  | cons x rest ih =>
    obtain ⟨l, t, off⟩ := x
    have hk := s.fetched_capKeys e c r.acc off r.n
    unfold State.locate
    split
    · exact ih s
    · split
      · next heq =>
        rw [heq] at hk
        exact State.fetched.trans hk (ih _)
      · next heq =>
        rw [heq] at hk
        dsimp only
        split <;> exact State.fetched.trans hk (ih _)

/-! ### SUCC (R336, R337) -/

/-- The addition of one lane at a sound counter (R336). -/
theorem State.counterAdd_sound {s : State} {ks : List (Nat × Nat)} (hp : keysPoisoned s.store ks = false) (e : Env) (c : Capv) (d : Int)
    (hn : lowBits (sInt 64 (keysNat s.store (ks.take 8)) + d) 64 ≠ 0) :
    s.counterAdd e c ks d = (s.writeAtHome none (keyCells (ks.take 8) (lowBits (sInt 64 (keysNat s.store (ks.take 8)) + d) 64)) none, none) := by
  have hdrop : keysPoisoned s.store (ks.drop 8) = false := by
    simp only [keysPoisoned, List.any_eq_false] at hp ⊢
    exact fun k hk => hp k (List.mem_of_mem_drop hk)
  have htake : keysPoisoned s.store (ks.take 8) = false := by
    simp only [keysPoisoned, List.any_eq_false] at hp ⊢
    exact fun k hk => hp k (List.mem_of_mem_take hk)
  unfold State.counterAdd
  simp only [hdrop, htake, Bool.false_eq_true, if_false, if_neg hn]

/-- What SUCC adds at a lane's counter. -/
def succSum (v : Nat → Int) (i m : Nat) : Option Nat := some (lowBits (sInt 64 m + v i) 64)

/-- The lanes' additions at plain places, none of which makes a counter 0. -/
theorem State.succLanes_plain {s : State} {w : Nat} (hr : s.rmwReady w) {as : List LaneAcc} (hp : s.plainPlaces as) (c : Capv) (v : Nat → Int)
    (hend : (s.launch (s.waveLaunch w)).ending = false)
    (hne : ∀ p ∈ (rmwRun s.store (succSum v) (as.map LaneAcc.count)).2, succSum v p.1 p.2 ≠ some 0) (rs : List TaskRec) :
    ∃ t, s.succLanes w c v as rs = (t, rs) ∧ s.rmwStep t w
      ∧ t.store.bytes = (rmwRun s.store (succSum v) (as.map LaneAcc.count)).1.bytes := by
  induction as generalizing s with
  | nil => exact ⟨s, rfl, State.rmwStep.refl s w, rfl⟩
  | cons a rest ih =>
    obtain ⟨hpois, hplain⟩ := hp a (List.mem_cons_self ..)
    have htake : s.plainKeys (a.keys.take 8) := fun k hk => hplain k (List.mem_of_mem_take hk)
    rw [List.map_cons, rmwRun] at hne ⊢
    dsimp only [succSum, LaneAcc.count] at hne ⊢
    set n := lowBits (sInt 64 (keysNat s.store (a.keys.take 8)) + v a.thread) 64 with hn
    have hn0 : n ≠ 0 := fun h => hne _ (List.mem_cons_self ..) (by rw [← hn, h])
    set s0 := s.dropL1 (s.waveCore w) (keyCells (a.keys.take 8) 0) with hs0
    have hadd : s0.counterAdd (s0.waveEnv w) c a.keys (v a.thread) = (s0.writeAtHome none (keyCells (a.keys.take 8) n) none, none) :=
      State.counterAdd_sound (s := s0) hpois _ c _ hn0
    obtain ⟨hstore, hcrews⟩ := State.plainCells.writeAtHome (s := s0) (htake.cells n).1 none none
    set s1 := s0.writeAtHome none (keyCells (a.keys.take 8) n) none with hs1
    have hstep : s.rmwStep s1 w := (s.rmwStep_dropL1 w _ _).trans ((s0.homeStep_writeAtHome none _ none).rmwStep hcrews hr.spec)
    set s2 := s1.setWave w { s1.wave w with maxw := max (s1.wave w).maxw (gwctOf s.mem s.dt (keyCells (a.keys.take 8) 0)) } with hs2
    have hstep2 : s.rmwStep s2 w := hstep.trans (State.rmwStep_setWave _ _ _ rfl)
    have hstore2 : s2.store = rmwStore s.store (a.keys.take 8) (some n) := hstore
    have hlaunch : (s1.launch (s.waveLaunch w)).ending = false := by
      rw [hstep.machine]
      exact hend
    have hlaunch2 : (s2.launch (s2.waveLaunch w)).ending = false := by
      rw [hstep2.machine]
      exact hend
    have hnext : s2.plainPlaces rest := State.plainPlaces_mono (fun x hx => hp x (List.mem_cons_of_mem _ hx))
      (by rw [hstore2, rmwStore_armed]) (fun x hx => mem_rmwStore_poison (by rw [← hstore2]; exact hx))
    have hbytes : s2.store.bytes = (s.store.putCells (keyCells (a.keys.take 8) n)).bytes := by
      rw [hstore2]
      simp [rmwStore]
    obtain ⟨cbytes, cvals⟩ := rmwRun_congr hbytes (succSum v) (rest.map LaneAcc.count)
    obtain ⟨t, ht, kstep, kbytes⟩ := ih (hstep2.ready hr) hnext hlaunch2 fun q hq => hne q (List.mem_cons_of_mem _ (cvals ▸ hq))
    refine ⟨t, ?_, hstep2.trans kstep, kbytes.trans cbytes⟩
    rw [State.succLanes, State.flushHomes_none hr.out hr.accts]
    dsimp only
    rw [← hs0, hadd, if_neg (by simp [hlaunch])]
    exact ht

/-- SUCC of lanes that pass their checks and have nothing to wait for. -/
theorem State.reaches.succ {s s1 : State} {w : Nat} {as : List LaneAcc} {o : Succ} (hc : s.cur = .wave w) (hs : (s.wave w).spec = none)
    (hm : s1.mayStore w 2 4) (ha : as ≠ []) (hk : s.lanesOk w o.g [o.a, o.v] [])
    (hr : s.reaches w o.g { ci := o.cap, spaces := rmwSpaces, mask := permAT, acc := .store, n := 16, align := 16, host := false }
      (fun i => s.opnd w i o.a) s1 as) :
    exec (.succ o) s = .next (
      let x := s1.succLanes w (s.kUse o.cap) (fun th => sInt (4 * o.v.width) (s.opnd w th o.v 2)) as []
      if (x.1.launch (s.waveLaunch w)).ending then x.1 else x.1.finishSucc w o.mark x.2) := by
  obtain ⟨-, hgate, hrel⟩ := hm
  refine (State.onWave_wave hc _).trans ?_
  rw [State.unlessSpec_none hs]
  dsimp only
  rw [hr.memIssue (x := { mark := o.mark, g := o.g, legal := true, reads := [o.a, o.v], writes := [] }) hk rfl]
  unfold State.afterGate State.afterRelease
  simp only [hgate]
  rw [if_neg ha, if_pos (hrel.resolve_left (by omega))]

theorem State.reaches.waveLaunch {s s1 : State} {w : Nat} {g : Guard} {r : MemReq} {off : Nat → Nat} {as : List LaneAcc}
    (h : s.reaches w g r off s1 as) : s1.waveLaunch w = s.waveLaunch w := by
  have hf := State.fetched_locate (s.waveEnv w) (s.kUse r.ci) r ((s.activeLanes w g).map (fun e => (e.1, e.2, off e.2))) s
  obtain ⟨-, hlocate⟩ := h
  rw [hlocate] at hf
  rw [State.waveLaunch, hf.crews]
  rfl

/-- An enqueued record does not look at the waves. -/
theorem State.setWave_enqueue (s : State) (w : Nat) (v : Wave) (core : Nat) (r : TaskRec) :
    (s.setWave w v).enqueue core r = ((s.enqueue core r).1.setWave w v, (s.enqueue core r).2) := by
  have hrace : (s.setWave w v).pushHeadrace core r = (s.pushHeadrace core r).setWave w v := by
    unfold State.pushHeadrace
    rw [State.setWave_launch_frame]
    split <;> rfl
  have hstage : ∀ k x, (s.setWave w v).pushStaging k r.launch x = (s.pushStaging k r.launch x).setWave w v := fun k x => by
    unfold State.pushStaging
    rw [State.setWave_launch_frame]
    split <;> rfl
  unfold State.enqueue
  rw [hrace, hstage]
  show (if s.headraceRoom core = true ∧ s.spilledOn r.launch core = false then _ else if s.stagingRoom (clusterOf core) r.launch = true then _ else _) = _
  split
  · rfl
  · split <;> rfl

/-- A word that has made one release goes on once the record has found room. -/
theorem State.finishSucc_one {s : State} {w : Nat} {r : TaskRec} (h : (s.enqueue (s.waveCore w) r).2 ≠ 4) (mark : Bool) :
    s.finishSucc w mark [r] = (s.enqueue (s.waveCore w) r).1.finish w mark := by
  rw [State.finishSucc, State.placeReleases_one h]
  rfl

/-- SUCC where no counter becomes 0. -/
theorem State.reaches.succ_counts {s s1 : State} {w : Nat} {as : List LaneAcc} {o : Succ} (hc : s.cur = .wave w) (hs : (s.wave w).spec = none)
    (hfly : s1.noneInFlight w) (hp : s1.plainPlaces as) (hm : s1.mayStore w 2 4) (hend : (s1.launch (s1.waveLaunch w)).ending = false)
    (ha : as ≠ []) (hk : s.lanesOk w o.g [o.a, o.v] [])
    (hr : s.reaches w o.g { ci := o.cap, spaces := rmwSpaces, mask := permAT, acc := .store, n := 16, align := 16, host := false }
      (fun i => s.opnd w i o.a) s1 as)
    (hne : ∀ p ∈ (rmwRun s1.store (succSum fun i => sInt (4 * o.v.width) (s.opnd w i o.v 2)) (as.map LaneAcc.count)).2,
      succSum (fun i => sInt (4 * o.v.width) (s.opnd w i o.v 2)) p.1 p.2 ≠ some 0) :
    Answer.gives (exec (.succ o) s) (fun t => s1.rmwFrame t w ∧ t.groups = s1.groups ∧ (t.wave w).pend = (s1.wave w).pend
      ∧ ∀ a, t.store.byte a
        = (rmwRun s1.store (succSum fun i => sInt (4 * o.v.width) (s.opnd w i o.v 2)) (as.map LaneAcc.count)).1.byte a) := by
  obtain ⟨hspec, -, hout, haccts⟩ := hfly
  obtain ⟨t, ht, hstep, hbytes⟩ := State.succLanes_plain ⟨hspec, hout, haccts⟩ hp (s.kUse o.cap) _ hend hne []
  have hlive : (t.launch (s.waveLaunch w)).ending = false := by
    rw [hstep.machine, ← hr.waveLaunch]
    exact hend
  have hexec : exec (.succ o) s = .next (t.finish w o.mark) := by
    rw [hr.succ hc hs hm ha hk]
    dsimp only
    rw [ht, if_neg (by simp [hlive])]
    rfl
  rw [hexec]
  refine Answer.gives_next ⟨hstep.rmwFrame (LaneStep.refl _ w) o.mark rfl, ?_, ?_, fun a => ?_⟩
  · rw [State.finish_groups, hstep.machine]
  · have hpend : ((t.finish w o.mark).wave w).pend = (t.wave w).pend := by
      simp [State.finish, State.finishN, State.bumpFree, State.wave, State.setWave]
    rw [hpend, hstep.own]
  · rw [State.finish_store_frame, Store.byte, hbytes]
    rfl

/-- SUCC of one lane whose counter becomes 0: the record at SUCC enters the core's queues. -/
theorem State.reaches.succ_releases {s s1 s2 : State} {w : Nat} {a : LaneAcc} {r : TaskRec} {o : Succ} (hc : s.cur = .wave w)
    (hs : (s.wave w).spec = none) (hfly : s1.noneInFlight w) (hm : s1.mayStore w 2 4) (hk : s.lanesOk w o.g [o.a, o.v] [])
    (hr : s.reaches w o.g { ci := o.cap, spaces := rmwSpaces, mask := permAT, acc := .store, n := 16, align := 16, host := false }
      (fun i => s.opnd w i o.a) s1 [a])
    (hadd : (s1.dropL1 (s1.waveCore w) (keyCells (a.keys.take 8) 0)).counterAdd (s1.waveEnv w) (s.kUse o.cap) a.keys
      (sInt (4 * o.v.width) (s.opnd w a.thread o.v 2)) = (s2, some r))
    (hend : (s2.launch (s.waveLaunch w)).ending = false) (hroom : (s2.enqueue (s2.waveCore w) r).2 ≠ 4) :
    Answer.gives (exec (.succ o) s) (fun t => t.store.bytes = s2.store.bytes ∧ (t.wave w).word = (s2.wave w).word + 1
      ∧ t.cores = (s2.enqueue (s2.waveCore w) r).1.cores ∧ t.clusters = (s2.enqueue (s2.waveCore w) r).1.clusters) := by
  obtain ⟨-, -, hout, haccts⟩ := hfly
  set v : Wave := { s2.wave w with maxw := max (s2.wave w).maxw (gwctOf s1.mem s1.dt (keyCells (a.keys.take 8) 0)) }
  have henv : (s1.dropL1 (s1.waveCore w) (keyCells (a.keys.take 8) 0)).waveEnv w = s1.waveEnv w := rfl
  have hlanes : s1.succLanes w (s.kUse o.cap) (fun th => sInt (4 * o.v.width) (s.opnd w th o.v 2)) [a] [] = (s2.setWave w v, [r]) := by
    rw [State.succLanes, State.flushHomes_none hout haccts]
    dsimp only
    rw [henv, hadd, hr.waveLaunch, if_neg (by simp [hend])]
    rfl
  have hexec : exec (.succ o) s = .next (((s2.enqueue (s2.waveCore w) r).1.setWave w v).finish w o.mark) := by
    rw [hr.succ hc hs hm (by simp) hk]
    dsimp only
    rw [hlanes, if_neg (by simp [hend])]
    have henq := s2.setWave_enqueue w v (s2.waveCore w) r
    rw [State.finishSucc_one (s := s2.setWave w v) ((congrArg Prod.snd henq).trans_ne hroom)]
    exact congrArg (fun x => Host.Outcome.next (State.finish x.1 w o.mark)) henq
  rw [hexec]
  refine Answer.gives_next ⟨?_, ?_, rfl, rfl⟩
  · rw [State.finish_store_frame, State.setWave_store_frame, State.store, State.enqueue_frame]
    rfl
  · have hw : ∀ u : State, ((u.finish w o.mark).wave w).word = (u.wave w).word + 1 := fun u => by
      simp [State.finish, State.finishN, State.bumpFree, State.wave, State.setWave]
    rw [hw, State.setWave_wave_same]

/-- Settles O29: a task start takes the best record of the core's headrace and sets its group up; the one release that waits is placed; and
SUCC's lanes add one after another, a counter that reaches 0 giving its record to the core's queues. -/
theorem tasksAndCounters : Obligations.TasksAndCounters := by
  refine ⟨fun s g => ⟨taskStart_gives, fun r hr hlisted hlive hothers hwaves hroom => ⟨_,
      successorReleasePlace_gives hr hlisted hlive hothers hwaves hroom, ?_⟩⟩,
    fun s s1 w as o hc hs hfly hp hm hend ha hk hr => ⟨fun hne => hr.succ_counts hc hs hfly hp hm hend ha hk hne, ?_⟩⟩
  · have hframe := s.enqueue_frame (s.crew (g / 8)).core r
    refine ⟨?_, rfl, rfl, fun x hx => ?_, State.setGroup_group_same ..⟩
    · rw [State.setGroup, hframe]
    · rw [State.setGroup_group, if_neg hx, hframe]
      rfl
  · rintro a s2 r rfl hadd hlive hroom
    exact hr.succ_releases hc hs hfly hm hk hadd hlive hroom

end Sys2Proof.Machine
end

section
/-! ## O39: formation of waves and the active set

The statement quantifies over every state, also over one whose table of waves lists a key twice; there a wave may be both the one that
enters the active set and the one that leaves it, which refutes it (`not_waveSelection`). Its other clauses hold of every state, and those
of R367 hold where each wave is listed once: these are the lemmas before it. -/

namespace Sys2Proof.Machine

open Sys2Proof

/-! ### The lanes of a formed wave (R169) -/

/-- The lanes that some threads fill, the last thread of a lane last. -/
def lanesOf (ts : List Nat) (t : Tab Nat) : Tab Nat := ts.foldl (fun l x => tabPut l (x % 32) (x / 32)) t

theorem mem_lanesOf {ts : List Nat} {t : Tab Nat} {l h : Nat} (hm : (l, h) ∈ lanesOf ts t) :
    (∃ x ∈ ts, x % 32 = l ∧ x / 32 = h) ∨ (l, h) ∈ t := by
  induction ts generalizing t with
  | nil => exact .inr hm
  | cons x rest ih =>
    rcases ih hm with ⟨y, hy, hyx⟩ | ht
    · exact .inl ⟨y, List.mem_cons_of_mem _ hy, hyx⟩
    · rcases mem_tabPut _ _ _ _ ht with he | ht
      · obtain ⟨rfl, rfl⟩ := Prod.mk.inj he
        exact .inl ⟨x, List.mem_cons_self .., rfl, rfl⟩
      · exact .inr ht

theorem tabFind_mem {α : Type} {t : Tab α} {k : Nat} {v : α} (h : tabFind t k = some v) : (k, v) ∈ t := by
  induction t with
  | nil => cases h
  | cons e rest ih =>
    obtain ⟨j, u⟩ := e
    rw [tabFind] at h
    split at h
    · rename_i hj
      cases h
      rw [hj]
      exact List.mem_cons_self ..
    · exact List.mem_cons_of_mem _ (ih h)

theorem lanesOf_isSome {ts : List Nat} {t : Tab Nat} {l : Nat} (h : (∃ x ∈ ts, x % 32 = l) ∨ (tabFind t l).isSome = true) :
    (tabFind (lanesOf ts t) l).isSome = true := by
  induction ts generalizing t with
  | nil => exact h.resolve_left (by simp)
  | cons x rest ih =>
    refine ih (t := tabPut t (x % 32) (x / 32)) ?_
    by_cases hx : x % 32 = l
    · exact .inr (by rw [hx, tabFind_tabPut_same]; rfl)
    · rw [tabFind_tabPut_other _ _ _ _ (Ne.symm hx)]
      refine h.imp_left fun ⟨y, hy, hl⟩ => ⟨y, ?_, hl⟩
      exact (List.mem_cons.mp hy).resolve_left (by rintro rfl; exact hx hl)

/-- A filled lane names a thread of the list. -/
theorem tabFind_lanesOf {ts : List Nat} {l h : Nat} (hf : tabFind (lanesOf ts []) l = some h) : ∃ x ∈ ts, x % 32 = l ∧ x / 32 = h :=
  (mem_lanesOf (tabFind_mem hf)).resolve_right (List.not_mem_nil)

/-! ### The threads that a wave takes (R169, R174) -/

/-- The thread that arrived before, of two of one lane. -/
def firstOf (y e : Nat × Nat × Nat) : Nat × Nat × Nat := if arrivesBefore e y then e else y

theorem firstOf_spec (y e : Nat × Nat × Nat) : (firstOf y e = y ∨ firstOf y e = e) ∧ (firstOf y e).2.1 ≤ y.2.1 ∧ (firstOf y e).2.1 ≤ e.2.1 := by
  refine ite_better (le := fun a b : Nat × Nat × Nat => a.2.1 ≤ b.2.1) (fun _ => le_refl _) (fun h => ?_) fun h => ?_ <;>
    simp only [arrivesBefore, Bool.or_eq_true, decide_eq_true_eq, Bool.and_eq_true, beq_iff_eq] at h <;> omega

/-- The first of some threads is one of them, and none arrived earlier. -/
theorem firstArrived_spec {b : List (Nat × Nat × Nat)} {y : Nat × Nat × Nat} (h : firstArrived b = some y) :
    y ∈ b ∧ ∀ e ∈ b, y.2.1 ≤ e.2.1 := by
  cases b with
  | nil => cases h
  | cons x rest =>
    cases h
    exact foldl_best (le := fun a b => a.2.1 ≤ b.2.1) (fun _ => le_refl _) (fun _ _ _ h k => h.trans k) firstOf_spec rest x

theorem mem_batchOf {b : List (Nat × Nat × Nat)} {e : Nat × Nat × Nat} :
    e ∈ batchOf b ↔ (e ∈ b ∧ e.2.2 ≠ 0) ∧ ∀ x, x ∈ b ∧ x.2.2 ≠ 0 → e.2.2 ≤ x.2.2 := by
  simp only [batchOf, List.mem_filter, List.all_eq_true, bne_iff_ne, decide_eq_true_eq]

/-- A bucket with numbered threads has an earliest batch. -/
theorem batchOf_ne_nil {b : List (Nat × Nat × Nat)} (h : ∃ e ∈ b, e.2.2 ≠ 0) : batchOf b ≠ [] := by
  obtain ⟨x, hx, hmin⟩ := exists_minimalFor_of_wellFoundedLT (fun x => x ∈ b ∧ x.2.2 ≠ 0) (fun x => x.2.2) h
  exact List.ne_nil_of_mem (mem_batchOf.mpr ⟨hx, fun y hy => (le_total x.2.2 y.2.2).elim id (hmin hy)⟩)

/-- With no batch, each lane of the bucket gives the thread that arrived first. -/
theorem formedThreads_lanes {b : List (Nat × Nat × Nat)} (h : ∀ e ∈ b, e.2.2 = 0) :
    (∀ x ∈ formedThreads b, ∃ y ∈ b, y.1 = x ∧ ∀ e ∈ b, e.1 % 32 = x % 32 → y.2.1 ≤ e.2.1)
      ∧ ∀ e ∈ b, ∃ x ∈ formedThreads b, x % 32 = e.1 % 32 := by
  have hbatch : batchOf b = [] := List.eq_nil_iff_forall_not_mem.mpr fun e he => by
    obtain ⟨⟨heb, hne⟩, -⟩ := mem_batchOf.mp he
    exact hne (h e heb)
  have hts : formedThreads b
      = (List.range 32).filterMap (fun l => (firstArrived (b.filter (fun e => e.1 % 32 == l))).map (fun e => e.1)) := by
    rw [formedThreads, hbatch]
  rw [hts]
  refine ⟨fun x hx => ?_, fun e he => ?_⟩
  · obtain ⟨l, -, hl⟩ := List.mem_filterMap.mp hx
    obtain ⟨y, hy, rfl⟩ := Option.map_eq_some_iff.mp hl
    obtain ⟨hmem, hfirst⟩ := firstArrived_spec hy
    obtain ⟨hb, hlane⟩ := List.mem_filter.mp hmem
    refine ⟨y, hb, rfl, fun e he hel => hfirst e (List.mem_filter.mpr ⟨he, ?_⟩)⟩
    rw [hel]
    exact hlane
  · obtain ⟨y, hy⟩ : ∃ y, firstArrived (b.filter (fun x => x.1 % 32 == e.1 % 32)) = some y := by
      cases hf : b.filter (fun x => x.1 % 32 == e.1 % 32) with
      | nil => exact absurd (List.filter_eq_nil_iff.mp hf e he) (by simp)
      | cons x rest => exact ⟨_, rfl⟩
    obtain ⟨hmem, -⟩ := firstArrived_spec hy
    refine ⟨y.1, List.mem_filterMap.mpr ⟨e.1 % 32, List.mem_range.mpr (Nat.mod_lt _ (by omega)), by rw [hy]; rfl⟩, ?_⟩
    simpa using (List.mem_filter.mp hmem).2

/-- With a batch, the earliest one gives its threads of the lowest home wave. -/
theorem formedThreads_batch {b : List (Nat × Nat × Nat)} (hb : ∃ e ∈ b, e.2.2 ≠ 0) : ∃ n h, n ≠ 0 ∧ (∃ e ∈ b, e.2.2 = n ∧ e.1 / 32 = h)
    ∧ (∀ e ∈ b, e.2.2 ≠ 0 → n ≤ e.2.2) ∧ (∀ e ∈ b, e.2.2 = n → h ≤ e.1 / 32)
    ∧ ∀ x, x ∈ formedThreads b ↔ ∃ e ∈ b, e.2.2 = n ∧ e.1 / 32 = h ∧ e.1 = x := by
  cases hl : batchOf b with
  | nil => exact absurd hl (batchOf_ne_nil hb)
  | cons x rest =>
    obtain ⟨⟨hx, hx0⟩, hmin⟩ := mem_batchOf.mp (hl ▸ List.mem_cons_self .. : x ∈ batchOf b)
    have hsame : ∀ e, e ∈ x :: rest ↔ e ∈ b ∧ e.2.2 = x.2.2 := fun e => by
      rw [← hl, mem_batchOf]
      refine ⟨fun ⟨⟨he, he0⟩, hle⟩ => ⟨he, le_antisymm (hle x ⟨hx, hx0⟩) (hmin e ⟨he, he0⟩)⟩, fun ⟨he, hn⟩ => ?_⟩
      rw [hn]
      exact ⟨⟨he, hx0⟩, hmin⟩
    obtain ⟨hmem, hlow⟩ := foldl_best (f := min) (le := fun a b : Nat => a ≤ b) (fun _ => le_refl _) (fun _ _ _ h k => h.trans k)
      (fun a b => ⟨min_choice a b, min_le_left a b, min_le_right a b⟩) (rest.map (fun e => e.1 / 32)) (x.1 / 32)
    rw [← List.map_cons (f := fun e : Nat × Nat × Nat => e.1 / 32)] at hmem hlow
    set h := (rest.map (fun e => e.1 / 32)).foldl min (x.1 / 32) with hh
    obtain ⟨e, he, heh⟩ := List.mem_map.mp hmem
    obtain ⟨heb, hen⟩ := (hsame e).mp he
    have hts : formedThreads b = ((x :: rest).filter (fun e => e.1 / 32 == h)).map (fun e => e.1) := by
      rw [formedThreads, hl, hh, List.foldl_map]
    refine ⟨x.2.2, h, hx0, ⟨e, heb, hen, heh⟩, fun y hy hy0 => hmin y ⟨hy, hy0⟩,
      fun y hy hn => hlow _ (List.mem_map.mpr ⟨y, (hsame y).mpr ⟨hy, hn⟩, rfl⟩), fun y => ?_⟩
    rw [hts, List.mem_map]
    simp only [List.mem_filter, hsame, beq_iff_eq, and_assoc]

/-! ### WAVE_FORMATION and BUCKET_AGE_MAX (R168, R169, R174, R176) -/

/-- A thread that joins a formed wave. -/
def Thread.form (th : Thread) (slot seg : Nat) : Thread := { th with place := .formed slot, meetSeg := seg, accts := [], gate := none }

theorem Thread.form_foldl (slot seg : Nat) (l : List Nat) (th : Thread) :
    l.foldl (fun v _ => Thread.form v slot seg) th = if l = [] then th else th.form slot seg := by
  induction l generalizing th with
  | nil => rfl
  | cons e rest ih =>
    rw [List.foldl_cons, ih]
    split <;> rfl

/-- The threads of a list join, and no other thread changes. -/
theorem State.eachThread_form (s : State) (g slot seg : Nat) (ts : List Nat) (x : Nat) :
    (s.eachThread g id (fun _ th => th.form slot seg) ts).thread g x = if x ∈ ts then (s.thread g x).form slot seg else s.thread g x := by
  rw [State.eachThread_thread, Thread.form_foldl, ← ite_not]
  refine if_congr ?_ rfl rfl
  simp [List.filter_eq_nil_iff]

/-- The wave that a formation puts into its slot. -/
def State.formedWave (s : State) (g seg : Nat) (ts : List Nat) : Wave :=
  { Wave.empty with
    lanes := lanesOf ts [], seg := seg, born := s.free, order := s.groupNow g, lastPark := s.groupNow g, readyAt := s.groupNow g
    wdSince := s.groupNow g, maxw := ts.foldl (fun m t => max m (s.thread g t).maxw) 0
    accts := ts.foldl (fun l t => memberUnion l (s.thread g t).accts) [], know := (s.group g).hist.released
    relGate := ts.foldl (fun x t => maxGate x (s.thread g t).gate) none }

theorem State.formWave_eq (s : State) (g slot seg : Nat) (ts : List Nat) : s.formWave g slot seg ts
    = (s.eachThread g id (fun _ th => th.form slot seg) ts).setWave (8 * g + slot) (s.formedWave g seg ts) := rfl

theorem execWaveFormation_forms {s : State} {g slot seg : Nat} {rest : List Nat} (hrun : s.crewFrozen (g / 8) = false)
    (hslot : s.freeSlots g = slot :: rest) (hseg : s.formingSeg g = some seg) : exec (.waveFormation g) s
      = .next (s.formWave g slot seg (formedThreads ((s.group g).bucket seg))) := by
  show execWaveFormation g s = _
  rw [execWaveFormation, if_neg (by simp [hrun]), hslot, hseg]

/-- A wave is formed from the first bucket that qualifies, in the lowest free slot. -/
theorem waveFormation_gives {s : State} {g slot seg : Nat} {rest : List Nat} (hrun : s.crewFrozen (g / 8) = false)
    (hslot : s.freeSlots g = slot :: rest) (hseg : s.formingSeg g = some seg) :
    Answer.gives (exec (.waveFormation g) s) (fun t =>
      let b := (s.group g).bucket seg
      let v := t.wave (8 * g + slot)
      t = { s with waves := t.waves, groups := t.groups } ∧ (∀ x, x ≠ 8 * g + slot → t.wave x = s.wave x)
      ∧ (∀ x, x ≠ g → t.group x = s.group x)
      ∧ t.group g = { s.group g with threads := (t.group g).threads }
      ∧ v.seg = seg ∧ v.word = 0 ∧ v.level = .thread ∧ v.park = .run ∧ v.pend = [] ∧ v.cc = Cc.zero ∧ v.spec = none
      ∧ v.know = (s.group g).hist.released
      ∧ (∀ l h, (l, h) ∈ v.lanes → ∃ e ∈ b, e.1 = 32 * h + l ∧ (t.thread g e.1).place = .formed slot
        ∧ (t.thread g e.1).slices = (s.thread g e.1).slices ∧ (t.thread g e.1).preds = (s.thread g e.1).preds)
      ∧ (∀ x, (∀ e ∈ b, e.1 ≠ x) → t.thread g x = s.thread g x)
      ∧ ((∀ e ∈ b, e.2.2 = 0) → ∀ e ∈ b, ∃ h y, tabFind v.lanes (e.1 % 32) = some h ∧ y ∈ b ∧ y.1 = 32 * h + e.1 % 32
        ∧ y.2.1 ≤ e.2.1)
      ∧ ((∃ e ∈ b, e.2.2 ≠ 0) → ∃ n h, n ≠ 0 ∧ (∃ e ∈ b, e.2.2 = n ∧ e.1 / 32 = h) ∧ (∀ e ∈ b, e.2.2 ≠ 0 → n ≤ e.2.2)
        ∧ (∀ e ∈ b, e.2.2 = n → h ≤ e.1 / 32)
        ∧ ∀ l y, tabFind v.lanes l = some y ↔ y = h ∧ ∃ e ∈ b, e.2.2 = n ∧ e.1 / 32 = h ∧ e.1 % 32 = l)) := by
  rw [execWaveFormation_forms hrun hslot hseg, State.formWave_eq]
  set b := (s.group g).bucket seg
  set ts := formedThreads b
  have hstep := s.threadStep_eachThread g id (fun _ th => th.form slot seg) ts
  have hthread := s.eachThread_form g slot seg ts
  set s1 := s.eachThread g id (fun _ th => th.form slot seg) ts
  have hmach := hstep.machine
  have hfrom : ∀ x ∈ ts, ∃ e ∈ b, e.1 = x := fun x hx => by
    by_cases hb : ∀ e ∈ b, e.2.2 = 0
    · obtain ⟨y, hy, hyx, -⟩ := (formedThreads_lanes hb).1 x hx
      exact ⟨y, hy, hyx⟩
    · obtain ⟨n, h, -, -, -, -, hiff⟩ := formedThreads_batch (by simpa using hb)
      obtain ⟨y, hy, -, -, hyx⟩ := (hiff x).mp hx
      exact ⟨y, hy, hyx⟩
  refine Answer.gives_next ?_
  dsimp only
  rw [State.setWave_wave_same]
  refine ⟨?_, fun x hx => ?_, hstep.other, hstep.regs, rfl, rfl, rfl, rfl, rfl, rfl, rfl, rfl, fun l h hl => ?_, fun x hn => ?_,
    fun hb e he => ?_, fun hb => ?_⟩
  · rw [hmach]
    rfl
  · rw [State.setWave_wave, if_neg hx, hmach]
    rfl
  · obtain ⟨x, hx, hlane, hhome⟩ := (mem_lanesOf hl).resolve_right (List.not_mem_nil)
    obtain ⟨e, he, rfl⟩ := hfrom x hx
    refine ⟨e, he, by omega, ?_⟩
    rw [State.setWave_thread_frame', hthread, if_pos hx]
    exact ⟨rfl, rfl, rfl⟩
  · refine (hthread x).trans (if_neg fun hx => ?_)
    obtain ⟨e, he, hex⟩ := hfrom x hx
    exact hn e he hex
  · obtain ⟨hfirst, hlane⟩ := formedThreads_lanes hb
    obtain ⟨h, hh⟩ := Option.isSome_iff_exists.mp (lanesOf_isSome (t := []) (.inl (hlane e he)))
    obtain ⟨x, hx, hxl, hxh⟩ := tabFind_lanesOf hh
    obtain ⟨y, hy, hyx, hle⟩ := hfirst x hx
    exact ⟨h, y, hh, hy, by omega, hle e he hxl.symm⟩
  · obtain ⟨n, h, hn, hex, hmin, hlow, hiff⟩ := formedThreads_batch hb
    refine ⟨n, h, hn, hex, hmin, hlow, fun l y => ⟨fun hl => ?_, ?_⟩⟩
    · obtain ⟨x, hx, hxl, hxh⟩ := tabFind_lanesOf hl
      obtain ⟨e, he, hen, heh, hex⟩ := (hiff x).mp hx
      exact ⟨by omega, e, he, hen, heh, by omega⟩
    · rintro ⟨rfl, e, he, hen, heh, hel⟩
      obtain ⟨z, hz⟩ := Option.isSome_iff_exists.mp (lanesOf_isSome (t := []) (.inl ⟨e.1, (hiff _).mpr ⟨e, he, hen, heh, rfl⟩, hel⟩))
      obtain ⟨x, hx, -, hxh⟩ := tabFind_lanesOf hz
      obtain ⟨e', -, -, heh', hex'⟩ := (hiff x).mp hx
      exact hz.trans (congrArg some (by omega))

/-- Of some segments one is of largest measure. -/
theorem firstMax_spec {ms : List Nat} {f : Nat → Nat} (h : ms ≠ []) : ∃ m, firstMax ms f = some m ∧ m ∈ ms ∧ ∀ x ∈ ms, f x ≤ f m := by
  cases ms with
  | nil => exact absurd rfl h
  | cons m rest =>
    obtain ⟨hmem, hle⟩ := foldl_best (f := fun b x => if f b < f x then x else b) (le := fun a b => f b ≤ f a) (fun _ => le_refl _)
      (fun _ _ _ h k => k.trans h)
      (fun b y => ite_better (le := fun a b => f b ≤ f a) (fun _ => le_refl _) Nat.le_of_lt Nat.le_of_not_lt) rest m
    exact ⟨_, rfl, hmem, hle⟩

/-- A bucket that has aged is formed first, the oldest before the others. -/
theorem bucketAgeMax_gives {s : State} {g seg : Nat} (hseg : (s.group g).bucketSegs.contains seg = true) (hage : s.ageMax g ≤ s.bucketAge g seg) :
    Answer.gives (exec (.bucketAgeMax g seg) s) (fun t => exec (.waveFormation g) s = .next t)
      ∧ ∃ m, s.formingSeg g = some m ∧ (s.group g).bucketSegs.contains m = true ∧ s.ageMax g ≤ s.bucketAge g m
        ∧ ∀ x, (s.group g).bucketSegs.contains x = true → s.bucketAge g x ≤ s.bucketAge g m := by
  have haged : ∀ x, x ∈ s.agedNow g ↔ (s.group g).bucketSegs.contains x = true ∧ s.ageMax g ≤ s.bucketAge g x := fun x => by
    rw [State.agedNow, List.mem_filter, List.contains_iff_mem, decide_eq_true_eq]
  have hin : seg ∈ s.agedNow g := (haged seg).mpr ⟨hseg, hage⟩
  refine ⟨?_, ?_⟩
  · have hexec : exec (.bucketAgeMax g seg) s = execWaveFormation g s := if_pos (List.contains_iff_mem.mpr hin)
    rw [hexec]
    show Answer.gives (execWaveFormation g s) (fun t => execWaveFormation g s = .next t)
    unfold execWaveFormation
    split
    · exact Answer.gives_next rfl
    · split <;> exact Answer.gives_next rfl
  · obtain ⟨m, hm, hmem, hmax⟩ := firstMax_spec (f := s.bucketAge g) (List.ne_nil_of_mem hin)
    obtain ⟨hmseg, hmage⟩ := (haged m).mp hmem
    refine ⟨m, ?_, hmseg, hmage, fun x hx => ?_⟩
    · unfold State.formingSeg
      simp only [if_pos (List.ne_nil_of_mem hin), hm]
    · by_cases hxa : s.ageMax g ≤ s.bucketAge g x
      · exact hmax x ((haged x).mpr ⟨hx, hxa⟩)
      · omega

/-! ### The active set (R366, R367) -/

/-- Of some waves one is of smallest measure. -/
theorem firstMin_spec {l : List (Nat × Wave)} {f : Wave → Nat} {e : Nat × Wave} (h : firstMin l f = some e) : e ∈ l ∧ ∀ y ∈ l, f e.2 ≤ f y.2 := by
  cases l with
  | nil => cases h
  | cons x rest =>
    cases h
    exact foldl_best (f := fun b y : Nat × Wave => if f y.2 < f b.2 then y else b) (le := fun a b => f a.2 ≤ f b.2) (fun _ => le_refl _)
      (fun _ _ _ h k => h.trans k)
      (fun b y => ite_better (le := fun a b : Nat × Wave => f a.2 ≤ f b.2) (fun _ => le_refl _) Nat.le_of_lt Nat.le_of_not_lt) rest x

theorem firstMin_some {l : List (Nat × Wave)} (h : l ≠ []) (f : Wave → Nat) : ∃ e, firstMin l f = some e := by
  cases l with
  | nil => exact absurd rfl h
  | cons x rest => exact ⟨_, rfl⟩

theorem State.exchanged_none (s : State) (e : Nat) : s.exchanged (s.exchange e none) e none := by
  refine ⟨rfl, State.setWave_wave_same .., fun x hx => ?_⟩
  rw [if_neg (by simp)]
  exact (s.setWave_wave e _ x).trans (if_neg hx)

/-- One wave enters the active set and another one leaves it. -/
theorem State.exchanged_some (s : State) {e x : Nat} (h : e ≠ x) : s.exchanged (s.exchange e (some x)) e (some x) := by
  set v : Wave := { s.wave x with active := false, readyAt := s.coreCycles (s.waveCore x) }
  have hwave : ∀ y, (s.exchange e (some x)).wave y = if y = e then { (s.setWave x v).wave e with active := true } else (s.setWave x v).wave y :=
    fun y => State.setWave_wave _ _ _ _
  refine ⟨rfl, ?_, fun y hy => ?_⟩
  · rw [hwave, if_pos rfl, State.setWave_wave, if_neg h]
  · rw [hwave, if_neg hy, State.setWave_wave]
    by_cases hx : y = x
    · rw [if_pos hx, hx, if_pos rfl]
    · rw [if_neg hx, if_neg fun k => hx (Option.some.inj k).symm]

/-- Where each wave is listed once, a wave of the active set is another one than a pending wave. -/
theorem ne_of_active {s : State} (hn : (s.waves.map (fun e => e.1)).Nodup) {c q : Nat} {e x : Nat × Wave} (he : e ∈ s.partWaves c q)
    (hx : x ∈ s.partWaves c q) (hea : e.2.active = false) (hxa : x.2.active = true) : e.1 ≠ x.1 := by
  intro h
  have hex := List.inj_on_of_nodup_map hn (List.mem_of_mem_filter he) (List.mem_of_mem_filter hx) h
  rw [hex, hxa] at hea
  cases hea

/-- The oldest ready pending wave takes a free place, or that of the parked active wave that parked first. -/
theorem waveParkExchange_gives {s : State} (hn : (s.waves.map (fun e => e.1)).Nodup) {c q : Nat} {e : Nat × Wave}
    (he : s.oldestPending c q = some e) :
    let act := (s.partWaves c q).filter (fun x => x.2.active)
    (act.length < 8 → Answer.gives (exec (.waveParkExchange c q) s) (fun t => s.exchanged t e.1 none))
    ∧ (8 ≤ act.length → (∃ x ∈ act, x.2.ready = false) → Answer.gives (exec (.waveParkExchange c q) s) (fun t =>
      ∃ x ∈ act, x.2.ready = false ∧ (∀ y ∈ act, y.2.ready = false → x.2.lastPark ≤ y.2.lastPark) ∧ s.exchanged t e.1 (some x.1))) := by
  intro act
  refine ⟨fun hlt => ⟨_, ?_, s.exchanged_none e.1⟩, fun hge ⟨z, hz, hzr⟩ => ?_⟩
  · show execWaveParkExchange c q s = _
    unfold execWaveParkExchange
    rw [he]
    exact if_pos hlt
  · obtain ⟨hpend, -⟩ := firstMin_spec he
    obtain ⟨hpart, hpf⟩ := List.mem_filter.mp hpend
    have hnil : act.filter (fun x => !x.2.ready) ≠ [] := List.ne_nil_of_mem (List.mem_filter.mpr ⟨hz, by rw [hzr]; rfl⟩)
    obtain ⟨x, hx⟩ := firstMin_some hnil (fun v => v.lastPark)
    obtain ⟨hmem, hmin⟩ := firstMin_spec hx
    obtain ⟨hxa, hxr⟩ := List.mem_filter.mp hmem
    obtain ⟨hxp, hxact⟩ := List.mem_filter.mp hxa
    simp only [Bool.and_eq_true, Bool.not_eq_true'] at hpf hxr
    obtain ⟨heidle, -⟩ := hpf
    refine ⟨_, ?_, x, hxa, hxr, fun y hy hyr => hmin y (List.mem_filter.mpr ⟨hy, by rw [hyr]; rfl⟩),
      s.exchanged_some (ne_of_active hn hpart hxp heidle hxact)⟩
    show execWaveParkExchange c q s = _
    unfold execWaveParkExchange
    rw [he]
    refine (if_neg (by omega : ¬ act.length < 8)).trans ?_
    rw [hx]

/-- A pending wave that has waited 1,024 cycles takes the place of the active wave that has gone longest without parking. -/
theorem pendingWaveExchange_gives {s : State} (hn : (s.waves.map (fun e => e.1)).Nodup) (c q : Nat) :
    let late := (s.partWaves c q).filter (fun e => !e.2.active && e.2.ready && decide (e.2.waitsFrom + 1024 ≤ s.coreCycles c))
    let act := (s.partWaves c q).filter (fun x => x.2.active)
    late ≠ [] → act ≠ [] → Answer.gives (exec (.pendingWaveExchange c q) s) (fun t =>
      ∃ e ∈ late, (∀ y ∈ late, e.2.order ≤ y.2.order) ∧ ∃ x ∈ act, (∀ y ∈ act, x.2.lastPark ≤ y.2.lastPark)
        ∧ s.exchanged t e.1 (some x.1)) := by
  intro late act hlate hact
  obtain ⟨e, he⟩ := firstMin_some hlate (fun v => v.order)
  obtain ⟨x, hx⟩ := firstMin_some hact (fun v => v.lastPark)
  obtain ⟨hem, hemin⟩ := firstMin_spec he
  obtain ⟨hxm, hxmin⟩ := firstMin_spec hx
  obtain ⟨hep, hef⟩ := List.mem_filter.mp hem
  obtain ⟨hxp, hxact⟩ := List.mem_filter.mp hxm
  simp only [Bool.and_eq_true, Bool.not_eq_true'] at hef
  obtain ⟨⟨heidle, -⟩, -⟩ := hef
  refine ⟨_, ?_, e, hem, hemin, x, hxm, hxmin, s.exchanged_some (ne_of_active hn hep hxp heidle hxact)⟩
  show execPendingWaveExchange c q s = _
  unfold execPendingWaveExchange
  dsimp only
  rw [show firstMin _ (fun v => v.order) = some e from he, show firstMin _ (fun v => v.lastPark) = some x from hx]

/-! ### A wave that is listed twice -/

/-- A state whose table of waves lists key 0 twice: a ready pending wave, which a read of the key gives, and then an active one. -/
def twiceListed : State := { State.reset with dt := 1000, waves := [(0, Wave.empty), (0, { Wave.empty with active := true })] }

/-- The wave of key 0 leaves the active set and enters it in one exchange. -/
theorem twiceListed_exchange : exec (.pendingWaveExchange 0 0) twiceListed = .next (twiceListed.exchange 0 (some 0)) := by
  rfl

/-- Refutes O39: in `twiceListed` the pending wave that enters and the active wave that leaves have one key, so that the wave that entered
has the cycle at which one left, 1400, and not its own, 0. -/
theorem not_waveSelection : ¬ Obligations.WaveSelection := by
  intro h
  obtain ⟨-, -, -, hpending⟩ := h twiceListed
  obtain ⟨t, hexec, e, he, -, x, -, -, -, henter, -⟩ := hpending 0 0 (by decide) (by decide)
  have hkeys : ∀ y ∈ twiceListed.waves, y.1 = 0 := by decide
  rw [hkeys e (List.mem_of_mem_filter (List.mem_of_mem_filter he))] at henter
  rw [twiceListed_exchange] at hexec
  cases hexec
  have hcycle : ((twiceListed.exchange 0 (some 0)).wave 0).readyAt = 1400 := by decide
  rw [henter] at hcycle
  exact absurd hcycle (by decide)

end Sys2Proof.Machine
end
